-- ==== Sys2Proof/Word.lean ====
section
/-! DEFINITION. The word types of the Camzel M64 and the canonical sparse table that every register file,
memory and unit table of the model is held in. -/

namespace Sys2Proof

/-- A scalar register, a pointer, a control register (R154, R155). -/
abbrev Word := BitVec 64

/-- The addressable unit of every memory (R8). -/
abbrev Byte := BitVec 8

/-- A vector register, and a 128 B line (R5, R21): 1,024 bits, byte i at bits [8i+7:8i]. -/
abbrev Line := BitVec 1024

/-- A predicate register: one bit for each byte of a vector register (R310). -/
abbrev Pred := BitVec 128

/-- A finite table over natural keys: the entries that differ from the table's default, keys rising. -/
abbrev Table (α : Type) := List (Nat × α)

end Sys2Proof
end

