-- ==== Sys2Proof/Syntax.lean ====
section
/-! DEFINITION. Abstract syntax: the operand shapes of the Esren formats (R216, R220 to R224), the payloads of the
machine's own steps (spec/95: each step whole and indivisible), and Instr, one constructor for each row of the
opcode table. -/

namespace Sys2Proof

/-! ## Operand shapes of the instruction formats -/

/-- Format R (R216): M, G, D, A, B. -/
structure OpR where
  m : Bool
  g : BitVec 5
  d : BitVec 5
  a : BitVec 5
  b : BitVec 5
  deriving DecidableEq, Repr

/-- The FPA and FPB shape of format R: F[1:0] is the type t (R228). -/
structure OpF where
  m : Bool
  g : BitVec 5
  d : BitVec 5
  a : BitVec 5
  b : BitVec 5
  t : BitVec 2
  deriving DecidableEq, Repr

/-- fcvt (R228): F is the destination type code c, the B field the source type code b. -/
structure OpC where
  m : Bool
  g : BitVec 5
  d : BitVec 5
  a : BitVec 5
  b : BitVec 5
  c : BitVec 5
  deriving DecidableEq, Repr

/-- Format I (R216): M, G, D, A, K. -/
structure OpI where
  m : Bool
  g : BitVec 5
  d : BitVec 5
  a : BitVec 5
  k : BitVec 10
  deriving DecidableEq, Repr

/-- The SHI shape of format I: K[9:8] is the form, K[7:6] reserved, K[5:0] the amount (R227). -/
structure OpSh where
  m : Bool
  g : BitVec 5
  d : BitVec 5
  a : BitVec 5
  k : BitVec 6
  deriving DecidableEq, Repr

/-- Format M (R216, R219): W wait, O ordering class, X policy, scope and offset. -/
structure OpM where
  m : Bool
  g : BitVec 5
  d : BitVec 5
  a : BitVec 5
  w : BitVec 2
  o : BitVec 2
  x : BitVec 6
  deriving DecidableEq, Repr

/-- Format B (R216): a signed offset in words. -/
structure OpB where
  m : Bool
  g : BitVec 5
  k : BitVec 20
  deriving DecidableEq, Repr

/-- Format V (R216): PR governing predicate, T element type. -/
structure OpV where
  m : Bool
  d : BitVec 5
  a : BitVec 5
  b : BitVec 5
  p : BitVec 3
  t : BitVec 3
  deriving DecidableEq, Repr

/-- vcvt (R321): F is the destination type code c, B[3:0] the source. -/
structure OpVC where
  m : Bool
  d : BitVec 5
  a : BitVec 5
  b : BitVec 5
  p : BitVec 3
  t : BitVec 3
  c : BitVec 4
  deriving DecidableEq, Repr

/-- Format VM (R216): W wait, VL volatile, F[1:0] element size e. -/
structure OpVM where
  m : Bool
  d : BitVec 5
  a : BitVec 5
  b : BitVec 5
  p : BitVec 3
  w : BitVec 2
  v : Bool
  e : BitVec 2
  deriving DecidableEq, Repr

/-- Format A (R216): W wait, O ordering class, S scope, SZ size. -/
structure OpA where
  m : Bool
  d : BitVec 5
  a : BitVec 5
  b : BitVec 5
  w : BitVec 2
  o : BitVec 2
  s : BitVec 3
  z : Bool
  deriving DecidableEq, Repr

/-- Format T (R216): W wait, H handle register, E module register. -/
structure OpT where
  m : Bool
  w : BitVec 2
  h : BitVec 4
  a : BitVec 5
  b : BitVec 5
  e : BitVec 5
  deriving DecidableEq, Repr

/-- A scheduling-hint word (R223). -/
structure OpHsch where
  a : BitVec 5
  k : BitVec 17
  deriving DecidableEq, Repr

/-- A scheduling-hint word of KIND 4 to 7 (R223). -/
structure OpHschK where
  kind : BitVec 3
  a : BitVec 5
  k : BitVec 17
  deriving DecidableEq, Repr

/-- A rare-modifier word (R222): VG, RM, NF, POL, SAT. -/
structure OpHmod where
  g : BitVec 5
  r : BitVec 3
  n : Bool
  p : BitVec 2
  s : Bool
  deriving DecidableEq, Repr

/-- A wide-immediate word (R221). -/
structure OpHimm where
  h : BitVec 25
  deriving DecidableEq, Repr

/-- A repeat prefix (R224): N, SD, SA, SB, INC. -/
structure OpRep where
  n : BitVec 6
  d : Bool
  a : Bool
  b : Bool
  i : BitVec 2
  deriving DecidableEq, Repr

/-! ## Names shared by the machine's steps -/

/-- Privilege modes (R155, R156); code 3 is never held, so it has no constructor. -/
inductive Mode where
  | user | supervisor | monitor
  deriving DecidableEq, Repr

/-- The causes of traps and call entries (R197). -/
inductive Cause where
  | illegalInstruction | illegalOperand | privilege | translation | tile | sequence | scratchpadGuard | streamState
  | poison | matrix | gaussian | alignment | breakpoint | singleStep | systemCall | monitorCall | doubleTrap | interrupt
  deriving DecidableEq, Repr

/-- The posting counters (R126). -/
inductive PostCtr where
  | pd | px | po
  deriving DecidableEq, Repr

/-- The level, ids and home module of a piece of work (R169, R170); home is the module whose launch table holds it. -/
structure Ids where
  home : Nat
  job : Nat
  phase : Nat
  graph : Nat
  launch : Nat
  deriving DecidableEq, Repr

/-- THCAUSE and THMCAUSE (R199). -/
structure CauseRec where
  live : Bool
  disc : Bool
  inner : BitVec 6
  more : BitVec 8
  engine : BitVec 4
  task : BitVec 32
  kind : BitVec 4
  cause : BitVec 8
  deriving DecidableEq, Repr

/-- THINFO (R199). -/
structure InfoRec where
  gkind : BitVec 2
  pivot : BitVec 3
  opc : BitVec 55
  accm : BitVec 4
  deriving DecidableEq, Repr

/-- What a trap or call entry reports (R197 to R200); pc none: the PC of the instruction at which it is taken. -/
structure FaultRec where
  cause : Cause
  kind : BitVec 4
  pc : Option Word
  addr : Word
  info : InfoRec
  engine : BitVec 4
  more : BitVec 8
  task : BitVec 32
  deriving DecidableEq, Repr

/-- The first guard access of a thread and the count of later ones (R70, R71). -/
structure GuardRec where
  gkind : BitVec 2
  ptr : Word
  pc : Word
  more : BitVec 8
  deriving DecidableEq, Repr

/-- The part of a thread's context that a migration carries (R154, R163). -/
structure Ctx where
  pc : Word
  x : Table Word
  cond : BitVec 16
  mode : Mode
  pmode : Mode
  mpmode : Mode
  ie : Bool
  pie : Bool
  mpie : Bool
  imask : BitVec 4
  ipend : BitVec 4
  haz : Bool
  modfb : Bool
  arith : BitVec 8
  svec : BitVec 62
  mvec : BitVec 62
  tcmp : Word
  cause : CauseRec
  epc : Word
  addr : Word
  info : InfoRec
  mcause : CauseRec
  mepc : Word
  rpc : Word
  rx : Table Word
  rcond : BitVec 16
  xeq : BitVec 32
  ss : Bool
  pss : Bool
  mpss : Bool
  hpat : BitVec 55
  sqsel : BitVec 4
  mersel : BitVec 4
  origin : Nat
  ids : Ids
  tseq : BitVec 9
  pd : Nat
  px : Nat
  po : Nat
  deriving DecidableEq, Repr

/-- A context packet (R163): the carried context, v0 to v3 when CARRY = 1, the timer as the cycles remaining;
`near`: the core is chosen, at arrival, in the cluster of `dest` (R162). -/
structure Packet where
  ctx : Ctx
  carry : Bool
  v : Table Line
  trem : Word
  dest : Nat
  source : Nat
  prio : Nat
  fmt : Nat
  near : Bool
  corrupt : Bool
  deriving DecidableEq, Repr

/-- Page permissions kept with a line (R22). -/
structure Perms where
  r : Bool
  w : Bool
  x : Bool
  u : Bool
  deriving DecidableEq, Repr

/-- The operation of an atomic (R291), buffered or performed. -/
inductive AtomicOp where
  | add | minS | maxS | minU | maxU | and | or | xor | swap | cas | fadd
  deriving DecidableEq, Repr

/-- The key of a commutative-buffer or directory entry (R108, R109): size 0 low half, 1 high half, 2 the 8 B word. -/
structure CommKey where
  job : Nat
  word : Nat
  op : AtomicOp
  size : Nat
  deriving DecidableEq, Repr

/-! ## Payloads of the machine's steps -/

/-- One line piece of a read that travels to its home slice (R22, R90, R115); `own`: the task's speculative bytes are laid over it. -/
structure HomeReq where
  gti : Nat
  id : Nat
  off : Nat
  job : Nat
  user : Bool
  gslice : Nat
  addr : Nat
  size : Nat
  task : BitVec 32
  own : Bool
  fill : Bool
  lru : Bool
  once : Bool
  copy : Option Nat
  core : Nat
  pc : Word
  ptr : Word
  deriving DecidableEq, Repr

/-- One line piece of a store (R90, R125): the bytes of line `line` selected by mask; `off` is its place within the access. -/
structure LineWrite where
  gti : Nat
  job : Nat
  user : Bool
  gslice : Nat
  line : Nat
  mask : Pred
  data : Line
  task : BitVec 32
  ctr : PostCtr
  core : Nat
  off : Nat
  once : Bool
  pc : Word
  ptr : Word
  deriving DecidableEq, Repr

/-- A non-speculative write at a home (R92, R125): a store, or a commutative atomic sent unbuffered (R118). -/
structure HomeWrite where
  w : LineWrite
  comm : Option (CommKey × Word)
  vol : Bool
  deriving DecidableEq, Repr

/-- A contributor to a buffer entry (R108): the number of its contributions, and the PC and pointer of the first (R30). -/
structure Contrib where
  gti : Nat
  count : Nat
  pc : Word
  ptr : Word
  deriving DecidableEq, Repr

/-- A holder notice, and a flush of one buffer entry with the contributors it acknowledges (R108, R110); `user`: they ran in user mode. -/
structure CommFlush where
  gslice : Nat
  core : Nat
  key : CommKey
  user : Bool
  value : Word
  contrib : List Contrib
  ctr : PostCtr
  deriving DecidableEq, Repr

/-- A fall-back atomic that asks its home for the word (R113). -/
structure AtomicReq where
  gti : Nat
  id : Nat
  job : Nat
  user : Bool
  gslice : Nat
  addr : Nat
  size : Nat
  op : AtomicOp
  v : Word
  cmp : Word
  rm : Nat
  nf : Bool
  once : Bool
  core : Nat
  pc : Word
  ptr : Word
  deriving DecidableEq, Repr

/-- What a long-class result brings (R159): bytes of a load, whole registers, or an acknowledgement. -/
inductive ResultVal where
  | bytes (off : Nat) (bs : List Byte)
  | regs (xs : List (Nat × Word)) (vs : List (Nat × Line)) (flags : BitVec 8)
  | ack
  deriving DecidableEq, Repr

/-- A line that a result installs in the L1 data cache of its core (R77, R94). -/
structure LineFillData where
  core : Nat
  job : Nat
  line : Nat
  home : Nat
  data : Line
  perms : Perms
  lru : Bool
  deriving DecidableEq, Repr

/-- A result on its way to its thread (R159). -/
structure ResultRet where
  gti : Nat
  id : Nat
  val : ResultVal
  fill : Option LineFillData
  deriving DecidableEq, Repr

/-- A fault response on its way to its thread (R30); id some: it stands in place of that result, ctr some: it answers a
posted store counted there. -/
structure FaultResp where
  gti : Nat
  id : Option Nat
  ctr : Option PostCtr
  off : Nat
  fault : FaultRec
  deriving DecidableEq, Repr

/-- A read or posted write of another core's scratchpad (R115, R126); ipc: the instruction's own word, as a guard record names it. -/
structure RemoteRead where
  gti : Nat
  id : Nat
  off : Nat
  core : Nat
  pos : Nat
  size : Nat
  pc : Word
  ipc : Word
  ptr : Word
  deriving DecidableEq, Repr

structure RemoteWrite where
  gti : Nat
  core : Nat
  pos : Nat
  data : List (Option Byte)
  pc : Word
  ptr : Word
  vol : Bool
  count : Nat  -- what it counts in PD: the elements it stores (R126, R324)
  deriving DecidableEq, Repr

/-- One word registered to a core (R93). -/
structure WordRef where
  gslice : Nat
  core : Nat
  job : Nat
  word : Nat
  deriving DecidableEq, Repr

/-- Words of a line of a job at its home (R110). -/
structure LineRef where
  unit : Nat
  job : Nat
  line : Nat
  words : List Nat
  deriving DecidableEq, Repr

/-- Registered words of an evicted L1 line on their way to their home (R93, R94): REG and REGD words by mask, the REGD
values in data. -/
structure Dereg where
  gslice : Nat
  core : Nat
  job : Nat
  line : Nat
  words : BitVec 16
  dirty : BitVec 16
  data : Line
  deriving DecidableEq, Repr

/-- A home's line on its way back to a copy slice (R102). -/
structure CopyFill where
  gslice : Nat
  job : Nat
  line : Nat
  data : Line
  perms : Perms
  fault : Option FaultRec
  deriving DecidableEq, Repr

/-- A sharer outside L1: a copy slice or the read buffer of a host port (R97, R104). -/
inductive Sharer where
  | copy (gslice : Nat)
  | host (port : Nat)
  deriving DecidableEq, Repr

/-- An invalidation of a range homed on one slice (R99, R102); lines base .. base + 2^size - 1. -/
structure CopyInval where
  sharer : Sharer
  home : Nat
  job : Nat
  base : Nat
  size : Nat
  deriving DecidableEq, Repr

/-- A commit of one task's bytes of one line at its home (R91). -/
structure Install where
  gti : Nat
  gslice : Nat
  job : Nat
  line : Nat
  task : BitVec 32
  core : Nat
  deriving DecidableEq, Repr

/-- A tile version at its home slice (R31, R35). -/
structure TileRef where
  gslice : Nat
  job : Nat
  name : Nat
  ver : Nat
  deriving DecidableEq, Repr

/-- A create (R37, R38); task none: the sequence engine's seal. -/
structure TileCreate where
  t : TileRef
  gti : Nat
  id : Nat
  size : Nat
  count : Nat
  hbm : Bool
  data : Table Byte
  task : Option (BitVec 32)
  pc : Word
  deriving DecidableEq, Repr

/-- Who waits for, or loads, a version (R36, R341). -/
inductive TileClient where
  | thread (gti : Nat) (id : Nat)
  | matrix (core : Nat) (entry : Nat)
  deriving DecidableEq, Repr

/-- A load or consume (R39, R306); room is the scratchpad left beyond the destination. -/
structure TileLoad where
  t : TileRef
  client : TileClient
  consume : Bool
  off : Nat
  len : Nat
  room : Nat
  core : Nat
  pos : Nat
  task : BitVec 32
  pc : Word
  deriving DecidableEq, Repr

/-- A release, and an engine's pin or unpin (R41, R43). -/
structure TileRelease where
  t : TileRef
  gti : Nat
  id : Nat
  pc : Word
  deriving DecidableEq, Repr

/-- A commit or discard of one created version (R47, R48). -/
structure TileSettle where
  t : TileRef
  gti : Nat
  task : BitVec 32
  deriving DecidableEq, Repr

/-- The engines that pin versions (R43). -/
inductive Pinner where
  | matrix (core : Nat) (entry : Nat)
  | promotion (gti : Nat) (core : Nat) (ctr : Nat) (toHbm : Bool) (pc : Word) (task : BitVec 32) (stopped : Bool)
  deriving DecidableEq, Repr

structure TilePin where
  t : TileRef
  pinner : Pinner
  deriving DecidableEq, Repr

structure WaiterRef where
  t : TileRef
  client : TileClient
  deriving DecidableEq, Repr

/-- A promotion or demotion in flight (R59). -/
structure Promotion where
  t : TileRef
  gti : Nat
  core : Nat
  ctr : Nat
  toHbm : Bool
  pc : Word
  task : BitVec 32
  stopped : Bool
  deriving DecidableEq, Repr

/-- A standing subscription (R57). -/
structure SubReq where
  t : TileRef
  gti : Nat
  id : Nat
  vlast : Nat
  core : Nat
  ctr : Nat
  deriving DecidableEq, Repr

/-- An arrival notice (R58); ctr none: a one-shot notice to the filter of the target die. -/
structure Notice where
  job : Nat
  name : Nat
  ver : Nat
  size : Nat
  gslice : Nat
  core : Nat
  ctr : Option Nat
  deriving DecidableEq, Repr

/-- The resources of pressure reports (R52, R431). -/
inductive Resource where
  | entries | records | sram | hbm
  deriving DecidableEq, Repr

structure Pressure where
  gslice : Nat
  res : Resource
  deriving DecidableEq, Repr

/-- A thread's stream register (R72). -/
structure StreamRef where
  gti : Nat
  s : Nat
  deriving DecidableEq, Repr

/-- A Heliostat transfer with its next source row (R75, R76, R302). -/
structure Helio where
  gti : Nat
  job : Nat
  user : Bool
  task : BitVec 32
  core : Nat
  src : Word
  spitch : Nat
  rowbytes : Nat
  rows : Nat
  dbase : Nat
  hpat : BitVec 55
  ctr : Nat
  row : Nat
  col : Nat
  bound : Bool
  fault : Option FaultRec
  pc : Word
  deriving DecidableEq, Repr

/-- A message or queue-port write (R296, R297). -/
structure Msg where
  gti : Nat
  job : Nat
  core : Nat
  ctr : Nat
  pos : Nat
  payload : Word
  post : PostCtr
  pc : Word
  task : BitVec 32
  deriving DecidableEq, Repr

/-- A mailbox send (R375): bytes 0x000 to 0x16F of the slot. -/
structure MailSend where
  gti : Nat
  job : Nat
  core : Nat
  ctr : Nat
  pos : Nat
  data : Table Byte
  post : PostCtr
  pc : Word
  task : BitVec 32
  deriving DecidableEq, Repr

/-- An invalidation of translations (R27). -/
structure TrInv where
  module : Nat
  start : Nat
  pages : Nat
  data : Bool
  job : Nat
  deriving DecidableEq, Repr

structure ModRef where
  module : Nat
  deriving DecidableEq, Repr

structure JobRef where
  module : Nat
  job : Nat
  deriving DecidableEq, Repr

structure SliceRef where
  gslice : Nat
  deriving DecidableEq, Repr

structure CoreRef where
  core : Nat
  deriving DecidableEq, Repr

structure SlotRef where
  core : Nat
  slot : Nat
  deriving DecidableEq, Repr

structure ThreadRef where
  gti : Nat
  deriving DecidableEq, Repr

structure LinkRef where
  module : Nat
  link : Nat
  deriving DecidableEq, Repr

structure QueueRef where
  module : Nat
  queue : Nat
  deriving DecidableEq, Repr

/-- A collective descriptor accepted from a thread (R413). -/
structure Coll where
  gti : Nat
  core : Nat
  module : Nat
  job : Nat
  user : Bool
  task : BitVec 32
  desc : Word
  src : Word
  dst : Word
  mask : BitVec 64
  bytes : Nat
  tag : Nat
  kind : Nat
  op : Nat
  type : Nat
  ctr : Nat
  root : Nat
  func : Nat
  pc : Word
  deriving DecidableEq, Repr

/-- A member's completion (R415, R416): the STATUS code, flags and bytes written. -/
structure CollDone where
  c : Coll
  code : Nat
  flags : Nat
  written : Nat
  fault : Option FaultRec
  deriving DecidableEq, Repr

/-- The operation that a cancel notice or a timeout concerns (R417). -/
structure CollRef where
  module : Nat
  job : Nat
  tag : Nat
  deriving DecidableEq, Repr

/-- An image (R420): its header (the security version, the address in words at which it is entered, and the physical address of its body), its
body, the SHA-384 digest of the public key that it names, and its signature. (DESIGN CHOICE, log 14) -/
structure Image where
  version : BitVec 32
  entry : BitVec 62
  base : BitVec 64
  body : List Byte
  key : BitVec 384
  sig : BitVec 768
  deriving DecidableEq, Repr

/-- What steps 1 to 4 of bring-up find (R419): the firmware image, the die edges (die of the module, edge) that fail to train, whether the
HBM4 stacks and whether the host ports train. -/
structure Found where
  firmware : Image
  badEdges : List (Nat × Nat)
  stacksOk : Bool
  pcie : Bool
  deriving DecidableEq, Repr

/-- Bring-up (R419): its beginning, with what the first steps find, or its step 5, once a monitor image has been named. -/
structure BringUp where
  module : Nat
  found : Option Found
  deriving DecidableEq, Repr

/-- A management-mailbox command (R422): version and operands. -/
structure MboxCmd where
  module : Nat
  ver : BitVec 8
  arg : BitVec 768
  deriving DecidableEq, Repr

structure MonitorCmd where
  module : Nat
  ver : BitVec 8
  image : Image
  deriving DecidableEq, Repr

/-- A host write of a queue doorbell (R401): the value written to QDB. -/
structure Doorbell where
  module : Nat
  queue : Nat
  value : Word
  deriving DecidableEq, Repr

/-- A wake (R180). -/
structure Dandelion where
  ids : Ids
  pc : Word
  shape : Word
  arg : Word
  first : Nat
  count : Nat
  mode : Mode
  prio : Nat
  deriving DecidableEq, Repr

structure WakeAt where
  core : Nat
  wake : Dandelion
  deriving DecidableEq, Repr

/-- A cancel of a level (R170): 0 launch, 1 graph, 2 phase, 3 job. -/
structure CancelKey where
  level : Nat
  ids : Ids
  deriving DecidableEq, Repr

structure CancelAt where
  core : Nat
  key : CancelKey
  deriving DecidableEq, Repr

/-- The body of a multicast (R411). -/
inductive CastBody where
  | wake (w : Dandelion)
  | cancel (k : CancelKey)
  deriving DecidableEq, Repr

structure Multicast where
  module : Nat
  mask : BitVec 64
  body : CastBody
  deriving DecidableEq, Repr

structure Rerank where
  module : Nat
  ids : Ids
  rank : Nat
  deriving DecidableEq, Repr

/-- A core's report of its share (R181). -/
structure ShareReport where
  ids : Ids
  core : Nat
  status : Nat  -- 0 done, 1 cancelled, 2 rejected
  deriving DecidableEq, Repr

/-- A host access by a function of a port to a BAR (R399, R400): `data` is empty for a read. -/
structure HostAccess where
  module : Nat
  port : Nat
  func : Nat
  bar : Nat
  off : Nat
  size : Nat
  data : List Byte
  deriving DecidableEq, Repr

/-- A work-list entry (R190). -/
structure WorkEntry where
  pc : Word
  arg : Word
  tag : BitVec 16
  ids : Ids
  mode : Mode
  prio : Nat
  deriving DecidableEq, Repr

structure Shipment where
  source : Nat
  target : Nat
  entries : List WorkEntry
  deriving DecidableEq, Repr

structure MerRef where
  module : Nat
  ch : Nat
  deriving DecidableEq, Repr

/-- An isend request (R281). -/
structure SoftIrq where
  gti : Nat
  id : Nat
  d : Nat
  core : Nat
  slot : Nat
  job : Nat
  deriving DecidableEq, Repr

/-- An interrupt about to be taken (R160): 0 SOFT, 1 TIMER, 2 HOST, 3 EVENT. -/
structure IrqRef where
  gti : Nat
  bit : BitVec 4
  deriving DecidableEq, Repr

/-- A trap or call entry about to be taken by a thread. -/
structure TrapReq where
  gti : Nat
  fault : FaultRec
  deriving DecidableEq, Repr

/-- A save frame whose slice stall has run out (R206). -/
structure FrameRef where
  core : Nat
  frame : Nat
  deriving DecidableEq, Repr

/-- A Nolkai flit at the far end of a link: the module and link that sent it, its sequence number, whether its CRC holds, and
whether its channel still has room at the receiver, which otherwise sends XOFF (R408). With `xon`, the far end lets the channels
of that link flow again. -/
structure FlitIn where
  module : Nat
  link : Nat
  seq : Nat
  crc : Bool
  room : Bool
  xon : Bool
  deriving DecidableEq, Repr

structure Nak where
  module : Nat
  link : Nat
  seq : Nat
  deriving DecidableEq, Repr

/-- What the far end of a link offers at training (R407): the partner module, and the number of the link there. -/
structure Training where
  module : Nat
  link : Nat
  partner : Nat
  peer : Nat
  v1 : Bool
  v2 : Bool
  notice1 : Bool
  deriving DecidableEq, Repr

/-- A die-link flit at an edge (R406): the place on the agenda of the message that it carries, and whether its check holds. -/
structure DieFlit where
  gdie : Nat
  edge : Nat
  n : Nat
  good : Bool
  deriving DecidableEq, Repr

structure DieRef where
  gdie : Nat
  deriving DecidableEq, Repr

/-- Package power passing or leaving the cap (R425). -/
structure PowerEvent where
  module : Nat
  watts : Nat
  deriving DecidableEq, Repr

/-- An error report on its way to the package event arbiter (R427, R431). -/
structure Report where
  module : Nat
  kind : Nat
  job : Option Nat
  die : Nat
  cls : Nat
  index : Nat
  addr : Word
  detail : BitVec 79
  deriving DecidableEq, Repr

/-- A word whose encoding is refused (R233, R234). -/
structure BadWord where
  w : BitVec 32
  deriving DecidableEq, Repr

/-- A frame waiting at its sequence's home (R149). -/
structure FrameReq where
  gti : Nat
  id : Nat
  gslice : Nat
  job : Nat
  user : Bool
  desc : Nat
  f : Nat
  cookie : Word
  pc : Word
  ptr : Word
  who : Nat
  deriving DecidableEq, Repr

/-- One constructor for each row of the opcode table. Rows with an encoding carry their operand shape; the rows without one
are the machine's own steps (spec/95), with the payload that names where and on what the step acts. -/
inductive Instr where
  | add (o : OpR)  -- R264
  | sub (o : OpR)  -- R264
  | mul (o : OpR)  -- R264
  | mulhS64 (o : OpR)  -- R264
  | mulhN64 (o : OpR)  -- R264
  | divS64 (o : OpR)  -- R265
  | divN64 (o : OpR)  -- R265
  | remS64 (o : OpR)  -- R265
  | remN64 (o : OpR)  -- R265
  | and (o : OpR)  -- R264
  | or (o : OpR)  -- R264
  | xor (o : OpR)  -- R264
  | andn (o : OpR)  -- R264
  | orn (o : OpR)  -- R264
  | xnor (o : OpR)  -- R264
  | sll (o : OpR)  -- R264
  | srl (o : OpR)  -- R264
  | sra (o : OpR)  -- R264
  | rol (o : OpR)  -- R264
  | ror (o : OpR)  -- R264
  | minS64 (o : OpR)  -- R264
  | maxS64 (o : OpR)  -- R264
  | minN64 (o : OpR)  -- R264
  | maxN64 (o : OpR)  -- R264
  | clz (o : OpR)  -- R264
  | ctz (o : OpR)  -- R264
  | popc (o : OpR)  -- R264
  | brev (o : OpR)  -- R264
  | bswap (o : OpR)  -- R264
  | sext (o : OpR)  -- R264
  | abs (o : OpR)  -- R264
  | addi (o : OpI)  -- R267
  | andi (o : OpI)  -- R267
  | ori (o : OpI)  -- R267
  | xori (o : OpI)  -- R267
  | slli (o : OpSh)  -- R267
  | srli (o : OpSh)  -- R267
  | srai (o : OpSh)  -- R267
  | rori (o : OpSh)  -- R267
  | lea (o : OpI)  -- R267
  | bfxN64 (o : OpR)  -- R268
  | bfxS64 (o : OpR)  -- R268
  | bfi (o : OpR)  -- R268
  | cmpEq (o : OpR)  -- R269
  | cmpNe (o : OpR)  -- R269
  | cmpLtS64 (o : OpR)  -- R269
  | cmpGeS64 (o : OpR)  -- R269
  | cmpLtN64 (o : OpR)  -- R269
  | cmpGeN64 (o : OpR)  -- R269
  | cmpTst (o : OpR)  -- R269
  | cmpTstz (o : OpR)  -- R269
  | cand (o : OpR)  -- R269
  | cor (o : OpR)  -- R269
  | cxor (o : OpR)  -- R269
  | candn (o : OpR)  -- R269
  | mfcw (o : OpR)  -- R269
  | mtcw (o : OpR)  -- R269
  | fadd (o : OpF)  -- R270
  | fsub (o : OpF)  -- R270
  | fmul (o : OpF)  -- R270
  | fdiv (o : OpF)  -- R270
  | fsqrt (o : OpF)  -- R270
  | fmin (o : OpF)  -- R270
  | fmax (o : OpF)  -- R270
  | fmac (o : OpF)  -- R270
  | fcmpEq (o : OpF)  -- R270
  | fcmpLt (o : OpF)  -- R270
  | fcmpLe (o : OpF)  -- R270
  | fcmpUn (o : OpF)  -- R270
  | fclass (o : OpF)  -- R270
  | fsgn (o : OpF)  -- R270
  | fneg (o : OpF)  -- R270
  | fabs (o : OpF)  -- R270
  | fcvt (o : OpC)  -- R271
  | br (o : OpB)  -- R272
  | call (o : OpB)  -- R272
  | jmpr (o : OpI)  -- R272
  | loop (o : OpI)  -- R273
  | migrA (o : OpR)  -- R276
  | migrH (o : OpR)  -- R276
  | migrC (o : OpR)  -- R276
  | tcom (o : OpR)  -- R277
  | tret (o : OpR)  -- R279
  | tretRs (o : OpR)  -- R279
  | tretDp (o : OpR)  -- R213
  | sysc (o : OpR)  -- R284
  | monc (o : OpR)  -- R284
  | brk (o : OpR)  -- R284
  | mfcr (o : OpI)  -- R278
  | mtcr (o : OpI)  -- R278
  | feat (o : OpR)  -- R285
  | icinv (o : OpR)  -- R283
  | isend (o : OpR)  -- R281
  | cancel (o : OpR)  -- R282
  | ien (o : OpR)  -- R280
  | idis (o : OpR)  -- R280
  | rdcyc (o : OpR)  -- R286
  | ldN8 (o : OpM)  -- R289
  | ldN16 (o : OpM)  -- R289
  | ldN32 (o : OpM)  -- R289
  | ldN64 (o : OpM)  -- R289
  | ldS8 (o : OpM)  -- R289
  | ldS16 (o : OpM)  -- R289
  | ldS32 (o : OpM)  -- R289
  | stN8 (o : OpM)  -- R289
  | stN16 (o : OpM)  -- R289
  | stN32 (o : OpM)  -- R289
  | stN64 (o : OpM)  -- R289
  | vld (o : OpVM)  -- R322
  | vlds (o : OpVM)  -- R322
  | vldx (o : OpVM)  -- R322
  | vst (o : OpVM)  -- R322
  | vsts (o : OpVM)  -- R322
  | vstx (o : OpVM)  -- R322
  | aadd (o : OpA)  -- R291
  | aand (o : OpA)  -- R291
  | aor (o : OpA)  -- R291
  | axor (o : OpA)  -- R291
  | aminS (o : OpA)  -- R291
  | amaxS (o : OpA)  -- R291
  | aminN (o : OpA)  -- R291
  | amaxN (o : OpA)  -- R291
  | afadd (o : OpA)  -- R291
  | aswp (o : OpA)  -- R291
  | acas (o : OpA)  -- R291
  | afor (o : OpA)  -- R291
  | afxor (o : OpA)  -- R291
  | afminS (o : OpA)  -- R291
  | afmaxS (o : OpA)  -- R291
  | affadd (o : OpA)  -- R291
  | tst (o : OpT)  -- R306
  | tld (o : OpT)  -- R306
  | tldc (o : OpT)  -- R306
  | trel (o : OpT)  -- R41
  | tqry (o : OpT)  -- R42
  | tsub (o : OpT)  -- R306
  | tunsub (o : OpT)  -- R306
  | tmov (o : OpT)  -- R59
  | halloc (o : OpR)  -- R62
  | hfree (o : OpR)  -- R63
  | fence (o : OpR)  -- R123
  | wpc (o : OpR)  -- R293
  | barArr (o : OpR)  -- R294
  | barWait (o : OpR)  -- R294
  | msend (o : OpR)  -- R296
  | qput (o : OpR)  -- R297
  | qget (o : OpR)  -- R297
  | cwait (o : OpR)  -- R299
  | ccwait (o : OpR)  -- R299
  | cctl (o : OpR)  -- R298
  | wtarm (o : OpR)  -- R300
  | wlpush (o : OpR)  -- R300
  | mwait (o : OpR)  -- R299
  | tqset (o : OpR)  -- R326
  | ftile (o : OpR)  -- R326
  | tqfree (o : OpR)  -- R326
  | sbind (o : OpR)  -- R301
  | sunbind (o : OpR)  -- R301
  | swait (o : OpR)  -- R301
  | sget (o : OpR)  -- R301
  | sput (o : OpR)  -- R301
  | vsget (o : OpR)  -- R301
  | vsput (o : OpR)  -- R301
  | hxfer (o : OpR)  -- R302
  | vadd (o : OpV)  -- R313
  | vsub (o : OpV)  -- R313
  | vmul (o : OpV)  -- R313
  | vmulh (o : OpV)  -- R313
  | vmin (o : OpV)  -- R313
  | vmax (o : OpV)  -- R313
  | vand (o : OpV)  -- R313
  | vor (o : OpV)  -- R313
  | vxor (o : OpV)  -- R313
  | vsll (o : OpV)  -- R313
  | vsrl (o : OpV)  -- R313
  | vsra (o : OpV)  -- R313
  | vadds (o : OpV)  -- R313
  | vsubs (o : OpV)  -- R313
  | vabs (o : OpV)  -- R313
  | vdot (o : OpV)  -- R314
  | vfadd (o : OpV)  -- R315
  | vfsub (o : OpV)  -- R315
  | vfmul (o : OpV)  -- R315
  | vfdiv (o : OpV)  -- R315
  | vfsqrt (o : OpV)  -- R315
  | vfmin (o : OpV)  -- R315
  | vfmax (o : OpV)  -- R315
  | vfma (o : OpV)  -- R315
  | vfnma (o : OpV)  -- R315
  | vfabs (o : OpV)  -- R315
  | vfneg (o : OpV)  -- R315
  | vexp (o : OpV)  -- R316
  | vexp2 (o : OpV)  -- R316
  | vlog (o : OpV)  -- R316
  | vlog2 (o : OpV)  -- R316
  | vrcp (o : OpV)  -- R316
  | vrsqrt (o : OpV)  -- R316
  | vsin (o : OpV)  -- R316
  | vcos (o : OpV)  -- R316
  | vtanh (o : OpV)  -- R316
  | vsigm (o : OpV)  -- R316
  | vcmpEq (o : OpV)  -- R317
  | vcmpNe (o : OpV)  -- R317
  | vcmpLt (o : OpV)  -- R317
  | vcmpLe (o : OpV)  -- R317
  | vcmpGt (o : OpV)  -- R317
  | vcmpGe (o : OpV)  -- R317
  | vwhile (o : OpV)  -- R317
  | vfcmpEq (o : OpV)  -- R317
  | vfcmpNe (o : OpV)  -- R317
  | vfcmpLt (o : OpV)  -- R317
  | vfcmpLe (o : OpV)  -- R317
  | vfcmpGt (o : OpV)  -- R317
  | vfcmpGe (o : OpV)  -- R317
  | vfcmpUn (o : OpV)  -- R317
  | pand (o : OpV)  -- R318
  | por (o : OpV)  -- R318
  | pxor (o : OpV)  -- R318
  | pandn (o : OpV)  -- R318
  | pnot (o : OpV)  -- R318
  | pall (o : OpV)  -- R318
  | pcnt (o : OpV)  -- R318
  | pfirst (o : OpV)  -- R318
  | vperm (o : OpV)  -- R319
  | vbcast (o : OpV)  -- R319
  | vslu (o : OpV)  -- R319
  | vsld (o : OpV)  -- R319
  | vzip (o : OpV)  -- R319
  | vunzip (o : OpV)  -- R319
  | vmvx (o : OpV)  -- R319
  | vmvv (o : OpV)  -- R319
  | vsel (o : OpV)  -- R319
  | vcmpr (o : OpV)  -- R319
  | vmov (o : OpV)  -- R319
  | vlen (o : OpV)  -- R319
  | vredadd (o : OpV)  -- R320
  | vredmin (o : OpV)  -- R320
  | vredmax (o : OpV)  -- R320
  | vredand (o : OpV)  -- R320
  | vredor (o : OpV)  -- R320
  | vredxor (o : OpV)  -- R320
  | vfredadd (o : OpV)  -- R320
  | vfredmin (o : OpV)  -- R320
  | vfredmax (o : OpV)  -- R320
  | vcvt (o : OpVC)  -- R321
  | gmadd (o : OpR)  -- R372
  | gsch (o : OpR)  -- R373
  | gdmp (o : OpR)  -- R374
  | gmsend (o : OpR)  -- R375
  | gmld (o : OpR)  -- R371
  | gres (o : OpR)  -- R376
  | gpiv (o : OpR)  -- R376
  | gmclr (o : OpR)  -- R371
  | mxc (o : OpR)  -- R346
  | mxz (o : OpR)  -- R348
  | mxld (o : OpR)  -- R348
  | mxst (o : OpR)  -- R348
  | mxmv (o : OpR)  -- R349
  | mxwl (o : OpR)  -- R347
  | mxls (o : OpR)  -- R331
  | mxlr (o : OpR)  -- R332
  | mxstat (o : OpR)  -- R350
  | qnt (o : OpR)  -- R352
  | xaz (o : OpR)  -- R353
  | xafm (o : OpR)  -- R353
  | xaadd (o : OpR)  -- R353
  | xarnd (o : OpR)  -- R353
  | xasgn (o : OpR)  -- R353
  | sqslot (o : OpR)  -- R357
  | sqrot (o : OpR)  -- R361
  | atts (o : OpR)  -- R364
  | sqsamp (o : OpR)  -- R145
  | sqplay (o : OpR)  -- R146
  | sqtrunc (o : OpR)  -- R147
  | sqframe (o : OpR)  -- R149
  | sqcur (o : OpR)  -- R358
  | hnop (o : OpHsch)  -- R223
  | pfl1 (o : OpHsch)  -- R223
  | pfsl (o : OpHsch)  -- R223
  | pfi (o : OpHsch)  -- R223
  | hmod (o : OpHmod)  -- R222
  | himm (o : OpHimm)  -- R221
  | rep (o : OpRep)  -- R224
  | trinvRange (o : TrInv)  -- R27
  | trinvJob (o : TrInv)  -- R27
  | trinvAll (o : TrInv)  -- R27
  | trinvDone (o : ModRef)  -- R28
  | jobswSuspend (o : JobRef)  -- R211
  | jobswResume (o : JobRef)  -- R211
  | sqstatClear (o : SliceRef)  -- R84
  | nlkstStart (o : LinkRef)  -- R407
  | collectiveAllreduce (o : Coll)  -- R415
  | collectiveBroadcast (o : Coll)  -- R415
  | hostToDevice (o : Coll)  -- R414
  | deviceToHost (o : Coll)  -- R414
  | collectiveCompletion (o : CollDone)  -- R415
  | collectiveCancelNotice (o : CollRef)  -- R417
  | collectiveTimeout (o : CollRef)  -- R417
  | bringUp (o : BringUp)  -- R419
  | query (o : MboxCmd)  -- R422
  | attest (o : MboxCmd)  -- R423
  | events (o : MboxCmd)  -- R422
  | config (o : MboxCmd)  -- R421
  | monitor (o : MonitorCmd)  -- R422
  | fuseRevoke (o : MboxCmd)  -- R420
  | linkclr (o : MboxCmd)  -- R412
  | qdbDoorbell (o : Doorbell)  -- R401
  | nopEntry (o : QueueRef)  -- R402
  | launchEntry (o : QueueRef)  -- R176
  | graphEntry (o : QueueRef)  -- R177
  | cancelEntry (o : QueueRef)  -- R402
  | priorityEntry (o : QueueRef)  -- R186
  | signalEntry (o : QueueRef)  -- R402
  | entryAdmission (o : ModRef)  -- R178
  | dandelionWake (o : WakeAt)  -- R181
  | nolkaiMulticast (o : Multicast)  -- R411
  | rerankNotice (o : Rerank)  -- R186
  | launchCompletion (o : ShareReport)  -- R169
  | hostRead (o : HostAccess)  -- R103
  | hostWrite (o : HostAccess)  -- R103
  | loaderChoice (o : CoreRef)  -- R184
  | threadStart (o : SlotRef)  -- R183
  | sextantBalance (o : CoreRef)  -- R192
  | workListShipment (o : Shipment)  -- R192
  | meridianSample (o : MerRef)  -- R195
  | cancelFlood (o : CancelAt)  -- R170
  | migrantPacketArrival (o : Packet)  -- R164
  | faultResponse (o : FaultResp)  -- R30
  | trapEntry (o : TrapReq)  -- R199
  | interruptEntry (o : IrqRef)  -- R160
  | timerInterrupt (o : ThreadRef)  -- R160
  | softInterruptDelivery (o : SoftIrq)  -- R281
  | singleStep (o : ThreadRef)  -- R214
  | preemption (o : CoreRef)  -- R208
  | contextSaveDone (o : SlotRef)  -- R208
  | resultReturn (o : ResultRet)  -- R159
  | lineFill (o : HomeReq)  -- R22
  | speculativeStoreReceipt (o : LineWrite)  -- R90
  | commitInstall (o : Install)  -- R91
  | regionMerge (o : SliceRef)  -- R100
  | revoke (o : WordRef)  -- R93
  | deregistration (o : Dereg)  -- R93
  | forwardedRead (o : HomeReq)  -- R93
  | copySliceMiss (o : HomeReq)  -- R101
  | copyFillArrival (o : CopyFill)  -- R102
  | copyInvalidation (o : CopyInval)  -- R102
  | holderNotice (o : CommFlush)  -- R109
  | commutativeFlush (o : CommFlush)  -- R110
  | collection (o : LineRef)  -- R110
  | fallBackAtomicGrant (o : AtomicReq)  -- R113
  | remoteScratchpadWrite (o : RemoteWrite)  -- R126
  | remoteScratchpadRead (o : RemoteRead)  -- R115
  | sliceRetentionSleep (o : SliceRef)  -- R426
  | sliceWake (o : SliceRef)  -- R50
  | ephemerisCreate (o : TileCreate)  -- R36
  | ephemerisLoad (o : TileLoad)  -- R36
  | ephemerisRelease (o : TileRelease)  -- R41
  | ephemerisPin (o : TilePin)  -- R43
  | ephemerisUnpin (o : TileRef)  -- R36
  | ephemerisCommit (o : TileSettle)  -- R47
  | ephemerisDiscard (o : TileSettle)  -- R48
  | waiterCancel (o : WaiterRef)  -- R36
  | subscriptionRecord (o : SubReq)  -- R57
  | arrivalNotice (o : Notice)  -- R58
  | stallResume (o : SliceRef)  -- R51
  | pressureReport (o : Pressure)  -- R52
  | promotionCompletion (o : Promotion)  -- R59
  | frameAdmission (o : FrameReq)  -- R149
  | streamFillElement (o : StreamRef)  -- R74
  | streamDrainWrite (o : StreamRef)  -- R74
  | heliostatLineReceive (o : Helio)  -- R76
  | matrixDispatch (o : CoreRef)  -- R341
  | matrixCommandCompletion (o : CoreRef)  -- R344
  | solverOperationCompletion (o : CoreRef)  -- R370
  | msendDelivery (o : Msg)  -- R296
  | qputDelivery (o : Msg)  -- R297
  | mailboxMessageArrival (o : MailSend)  -- R375
  | linkTraining (o : Training)  -- R407
  | nolkaiFlitReceipt (o : FlitIn)  -- R408
  | nolkaiNak (o : Nak)  -- R408
  | ucieFlitReceipt (o : DieFlit)  -- R406
  | governorGrant (o : DieRef)  -- R425
  | powerCapStart (o : PowerEvent)  -- R425
  | powerCapEnd (o : PowerEvent)  -- R425
  | eventReport (o : Report)  -- R427
  | nonSpeculativeHomeWrite (o : HomeWrite)  -- R125
  | sliceStallWake (o : FrameRef)  -- R206
  | hschKind47 (o : OpHschK)  -- R223
  | illegalEncoding (o : BadWord)  -- R233
  | reset (o : ModRef)  -- R419
  deriving DecidableEq, Repr

/-- The rows of the opcode table that have an encoding, without their operands. -/
inductive Opcode where
  | add | sub | mul | mulhS64 | mulhN64 | divS64 | divN64 | remS64 | remN64 | and | or | xor | andn | orn
  | xnor | sll | srl | sra | rol | ror | minS64 | maxS64 | minN64 | maxN64 | clz | ctz | popc | brev | bswap
  | sext | abs | addi | andi | ori | xori | slli | srli | srai | rori | lea | bfxN64 | bfxS64 | bfi | cmpEq
  | cmpNe | cmpLtS64 | cmpGeS64 | cmpLtN64 | cmpGeN64 | cmpTst | cmpTstz | cand | cor | cxor | candn | mfcw
  | mtcw | fadd | fsub | fmul | fdiv | fsqrt | fmin | fmax | fmac | fcmpEq | fcmpLt | fcmpLe | fcmpUn
  | fclass | fsgn | fneg | fabs | fcvt | br | call | jmpr | loop | migrA | migrH | migrC | tcom | tret
  | tretRs | tretDp | sysc | monc | brk | mfcr | mtcr | feat | icinv | isend | cancel | ien | idis | rdcyc
  | ldN8 | ldN16 | ldN32 | ldN64 | ldS8 | ldS16 | ldS32 | stN8 | stN16 | stN32 | stN64 | vld | vlds | vldx
  | vst | vsts | vstx | aadd | aand | aor | axor | aminS | amaxS | aminN | amaxN | afadd | aswp | acas | afor
  | afxor | afminS | afmaxS | affadd | tst | tld | tldc | trel | tqry | tsub | tunsub | tmov | halloc | hfree
  | fence | wpc | barArr | barWait | msend | qput | qget | cwait | ccwait | cctl | wtarm | wlpush | mwait
  | tqset | ftile | tqfree | sbind | sunbind | swait | sget | sput | vsget | vsput | hxfer | vadd | vsub
  | vmul | vmulh | vmin | vmax | vand | vor | vxor | vsll | vsrl | vsra | vadds | vsubs | vabs | vdot | vfadd
  | vfsub | vfmul | vfdiv | vfsqrt | vfmin | vfmax | vfma | vfnma | vfabs | vfneg | vexp | vexp2 | vlog
  | vlog2 | vrcp | vrsqrt | vsin | vcos | vtanh | vsigm | vcmpEq | vcmpNe | vcmpLt | vcmpLe | vcmpGt | vcmpGe
  | vwhile | vfcmpEq | vfcmpNe | vfcmpLt | vfcmpLe | vfcmpGt | vfcmpGe | vfcmpUn | pand | por | pxor | pandn
  | pnot | pall | pcnt | pfirst | vperm | vbcast | vslu | vsld | vzip | vunzip | vmvx | vmvv | vsel | vcmpr
  | vmov | vlen | vredadd | vredmin | vredmax | vredand | vredor | vredxor | vfredadd | vfredmin | vfredmax
  | vcvt | gmadd | gsch | gdmp | gmsend | gmld | gres | gpiv | gmclr | mxc | mxz | mxld | mxst | mxmv | mxwl
  | mxls | mxlr | mxstat | qnt | xaz | xafm | xaadd | xarnd | xasgn | sqslot | sqrot | atts | sqsamp | sqplay
  | sqtrunc | sqframe | sqcur | hnop | pfl1 | pfsl | pfi | hmod | himm | rep | hschKind47
  deriving DecidableEq, Repr

/-- The machine's own steps (spec/95) as the agenda of the state holds them. -/
inductive Event where
  | trinvRange (o : TrInv)
  | trinvJob (o : TrInv)
  | trinvAll (o : TrInv)
  | trinvDone (o : ModRef)
  | jobswSuspend (o : JobRef)
  | jobswResume (o : JobRef)
  | sqstatClear (o : SliceRef)
  | nlkstStart (o : LinkRef)
  | collectiveAllreduce (o : Coll)
  | collectiveBroadcast (o : Coll)
  | hostToDevice (o : Coll)
  | deviceToHost (o : Coll)
  | collectiveCompletion (o : CollDone)
  | collectiveCancelNotice (o : CollRef)
  | collectiveTimeout (o : CollRef)
  | bringUp (o : BringUp)
  | query (o : MboxCmd)
  | attest (o : MboxCmd)
  | events (o : MboxCmd)
  | config (o : MboxCmd)
  | monitor (o : MonitorCmd)
  | fuseRevoke (o : MboxCmd)
  | linkclr (o : MboxCmd)
  | qdbDoorbell (o : Doorbell)
  | nopEntry (o : QueueRef)
  | launchEntry (o : QueueRef)
  | graphEntry (o : QueueRef)
  | cancelEntry (o : QueueRef)
  | priorityEntry (o : QueueRef)
  | signalEntry (o : QueueRef)
  | entryAdmission (o : ModRef)
  | dandelionWake (o : WakeAt)
  | nolkaiMulticast (o : Multicast)
  | rerankNotice (o : Rerank)
  | launchCompletion (o : ShareReport)
  | hostRead (o : HostAccess)
  | hostWrite (o : HostAccess)
  | loaderChoice (o : CoreRef)
  | threadStart (o : SlotRef)
  | sextantBalance (o : CoreRef)
  | workListShipment (o : Shipment)
  | meridianSample (o : MerRef)
  | cancelFlood (o : CancelAt)
  | migrantPacketArrival (o : Packet)
  | faultResponse (o : FaultResp)
  | trapEntry (o : TrapReq)
  | interruptEntry (o : IrqRef)
  | timerInterrupt (o : ThreadRef)
  | softInterruptDelivery (o : SoftIrq)
  | singleStep (o : ThreadRef)
  | preemption (o : CoreRef)
  | contextSaveDone (o : SlotRef)
  | resultReturn (o : ResultRet)
  | lineFill (o : HomeReq)
  | speculativeStoreReceipt (o : LineWrite)
  | commitInstall (o : Install)
  | regionMerge (o : SliceRef)
  | revoke (o : WordRef)
  | deregistration (o : Dereg)
  | forwardedRead (o : HomeReq)
  | copySliceMiss (o : HomeReq)
  | copyFillArrival (o : CopyFill)
  | copyInvalidation (o : CopyInval)
  | holderNotice (o : CommFlush)
  | commutativeFlush (o : CommFlush)
  | collection (o : LineRef)
  | fallBackAtomicGrant (o : AtomicReq)
  | remoteScratchpadWrite (o : RemoteWrite)
  | remoteScratchpadRead (o : RemoteRead)
  | sliceRetentionSleep (o : SliceRef)
  | sliceWake (o : SliceRef)
  | ephemerisCreate (o : TileCreate)
  | ephemerisLoad (o : TileLoad)
  | ephemerisRelease (o : TileRelease)
  | ephemerisPin (o : TilePin)
  | ephemerisUnpin (o : TileRef)
  | ephemerisCommit (o : TileSettle)
  | ephemerisDiscard (o : TileSettle)
  | waiterCancel (o : WaiterRef)
  | subscriptionRecord (o : SubReq)
  | arrivalNotice (o : Notice)
  | stallResume (o : SliceRef)
  | pressureReport (o : Pressure)
  | promotionCompletion (o : Promotion)
  | frameAdmission (o : FrameReq)
  | streamFillElement (o : StreamRef)
  | streamDrainWrite (o : StreamRef)
  | heliostatLineReceive (o : Helio)
  | matrixDispatch (o : CoreRef)
  | matrixCommandCompletion (o : CoreRef)
  | solverOperationCompletion (o : CoreRef)
  | msendDelivery (o : Msg)
  | qputDelivery (o : Msg)
  | mailboxMessageArrival (o : MailSend)
  | linkTraining (o : Training)
  | nolkaiFlitReceipt (o : FlitIn)
  | nolkaiNak (o : Nak)
  | ucieFlitReceipt (o : DieFlit)
  | governorGrant (o : DieRef)
  | powerCapStart (o : PowerEvent)
  | powerCapEnd (o : PowerEvent)
  | eventReport (o : Report)
  | nonSpeculativeHomeWrite (o : HomeWrite)
  | sliceStallWake (o : FrameRef)
  | illegalEncoding (o : BadWord)
  | reset (o : ModRef)
  deriving DecidableEq, Repr

/-- The row of a step held in the agenda. (noncomputable: Lean's runtime builds no constructor beyond the 245th of a type;
the kernel does.) -/
noncomputable def Event.instr : Event → Instr
  | .trinvRange o => .trinvRange o
  | .trinvJob o => .trinvJob o
  | .trinvAll o => .trinvAll o
  | .trinvDone o => .trinvDone o
  | .jobswSuspend o => .jobswSuspend o
  | .jobswResume o => .jobswResume o
  | .sqstatClear o => .sqstatClear o
  | .nlkstStart o => .nlkstStart o
  | .collectiveAllreduce o => .collectiveAllreduce o
  | .collectiveBroadcast o => .collectiveBroadcast o
  | .hostToDevice o => .hostToDevice o
  | .deviceToHost o => .deviceToHost o
  | .collectiveCompletion o => .collectiveCompletion o
  | .collectiveCancelNotice o => .collectiveCancelNotice o
  | .collectiveTimeout o => .collectiveTimeout o
  | .bringUp o => .bringUp o
  | .query o => .query o
  | .attest o => .attest o
  | .events o => .events o
  | .config o => .config o
  | .monitor o => .monitor o
  | .fuseRevoke o => .fuseRevoke o
  | .linkclr o => .linkclr o
  | .qdbDoorbell o => .qdbDoorbell o
  | .nopEntry o => .nopEntry o
  | .launchEntry o => .launchEntry o
  | .graphEntry o => .graphEntry o
  | .cancelEntry o => .cancelEntry o
  | .priorityEntry o => .priorityEntry o
  | .signalEntry o => .signalEntry o
  | .entryAdmission o => .entryAdmission o
  | .dandelionWake o => .dandelionWake o
  | .nolkaiMulticast o => .nolkaiMulticast o
  | .rerankNotice o => .rerankNotice o
  | .launchCompletion o => .launchCompletion o
  | .hostRead o => .hostRead o
  | .hostWrite o => .hostWrite o
  | .loaderChoice o => .loaderChoice o
  | .threadStart o => .threadStart o
  | .sextantBalance o => .sextantBalance o
  | .workListShipment o => .workListShipment o
  | .meridianSample o => .meridianSample o
  | .cancelFlood o => .cancelFlood o
  | .migrantPacketArrival o => .migrantPacketArrival o
  | .faultResponse o => .faultResponse o
  | .trapEntry o => .trapEntry o
  | .interruptEntry o => .interruptEntry o
  | .timerInterrupt o => .timerInterrupt o
  | .softInterruptDelivery o => .softInterruptDelivery o
  | .singleStep o => .singleStep o
  | .preemption o => .preemption o
  | .contextSaveDone o => .contextSaveDone o
  | .resultReturn o => .resultReturn o
  | .lineFill o => .lineFill o
  | .speculativeStoreReceipt o => .speculativeStoreReceipt o
  | .commitInstall o => .commitInstall o
  | .regionMerge o => .regionMerge o
  | .revoke o => .revoke o
  | .deregistration o => .deregistration o
  | .forwardedRead o => .forwardedRead o
  | .copySliceMiss o => .copySliceMiss o
  | .copyFillArrival o => .copyFillArrival o
  | .copyInvalidation o => .copyInvalidation o
  | .holderNotice o => .holderNotice o
  | .commutativeFlush o => .commutativeFlush o
  | .collection o => .collection o
  | .fallBackAtomicGrant o => .fallBackAtomicGrant o
  | .remoteScratchpadWrite o => .remoteScratchpadWrite o
  | .remoteScratchpadRead o => .remoteScratchpadRead o
  | .sliceRetentionSleep o => .sliceRetentionSleep o
  | .sliceWake o => .sliceWake o
  | .ephemerisCreate o => .ephemerisCreate o
  | .ephemerisLoad o => .ephemerisLoad o
  | .ephemerisRelease o => .ephemerisRelease o
  | .ephemerisPin o => .ephemerisPin o
  | .ephemerisUnpin o => .ephemerisUnpin o
  | .ephemerisCommit o => .ephemerisCommit o
  | .ephemerisDiscard o => .ephemerisDiscard o
  | .waiterCancel o => .waiterCancel o
  | .subscriptionRecord o => .subscriptionRecord o
  | .arrivalNotice o => .arrivalNotice o
  | .stallResume o => .stallResume o
  | .pressureReport o => .pressureReport o
  | .promotionCompletion o => .promotionCompletion o
  | .frameAdmission o => .frameAdmission o
  | .streamFillElement o => .streamFillElement o
  | .streamDrainWrite o => .streamDrainWrite o
  | .heliostatLineReceive o => .heliostatLineReceive o
  | .matrixDispatch o => .matrixDispatch o
  | .matrixCommandCompletion o => .matrixCommandCompletion o
  | .solverOperationCompletion o => .solverOperationCompletion o
  | .msendDelivery o => .msendDelivery o
  | .qputDelivery o => .qputDelivery o
  | .mailboxMessageArrival o => .mailboxMessageArrival o
  | .linkTraining o => .linkTraining o
  | .nolkaiFlitReceipt o => .nolkaiFlitReceipt o
  | .nolkaiNak o => .nolkaiNak o
  | .ucieFlitReceipt o => .ucieFlitReceipt o
  | .governorGrant o => .governorGrant o
  | .powerCapStart o => .powerCapStart o
  | .powerCapEnd o => .powerCapEnd o
  | .eventReport o => .eventReport o
  | .nonSpeculativeHomeWrite o => .nonSpeculativeHomeWrite o
  | .sliceStallWake o => .sliceStallWake o
  | .illegalEncoding o => .illegalEncoding o
  | .reset o => .reset o

end Sys2Proof
end

