-- ==== Sys2Proof/WellFormed.lean ====
section
/-! DEFINITION. Which terms of Instr are encodings the spec admits (R217, R218, R233, R234), each refusal under a name
of its own. -/

namespace Sys2Proof

/-- Why a word is no instruction (R233, R234). -/
inductive DecodeError where
  /-- a major opcode that R227 leaves unassigned -/
  | unassignedMajor
  /-- a function code that R228 to R232 leave unassigned -/
  | unassignedFunction
  /-- a reserved field or bit that is nonzero -/
  | reservedField
  /-- a register number beyond its file, or a register group that passes its limit -/
  | registerFile
  /-- a type code that the function does not permit -/
  | typeCode
  /-- a scope code 7, or a scope field above 7 -/
  | scope
  /-- a level or test number that the form does not have -/
  | selector
  /-- an HMOD.RM of 5 to 7 -/
  | rounding
  /-- a loop of length 0 -/
  | loopLength
  /-- a modifier word with bit 31 set -/
  | marker
  deriving DecidableEq, Repr

/-- The error of the first condition that does not hold. -/
def firstBad : List (Bool × DecodeError) → Option DecodeError
  | [] => none
  | (true, _) :: t => firstBad t
  | (false, e) :: _ => some e

/-- Why a term is not a well-formed instruction; none: it is one. The machine's own steps (spec/95) have no
encoding and are not judged here. -/
def Instr.illFormed : Instr → Option DecodeError
  | .add _ | .sub _ | .mul _ | .mulhS64 _ | .mulhN64 _ | .divS64 _ | .divN64 _ | .remS64 _ | .remN64 _
  | .and _ | .or _ | .xor _ | .andn _ | .orn _ | .xnor _ | .sll _ | .srl _ | .sra _ | .rol _ | .ror _
  | .minS64 _ | .maxS64 _ | .minN64 _ | .maxN64 _ | .sext _ | .bfxN64 _ | .bfxS64 _ | .bfi _ | .isend _
  | .ccwait _ | .wtarm _ | .wlpush _ | .tqset _ | .ftile _ | .hxfer _ | .gmadd _ | .gsch _ | .gres _
  | .sqslot _ | .sqsamp _ | .sqplay _ | .sqtrunc _ | .sqcur _ => none
  | .clz o | .ctz o | .popc o | .brev o | .bswap o | .abs o | .feat o | .halloc o | .mwait o | .gdmp o
  | .gmld o | .gpiv o | .mxls o | .mxstat o =>
    firstBad [(o.b == 0, .reservedField)]
  | .addi _ | .andi _ | .ori _ | .xori _ | .jmpr _ => none
  | .slli _ | .srli _ | .srai _ | .rori _ => none
  | .lea o | .mfcr o =>
    firstBad [(o.a == 0, .reservedField)]
  | .cmpEq o | .cmpNe o | .cmpLtS64 o | .cmpGeS64 o | .cmpLtN64 o | .cmpGeN64 o | .cmpTst o | .cmpTstz o =>
    firstBad [(decide (o.d.toNat < 16), .registerFile)]
  | .cand o | .cor o | .cxor o | .candn o =>
    firstBad [(decide (o.d.toNat < 16), .registerFile), (decide (o.a.toNat < 16), .registerFile), (decide (o.b.toNat < 16), .registerFile)]
  | .mfcw o | .rdcyc o | .qget o | .xarnd o =>
    firstBad [(o.a == 0, .reservedField), (o.b == 0, .reservedField)]
  | .mtcw o | .hfree o | .tqfree o | .mxwl o | .mxlr o =>
    firstBad [(o.d == 0, .reservedField), (o.b == 0, .reservedField)]
  | .fadd _ | .fsub _ | .fmul _ | .fdiv _ | .fmin _ | .fmax _ | .fmac _ | .fsgn _ => none
  | .fsqrt o | .fclass o | .fneg o | .fabs o =>
    firstBad [(o.b == 0, .reservedField)]
  | .fcmpEq o | .fcmpLt o | .fcmpLe o | .fcmpUn o =>
    firstBad [(decide (o.d.toNat < 16), .registerFile)]
  | .fcvt o =>
    firstBad [(decide (o.c.toNat < 8), .typeCode), (decide (o.b.toNat < 8), .typeCode), (decide (o.c ≠ o.b), .typeCode), (decide (o.c.toNat < 4 ∨ o.b.toNat < 4), .typeCode)]
  | .br _ | .call _ => none
  | .loop o =>
    firstBad [(decide (o.k.toNat % 256 ≠ 0), .loopLength)]
  | .migrA o | .migrC o | .xaadd o =>
    firstBad [(o.b == 0, .reservedField), (decide (o.d.toNat < 2), .reservedField)]
  | .migrH o =>
    firstBad [(decide (o.a.toNat < 16), .registerFile), (decide (o.d.toNat < 2), .reservedField)]
  | .tcom o | .tret o | .tretRs o | .tretDp o | .sysc o | .monc o | .brk o | .ien o | .idis o | .xaz o =>
    firstBad [(o.d == 0, .reservedField), (o.a == 0, .reservedField), (o.b == 0, .reservedField)]
  | .mtcr o =>
    firstBad [(o.d == 0, .reservedField)]
  | .icinv o =>
    firstBad [(o.d == 0, .reservedField), (decide (o.b.toNat < 7), .scope)]
  | .cancel o =>
    firstBad [(o.d == 0, .reservedField), (decide (o.b.toNat < 4), .selector)]
  | .ldN8 o | .ldN16 o | .ldN32 o | .ldN64 o | .ldS8 o | .ldS16 o | .ldS32 o | .stN8 o | .stN16 o | .stN32 o
  | .stN64 o =>
    firstBad [((o.o == 0 || o.o == 3 || decide (o.x.toNat / 8 < 7)), .scope)]
  | .vld o | .vst o =>
    firstBad [(o.b == 0, .reservedField)]
  | .vlds _ | .vldx _ | .vsts _ | .vstx _ => none
  | .aadd o | .aand o | .aor o | .axor o | .aminS o | .amaxS o | .aminN o | .amaxN o =>
    firstBad [(o.d == 0, .reservedField), (decide (o.s.toNat < 7), .scope)]
  | .afadd o | .aswp o | .acas o | .afor o | .afxor o | .afminS o | .afmaxS o | .affadd o =>
    firstBad [(decide (o.s.toNat < 7), .scope)]
  | .tst _ | .tld _ | .tldc _ | .tsub _ => none
  | .trel o =>
    firstBad [(o.a == 0, .reservedField), (o.b == 0, .reservedField)]
  | .tqry o | .tunsub o | .tmov o =>
    firstBad [(o.b == 0, .reservedField)]
  | .fence o =>
    firstBad [(o.d == 0, .reservedField), (o.a == 0, .reservedField), (decide (o.b.toNat < 7), .scope)]
  | .wpc o =>
    firstBad [(o.d == 0, .reservedField), (o.a == 0, .reservedField), (decide (o.b.toNat < 8), .reservedField)]
  | .barArr o =>
    firstBad [(decide (o.d.toNat < 7), .scope), (decide (o.b.toNat < 16), .registerFile)]
  | .barWait o =>
    firstBad [(o.d == 0, .reservedField), (decide (o.b.toNat < 16), .registerFile)]
  | .msend o | .qput o | .cwait o | .cctl o | .gmsend o | .gmclr o =>
    firstBad [(o.d == 0, .reservedField)]
  | .sbind o | .sput o | .vsput o =>
    firstBad [(o.b == 0, .reservedField), (decide (o.d.toNat < 8), .registerFile)]
  | .sunbind o | .swait o =>
    firstBad [(o.a == 0, .reservedField), (o.b == 0, .reservedField), (decide (o.d.toNat < 8), .registerFile)]
  | .sget o | .vsget o =>
    firstBad [(o.b == 0, .reservedField), (decide (o.a.toNat < 8), .registerFile)]
  | .vadd _ | .vsub _ | .vmul _ | .vmulh _ | .vmin _ | .vmax _ | .vand _ | .vor _ | .vxor _ | .vsll _
  | .vsrl _ | .vsra _ | .vadds _ | .vsubs _ => none
  | .vabs o | .vredadd o | .vredmin o | .vredmax o | .vredand o | .vredor o | .vredxor o =>
    firstBad [(o.b == 0, .reservedField)]
  | .vdot o =>
    firstBad [(decide (o.t.toNat % 4 < 2), .typeCode)]
  | .vfadd o | .vfsub o | .vfmul o | .vfdiv o | .vfmin o | .vfmax o | .vfma o | .vfnma o =>
    firstBad [(decide (o.t.toNat < 4), .typeCode)]
  | .vfsqrt o | .vfabs o | .vfneg o | .vfredadd o | .vfredmin o | .vfredmax o =>
    firstBad [(o.b == 0, .reservedField), (decide (o.t.toNat < 4), .typeCode)]
  | .vexp o | .vexp2 o | .vlog o | .vlog2 o | .vrcp o | .vrsqrt o | .vsin o | .vcos o | .vtanh o | .vsigm o =>
    firstBad [(o.b == 0, .reservedField), (decide (0 < o.t.toNat ∧ o.t.toNat < 4), .typeCode)]
  | .vcmpEq o | .vcmpNe o | .vcmpLt o | .vcmpLe o | .vcmpGt o | .vcmpGe o | .vwhile o =>
    firstBad [(decide (o.d.toNat < 8), .registerFile)]
  | .vfcmpEq o | .vfcmpNe o | .vfcmpLt o | .vfcmpLe o | .vfcmpGt o | .vfcmpGe o | .vfcmpUn o =>
    firstBad [(decide (o.d.toNat < 8), .registerFile), (decide (o.t.toNat < 4), .typeCode)]
  | .pand o | .por o | .pxor o | .pandn o =>
    firstBad [(o.p == 0, .reservedField), (o.t == 0, .reservedField), (decide (o.d.toNat < 8), .registerFile), (decide (o.a.toNat < 8), .registerFile), (decide (o.b.toNat < 8), .registerFile)]
  | .pnot o | .pfirst o =>
    firstBad [(o.b == 0, .reservedField), (o.p == 0, .reservedField), (o.t == 0, .reservedField), (decide (o.d.toNat < 8), .registerFile), (decide (o.a.toNat < 8), .registerFile)]
  | .pall o =>
    firstBad [(o.a == 0, .reservedField), (o.b == 0, .reservedField), (o.p == 0, .reservedField), (o.t == 0, .reservedField), (decide (o.d.toNat < 8), .registerFile)]
  | .pcnt o =>
    firstBad [(o.b == 0, .reservedField), (o.p == 0, .reservedField), (o.t == 0, .reservedField), (decide (o.a.toNat < 8), .registerFile)]
  | .vperm o | .vslu o | .vsld o | .vzip o | .vunzip o | .vsel o =>
    firstBad [(o.t == 0, .reservedField)]
  | .vbcast o =>
    firstBad [(o.a == 0, .reservedField), (decide (o.t.toNat < 4), .typeCode)]
  | .vmvx o | .vmvv o =>
    firstBad [(o.p == 0, .reservedField), (decide (o.t.toNat < 4), .typeCode)]
  | .vcmpr o | .vmov o =>
    firstBad [(o.b == 0, .reservedField), (o.t == 0, .reservedField)]
  | .vlen o =>
    firstBad [(o.a == 0, .reservedField), (o.b == 0, .reservedField), (o.p == 0, .reservedField), (o.t == 0, .reservedField)]
  | .vcvt o =>
    firstBad [(decide (o.b.toNat < 16), .reservedField), (o.t == 0, .reservedField), (decide (o.c.toNat < 15), .typeCode), (decide (o.b.toNat % 16 < 15), .typeCode), (decide (o.c.toNat ≠ o.b.toNat), .typeCode)]
  | .mxc o =>
    firstBad [(decide (o.d.toNat < 29), .registerFile), (decide (o.a.toNat < 31), .registerFile), (decide (o.b.toNat < 31), .registerFile)]
  | .mxz o =>
    firstBad [(o.a == 0, .reservedField), (o.b == 0, .reservedField), (decide (o.d.toNat < 4), .registerFile)]
  | .mxld o | .mxst o =>
    firstBad [(decide (o.d.toNat < 4), .registerFile)]
  | .mxmv o =>
    firstBad [(decide (o.a.toNat < 4), .registerFile)]
  | .qnt o | .sqrot o | .sqframe o =>
    firstBad [(decide (o.b.toNat < 31), .registerFile)]
  | .xafm o =>
    firstBad [(decide (o.d.toNat < 2), .reservedField)]
  | .xasgn o =>
    firstBad [(o.a == 0, .reservedField), (decide (o.d.toNat < 16), .registerFile), (decide (o.b.toNat < 3), .selector)]
  | .atts o =>
    firstBad [(decide (o.d.toNat < 29), .registerFile)]
  | .hnop _ | .pfl1 _ | .pfsl _ | .pfi _ => none
  | .hmod o =>
    firstBad [(decide (o.r.toNat < 5), .rounding)]
  | .himm _ => none
  | .rep _ => none
  | .hschKind47 o => firstBad [(decide (4 ≤ o.kind.toNat), .selector)]
  | .trinvRange _ | .trinvJob _ | .trinvAll _ | .trinvDone _ | .jobswSuspend _ | .jobswResume _
  | .sqstatClear _ | .nlkstStart _ | .collectiveAllreduce _ | .collectiveBroadcast _ | .hostToDevice _
  | .deviceToHost _ | .collectiveCompletion _ | .collectiveCancelNotice _ | .collectiveTimeout _ | .bringUp _
  | .query _ | .attest _ | .events _ | .config _ | .monitor _ | .fuseRevoke _ | .linkclr _ | .qdbDoorbell _
  | .nopEntry _ | .launchEntry _ | .graphEntry _ | .cancelEntry _ | .priorityEntry _ | .signalEntry _
  | .entryAdmission _ | .dandelionWake _ | .nolkaiMulticast _ | .rerankNotice _ | .launchCompletion _
  | .hostRead _ | .hostWrite _ | .loaderChoice _ | .threadStart _ | .sextantBalance _ | .workListShipment _
  | .meridianSample _ | .cancelFlood _ | .migrantPacketArrival _ | .faultResponse _ | .trapEntry _
  | .interruptEntry _ | .timerInterrupt _ | .softInterruptDelivery _ | .singleStep _ | .preemption _
  | .contextSaveDone _ | .resultReturn _ | .lineFill _ | .speculativeStoreReceipt _ | .commitInstall _
  | .regionMerge _ | .revoke _ | .deregistration _ | .forwardedRead _ | .copySliceMiss _ | .copyFillArrival _
  | .copyInvalidation _ | .holderNotice _ | .commutativeFlush _ | .collection _ | .fallBackAtomicGrant _
  | .remoteScratchpadWrite _ | .remoteScratchpadRead _ | .sliceRetentionSleep _ | .sliceWake _
  | .ephemerisCreate _ | .ephemerisLoad _ | .ephemerisRelease _ | .ephemerisPin _ | .ephemerisUnpin _
  | .ephemerisCommit _ | .ephemerisDiscard _ | .waiterCancel _ | .subscriptionRecord _ | .arrivalNotice _
  | .stallResume _ | .pressureReport _ | .promotionCompletion _ | .frameAdmission _ | .streamFillElement _
  | .streamDrainWrite _ | .heliostatLineReceive _ | .matrixDispatch _ | .matrixCommandCompletion _
  | .solverOperationCompletion _ | .msendDelivery _ | .qputDelivery _ | .mailboxMessageArrival _
  | .linkTraining _ | .nolkaiFlitReceipt _ | .nolkaiNak _ | .ucieFlitReceipt _ | .governorGrant _
  | .powerCapStart _ | .powerCapEnd _ | .eventReport _ | .nonSpeculativeHomeWrite _ | .sliceStallWake _
  | .illegalEncoding _ | .reset _ => none

/-- A well-formed instruction. (DEDUCED, log 80) -/
def Instr.wf (i : Instr) : Bool := i.illFormed.isNone

end Sys2Proof
end

