-- ==== Sys2Proof/Decode.lean ====
section
/-! DEFINITION. The decoder (R215 to R234): from a 32-bit word to an instruction or a named refusal; and, after it, the
encoder, written from the same maps. Fields are taken as quotients and remainders of the word read as a number. -/

namespace Sys2Proof

/-- Bits [lo + len - 1 : lo] of a word. -/
def fieldOf (w lo len : Nat) : Nat := w / 2 ^ lo % 2 ^ len

/-- Bit n of a word. -/
def bitOf (w n : Nat) : Bool := w / 2 ^ n % 2 == 1

/-- A Boolean as the bit it encodes. -/
def bitNat (b : Bool) : Nat := if b then 1 else 0

/-- Format R (R216). -/
def unpackR (w : Nat) : OpR :=
  ⟨bitOf w 31, .ofNat 5 (fieldOf w 20 5), .ofNat 5 (fieldOf w 15 5), .ofNat 5 (fieldOf w 10 5), .ofNat 5 (fieldOf w 5 5)⟩
def packR (op f : Nat) (o : OpR) : Nat :=
  bitNat o.m * 2 ^ 31 + op * 2 ^ 25 + o.g.toNat * 2 ^ 20 + o.d.toNat * 2 ^ 15 + o.a.toNat * 2 ^ 10 + o.b.toNat * 2 ^ 5 + f
/-- The FPA and FPB shape (R228): F = 4 × operation + type. -/
def unpackF (w : Nat) : OpF :=
  ⟨bitOf w 31, .ofNat 5 (fieldOf w 20 5), .ofNat 5 (fieldOf w 15 5), .ofNat 5 (fieldOf w 10 5), .ofNat 5 (fieldOf w 5 5),
   .ofNat 2 (fieldOf w 0 2)⟩
def packF (op f : Nat) (o : OpF) : Nat :=
  bitNat o.m * 2 ^ 31 + op * 2 ^ 25 + o.g.toNat * 2 ^ 20 + o.d.toNat * 2 ^ 15 + o.a.toNat * 2 ^ 10 + o.b.toNat * 2 ^ 5 +
    4 * f + o.t.toNat
/-- fcvt (R228): F is the destination type code. -/
def unpackC (w : Nat) : OpC :=
  ⟨bitOf w 31, .ofNat 5 (fieldOf w 20 5), .ofNat 5 (fieldOf w 15 5), .ofNat 5 (fieldOf w 10 5), .ofNat 5 (fieldOf w 5 5),
   .ofNat 5 (fieldOf w 0 5)⟩
def packC (op : Nat) (o : OpC) : Nat :=
  bitNat o.m * 2 ^ 31 + op * 2 ^ 25 + o.g.toNat * 2 ^ 20 + o.d.toNat * 2 ^ 15 + o.a.toNat * 2 ^ 10 + o.b.toNat * 2 ^ 5 +
    o.c.toNat
/-- Format I (R216). -/
def unpackI (w : Nat) : OpI :=
  ⟨bitOf w 31, .ofNat 5 (fieldOf w 20 5), .ofNat 5 (fieldOf w 15 5), .ofNat 5 (fieldOf w 10 5), .ofNat 10 (fieldOf w 0 10)⟩
def packI (op : Nat) (o : OpI) : Nat :=
  bitNat o.m * 2 ^ 31 + op * 2 ^ 25 + o.g.toNat * 2 ^ 20 + o.d.toNat * 2 ^ 15 + o.a.toNat * 2 ^ 10 + o.k.toNat
/-- SHI (R227): K[9:8] the form, K[5:0] the amount. -/
def unpackSh (w : Nat) : OpSh :=
  ⟨bitOf w 31, .ofNat 5 (fieldOf w 20 5), .ofNat 5 (fieldOf w 15 5), .ofNat 5 (fieldOf w 10 5), .ofNat 6 (fieldOf w 0 6)⟩
def packSh (op f : Nat) (o : OpSh) : Nat :=
  bitNat o.m * 2 ^ 31 + op * 2 ^ 25 + o.g.toNat * 2 ^ 20 + o.d.toNat * 2 ^ 15 + o.a.toNat * 2 ^ 10 + f * 2 ^ 8 + o.k.toNat
/-- Format M (R216). -/
def unpackM (w : Nat) : OpM :=
  ⟨bitOf w 31, .ofNat 5 (fieldOf w 20 5), .ofNat 5 (fieldOf w 15 5), .ofNat 5 (fieldOf w 10 5), .ofNat 2 (fieldOf w 8 2),
   .ofNat 2 (fieldOf w 6 2), .ofNat 6 (fieldOf w 0 6)⟩
def packM (op : Nat) (o : OpM) : Nat :=
  bitNat o.m * 2 ^ 31 + op * 2 ^ 25 + o.g.toNat * 2 ^ 20 + o.d.toNat * 2 ^ 15 + o.a.toNat * 2 ^ 10 + o.w.toNat * 2 ^ 8 +
    o.o.toNat * 2 ^ 6 + o.x.toNat
/-- Format B (R216). -/
def unpackB (w : Nat) : OpB := ⟨bitOf w 31, .ofNat 5 (fieldOf w 20 5), .ofNat 20 (fieldOf w 0 20)⟩
def packB (op : Nat) (o : OpB) : Nat := bitNat o.m * 2 ^ 31 + op * 2 ^ 25 + o.g.toNat * 2 ^ 20 + o.k.toNat
/-- Format V (R216). -/
def unpackV (w : Nat) : OpV :=
  ⟨bitOf w 31, .ofNat 5 (fieldOf w 20 5), .ofNat 5 (fieldOf w 15 5), .ofNat 5 (fieldOf w 10 5), .ofNat 3 (fieldOf w 7 3),
   .ofNat 3 (fieldOf w 4 3)⟩
def packV (op f : Nat) (o : OpV) : Nat :=
  bitNat o.m * 2 ^ 31 + op * 2 ^ 25 + o.d.toNat * 2 ^ 20 + o.a.toNat * 2 ^ 15 + o.b.toNat * 2 ^ 10 + o.p.toNat * 2 ^ 7 +
    o.t.toNat * 2 ^ 4 + f
/-- vcvt (R321): F is the destination code. -/
def unpackVC (w : Nat) : OpVC :=
  ⟨bitOf w 31, .ofNat 5 (fieldOf w 20 5), .ofNat 5 (fieldOf w 15 5), .ofNat 5 (fieldOf w 10 5), .ofNat 3 (fieldOf w 7 3),
   .ofNat 3 (fieldOf w 4 3), .ofNat 4 (fieldOf w 0 4)⟩
def packVC (op : Nat) (o : OpVC) : Nat :=
  bitNat o.m * 2 ^ 31 + op * 2 ^ 25 + o.d.toNat * 2 ^ 20 + o.a.toNat * 2 ^ 15 + o.b.toNat * 2 ^ 10 + o.p.toNat * 2 ^ 7 +
    o.t.toNat * 2 ^ 4 + o.c.toNat
/-- Format VM (R216): F[3:2] the kind, F[1:0] the element size. -/
def unpackVM (w : Nat) : OpVM :=
  ⟨bitOf w 31, .ofNat 5 (fieldOf w 20 5), .ofNat 5 (fieldOf w 15 5), .ofNat 5 (fieldOf w 10 5), .ofNat 3 (fieldOf w 7 3),
   .ofNat 2 (fieldOf w 5 2), bitOf w 4, .ofNat 2 (fieldOf w 0 2)⟩
def packVM (op f : Nat) (o : OpVM) : Nat :=
  bitNat o.m * 2 ^ 31 + op * 2 ^ 25 + o.d.toNat * 2 ^ 20 + o.a.toNat * 2 ^ 15 + o.b.toNat * 2 ^ 10 + o.p.toNat * 2 ^ 7 +
    o.w.toNat * 2 ^ 5 + bitNat o.v * 2 ^ 4 + f * 2 ^ 2 + o.e.toNat
/-- Format A (R216). -/
def unpackA (w : Nat) : OpA :=
  ⟨bitOf w 31, .ofNat 5 (fieldOf w 20 5), .ofNat 5 (fieldOf w 15 5), .ofNat 5 (fieldOf w 10 5), .ofNat 2 (fieldOf w 8 2),
   .ofNat 2 (fieldOf w 6 2), .ofNat 3 (fieldOf w 3 3), bitOf w 2⟩
def packA (op f : Nat) (o : OpA) : Nat :=
  bitNat o.m * 2 ^ 31 + op * 2 ^ 25 + o.d.toNat * 2 ^ 20 + o.a.toNat * 2 ^ 15 + o.b.toNat * 2 ^ 10 + o.w.toNat * 2 ^ 8 +
    o.o.toNat * 2 ^ 6 + o.s.toNat * 2 ^ 3 + bitNat o.z * 2 ^ 2 + f
/-- Format T (R216). -/
def unpackT (w : Nat) : OpT :=
  ⟨bitOf w 31, .ofNat 2 (fieldOf w 23 2), .ofNat 4 (fieldOf w 19 4), .ofNat 5 (fieldOf w 14 5), .ofNat 5 (fieldOf w 9 5),
   .ofNat 5 (fieldOf w 4 5)⟩
def packT (op f : Nat) (o : OpT) : Nat :=
  bitNat o.m * 2 ^ 31 + op * 2 ^ 25 + o.w.toNat * 2 ^ 23 + o.h.toNat * 2 ^ 19 + o.a.toNat * 2 ^ 14 + o.b.toNat * 2 ^ 9 +
    o.e.toNat * 2 ^ 4 + f
/-- The scheduling-hint word (R223), without its KIND. -/
def unpackHsch (w : Nat) : OpHsch := ⟨.ofNat 5 (fieldOf w 17 5), .ofNat 17 (fieldOf w 0 17)⟩
def packHsch (kind : Nat) (o : OpHsch) : Nat := 0x3C * 2 ^ 25 + kind * 2 ^ 22 + o.a.toNat * 2 ^ 17 + o.k.toNat
def unpackHschK (w : Nat) : OpHschK := ⟨.ofNat 3 (fieldOf w 22 3), .ofNat 5 (fieldOf w 17 5), .ofNat 17 (fieldOf w 0 17)⟩
def packHschK (o : OpHschK) : Nat := 0x3C * 2 ^ 25 + o.kind.toNat * 2 ^ 22 + o.a.toNat * 2 ^ 17 + o.k.toNat
/-- The rare-modifier word (R222). -/
def unpackHmod (w : Nat) : OpHmod :=
  ⟨.ofNat 5 (fieldOf w 20 5), .ofNat 3 (fieldOf w 17 3), bitOf w 16, .ofNat 2 (fieldOf w 14 2), bitOf w 13⟩
def packHmod (o : OpHmod) : Nat :=
  0x3D * 2 ^ 25 + o.g.toNat * 2 ^ 20 + o.r.toNat * 2 ^ 17 + bitNat o.n * 2 ^ 16 + o.p.toNat * 2 ^ 14 + bitNat o.s * 2 ^ 13
/-- The wide-immediate word (R221). -/
def unpackHimm (w : Nat) : OpHimm := ⟨.ofNat 25 (fieldOf w 0 25)⟩
def packHimm (o : OpHimm) : Nat := 0x3E * 2 ^ 25 + o.h.toNat
/-- The repeat prefix (R224). -/
def unpackRep (w : Nat) : OpRep :=
  ⟨.ofNat 6 (fieldOf w 19 6), bitOf w 18, bitOf w 17, bitOf w 16, .ofNat 2 (fieldOf w 14 2)⟩
def packRep (o : OpRep) : Nat :=
  0x3F * 2 ^ 25 + o.n.toNat * 2 ^ 19 + bitNat o.d * 2 ^ 18 + bitNat o.a * 2 ^ 17 + bitNat o.b * 2 ^ 16 + o.i.toNat * 2 ^ 14

/-! ## The function-code submaps (R228 to R232) -/

/-- Int (0x01). -/
def decodeInt (w : Nat) : Except DecodeError Opcode :=
  match fieldOf w 0 5 with
  | 0 => .ok .add
  | 1 => .ok .sub
  | 2 => .ok .mul
  | 3 => .ok .mulhS64
  | 4 => .ok .mulhN64
  | 5 => .ok .divS64
  | 6 => .ok .divN64
  | 7 => .ok .remS64
  | 8 => .ok .remN64
  | 9 => .ok .and
  | 10 => .ok .or
  | 11 => .ok .xor
  | 12 => .ok .andn
  | 13 => .ok .orn
  | 14 => .ok .xnor
  | 15 => .ok .sll
  | 16 => .ok .srl
  | 17 => .ok .sra
  | 18 => .ok .rol
  | 19 => .ok .ror
  | 20 => .ok .minS64
  | 21 => .ok .maxS64
  | 22 => .ok .minN64
  | 23 => .ok .maxN64
  | 24 => .ok .clz
  | 25 => .ok .ctz
  | 26 => .ok .popc
  | 27 => .ok .brev
  | 28 => .ok .bswap
  | 29 => .ok .sext
  | 30 => .ok .abs
  | _ => .error .unassignedFunction

/-- Shi (0x06). -/
def decodeShi (w : Nat) : Except DecodeError Opcode :=
  if fieldOf w 6 2 ≠ 0 then .error .reservedField else
  match fieldOf w 8 2 with
  | 0 => .ok .slli
  | 1 => .ok .srli
  | 2 => .ok .srai
  | 3 => .ok .rori
  | _ => .error .unassignedFunction

/-- Bitf (0x08). -/
def decodeBitf (w : Nat) : Except DecodeError Opcode :=
  match fieldOf w 0 5 with
  | 0 => .ok .bfxN64
  | 1 => .ok .bfxS64
  | 2 => .ok .bfi
  | _ => .error .unassignedFunction

/-- Cmp (0x09). -/
def decodeCmp (w : Nat) : Except DecodeError Opcode :=
  match fieldOf w 0 5 with
  | 0 => .ok .cmpEq
  | 1 => .ok .cmpNe
  | 2 => .ok .cmpLtS64
  | 3 => .ok .cmpGeS64
  | 4 => .ok .cmpLtN64
  | 5 => .ok .cmpGeN64
  | 6 => .ok .cmpTst
  | 7 => .ok .cmpTstz
  | 8 => .ok .cand
  | 9 => .ok .cor
  | 10 => .ok .cxor
  | 11 => .ok .candn
  | 12 => .ok .mfcw
  | 13 => .ok .mtcw
  | _ => .error .unassignedFunction

/-- Fpa (0x0A). -/
def decodeFpa (w : Nat) : Except DecodeError Opcode :=
  match fieldOf w 2 3 with
  | 0 => .ok .fadd
  | 1 => .ok .fsub
  | 2 => .ok .fmul
  | 3 => .ok .fdiv
  | 4 => .ok .fsqrt
  | 5 => .ok .fmin
  | 6 => .ok .fmax
  | 7 => .ok .fmac
  | _ => .error .unassignedFunction

/-- Fpb (0x0B). -/
def decodeFpb (w : Nat) : Except DecodeError Opcode :=
  match fieldOf w 2 3 with
  | 0 => .ok .fcmpEq
  | 1 => .ok .fcmpLt
  | 2 => .ok .fcmpLe
  | 3 => .ok .fcmpUn
  | 4 => .ok .fclass
  | 5 => .ok .fsgn
  | 6 => .ok .fneg
  | 7 => .ok .fabs
  | _ => .error .unassignedFunction

/-- Ctl (0x14). -/
def decodeCtl (w : Nat) : Except DecodeError Opcode :=
  match fieldOf w 0 5 with
  | 0 => .ok .migrA
  | 1 => .ok .migrH
  | 2 => .ok .migrC
  | 3 => .ok .tcom
  | 4 => .ok .tret
  | 5 => .ok .tretRs
  | 6 => .ok .tretDp
  | 7 => .ok .sysc
  | 8 => .ok .monc
  | 9 => .ok .brk
  | _ => .error .unassignedFunction

/-- Sys (0x17). -/
def decodeSys (w : Nat) : Except DecodeError Opcode :=
  match fieldOf w 0 5 with
  | 0 => .ok .feat
  | 1 => .ok .icinv
  | 2 => .ok .isend
  | 3 => .ok .cancel
  | 4 => .ok .ien
  | 5 => .ok .idis
  | 6 => .ok .rdcyc
  | _ => .error .unassignedFunction

/-- Vld (0x24). -/
def decodeVld (w : Nat) : Except DecodeError Opcode :=
  if fieldOf w 2 2 = 0 ∧ fieldOf w 0 2 ≠ 0 then .error .reservedField else
  match fieldOf w 2 2 with
  | 0 => .ok .vld
  | 1 => .ok .vlds
  | 2 => .ok .vldx
  | _ => .error .unassignedFunction

/-- Vst (0x25). -/
def decodeVst (w : Nat) : Except DecodeError Opcode :=
  if fieldOf w 2 2 = 0 ∧ fieldOf w 0 2 ≠ 0 then .error .reservedField else
  match fieldOf w 2 2 with
  | 0 => .ok .vst
  | 1 => .ok .vsts
  | 2 => .ok .vstx
  | _ => .error .unassignedFunction

/-- Amca (0x26). -/
def decodeAmca (w : Nat) : Except DecodeError Opcode :=
  match fieldOf w 0 2 with
  | 0 => .ok .aadd
  | 1 => .ok .aand
  | 2 => .ok .aor
  | 3 => .ok .axor
  | _ => .error .unassignedFunction

/-- Amcb (0x27). -/
def decodeAmcb (w : Nat) : Except DecodeError Opcode :=
  match fieldOf w 0 2 with
  | 0 => .ok .aminS
  | 1 => .ok .amaxS
  | 2 => .ok .aminN
  | 3 => .ok .amaxN
  | _ => .error .unassignedFunction

/-- Afba (0x28). -/
def decodeAfba (w : Nat) : Except DecodeError Opcode :=
  match fieldOf w 0 2 with
  | 0 => .ok .afadd
  | 1 => .ok .aswp
  | 2 => .ok .acas
  | 3 => .ok .afor
  | _ => .error .unassignedFunction

/-- Afbb (0x29). -/
def decodeAfbb (w : Nat) : Except DecodeError Opcode :=
  match fieldOf w 0 2 with
  | 0 => .ok .afxor
  | 1 => .ok .afminS
  | 2 => .ok .afmaxS
  | 3 => .ok .affadd
  | _ => .error .unassignedFunction

/-- Tile (0x2A). -/
def decodeTile (w : Nat) : Except DecodeError Opcode :=
  match fieldOf w 0 4 with
  | 0 => .ok .tst
  | 1 => .ok .tld
  | 2 => .ok .tldc
  | 3 => .ok .trel
  | 4 => .ok .tqry
  | 5 => .ok .tsub
  | 6 => .ok .tunsub
  | 7 => .ok .tmov
  | _ => .error .unassignedFunction

/-- Heap (0x2B). -/
def decodeHeap (w : Nat) : Except DecodeError Opcode :=
  match fieldOf w 0 5 with
  | 0 => .ok .halloc
  | 1 => .ok .hfree
  | _ => .error .unassignedFunction

/-- Sync (0x2C). -/
def decodeSync (w : Nat) : Except DecodeError Opcode :=
  match fieldOf w 0 5 with
  | 0 => .ok .fence
  | 1 => .ok .wpc
  | 2 => .ok .barArr
  | 3 => .ok .barWait
  | 4 => .ok .msend
  | 5 => .ok .qput
  | 6 => .ok .qget
  | 7 => .ok .cwait
  | 8 => .ok .ccwait
  | 9 => .ok .cctl
  | 10 => .ok .wtarm
  | 11 => .ok .wlpush
  | 12 => .ok .mwait
  | 13 => .ok .tqset
  | 14 => .ok .ftile
  | 15 => .ok .tqfree
  | _ => .error .unassignedFunction

/-- Strm (0x2D). -/
def decodeStrm (w : Nat) : Except DecodeError Opcode :=
  match fieldOf w 0 5 with
  | 0 => .ok .sbind
  | 1 => .ok .sunbind
  | 2 => .ok .swait
  | 3 => .ok .sget
  | 4 => .ok .sput
  | 5 => .ok .vsget
  | 6 => .ok .vsput
  | 7 => .ok .hxfer
  | _ => .error .unassignedFunction

/-- Vint (0x30). -/
def decodeVint (w : Nat) : Except DecodeError Opcode :=
  match fieldOf w 0 4 with
  | 0 => .ok .vadd
  | 1 => .ok .vsub
  | 2 => .ok .vmul
  | 3 => .ok .vmulh
  | 4 => .ok .vmin
  | 5 => .ok .vmax
  | 6 => .ok .vand
  | 7 => .ok .vor
  | 8 => .ok .vxor
  | 9 => .ok .vsll
  | 10 => .ok .vsrl
  | 11 => .ok .vsra
  | 12 => .ok .vadds
  | 13 => .ok .vsubs
  | 14 => .ok .vabs
  | 15 => .ok .vdot
  | _ => .error .unassignedFunction

/-- Vfp (0x31). -/
def decodeVfp (w : Nat) : Except DecodeError Opcode :=
  match fieldOf w 0 4 with
  | 0 => .ok .vfadd
  | 1 => .ok .vfsub
  | 2 => .ok .vfmul
  | 3 => .ok .vfdiv
  | 4 => .ok .vfsqrt
  | 5 => .ok .vfmin
  | 6 => .ok .vfmax
  | 7 => .ok .vfma
  | 8 => .ok .vfnma
  | 9 => .ok .vfabs
  | 10 => .ok .vfneg
  | _ => .error .unassignedFunction

/-- Vsfn (0x32). -/
def decodeVsfn (w : Nat) : Except DecodeError Opcode :=
  match fieldOf w 0 4 with
  | 0 => .ok .vexp
  | 1 => .ok .vexp2
  | 2 => .ok .vlog
  | 3 => .ok .vlog2
  | 4 => .ok .vrcp
  | 5 => .ok .vrsqrt
  | 6 => .ok .vsin
  | 7 => .ok .vcos
  | 8 => .ok .vtanh
  | 9 => .ok .vsigm
  | _ => .error .unassignedFunction

/-- Vcmp (0x33). -/
def decodeVcmp (w : Nat) : Except DecodeError Opcode :=
  match fieldOf w 0 4 with
  | 0 => .ok .vcmpEq
  | 1 => .ok .vcmpNe
  | 2 => .ok .vcmpLt
  | 3 => .ok .vcmpLe
  | 4 => .ok .vcmpGt
  | 5 => .ok .vcmpGe
  | 6 => .ok .vwhile
  | 8 => .ok .vfcmpEq
  | 9 => .ok .vfcmpNe
  | 10 => .ok .vfcmpLt
  | 11 => .ok .vfcmpLe
  | 12 => .ok .vfcmpGt
  | 13 => .ok .vfcmpGe
  | 14 => .ok .vfcmpUn
  | _ => .error .unassignedFunction

/-- Vpred (0x34). -/
def decodeVpred (w : Nat) : Except DecodeError Opcode :=
  match fieldOf w 0 4 with
  | 0 => .ok .pand
  | 1 => .ok .por
  | 2 => .ok .pxor
  | 3 => .ok .pandn
  | 4 => .ok .pnot
  | 5 => .ok .pall
  | 6 => .ok .pcnt
  | 7 => .ok .pfirst
  | _ => .error .unassignedFunction

/-- Vperm (0x35). -/
def decodeVperm (w : Nat) : Except DecodeError Opcode :=
  match fieldOf w 0 4 with
  | 0 => .ok .vperm
  | 1 => .ok .vbcast
  | 2 => .ok .vslu
  | 3 => .ok .vsld
  | 4 => .ok .vzip
  | 5 => .ok .vunzip
  | 6 => .ok .vmvx
  | 7 => .ok .vmvv
  | 8 => .ok .vsel
  | 9 => .ok .vcmpr
  | 10 => .ok .vmov
  | 11 => .ok .vlen
  | _ => .error .unassignedFunction

/-- Vred (0x36). -/
def decodeVred (w : Nat) : Except DecodeError Opcode :=
  match fieldOf w 0 4 with
  | 0 => .ok .vredadd
  | 1 => .ok .vredmin
  | 2 => .ok .vredmax
  | 3 => .ok .vredand
  | 4 => .ok .vredor
  | 5 => .ok .vredxor
  | 8 => .ok .vfredadd
  | 9 => .ok .vfredmin
  | 10 => .ok .vfredmax
  | _ => .error .unassignedFunction

/-- Gauss (0x39). -/
def decodeGauss (w : Nat) : Except DecodeError Opcode :=
  match fieldOf w 0 5 with
  | 0 => .ok .gmadd
  | 1 => .ok .gsch
  | 2 => .ok .gdmp
  | 3 => .ok .gmsend
  | 4 => .ok .gmld
  | 5 => .ok .gres
  | 6 => .ok .gpiv
  | 7 => .ok .gmclr
  | _ => .error .unassignedFunction

/-- Mtx (0x3A). -/
def decodeMtx (w : Nat) : Except DecodeError Opcode :=
  match fieldOf w 0 5 with
  | 0 => .ok .mxc
  | 1 => .ok .mxz
  | 2 => .ok .mxld
  | 3 => .ok .mxst
  | 4 => .ok .mxmv
  | 5 => .ok .mxwl
  | 6 => .ok .mxls
  | 7 => .ok .mxlr
  | 8 => .ok .mxstat
  | 9 => .ok .qnt
  | 10 => .ok .xaz
  | 11 => .ok .xafm
  | 12 => .ok .xaadd
  | 13 => .ok .xarnd
  | 14 => .ok .xasgn
  | _ => .error .unassignedFunction

/-- Seq (0x3B). -/
def decodeSeq (w : Nat) : Except DecodeError Opcode :=
  match fieldOf w 0 5 with
  | 0 => .ok .sqslot
  | 1 => .ok .sqrot
  | 2 => .ok .atts
  | 3 => .ok .sqsamp
  | 4 => .ok .sqplay
  | 5 => .ok .sqtrunc
  | 6 => .ok .sqframe
  | 7 => .ok .sqcur
  | _ => .error .unassignedFunction

/-- The scheduling hints (R223): KIND 4 to 7 are one row of the table. -/
def decodeHsch (w : Nat) : Except DecodeError Opcode :=
  match fieldOf w 22 3 with
  | 0 => .ok .hnop
  | 1 => .ok .pfl1
  | 2 => .ok .pfsl
  | 3 => .ok .pfi
  | _ => .ok .hschKind47

/-- The modifier words (R220): bit 31 must be 0. -/
def decodeModifier (op w : Nat) : Except DecodeError Opcode :=
  if bitOf w 31 then .error .marker
  else match op with
    | 0x3C => decodeHsch w
    | 0x3D => if fieldOf w 0 13 = 0 then .ok .hmod else .error .reservedField
    | 0x3E => .ok .himm
    | _ => if fieldOf w 0 14 = 0 then .ok .rep else .error .reservedField

/-- The major opcode map (R227). -/
def opcodeOf (w : Nat) : Except DecodeError Opcode :=
  match fieldOf w 25 6 with
  | 0x01 => decodeInt w
  | 0x02 => .ok .addi
  | 0x03 => .ok .andi
  | 0x04 => .ok .ori
  | 0x05 => .ok .xori
  | 0x06 => decodeShi w
  | 0x07 => .ok .lea
  | 0x08 => decodeBitf w
  | 0x09 => decodeCmp w
  | 0x0A => decodeFpa w
  | 0x0B => decodeFpb w
  | 0x0C => .ok .fcvt
  | 0x10 => .ok .br
  | 0x11 => .ok .call
  | 0x12 => .ok .jmpr
  | 0x13 => .ok .loop
  | 0x14 => decodeCtl w
  | 0x15 => .ok .mfcr
  | 0x16 => .ok .mtcr
  | 0x17 => decodeSys w
  | 0x18 => .ok .ldN8
  | 0x19 => .ok .ldN16
  | 0x1A => .ok .ldN32
  | 0x1B => .ok .ldN64
  | 0x1C => .ok .ldS8
  | 0x1D => .ok .ldS16
  | 0x1E => .ok .ldS32
  | 0x20 => .ok .stN8
  | 0x21 => .ok .stN16
  | 0x22 => .ok .stN32
  | 0x23 => .ok .stN64
  | 0x24 => decodeVld w
  | 0x25 => decodeVst w
  | 0x26 => decodeAmca w
  | 0x27 => decodeAmcb w
  | 0x28 => decodeAfba w
  | 0x29 => decodeAfbb w
  | 0x2A => decodeTile w
  | 0x2B => decodeHeap w
  | 0x2C => decodeSync w
  | 0x2D => decodeStrm w
  | 0x30 => decodeVint w
  | 0x31 => decodeVfp w
  | 0x32 => decodeVsfn w
  | 0x33 => decodeVcmp w
  | 0x34 => decodeVpred w
  | 0x35 => decodeVperm w
  | 0x36 => decodeVred w
  | 0x37 => .ok .vcvt
  | 0x39 => decodeGauss w
  | 0x3A => decodeMtx w
  | 0x3B => decodeSeq w
  | 0x3C => decodeModifier 0x3C w
  | 0x3D => decodeModifier 0x3D w
  | 0x3E => decodeModifier 0x3E w
  | 0x3F => decodeModifier 0x3F w
  | _ => .error .unassignedMajor

/-- The instruction of a row, its operands taken from the word. (noncomputable: Lean's runtime builds no constructor
beyond the 245th of a type; the kernel does. Opcode.bad below and Machine.run are the runnable twins.) -/
noncomputable def Opcode.instr (w : Nat) : Opcode → Instr
  | .add => .add (unpackR w)
  | .sub => .sub (unpackR w)
  | .mul => .mul (unpackR w)
  | .mulhS64 => .mulhS64 (unpackR w)
  | .mulhN64 => .mulhN64 (unpackR w)
  | .divS64 => .divS64 (unpackR w)
  | .divN64 => .divN64 (unpackR w)
  | .remS64 => .remS64 (unpackR w)
  | .remN64 => .remN64 (unpackR w)
  | .and => .and (unpackR w)
  | .or => .or (unpackR w)
  | .xor => .xor (unpackR w)
  | .andn => .andn (unpackR w)
  | .orn => .orn (unpackR w)
  | .xnor => .xnor (unpackR w)
  | .sll => .sll (unpackR w)
  | .srl => .srl (unpackR w)
  | .sra => .sra (unpackR w)
  | .rol => .rol (unpackR w)
  | .ror => .ror (unpackR w)
  | .minS64 => .minS64 (unpackR w)
  | .maxS64 => .maxS64 (unpackR w)
  | .minN64 => .minN64 (unpackR w)
  | .maxN64 => .maxN64 (unpackR w)
  | .clz => .clz (unpackR w)
  | .ctz => .ctz (unpackR w)
  | .popc => .popc (unpackR w)
  | .brev => .brev (unpackR w)
  | .bswap => .bswap (unpackR w)
  | .sext => .sext (unpackR w)
  | .abs => .abs (unpackR w)
  | .addi => .addi (unpackI w)
  | .andi => .andi (unpackI w)
  | .ori => .ori (unpackI w)
  | .xori => .xori (unpackI w)
  | .slli => .slli (unpackSh w)
  | .srli => .srli (unpackSh w)
  | .srai => .srai (unpackSh w)
  | .rori => .rori (unpackSh w)
  | .lea => .lea (unpackI w)
  | .bfxN64 => .bfxN64 (unpackR w)
  | .bfxS64 => .bfxS64 (unpackR w)
  | .bfi => .bfi (unpackR w)
  | .cmpEq => .cmpEq (unpackR w)
  | .cmpNe => .cmpNe (unpackR w)
  | .cmpLtS64 => .cmpLtS64 (unpackR w)
  | .cmpGeS64 => .cmpGeS64 (unpackR w)
  | .cmpLtN64 => .cmpLtN64 (unpackR w)
  | .cmpGeN64 => .cmpGeN64 (unpackR w)
  | .cmpTst => .cmpTst (unpackR w)
  | .cmpTstz => .cmpTstz (unpackR w)
  | .cand => .cand (unpackR w)
  | .cor => .cor (unpackR w)
  | .cxor => .cxor (unpackR w)
  | .candn => .candn (unpackR w)
  | .mfcw => .mfcw (unpackR w)
  | .mtcw => .mtcw (unpackR w)
  | .fadd => .fadd (unpackF w)
  | .fsub => .fsub (unpackF w)
  | .fmul => .fmul (unpackF w)
  | .fdiv => .fdiv (unpackF w)
  | .fsqrt => .fsqrt (unpackF w)
  | .fmin => .fmin (unpackF w)
  | .fmax => .fmax (unpackF w)
  | .fmac => .fmac (unpackF w)
  | .fcmpEq => .fcmpEq (unpackF w)
  | .fcmpLt => .fcmpLt (unpackF w)
  | .fcmpLe => .fcmpLe (unpackF w)
  | .fcmpUn => .fcmpUn (unpackF w)
  | .fclass => .fclass (unpackF w)
  | .fsgn => .fsgn (unpackF w)
  | .fneg => .fneg (unpackF w)
  | .fabs => .fabs (unpackF w)
  | .fcvt => .fcvt (unpackC w)
  | .br => .br (unpackB w)
  | .call => .call (unpackB w)
  | .jmpr => .jmpr (unpackI w)
  | .loop => .loop (unpackI w)
  | .migrA => .migrA (unpackR w)
  | .migrH => .migrH (unpackR w)
  | .migrC => .migrC (unpackR w)
  | .tcom => .tcom (unpackR w)
  | .tret => .tret (unpackR w)
  | .tretRs => .tretRs (unpackR w)
  | .tretDp => .tretDp (unpackR w)
  | .sysc => .sysc (unpackR w)
  | .monc => .monc (unpackR w)
  | .brk => .brk (unpackR w)
  | .mfcr => .mfcr (unpackI w)
  | .mtcr => .mtcr (unpackI w)
  | .feat => .feat (unpackR w)
  | .icinv => .icinv (unpackR w)
  | .isend => .isend (unpackR w)
  | .cancel => .cancel (unpackR w)
  | .ien => .ien (unpackR w)
  | .idis => .idis (unpackR w)
  | .rdcyc => .rdcyc (unpackR w)
  | .ldN8 => .ldN8 (unpackM w)
  | .ldN16 => .ldN16 (unpackM w)
  | .ldN32 => .ldN32 (unpackM w)
  | .ldN64 => .ldN64 (unpackM w)
  | .ldS8 => .ldS8 (unpackM w)
  | .ldS16 => .ldS16 (unpackM w)
  | .ldS32 => .ldS32 (unpackM w)
  | .stN8 => .stN8 (unpackM w)
  | .stN16 => .stN16 (unpackM w)
  | .stN32 => .stN32 (unpackM w)
  | .stN64 => .stN64 (unpackM w)
  | .vld => .vld (unpackVM w)
  | .vlds => .vlds (unpackVM w)
  | .vldx => .vldx (unpackVM w)
  | .vst => .vst (unpackVM w)
  | .vsts => .vsts (unpackVM w)
  | .vstx => .vstx (unpackVM w)
  | .aadd => .aadd (unpackA w)
  | .aand => .aand (unpackA w)
  | .aor => .aor (unpackA w)
  | .axor => .axor (unpackA w)
  | .aminS => .aminS (unpackA w)
  | .amaxS => .amaxS (unpackA w)
  | .aminN => .aminN (unpackA w)
  | .amaxN => .amaxN (unpackA w)
  | .afadd => .afadd (unpackA w)
  | .aswp => .aswp (unpackA w)
  | .acas => .acas (unpackA w)
  | .afor => .afor (unpackA w)
  | .afxor => .afxor (unpackA w)
  | .afminS => .afminS (unpackA w)
  | .afmaxS => .afmaxS (unpackA w)
  | .affadd => .affadd (unpackA w)
  | .tst => .tst (unpackT w)
  | .tld => .tld (unpackT w)
  | .tldc => .tldc (unpackT w)
  | .trel => .trel (unpackT w)
  | .tqry => .tqry (unpackT w)
  | .tsub => .tsub (unpackT w)
  | .tunsub => .tunsub (unpackT w)
  | .tmov => .tmov (unpackT w)
  | .halloc => .halloc (unpackR w)
  | .hfree => .hfree (unpackR w)
  | .fence => .fence (unpackR w)
  | .wpc => .wpc (unpackR w)
  | .barArr => .barArr (unpackR w)
  | .barWait => .barWait (unpackR w)
  | .msend => .msend (unpackR w)
  | .qput => .qput (unpackR w)
  | .qget => .qget (unpackR w)
  | .cwait => .cwait (unpackR w)
  | .ccwait => .ccwait (unpackR w)
  | .cctl => .cctl (unpackR w)
  | .wtarm => .wtarm (unpackR w)
  | .wlpush => .wlpush (unpackR w)
  | .mwait => .mwait (unpackR w)
  | .tqset => .tqset (unpackR w)
  | .ftile => .ftile (unpackR w)
  | .tqfree => .tqfree (unpackR w)
  | .sbind => .sbind (unpackR w)
  | .sunbind => .sunbind (unpackR w)
  | .swait => .swait (unpackR w)
  | .sget => .sget (unpackR w)
  | .sput => .sput (unpackR w)
  | .vsget => .vsget (unpackR w)
  | .vsput => .vsput (unpackR w)
  | .hxfer => .hxfer (unpackR w)
  | .vadd => .vadd (unpackV w)
  | .vsub => .vsub (unpackV w)
  | .vmul => .vmul (unpackV w)
  | .vmulh => .vmulh (unpackV w)
  | .vmin => .vmin (unpackV w)
  | .vmax => .vmax (unpackV w)
  | .vand => .vand (unpackV w)
  | .vor => .vor (unpackV w)
  | .vxor => .vxor (unpackV w)
  | .vsll => .vsll (unpackV w)
  | .vsrl => .vsrl (unpackV w)
  | .vsra => .vsra (unpackV w)
  | .vadds => .vadds (unpackV w)
  | .vsubs => .vsubs (unpackV w)
  | .vabs => .vabs (unpackV w)
  | .vdot => .vdot (unpackV w)
  | .vfadd => .vfadd (unpackV w)
  | .vfsub => .vfsub (unpackV w)
  | .vfmul => .vfmul (unpackV w)
  | .vfdiv => .vfdiv (unpackV w)
  | .vfsqrt => .vfsqrt (unpackV w)
  | .vfmin => .vfmin (unpackV w)
  | .vfmax => .vfmax (unpackV w)
  | .vfma => .vfma (unpackV w)
  | .vfnma => .vfnma (unpackV w)
  | .vfabs => .vfabs (unpackV w)
  | .vfneg => .vfneg (unpackV w)
  | .vexp => .vexp (unpackV w)
  | .vexp2 => .vexp2 (unpackV w)
  | .vlog => .vlog (unpackV w)
  | .vlog2 => .vlog2 (unpackV w)
  | .vrcp => .vrcp (unpackV w)
  | .vrsqrt => .vrsqrt (unpackV w)
  | .vsin => .vsin (unpackV w)
  | .vcos => .vcos (unpackV w)
  | .vtanh => .vtanh (unpackV w)
  | .vsigm => .vsigm (unpackV w)
  | .vcmpEq => .vcmpEq (unpackV w)
  | .vcmpNe => .vcmpNe (unpackV w)
  | .vcmpLt => .vcmpLt (unpackV w)
  | .vcmpLe => .vcmpLe (unpackV w)
  | .vcmpGt => .vcmpGt (unpackV w)
  | .vcmpGe => .vcmpGe (unpackV w)
  | .vwhile => .vwhile (unpackV w)
  | .vfcmpEq => .vfcmpEq (unpackV w)
  | .vfcmpNe => .vfcmpNe (unpackV w)
  | .vfcmpLt => .vfcmpLt (unpackV w)
  | .vfcmpLe => .vfcmpLe (unpackV w)
  | .vfcmpGt => .vfcmpGt (unpackV w)
  | .vfcmpGe => .vfcmpGe (unpackV w)
  | .vfcmpUn => .vfcmpUn (unpackV w)
  | .pand => .pand (unpackV w)
  | .por => .por (unpackV w)
  | .pxor => .pxor (unpackV w)
  | .pandn => .pandn (unpackV w)
  | .pnot => .pnot (unpackV w)
  | .pall => .pall (unpackV w)
  | .pcnt => .pcnt (unpackV w)
  | .pfirst => .pfirst (unpackV w)
  | .vperm => .vperm (unpackV w)
  | .vbcast => .vbcast (unpackV w)
  | .vslu => .vslu (unpackV w)
  | .vsld => .vsld (unpackV w)
  | .vzip => .vzip (unpackV w)
  | .vunzip => .vunzip (unpackV w)
  | .vmvx => .vmvx (unpackV w)
  | .vmvv => .vmvv (unpackV w)
  | .vsel => .vsel (unpackV w)
  | .vcmpr => .vcmpr (unpackV w)
  | .vmov => .vmov (unpackV w)
  | .vlen => .vlen (unpackV w)
  | .vredadd => .vredadd (unpackV w)
  | .vredmin => .vredmin (unpackV w)
  | .vredmax => .vredmax (unpackV w)
  | .vredand => .vredand (unpackV w)
  | .vredor => .vredor (unpackV w)
  | .vredxor => .vredxor (unpackV w)
  | .vfredadd => .vfredadd (unpackV w)
  | .vfredmin => .vfredmin (unpackV w)
  | .vfredmax => .vfredmax (unpackV w)
  | .vcvt => .vcvt (unpackVC w)
  | .gmadd => .gmadd (unpackR w)
  | .gsch => .gsch (unpackR w)
  | .gdmp => .gdmp (unpackR w)
  | .gmsend => .gmsend (unpackR w)
  | .gmld => .gmld (unpackR w)
  | .gres => .gres (unpackR w)
  | .gpiv => .gpiv (unpackR w)
  | .gmclr => .gmclr (unpackR w)
  | .mxc => .mxc (unpackR w)
  | .mxz => .mxz (unpackR w)
  | .mxld => .mxld (unpackR w)
  | .mxst => .mxst (unpackR w)
  | .mxmv => .mxmv (unpackR w)
  | .mxwl => .mxwl (unpackR w)
  | .mxls => .mxls (unpackR w)
  | .mxlr => .mxlr (unpackR w)
  | .mxstat => .mxstat (unpackR w)
  | .qnt => .qnt (unpackR w)
  | .xaz => .xaz (unpackR w)
  | .xafm => .xafm (unpackR w)
  | .xaadd => .xaadd (unpackR w)
  | .xarnd => .xarnd (unpackR w)
  | .xasgn => .xasgn (unpackR w)
  | .sqslot => .sqslot (unpackR w)
  | .sqrot => .sqrot (unpackR w)
  | .atts => .atts (unpackR w)
  | .sqsamp => .sqsamp (unpackR w)
  | .sqplay => .sqplay (unpackR w)
  | .sqtrunc => .sqtrunc (unpackR w)
  | .sqframe => .sqframe (unpackR w)
  | .sqcur => .sqcur (unpackR w)
  | .hnop => .hnop (unpackHsch w)
  | .pfl1 => .pfl1 (unpackHsch w)
  | .pfsl => .pfsl (unpackHsch w)
  | .pfi => .pfi (unpackHsch w)
  | .hmod => .hmod (unpackHmod w)
  | .himm => .himm (unpackHimm w)
  | .rep => .rep (unpackRep w)
  | .hschKind47 => .hschKind47 (unpackHschK w)

/-- Why a row's word is no well-formed instruction: Instr.illFormed of Opcode.instr, without building the term. -/
def Opcode.bad (w : Nat) : Opcode → Option DecodeError
  | .add | .sub | .mul | .mulhS64 | .mulhN64 | .divS64 | .divN64 | .remS64 | .remN64 | .and | .or | .xor
  | .andn | .orn | .xnor | .sll | .srl | .sra | .rol | .ror | .minS64 | .maxS64 | .minN64 | .maxN64 | .sext
  | .bfxN64 | .bfxS64 | .bfi | .isend | .ccwait | .wtarm | .wlpush | .tqset | .ftile | .hxfer | .gmadd
  | .gsch | .gres | .sqslot | .sqsamp | .sqplay | .sqtrunc | .sqcur => none
  | .clz | .ctz | .popc | .brev | .bswap | .abs | .feat | .halloc | .mwait | .gdmp | .gmld | .gpiv | .mxls
  | .mxstat =>
    let o := unpackR w
    firstBad [(o.b == 0, .reservedField)]
  | .addi | .andi | .ori | .xori | .jmpr => none
  | .slli | .srli | .srai | .rori => none
  | .lea | .mfcr =>
    let o := unpackI w
    firstBad [(o.a == 0, .reservedField)]
  | .cmpEq | .cmpNe | .cmpLtS64 | .cmpGeS64 | .cmpLtN64 | .cmpGeN64 | .cmpTst | .cmpTstz =>
    let o := unpackR w
    firstBad [(decide (o.d.toNat < 16), .registerFile)]
  | .cand | .cor | .cxor | .candn =>
    let o := unpackR w
    firstBad [(decide (o.d.toNat < 16), .registerFile), (decide (o.a.toNat < 16), .registerFile), (decide (o.b.toNat < 16), .registerFile)]
  | .mfcw | .rdcyc | .qget | .xarnd =>
    let o := unpackR w
    firstBad [(o.a == 0, .reservedField), (o.b == 0, .reservedField)]
  | .mtcw | .hfree | .tqfree | .mxwl | .mxlr =>
    let o := unpackR w
    firstBad [(o.d == 0, .reservedField), (o.b == 0, .reservedField)]
  | .fadd | .fsub | .fmul | .fdiv | .fmin | .fmax | .fmac | .fsgn => none
  | .fsqrt | .fclass | .fneg | .fabs =>
    let o := unpackF w
    firstBad [(o.b == 0, .reservedField)]
  | .fcmpEq | .fcmpLt | .fcmpLe | .fcmpUn =>
    let o := unpackF w
    firstBad [(decide (o.d.toNat < 16), .registerFile)]
  | .fcvt =>
    let o := unpackC w
    firstBad [(decide (o.c.toNat < 8), .typeCode), (decide (o.b.toNat < 8), .typeCode), (decide (o.c ≠ o.b), .typeCode), (decide (o.c.toNat < 4 ∨ o.b.toNat < 4), .typeCode)]
  | .br | .call => none
  | .loop =>
    let o := unpackI w
    firstBad [(decide (o.k.toNat % 256 ≠ 0), .loopLength)]
  | .migrA | .migrC | .xaadd =>
    let o := unpackR w
    firstBad [(o.b == 0, .reservedField), (decide (o.d.toNat < 2), .reservedField)]
  | .migrH =>
    let o := unpackR w
    firstBad [(decide (o.a.toNat < 16), .registerFile), (decide (o.d.toNat < 2), .reservedField)]
  | .tcom | .tret | .tretRs | .tretDp | .sysc | .monc | .brk | .ien | .idis | .xaz =>
    let o := unpackR w
    firstBad [(o.d == 0, .reservedField), (o.a == 0, .reservedField), (o.b == 0, .reservedField)]
  | .mtcr =>
    let o := unpackI w
    firstBad [(o.d == 0, .reservedField)]
  | .icinv =>
    let o := unpackR w
    firstBad [(o.d == 0, .reservedField), (decide (o.b.toNat < 7), .scope)]
  | .cancel =>
    let o := unpackR w
    firstBad [(o.d == 0, .reservedField), (decide (o.b.toNat < 4), .selector)]
  | .ldN8 | .ldN16 | .ldN32 | .ldN64 | .ldS8 | .ldS16 | .ldS32 | .stN8 | .stN16 | .stN32 | .stN64 =>
    let o := unpackM w
    firstBad [((o.o == 0 || o.o == 3 || decide (o.x.toNat / 8 < 7)), .scope)]
  | .vld | .vst =>
    let o := unpackVM w
    firstBad [(o.b == 0, .reservedField)]
  | .vlds | .vldx | .vsts | .vstx => none
  | .aadd | .aand | .aor | .axor | .aminS | .amaxS | .aminN | .amaxN =>
    let o := unpackA w
    firstBad [(o.d == 0, .reservedField), (decide (o.s.toNat < 7), .scope)]
  | .afadd | .aswp | .acas | .afor | .afxor | .afminS | .afmaxS | .affadd =>
    let o := unpackA w
    firstBad [(decide (o.s.toNat < 7), .scope)]
  | .tst | .tld | .tldc | .tsub => none
  | .trel =>
    let o := unpackT w
    firstBad [(o.a == 0, .reservedField), (o.b == 0, .reservedField)]
  | .tqry | .tunsub | .tmov =>
    let o := unpackT w
    firstBad [(o.b == 0, .reservedField)]
  | .fence =>
    let o := unpackR w
    firstBad [(o.d == 0, .reservedField), (o.a == 0, .reservedField), (decide (o.b.toNat < 7), .scope)]
  | .wpc =>
    let o := unpackR w
    firstBad [(o.d == 0, .reservedField), (o.a == 0, .reservedField), (decide (o.b.toNat < 8), .reservedField)]
  | .barArr =>
    let o := unpackR w
    firstBad [(decide (o.d.toNat < 7), .scope), (decide (o.b.toNat < 16), .registerFile)]
  | .barWait =>
    let o := unpackR w
    firstBad [(o.d == 0, .reservedField), (decide (o.b.toNat < 16), .registerFile)]
  | .msend | .qput | .cwait | .cctl | .gmsend | .gmclr =>
    let o := unpackR w
    firstBad [(o.d == 0, .reservedField)]
  | .sbind | .sput | .vsput =>
    let o := unpackR w
    firstBad [(o.b == 0, .reservedField), (decide (o.d.toNat < 8), .registerFile)]
  | .sunbind | .swait =>
    let o := unpackR w
    firstBad [(o.a == 0, .reservedField), (o.b == 0, .reservedField), (decide (o.d.toNat < 8), .registerFile)]
  | .sget | .vsget =>
    let o := unpackR w
    firstBad [(o.b == 0, .reservedField), (decide (o.a.toNat < 8), .registerFile)]
  | .vadd | .vsub | .vmul | .vmulh | .vmin | .vmax | .vand | .vor | .vxor | .vsll | .vsrl | .vsra | .vadds
  | .vsubs => none
  | .vabs | .vredadd | .vredmin | .vredmax | .vredand | .vredor | .vredxor =>
    let o := unpackV w
    firstBad [(o.b == 0, .reservedField)]
  | .vdot =>
    let o := unpackV w
    firstBad [(decide (o.t.toNat % 4 < 2), .typeCode)]
  | .vfadd | .vfsub | .vfmul | .vfdiv | .vfmin | .vfmax | .vfma | .vfnma =>
    let o := unpackV w
    firstBad [(decide (o.t.toNat < 4), .typeCode)]
  | .vfsqrt | .vfabs | .vfneg | .vfredadd | .vfredmin | .vfredmax =>
    let o := unpackV w
    firstBad [(o.b == 0, .reservedField), (decide (o.t.toNat < 4), .typeCode)]
  | .vexp | .vexp2 | .vlog | .vlog2 | .vrcp | .vrsqrt | .vsin | .vcos | .vtanh | .vsigm =>
    let o := unpackV w
    firstBad [(o.b == 0, .reservedField), (decide (0 < o.t.toNat ∧ o.t.toNat < 4), .typeCode)]
  | .vcmpEq | .vcmpNe | .vcmpLt | .vcmpLe | .vcmpGt | .vcmpGe | .vwhile =>
    let o := unpackV w
    firstBad [(decide (o.d.toNat < 8), .registerFile)]
  | .vfcmpEq | .vfcmpNe | .vfcmpLt | .vfcmpLe | .vfcmpGt | .vfcmpGe | .vfcmpUn =>
    let o := unpackV w
    firstBad [(decide (o.d.toNat < 8), .registerFile), (decide (o.t.toNat < 4), .typeCode)]
  | .pand | .por | .pxor | .pandn =>
    let o := unpackV w
    firstBad [(o.p == 0, .reservedField), (o.t == 0, .reservedField), (decide (o.d.toNat < 8), .registerFile), (decide (o.a.toNat < 8), .registerFile), (decide (o.b.toNat < 8), .registerFile)]
  | .pnot | .pfirst =>
    let o := unpackV w
    firstBad [(o.b == 0, .reservedField), (o.p == 0, .reservedField), (o.t == 0, .reservedField), (decide (o.d.toNat < 8), .registerFile), (decide (o.a.toNat < 8), .registerFile)]
  | .pall =>
    let o := unpackV w
    firstBad [(o.a == 0, .reservedField), (o.b == 0, .reservedField), (o.p == 0, .reservedField), (o.t == 0, .reservedField), (decide (o.d.toNat < 8), .registerFile)]
  | .pcnt =>
    let o := unpackV w
    firstBad [(o.b == 0, .reservedField), (o.p == 0, .reservedField), (o.t == 0, .reservedField), (decide (o.a.toNat < 8), .registerFile)]
  | .vperm | .vslu | .vsld | .vzip | .vunzip | .vsel =>
    let o := unpackV w
    firstBad [(o.t == 0, .reservedField)]
  | .vbcast =>
    let o := unpackV w
    firstBad [(o.a == 0, .reservedField), (decide (o.t.toNat < 4), .typeCode)]
  | .vmvx | .vmvv =>
    let o := unpackV w
    firstBad [(o.p == 0, .reservedField), (decide (o.t.toNat < 4), .typeCode)]
  | .vcmpr | .vmov =>
    let o := unpackV w
    firstBad [(o.b == 0, .reservedField), (o.t == 0, .reservedField)]
  | .vlen =>
    let o := unpackV w
    firstBad [(o.a == 0, .reservedField), (o.b == 0, .reservedField), (o.p == 0, .reservedField), (o.t == 0, .reservedField)]
  | .vcvt =>
    let o := unpackVC w
    firstBad [(decide (o.b.toNat < 16), .reservedField), (o.t == 0, .reservedField), (decide (o.c.toNat < 15), .typeCode), (decide (o.b.toNat % 16 < 15), .typeCode), (decide (o.c.toNat ≠ o.b.toNat), .typeCode)]
  | .mxc =>
    let o := unpackR w
    firstBad [(decide (o.d.toNat < 29), .registerFile), (decide (o.a.toNat < 31), .registerFile), (decide (o.b.toNat < 31), .registerFile)]
  | .mxz =>
    let o := unpackR w
    firstBad [(o.a == 0, .reservedField), (o.b == 0, .reservedField), (decide (o.d.toNat < 4), .registerFile)]
  | .mxld | .mxst =>
    let o := unpackR w
    firstBad [(decide (o.d.toNat < 4), .registerFile)]
  | .mxmv =>
    let o := unpackR w
    firstBad [(decide (o.a.toNat < 4), .registerFile)]
  | .qnt | .sqrot | .sqframe =>
    let o := unpackR w
    firstBad [(decide (o.b.toNat < 31), .registerFile)]
  | .xafm =>
    let o := unpackR w
    firstBad [(decide (o.d.toNat < 2), .reservedField)]
  | .xasgn =>
    let o := unpackR w
    firstBad [(o.a == 0, .reservedField), (decide (o.d.toNat < 16), .registerFile), (decide (o.b.toNat < 3), .selector)]
  | .atts =>
    let o := unpackR w
    firstBad [(decide (o.d.toNat < 29), .registerFile)]
  | .hnop | .pfl1 | .pfsl | .pfi => none
  | .hmod =>
    let o := unpackHmod w
    firstBad [(decide (o.r.toNat < 5), .rounding)]
  | .himm => none
  | .rep => none
  | .hschKind47 =>
    let o := unpackHschK w
    firstBad [(decide (4 ≤ o.kind.toNat), .selector)]

theorem Opcode.bad_eq (w : Nat) (r : Opcode) : r.bad w = (r.instr w).illFormed := by
  cases r <;> rfl

/-- The row of a word, or why it is no instruction (R233, R234). -/
def decodeRow (w : BitVec 32) : Except DecodeError Opcode :=
  match opcodeOf w.toNat with
  | .error e => .error e
  | .ok r =>
    match r.bad w.toNat with
    | some e => .error e
    | none => .ok r

/-- The decoder: total on any word, refusing by name (R233, R234). -/
noncomputable def decode (w : BitVec 32) : Except DecodeError Instr :=
  match opcodeOf w.toNat with
  | .error e => .error e
  | .ok r =>
    match (r.instr w.toNat).illFormed with
    | some e => .error e
    | none => .ok (r.instr w.toNat)

/-- decode is decodeRow with the operands filled in. -/
theorem decode_eq_row (w : BitVec 32) : decode w = (decodeRow w).map (Opcode.instr w.toNat) := by
  unfold decode decodeRow
  cases opcodeOf w.toNat with
  | error e => rfl
  | ok r => simp only [Opcode.bad_eq]; cases (r.instr w.toNat).illFormed <;> rfl

/-- The bytes of a number, least significant first (R8). -/
def leBytes : Nat → Nat → List Byte
  | 0, _ => []
  | n + 1, w => BitVec.ofNat 8 w :: leBytes n (w / 256)

/-- The number that bytes hold, least significant first (R8). -/
def leNat : List Byte → Nat
  | [] => 0
  | b :: t => b.toNat + 256 * leNat t

/-- The instruction word that four bytes at rising addresses hold: little-endian (R8, R215). -/
def wordOfBytes (bs : List Byte) : BitVec 32 := .ofNat 32 (leNat (bs.take 4))

/-- The instruction this decoder reads from a table word of nbits bits: its bytes as the machine stores them, a row's
missing bits zero. The machine's own steps have no bits and are no words. -/
noncomputable def decodeTableWord (nbits w : Nat) : Option Instr :=
  if nbits = 0 then none
  else
    match decode (wordOfBytes (leBytes 4 w)) with
    | .ok i => some i
    | .error _ => none

/-! ## The encoder -/

/-- The word of an instruction; none for the machine's own steps, which have no encoding. -/
def encodeNat : Instr → Option Nat
  | .add o => some (packR 0x01 0 o)
  | .sub o => some (packR 0x01 1 o)
  | .mul o => some (packR 0x01 2 o)
  | .mulhS64 o => some (packR 0x01 3 o)
  | .mulhN64 o => some (packR 0x01 4 o)
  | .divS64 o => some (packR 0x01 5 o)
  | .divN64 o => some (packR 0x01 6 o)
  | .remS64 o => some (packR 0x01 7 o)
  | .remN64 o => some (packR 0x01 8 o)
  | .and o => some (packR 0x01 9 o)
  | .or o => some (packR 0x01 10 o)
  | .xor o => some (packR 0x01 11 o)
  | .andn o => some (packR 0x01 12 o)
  | .orn o => some (packR 0x01 13 o)
  | .xnor o => some (packR 0x01 14 o)
  | .sll o => some (packR 0x01 15 o)
  | .srl o => some (packR 0x01 16 o)
  | .sra o => some (packR 0x01 17 o)
  | .rol o => some (packR 0x01 18 o)
  | .ror o => some (packR 0x01 19 o)
  | .minS64 o => some (packR 0x01 20 o)
  | .maxS64 o => some (packR 0x01 21 o)
  | .minN64 o => some (packR 0x01 22 o)
  | .maxN64 o => some (packR 0x01 23 o)
  | .clz o => some (packR 0x01 24 o)
  | .ctz o => some (packR 0x01 25 o)
  | .popc o => some (packR 0x01 26 o)
  | .brev o => some (packR 0x01 27 o)
  | .bswap o => some (packR 0x01 28 o)
  | .sext o => some (packR 0x01 29 o)
  | .abs o => some (packR 0x01 30 o)
  | .addi o => some (packI 0x02 o)
  | .andi o => some (packI 0x03 o)
  | .ori o => some (packI 0x04 o)
  | .xori o => some (packI 0x05 o)
  | .slli o => some (packSh 0x06 0 o)
  | .srli o => some (packSh 0x06 1 o)
  | .srai o => some (packSh 0x06 2 o)
  | .rori o => some (packSh 0x06 3 o)
  | .lea o => some (packI 0x07 o)
  | .bfxN64 o => some (packR 0x08 0 o)
  | .bfxS64 o => some (packR 0x08 1 o)
  | .bfi o => some (packR 0x08 2 o)
  | .cmpEq o => some (packR 0x09 0 o)
  | .cmpNe o => some (packR 0x09 1 o)
  | .cmpLtS64 o => some (packR 0x09 2 o)
  | .cmpGeS64 o => some (packR 0x09 3 o)
  | .cmpLtN64 o => some (packR 0x09 4 o)
  | .cmpGeN64 o => some (packR 0x09 5 o)
  | .cmpTst o => some (packR 0x09 6 o)
  | .cmpTstz o => some (packR 0x09 7 o)
  | .cand o => some (packR 0x09 8 o)
  | .cor o => some (packR 0x09 9 o)
  | .cxor o => some (packR 0x09 10 o)
  | .candn o => some (packR 0x09 11 o)
  | .mfcw o => some (packR 0x09 12 o)
  | .mtcw o => some (packR 0x09 13 o)
  | .fadd o => some (packF 0x0A 0 o)
  | .fsub o => some (packF 0x0A 1 o)
  | .fmul o => some (packF 0x0A 2 o)
  | .fdiv o => some (packF 0x0A 3 o)
  | .fsqrt o => some (packF 0x0A 4 o)
  | .fmin o => some (packF 0x0A 5 o)
  | .fmax o => some (packF 0x0A 6 o)
  | .fmac o => some (packF 0x0A 7 o)
  | .fcmpEq o => some (packF 0x0B 0 o)
  | .fcmpLt o => some (packF 0x0B 1 o)
  | .fcmpLe o => some (packF 0x0B 2 o)
  | .fcmpUn o => some (packF 0x0B 3 o)
  | .fclass o => some (packF 0x0B 4 o)
  | .fsgn o => some (packF 0x0B 5 o)
  | .fneg o => some (packF 0x0B 6 o)
  | .fabs o => some (packF 0x0B 7 o)
  | .fcvt o => some (packC 0x0C o)
  | .br o => some (packB 0x10 o)
  | .call o => some (packB 0x11 o)
  | .jmpr o => some (packI 0x12 o)
  | .loop o => some (packI 0x13 o)
  | .migrA o => some (packR 0x14 0 o)
  | .migrH o => some (packR 0x14 1 o)
  | .migrC o => some (packR 0x14 2 o)
  | .tcom o => some (packR 0x14 3 o)
  | .tret o => some (packR 0x14 4 o)
  | .tretRs o => some (packR 0x14 5 o)
  | .tretDp o => some (packR 0x14 6 o)
  | .sysc o => some (packR 0x14 7 o)
  | .monc o => some (packR 0x14 8 o)
  | .brk o => some (packR 0x14 9 o)
  | .mfcr o => some (packI 0x15 o)
  | .mtcr o => some (packI 0x16 o)
  | .feat o => some (packR 0x17 0 o)
  | .icinv o => some (packR 0x17 1 o)
  | .isend o => some (packR 0x17 2 o)
  | .cancel o => some (packR 0x17 3 o)
  | .ien o => some (packR 0x17 4 o)
  | .idis o => some (packR 0x17 5 o)
  | .rdcyc o => some (packR 0x17 6 o)
  | .ldN8 o => some (packM 0x18 o)
  | .ldN16 o => some (packM 0x19 o)
  | .ldN32 o => some (packM 0x1A o)
  | .ldN64 o => some (packM 0x1B o)
  | .ldS8 o => some (packM 0x1C o)
  | .ldS16 o => some (packM 0x1D o)
  | .ldS32 o => some (packM 0x1E o)
  | .stN8 o => some (packM 0x20 o)
  | .stN16 o => some (packM 0x21 o)
  | .stN32 o => some (packM 0x22 o)
  | .stN64 o => some (packM 0x23 o)
  | .vld o => some (packVM 0x24 0 o)
  | .vlds o => some (packVM 0x24 1 o)
  | .vldx o => some (packVM 0x24 2 o)
  | .vst o => some (packVM 0x25 0 o)
  | .vsts o => some (packVM 0x25 1 o)
  | .vstx o => some (packVM 0x25 2 o)
  | .aadd o => some (packA 0x26 0 o)
  | .aand o => some (packA 0x26 1 o)
  | .aor o => some (packA 0x26 2 o)
  | .axor o => some (packA 0x26 3 o)
  | .aminS o => some (packA 0x27 0 o)
  | .amaxS o => some (packA 0x27 1 o)
  | .aminN o => some (packA 0x27 2 o)
  | .amaxN o => some (packA 0x27 3 o)
  | .afadd o => some (packA 0x28 0 o)
  | .aswp o => some (packA 0x28 1 o)
  | .acas o => some (packA 0x28 2 o)
  | .afor o => some (packA 0x28 3 o)
  | .afxor o => some (packA 0x29 0 o)
  | .afminS o => some (packA 0x29 1 o)
  | .afmaxS o => some (packA 0x29 2 o)
  | .affadd o => some (packA 0x29 3 o)
  | .tst o => some (packT 0x2A 0 o)
  | .tld o => some (packT 0x2A 1 o)
  | .tldc o => some (packT 0x2A 2 o)
  | .trel o => some (packT 0x2A 3 o)
  | .tqry o => some (packT 0x2A 4 o)
  | .tsub o => some (packT 0x2A 5 o)
  | .tunsub o => some (packT 0x2A 6 o)
  | .tmov o => some (packT 0x2A 7 o)
  | .halloc o => some (packR 0x2B 0 o)
  | .hfree o => some (packR 0x2B 1 o)
  | .fence o => some (packR 0x2C 0 o)
  | .wpc o => some (packR 0x2C 1 o)
  | .barArr o => some (packR 0x2C 2 o)
  | .barWait o => some (packR 0x2C 3 o)
  | .msend o => some (packR 0x2C 4 o)
  | .qput o => some (packR 0x2C 5 o)
  | .qget o => some (packR 0x2C 6 o)
  | .cwait o => some (packR 0x2C 7 o)
  | .ccwait o => some (packR 0x2C 8 o)
  | .cctl o => some (packR 0x2C 9 o)
  | .wtarm o => some (packR 0x2C 10 o)
  | .wlpush o => some (packR 0x2C 11 o)
  | .mwait o => some (packR 0x2C 12 o)
  | .tqset o => some (packR 0x2C 13 o)
  | .ftile o => some (packR 0x2C 14 o)
  | .tqfree o => some (packR 0x2C 15 o)
  | .sbind o => some (packR 0x2D 0 o)
  | .sunbind o => some (packR 0x2D 1 o)
  | .swait o => some (packR 0x2D 2 o)
  | .sget o => some (packR 0x2D 3 o)
  | .sput o => some (packR 0x2D 4 o)
  | .vsget o => some (packR 0x2D 5 o)
  | .vsput o => some (packR 0x2D 6 o)
  | .hxfer o => some (packR 0x2D 7 o)
  | .vadd o => some (packV 0x30 0 o)
  | .vsub o => some (packV 0x30 1 o)
  | .vmul o => some (packV 0x30 2 o)
  | .vmulh o => some (packV 0x30 3 o)
  | .vmin o => some (packV 0x30 4 o)
  | .vmax o => some (packV 0x30 5 o)
  | .vand o => some (packV 0x30 6 o)
  | .vor o => some (packV 0x30 7 o)
  | .vxor o => some (packV 0x30 8 o)
  | .vsll o => some (packV 0x30 9 o)
  | .vsrl o => some (packV 0x30 10 o)
  | .vsra o => some (packV 0x30 11 o)
  | .vadds o => some (packV 0x30 12 o)
  | .vsubs o => some (packV 0x30 13 o)
  | .vabs o => some (packV 0x30 14 o)
  | .vdot o => some (packV 0x30 15 o)
  | .vfadd o => some (packV 0x31 0 o)
  | .vfsub o => some (packV 0x31 1 o)
  | .vfmul o => some (packV 0x31 2 o)
  | .vfdiv o => some (packV 0x31 3 o)
  | .vfsqrt o => some (packV 0x31 4 o)
  | .vfmin o => some (packV 0x31 5 o)
  | .vfmax o => some (packV 0x31 6 o)
  | .vfma o => some (packV 0x31 7 o)
  | .vfnma o => some (packV 0x31 8 o)
  | .vfabs o => some (packV 0x31 9 o)
  | .vfneg o => some (packV 0x31 10 o)
  | .vexp o => some (packV 0x32 0 o)
  | .vexp2 o => some (packV 0x32 1 o)
  | .vlog o => some (packV 0x32 2 o)
  | .vlog2 o => some (packV 0x32 3 o)
  | .vrcp o => some (packV 0x32 4 o)
  | .vrsqrt o => some (packV 0x32 5 o)
  | .vsin o => some (packV 0x32 6 o)
  | .vcos o => some (packV 0x32 7 o)
  | .vtanh o => some (packV 0x32 8 o)
  | .vsigm o => some (packV 0x32 9 o)
  | .vcmpEq o => some (packV 0x33 0 o)
  | .vcmpNe o => some (packV 0x33 1 o)
  | .vcmpLt o => some (packV 0x33 2 o)
  | .vcmpLe o => some (packV 0x33 3 o)
  | .vcmpGt o => some (packV 0x33 4 o)
  | .vcmpGe o => some (packV 0x33 5 o)
  | .vwhile o => some (packV 0x33 6 o)
  | .vfcmpEq o => some (packV 0x33 8 o)
  | .vfcmpNe o => some (packV 0x33 9 o)
  | .vfcmpLt o => some (packV 0x33 10 o)
  | .vfcmpLe o => some (packV 0x33 11 o)
  | .vfcmpGt o => some (packV 0x33 12 o)
  | .vfcmpGe o => some (packV 0x33 13 o)
  | .vfcmpUn o => some (packV 0x33 14 o)
  | .pand o => some (packV 0x34 0 o)
  | .por o => some (packV 0x34 1 o)
  | .pxor o => some (packV 0x34 2 o)
  | .pandn o => some (packV 0x34 3 o)
  | .pnot o => some (packV 0x34 4 o)
  | .pall o => some (packV 0x34 5 o)
  | .pcnt o => some (packV 0x34 6 o)
  | .pfirst o => some (packV 0x34 7 o)
  | .vperm o => some (packV 0x35 0 o)
  | .vbcast o => some (packV 0x35 1 o)
  | .vslu o => some (packV 0x35 2 o)
  | .vsld o => some (packV 0x35 3 o)
  | .vzip o => some (packV 0x35 4 o)
  | .vunzip o => some (packV 0x35 5 o)
  | .vmvx o => some (packV 0x35 6 o)
  | .vmvv o => some (packV 0x35 7 o)
  | .vsel o => some (packV 0x35 8 o)
  | .vcmpr o => some (packV 0x35 9 o)
  | .vmov o => some (packV 0x35 10 o)
  | .vlen o => some (packV 0x35 11 o)
  | .vredadd o => some (packV 0x36 0 o)
  | .vredmin o => some (packV 0x36 1 o)
  | .vredmax o => some (packV 0x36 2 o)
  | .vredand o => some (packV 0x36 3 o)
  | .vredor o => some (packV 0x36 4 o)
  | .vredxor o => some (packV 0x36 5 o)
  | .vfredadd o => some (packV 0x36 8 o)
  | .vfredmin o => some (packV 0x36 9 o)
  | .vfredmax o => some (packV 0x36 10 o)
  | .vcvt o => some (packVC 0x37 o)
  | .gmadd o => some (packR 0x39 0 o)
  | .gsch o => some (packR 0x39 1 o)
  | .gdmp o => some (packR 0x39 2 o)
  | .gmsend o => some (packR 0x39 3 o)
  | .gmld o => some (packR 0x39 4 o)
  | .gres o => some (packR 0x39 5 o)
  | .gpiv o => some (packR 0x39 6 o)
  | .gmclr o => some (packR 0x39 7 o)
  | .mxc o => some (packR 0x3A 0 o)
  | .mxz o => some (packR 0x3A 1 o)
  | .mxld o => some (packR 0x3A 2 o)
  | .mxst o => some (packR 0x3A 3 o)
  | .mxmv o => some (packR 0x3A 4 o)
  | .mxwl o => some (packR 0x3A 5 o)
  | .mxls o => some (packR 0x3A 6 o)
  | .mxlr o => some (packR 0x3A 7 o)
  | .mxstat o => some (packR 0x3A 8 o)
  | .qnt o => some (packR 0x3A 9 o)
  | .xaz o => some (packR 0x3A 10 o)
  | .xafm o => some (packR 0x3A 11 o)
  | .xaadd o => some (packR 0x3A 12 o)
  | .xarnd o => some (packR 0x3A 13 o)
  | .xasgn o => some (packR 0x3A 14 o)
  | .sqslot o => some (packR 0x3B 0 o)
  | .sqrot o => some (packR 0x3B 1 o)
  | .atts o => some (packR 0x3B 2 o)
  | .sqsamp o => some (packR 0x3B 3 o)
  | .sqplay o => some (packR 0x3B 4 o)
  | .sqtrunc o => some (packR 0x3B 5 o)
  | .sqframe o => some (packR 0x3B 6 o)
  | .sqcur o => some (packR 0x3B 7 o)
  | .hnop o => some (packHsch 0 o)
  | .pfl1 o => some (packHsch 1 o)
  | .pfsl o => some (packHsch 2 o)
  | .pfi o => some (packHsch 3 o)
  | .hmod o => some (packHmod o)
  | .himm o => some (packHimm o)
  | .rep o => some (packRep o)
  | .hschKind47 o => some (packHschK o)
  | .trinvRange _ | .trinvJob _ | .trinvAll _ | .trinvDone _ | .jobswSuspend _ | .jobswResume _
  | .sqstatClear _ | .nlkstStart _ | .collectiveAllreduce _ | .collectiveBroadcast _ | .hostToDevice _
  | .deviceToHost _ | .collectiveCompletion _ | .collectiveCancelNotice _ | .collectiveTimeout _ | .bringUp _
  | .query _ | .attest _ | .events _ | .config _ | .monitor _ | .fuseRevoke _ | .linkclr _ | .qdbDoorbell _
  | .nopEntry _ | .launchEntry _ | .graphEntry _ | .cancelEntry _ | .priorityEntry _ | .signalEntry _
  | .entryAdmission _ | .dandelionWake _ | .nolkaiMulticast _ | .rerankNotice _ | .launchCompletion _
  | .hostRead _ | .hostWrite _ | .loaderChoice _ | .threadStart _ | .sextantBalance _ | .workListShipment _
  | .meridianSample _ | .cancelFlood _ | .migrantPacketArrival _ | .faultResponse _ | .trapEntry _
  | .interruptEntry _ | .timerInterrupt _ | .softInterruptDelivery _ | .singleStep _ | .preemption _
  | .contextSaveDone _ | .resultReturn _ | .lineFill _ | .speculativeStoreReceipt _ | .commitInstall _
  | .regionMerge _ | .revoke _ | .deregistration _ | .forwardedRead _ | .copySliceMiss _ | .copyFillArrival _
  | .copyInvalidation _ | .holderNotice _ | .commutativeFlush _ | .collection _ | .fallBackAtomicGrant _
  | .remoteScratchpadWrite _ | .remoteScratchpadRead _ | .sliceRetentionSleep _ | .sliceWake _
  | .ephemerisCreate _ | .ephemerisLoad _ | .ephemerisRelease _ | .ephemerisPin _ | .ephemerisUnpin _
  | .ephemerisCommit _ | .ephemerisDiscard _ | .waiterCancel _ | .subscriptionRecord _ | .arrivalNotice _
  | .stallResume _ | .pressureReport _ | .promotionCompletion _ | .frameAdmission _ | .streamFillElement _
  | .streamDrainWrite _ | .heliostatLineReceive _ | .matrixDispatch _ | .matrixCommandCompletion _
  | .solverOperationCompletion _ | .msendDelivery _ | .qputDelivery _ | .mailboxMessageArrival _
  | .linkTraining _ | .nolkaiFlitReceipt _ | .nolkaiNak _ | .ucieFlitReceipt _ | .governorGrant _
  | .powerCapStart _ | .powerCapEnd _ | .eventReport _ | .nonSpeculativeHomeWrite _ | .sliceStallWake _
  | .illegalEncoding _ | .reset _ => none

/-- The 32-bit word of an instruction (R216). -/
def encode (i : Instr) : Option (BitVec 32) :=
  match encodeNat i with
  | some n => some (.ofNat 32 n)
  | none => none

end Sys2Proof
end

