-- ==== Sys2Proof/Config.lean ====
section
/-! DEFINITION. What every M64 fixes (R1, R6, R7, R65, R77 and the tables' sizes), and the values the spec leaves open:
opaque constants without a body, applied to what they depend on, so that nothing can be proved of them. -/

namespace Sys2Proof.Config

/-! ## The part -/

/-- Cores per cluster, clusters per die, dies per module, slots per core, slices per die (R1). -/
def coresPerDie : Nat := 96
def diesPerModule : Nat := 64
def coresPerModule : Nat := 6144
def slotsPerCore : Nat := 16
def slicesPerDie : Nat := 16
def maxModules : Nat := 64
/-- Bytes of a core's scratchpad (R65). -/
def scratchBytes : Nat := 0x80000
/-- Bytes of a die's HBM4 (R4): 48 GiB. -/
def dieBytes : Nat := 48 * 2 ^ 30
/-- The most speculative units of a task (R165), outstanding long-class results (R159) and posting-counter count (R126). -/
def maxUnits : Nat := 4096
def maxOutstanding : Nat := 16
def maxPosted : Nat := 4095
/-- Table sizes: run queue (R164), share queue (R181), waiting tasks (R188), work list (R190), cancel of tile queue (R193),
receive queue (R297), commutative buffer (R108), launch table (R179), Ephemeris (R35), subscriptions (R55), region directory
(R97), commutative directory (R109), registration directory (R96), synonym filter (R26), save frames (R210), solver queue
(R370), event ring (R427), replay buffer (R408). -/
def runQueue : Nat := 32
def shareQueue : Nat := 16
def waitingTasks : Nat := 64
def workList : Nat := 512
def tileQueue : Nat := 8
def recvQueue : Nat := 64
def commBuffer : Nat := 32
def launchTable : Nat := 4096
def ephemeris : Nat := 65536
def subscriptions : Nat := 8192
def regionDir : Nat := 8192
def commDir : Nat := 2048
def regDir : Nat := 16384
def synonyms : Nat := 65536
def saveFrames : Nat := 64
def solverQueue : Nat := 8
def eventRing : Nat := 4096
def replayBuffer : Nat := 512
/-- The requests that a slice queues (R84). -/
def sliceQueue : Nat := 64

/-! ## Values the spec leaves open -/

/-- The bits a special function returns inside its error bound (R316): any value, by function, format and operand bits.
(DESIGN CHOICE, log 12) -/
opaque specialFn : Nat → Nat → Nat → Nat
/-- A value that nothing fixes, one for each reading of the counter State.fresh. (DESIGN CHOICE, logs 13 and 18) -/
opaque freeWord : Nat → Word
/-- The SHA-384 digest of bytes (R420, R423). (DESIGN CHOICE, log 14) -/
opaque sha384 : List Byte → BitVec 384
/-- Whether an ECDSA P-384 signature over a digest verifies against the public key of a digest (R420). (DESIGN CHOICE, log 14) -/
opaque ecdsaVerifies : BitVec 384 → BitVec 384 → BitVec 768 → Bool
/-- An ECDSA P-384 signature by a private key over a digest, one for each value of the counter (R423). (DESIGN CHOICE, log 14) -/
opaque ecdsaSign : BitVec 384 → BitVec 384 → Nat → BitVec 768
/-- The fused seed of a module, and the private half of the P-384 key pair that is derived from a seed (R423). (DESIGN CHOICE, log 14) -/
opaque fusedSeed : Nat → BitVec 384
opaque identityKey : BitVec 384 → BitVec 384
/-- The length of the identity certificate of a module and its bytes (R422). (DESIGN CHOICE, log 14) -/
opaque certificateLength : Nat → Nat
opaque certificateByte : Nat → Nat → Byte
/-- The two fused key slots of a module (R420): whether a slot holds a key, the SHA-384 digest of its public key, and the fused minimum
security version. (DESIGN CHOICE, log 15) -/
opaque keyFused : Nat → Nat → Bool
opaque fusedKey : Nat → Nat → BitVec 384
opaque fusedMinVersion : Nat → BitVec 32
/-- The estimated current of work, in mA (R425): 0 a vector unit that leaves its idle state, 1 + c a matrix command of the bits c; and the
cycles after its last instruction for which a vector unit is not idle. (DESIGN CHOICE, log 66) -/
opaque workCurrent : Nat → Nat
opaque vectorIdle : Nat
/-- The STATUS of a mailbox command that has been performed, and of one whose operand is refused (R422 names neither). (DESIGN CHOICE, log 16) -/
opaque statusDone : BitVec 8
opaque statusRefused : BitVec 8

end Sys2Proof.Config
end

