-- ==== Sys2Proof/Machine/State.lean ====
section
/-! DEFINITION. The state of a load-store domain of Camzel M64 modules, as plain data: the threads, the tables of the cores,
clusters, slices, controllers, dies and modules, the memories, and the agenda of messages and steps that are on their way.
Units are held in tables by number: global core = module × 6,144 + die × 96 + cluster × 8 + core (R6), global thread
= core × 16 + slot (R7), global die = module × 64 + die, global slice = global die × 16 + slice, global controller
= global die × 4 + controller, global cluster = global core div 8. A unit that a table does not list is as reset leaves it. -/

namespace Sys2Proof.Machine

/-! ## Reasons to stop -/

/-- Why the machine stops with a fault. The part itself never stops: every fault of the spec is a trap, a fault response or a
status, which are next states. (DEDUCED, log 10) -/
inductive Fault where
  /-- Never raised: the spec describes no stop of the whole module. Safe. -/
  | stopped
  deriving DecidableEq, Repr

/-- Why the model gives an instruction no meaning. -/
inductive Refusal where
  /-- An instruction that has no meaning yet, by its mnemonic: raised by Dispatch only. Safe. -/
  | notModelled (mnemonic : String)
  deriving DecidableEq, Repr

/-! ## Threads -/

/-- The state of a stream register (R74). -/
inductive StreamMode where
  | unbound | fill | drain | ended
  deriving DecidableEq, Repr

/-- A stream register (R72 to R74): its descriptor, the index of the next element the thread reads or writes, the elements
fetched ahead (fill) or queued (drain), and the next element the engine fetches or writes. -/
structure Stream where
  mode : StreamMode
  drains : Bool
  desc : BitVec 512
  next : Nat
  engine : Nat
  buf : List (Line × Option FaultRec)
  pc : Word
  deriving DecidableEq, Repr

/-- The exact accumulator (R260). -/
structure Xa where
  nan : Bool
  pinf : Bool
  ninf : Bool
  ovf : Bool
  val : BitVec 4220
  deriving DecidableEq, Repr

/-- What a thread that does not issue waits for (R159, R206). -/
inductive Wake where
  /-- its outstanding long-class results: a switch marker, an acquire (R159) -/
  | results
  /-- the results of its earlier loads and atomics, at a release: a blocking point (R119) -/
  | returned
  /-- the acknowledgements of a commit at or past R128 step 4, or of an instruction that retires on completion (R263) -/
  | acks
  /-- its speculative stores and creates reaching their homes (R128 step 2) -/
  | specs
  /-- posting counters that must be zero (R126) -/
  | counters (pd px po : Bool)
  /-- room below 4,095 in a posting counter (R126) -/
  | room (c : PostCtr)
  /-- its engine operations that write linear memory (R128 step 3); all of them (R162 step 2) -/
  | engines
  | allEngines
  /-- its earlier writes to host memory, at a release of scope SYSTEM: a blocking point (R119) -/
  | hostWrites
  /-- a hardware barrier's phase (R294) -/
  | barrier (b : Nat) (phase : Nat)
  /-- a message on port qr (R297) -/
  | queue
  /-- the next element of a fill stream, room in a drain stream or the end of its writes (R74) -/
  | fill (s : Nat)
  | drainRoom (s : Nat)
  | drainEnd (s : Nat)
  /-- a tile version: recorded at its home, or at the notice filter of the thread's die (R39, R56) -/
  | tile (handle : Word) (module : Nat) (filter : Bool)
  /-- an arrival counter, a completion counter (R299) -/
  | arrival (c thr : Nat)
  | completion (i thr : Nat)
  /-- a termination after ENDS (R299) -/
  | meridian (ch ends : Nat)
  /-- a slice stall (R51) -/
  | stall (gslice : Nat) (until_ : Nat)
  /-- an entry of a full table: 0 waiting tasks, 1 work list, 2 tile queue -/
  | tableFull (k : Nat)
  /-- TRINV.BUSY, JOBSW.BUSY (R28, R211) -/
  | trinv
  | jobsw
  /-- a unit that cannot take the instruction at this turn (R173): no blocking point -/
  | unit
  /-- accumulator tiles becoming READY (R349, R350) -/
  | ready (mask : BitVec 4)
  /-- the cancel that the thread itself has asked for (R282): nothing else ends the wait -/
  | stop
  /-- a heap answer, a frame answer, or another answer to a request of this instruction (R62, R149) -/
  | answer
  deriving DecidableEq, Repr

/-- Whether and why a slot's thread issues. -/
inductive TStatus where
  /-- no context in the slot -/
  | absent
  /-- runnable (R158) -/
  | ready
  /-- parked or at a blocking point; the instruction at its PC issues again when the wake condition holds -/
  | waiting (w : Wake)
  /-- halted under R201 -/
  | halted
  deriving DecidableEq, Repr

/-- How far an instruction of several phases has come (R119, R128, R162). (DESIGN CHOICE, log 11) -/
inductive Stage where
  /-- not begun, or only checks made -/
  | start
  /-- COMMIT_INSTALL messages are out (R128 step 4) -/
  | installing
  /-- EPHEMERIS_COMMIT messages are out (R47) -/
  | publishing
  /-- the commit step of a release is done; its counter waits remain (R119) -/
  | committed
  /-- the release is done and the instruction's own request is out -/
  | sent
  /-- the answer has come -/
  | answered (v : Word)
  deriving DecidableEq, Repr

/-- The words of a sequence issued so far (R225): its first word, REP, the joined HIMM value and count, the HMOD that applies
and their count, the repetition about to be performed, and whether the thread is between two repetitions. -/
structure SeqSt where
  start : Word
  rep : Option OpRep
  himm : Nat
  nimm : Nat
  hmod : Option OpHmod
  nmod : Nat
  k : Nat
  point : Bool
  deriving DecidableEq, Repr

/-- Where a long-class result goes (R159). -/
inductive Dest where
  /-- x[d], from n bytes, sign-extended or not -/
  | x (d n : Nat) (signed : Bool)
  /-- v[d]: the bytes of a mask that come are merged into it -/
  | v (d : Nat) (mask : Pred)
  /-- whole registers that the result itself names -/
  | regs (xs vs : List Nat)
  /-- the own scratchpad from an offset up: a tile load -/
  | scratch (pos : Nat)
  /-- no register: an acknowledgement -/
  | none
  deriving DecidableEq, Repr

/-- An outstanding long-class result (R159): the parts that are still to come, the bytes that have, and the fault of the lowest part
that failed, with the part's place (R323); the generic pointer of the access or the handle (R200), and the task it belongs to (R198). -/
structure Outst where
  id : Nat
  dest : Dest
  parts : Nat
  buf : Table Byte
  fault : Option (Nat × FaultRec)
  pc : Word
  vol : Bool
  ptr : Word
  task : BitVec 32
  deriving DecidableEq, Repr

/-- The fault of a posted store that no instruction has observed yet, with the store's place within its access (R30, R323). -/
structure StFault where
  ctr : PostCtr
  off : Nat
  fault : FaultRec
  deriving DecidableEq, Repr

/-- An engine operation that ended in a fault, by what the thread observes of it (R197, R303). -/
structure EngFault where
  ctr : Option Nat
  acc : BitVec 4
  fault : FaultRec
  deriving DecidableEq, Repr

/-- A row that contributes to an attention step: its position, key and value elements (R364). -/
structure AttRow where
  pos : Nat
  key : List Nat
  val : List Nat
  deriving DecidableEq, Repr

/-- What an attention step has read: its rows, the versions pinned so far and those found ABSENT (R151). -/
structure AttRead where
  rows : List AttRow
  pins : List TileRef
  absent : List TileRef
  deriving DecidableEq, Repr

/-- An attention step under way (R151): the descriptor of its snapshot and its home, the slots still to read, and what was read. -/
structure AttRun where
  desc : Line
  gslice : Nat
  todo : List Nat
  read : AttRead
  deriving DecidableEq, Repr

/-- A thread slot (R154) with what its core keeps for it. -/
structure Thread where
  status : TStatus
  ctx : Ctx
  v : Table Line
  p : Table Pred
  h : Table Word
  xa : Xa
  streams : Table Stream
  rgsel : BitVec 4
  since : Nat
  seq : Option SeqSt
  displaced : Bool
  stage : Stage
  nextId : Nat
  out : List Outst
  pend : List FaultRec
  stf : List StFault
  eng : List EngFault
  engines : Nat
  guardRec : Option GuardRec
  units : List (Nat × Nat)
  creates : List TileRef
  filter : List Nat
  acks : Nat
  stepDue : Bool
  opened : Bool
  solverDead : Bool
  /-- an acquire is due once the outstanding results have returned: the join of a solver operation (R370), a resume (R135) -/
  solverJoin : Bool
  /-- the instruction at hand has checked the guard record (R202) -/
  checked : Bool
  /-- tasks discarded, of which fault responses may still come (R198) -/
  gone : List (BitVec 32)
  bypass : Bool
  volatiles : Nat
  parkPc : Word
  att : Option AttRun
  deriving DecidableEq, Repr

/-! ## Cores -/

/-- The state of a word of the L1 data cache (R89); INVALID words are not listed. -/
inductive WordSt where
  | valid
  /-- of a slot, with the bytes of the word that its task has written -/
  | spec (slot : Nat) (bytes : BitVec 8)
  | reg
  | regd
  deriving DecidableEq, Repr

/-- A line of the L1 data cache (R77, R89). -/
structure L1Line where
  job : Nat
  line : Nat
  home : Nat
  perms : Perms
  data : Line
  st : Table WordSt
  deriving DecidableEq, Repr

/-- A line of the instruction cache, with its poison mark (R78, R203). -/
structure ILine where
  job : Nat
  line : Nat
  perms : Perms
  data : Line
  mark : Option (Cause × BitVec 4)
  reported : Bool
  made : Nat
  deriving DecidableEq, Repr

/-- An entry of the commutative buffer (R108) with its contributors. Contributions made in user mode have an entry of their own beside
those of the other modes, since the page may allow one and not the other (R22). (DEDUCED, log 87) -/
structure CommEntry where
  key : CommKey
  user : Bool
  gslice : Nat
  value : Word
  contrib : List Contrib
  deriving DecidableEq, Repr

/-- An arrival counter (R187). -/
structure Arrival where
  value : Nat
  owner : Nat
  deriving DecidableEq, Repr

/-- A waiting-task entry (R188): FREE entries are not listed; `into` is the slot that is loading the fired task. -/
structure WtEntry where
  pc : Word
  arg : Word
  thresh : Nat
  ctr : Nat
  ids : Ids
  mode : Mode
  prio : Nat
  fired : Bool
  value : Nat
  order : Nat
  into : Option Nat
  deriving DecidableEq, Repr

/-- A share-queue entry (R181): the wake, the next thread index and the threads left, the step between indices, the shape's
SLOTS and extents. An entry with no thread left stays until the core reports, and takes no room in the queue. -/
structure Share where
  wake : Dandelion
  next : Nat
  count : Nat
  step : Nat
  slots : Nat
  ext : List Nat
  status : Nat  -- what it reports: 0 done, 1 cancelled, 2 rejected (R169, R170, R182)
  deriving DecidableEq, Repr

/-- A lease row (R184): 0 FREE, 1 LOADING, 2 OCCUPIED. -/
structure Lease where
  state : Nat
  prio : Nat
  rank : Nat
  ids : Ids
  source : Nat
  deriving DecidableEq, Repr

/-- A save frame's entry in the wake table (R209): its wake condition, when it was made, PRIO and RANK. What the core keeps of the context
outside the frame stands in the table of threads under the number of the frame (savedGti). -/
structure Saved where
  wake : Wake
  order : Nat
  prio : Nat
  rank : Nat
  deriving DecidableEq, Repr

/-- An accumulator tile with its lease (R330, R331). -/
structure Acc where
  data : Table Byte
  poison : Bool
  flags : BitVec 5
  holders : List Nat
  shared : Bool
  job : Nat
  launch : Nat
  pend : Nat
  deriving DecidableEq, Repr

/-- A matrix command with its issuer (R333, R341), in the dependency table or the sequencer's queue: its tile operands, which of them
are ready, whether their pins are asked for and which are held; whether it has begun, whether it has written its tile, and the fault
that it ends with. -/
structure MxEntry where
  id : Nat
  gti : Nat
  job : Nat
  user : Bool
  task : BitVec 32
  cmd : BitVec 512
  pc : Word
  tiles : List TileRef
  ready : List Bool
  asked : Bool
  pins : List TileRef
  begun : Bool
  wrote : Bool
  failed : Option FaultRec
  deriving DecidableEq, Repr

/-- The latched weights with their tag (R337): elements by column, and the B scale bytes by block and column. -/
structure Weights where
  job : Nat
  bfmt : Nat
  scm : Nat
  bbase : Word
  bgeo : Word
  sb : Word
  cols : List (List Nat)
  scales : List (List Nat)
  deriving DecidableEq, Repr

/-- A move from an accumulator tile that waits for the commands accepted before it (R349): those with an id below `before`. (DEDUCED, log 47) -/
structure MxRead where
  gti : Nat
  id : Nat
  d : Nat
  tile : Nat
  sel : Word
  before : Nat
  deriving DecidableEq, Repr

/-- A solver operation in the queue of a core (R370): its form as F of R369, its registers' slots as scratchpad offsets (of gres and gpiv,
d is the x register), its control or target word, and the source pointer of gmld. -/
structure GOp where
  gti : Nat
  id : Nat
  op : Nat
  d : Nat
  a : Nat
  b : Nat
  control : Word
  src : Word
  user : Bool
  pc : Word
  who : Nat
  deriving DecidableEq, Repr

/-- A core's tables and registers (R1). -/
structure Core where
  skew : Nat
  scratch : List Host.Cell
  scratchBad : List Nat
  guardMap : Table Word
  spgsel : BitVec 5
  spskip : Word
  spconf : Word
  acrej : Word
  clEmpty : Bool
  l1d : Table L1Line
  plru : Table Nat
  l1i : Table ILine
  comm : List CommEntry
  arrivals : Table Arrival
  rq : List Word
  rqOwner : Nat
  wt : Table WtEntry
  work : List WorkEntry
  shares : List Share
  leases : Table Lease
  runq : List Packet
  quarantine : Option Packet
  saved : Table Saved
  cancels : List CancelKey
  jobCache : Table (BitVec 128)
  regionCache : Table Word
  acc : Table Acc
  deps : List MxEntry
  sequencer : List MxEntry
  weights : Option Weights
  mxReads : List MxRead
  solver : List GOp
  cmdId : Nat
  deriving DecidableEq, Repr

/-! ## Clusters -/

/-- A hardware barrier (R294). -/
structure Barrier where
  owner : Nat
  count : Nat
  arrived : Nat
  phase : BitVec 16
  deriving DecidableEq, Repr

/-- A tile-queue descriptor (R193, R326). -/
structure TqDesc where
  m : Nat
  n : Nat
  tm : Nat
  tn : Nat
  job : Nat
  gen : Nat
  k : Nat
  deriving DecidableEq, Repr

structure Cluster where
  barriers : Table Barrier
  tq : Table TqDesc
  gen : Nat
  deriving DecidableEq, Repr

/-! ## Home slices -/

/-- A line held at its home: the frame its fill translated to, the leaf's permissions (R22), and the time of its last use, by which its
set replaces (R80). (DESIGN CHOICE, log 8) -/
structure HomeLine where
  frame : Nat
  perms : Perms
  used : Nat
  deriving DecidableEq, Repr

/-- Speculative bytes of one task on one line (R90). -/
structure SpecLine where
  gti : Nat
  task : BitVec 32
  job : Nat
  user : Bool
  line : Nat
  mask : Pred
  data : Line
  deriving DecidableEq, Repr

/-- A word's registration (R93); NONE is not listed. -/
structure Reg where
  core : Nat
  dirty : Bool
  deriving DecidableEq, Repr

/-- A region-directory entry (R97); `made` is the clock when it was made, `quiet0` when its QUIET last stood at 0. -/
structure Region where
  job : Nat
  base : Nat
  size : Nat
  host : BitVec 2
  dies : BitVec 64
  quiet0 : Nat
  confl : Nat
  made : Nat
  deriving DecidableEq, Repr

/-- A commutative-directory entry (R109). -/
structure CommDir where
  key : CommKey
  cores : BitVec 96
  dies : BitVec 64
  mods : BitVec 64
  deriving DecidableEq, Repr

/-- A requester-side copy (R102): ABSENT is not listed. -/
structure CopyLine where
  filling : Bool
  marked : Bool
  data : Line
  perms : Perms
  used : Nat
  waiting : List HomeReq
  deriving DecidableEq, Repr

/-- The states of an Ephemeris entry (R35); FREE is not listed. -/
inductive TileSt where
  | awaited | pending | present | deferred
  deriving DecidableEq, Repr

/-- An Ephemeris entry (R35) with its recorded waiters (R36), its data (R38), and promotions waiting for a pin (R43). MOVE is set while
`moves`, the promotions and demotions in flight (R59), is not zero. -/
structure TileEntry where
  st : TileSt
  size : Nat
  hbm : Bool
  poison : Bool
  moves : Nat
  hold : Bool
  count : Nat
  pins : Nat
  block : Nat
  task : BitVec 32
  data : Table Byte
  waiters : List TileLoad
  pinWait : List TilePin
  deriving DecidableEq, Repr

/-- A subscription record (R55) with the versions already notified (R57) and its number in the slice's table. -/
structure Sub where
  job : Nat
  name : Nat
  vfirst : Nat
  vlast : Nat
  standing : Bool
  core : Nat
  ctr : Nat
  seen : List Nat
  no : Nat
  deriving DecidableEq, Repr

/-- An operation stalled at a slice (R51). -/
structure Stalled where
  ev : Event
  res : Resource
  job : Nat
  handle : Word
  gti : Nat
  since : Nat
  deriving DecidableEq, Repr

/-- A seal at work (R143): the sequence's descriptor as the sample commit left it, the position that filled the page, the layer whose create
comes next, and the handle of the first create that could not be made. -/
structure Seal where
  job : Nat
  user : Bool
  core : Nat
  gti : Nat
  id : Nat
  pc : Word
  ptr : Word
  addr : Nat
  desc : Line
  pos : Nat
  layer : Nat
  bad : Option Word
  deriving DecidableEq, Repr

/-- A slice. `bad` lists the 128 B lines of its data array whose tile data holds an uncorrectable error (R44). -/
structure Slice where
  lines : Table HomeLine
  spec : List SpecLine
  regs : Table Reg
  regOrder : List Nat
  regions : List Region
  comm : List CommDir
  copies : Table CopyLine
  tiles : Table TileEntry
  bad : List Nat
  stalls : List Stalled
  latched : List Resource
  subs : List Sub
  seals : List Seal
  asleep : Bool
  lastServed : Nat
  maxo : Nat
  accepted : Nat
  occsum : Nat
  tvdefer : Word
  tvlate : Word
  tvstall : Word
  cohfwd : Word
  cohrevoke : Word
  cohrecall : Word
  cohsplit : Word
  cohmerge : Word
  cohinv : Word
  atmcoll : Word
  deriving DecidableEq, Repr

/-- A memory controller: the synonym filter (R26), oldest entry first, and its cached leaves (R27), keyed (job, page). -/
structure Ctrl where
  syn : List (Nat × Nat × Nat)
  leaves : Table Word
  synrc : Nat
  deriving DecidableEq, Repr

/-! ## Dies and modules -/

/-- The registers of a die (R53, R105, R192, R210, R425, R426, R428), the rises of current (time, mA) that its step
governor has granted, the last instruction of each core's vector unit and since when work waits for the governor (R425), and the replays of
the flit at each edge (R406). -/
structure Die where
  tsplit : BitVec 5
  thresh : BitVec 5
  alBase : BitVec 14
  alSize : BitVec 6
  copy : Bool
  quiet : BitVec 5
  sxMin : BitVec 9
  sxInt : BitVec 4
  psBase : BitVec 18
  psV : Bool
  stepdly : Word
  slcfg : BitVec 5
  errsel : BitVec 12
  errs : Table (BitVec 64)
  rises : List (Nat × Nat)
  vec : Table Nat
  waitSince : Option Nat
  edgeTries : Table Nat
  deriving DecidableEq, Repr

/-- A host queue (R401): QBASE, CBASE, QCFG, QDB, the completion records it holds back (R403), and whether the entry at its head waits
until it has been applied at every core (R403). -/
structure Queue where
  qbase : Word
  cbase : Word
  v : Bool
  sup : Bool
  prio : BitVec 3
  fmt : BitVec 3
  job : BitVec 8
  log : BitVec 4
  func : BitVec 7
  vec : BitVec 12
  head : BitVec 16
  chead : BitVec 16
  ctail : BitVec 16
  tail : BitVec 16
  held : List (Word × Nat × Nat)
  pass : Bool
  busy : Bool
  deriving DecidableEq, Repr

/-- A completion counter (R175). -/
structure CompCtr where
  value : Nat
  canc : Bool
  deriving DecidableEq, Repr

/-- A launch record as read (R176). -/
structure LaunchRec where
  pc : Word
  shape : Word
  arg : Word
  first : Nat
  count : Nat
  mode : Mode
  cc : Nat
  depa : Option (Nat × Nat)
  depb : Option (Nat × Nat)
  deriving DecidableEq, Repr

/-- A row of the launch table (R179): the launch, its reports so far, and where its completion is recorded. -/
structure Launch where
  ids : Ids
  recd : LaunchRec
  prio : Nat
  queue : Nat
  entry : Nat
  cookie : Word
  inGraph : Bool
  waked : Bool
  reports : Nat
  rejected : Bool
  cancelled : Bool
  deriving DecidableEq, Repr

/-- A GRAPH entry under way (R177): its nodes still to admit, those running, and its outcome so far. -/
structure Graph where
  ids : Ids
  queue : Nat
  entry : Nat
  cookie : Word
  gcc : Nat
  todo : List (Nat × LaunchRec)
  running : Nat
  bad : Bool
  cancelled : Bool
  counted : Bool
  deriving DecidableEq, Repr

/-- A LAUNCH entry at the head of its queue that waits for admission (R178). -/
structure Head where
  ids : Ids
  entry : Nat
  cookie : Word
  recd : LaunchRec
  counted : Bool
  ref : Word  -- where its record lies
  fmt : Nat  -- and the entry's format
  deriving DecidableEq, Repr

/-- A Meridian channel (R194); `idle` is the number of consecutive idle samples, at most 2, and `fresh` says a non-idle sample
has been seen since the last termination. -/
structure MerCh where
  v : Bool
  job : BitVec 8
  gaplog : BitVec 5
  dom : Bool
  ends : BitVec 32
  idle : Nat
  counted : Bool
  deriving DecidableEq, Repr

/-- The states of a Nolkai link (R409). -/
inductive LinkState where
  | down | training | up | failed
  deriving DecidableEq, Repr

/-- A message or step on its way (spec/95): when it may act, who sent it, where it acts, and the step. (DESIGN CHOICE, log 6) -/
structure Flight where
  due : Nat
  src : Nat
  dst : Nat
  ev : Event
  deriving DecidableEq, Repr

/-- A Nolkai link (R407 to R409): its partner module and the number of the link there, flits sent and not yet acknowledged (the last of a
message with the message), messages
that wait to be sent, the next sequence numbers, replays of the oldest flit, the channels that the far end holds off, notices lost. -/
structure Link where
  state : LinkState
  ver : BitVec 4
  partner : Nat
  peer : Nat
  replays : BitVec 32
  sendSeq : Nat
  recvSeq : Nat
  buf : List (Nat × Option Flight)
  wait : List Flight
  tries : Nat
  xoff : List Nat
  lost : Nat
  deriving DecidableEq, Repr

/-- A route-table entry (R409). -/
structure Route where
  v : Bool
  link : Nat
  deriving DecidableEq, Repr

/-- The heap of a job (R61, R62): its allocated blocks, class by address. -/
structure Arena where
  used : Table Nat
  deriving DecidableEq, Repr

/-- A member of a collective that waits for the others (R415). -/
structure CollWait where
  c : Coll
  since : Nat
  deriving DecidableEq, Repr

/-- An event record (R427). -/
structure EvRec where
  seq : Nat
  addr : Word
  job : Option Nat
  count : Nat
  kind : Nat
  die : Nat
  cls : Nat
  index : Nat
  detail : BitVec 79
  deriving DecidableEq, Repr

/-- The management mailbox's header and data (R422). -/
structure Mailbox where
  ver : BitVec 8
  cmd : BitVec 8
  status : BitVec 8
  len : BitVec 16
  go : Bool
  data : Table Byte
  deriving DecidableEq, Repr

/-- What a port has answered to a host read (R405): 0 data, 1 Completer Abort, 2 data with the EP bit. -/
structure HostAns where
  port : Nat
  func : Nat
  status : Nat
  data : List Byte
  deriving DecidableEq, Repr

/-- A module's registers and tables, the time of its last reset, the step of bring-up that succeeded last and whether one has failed (R419),
with what it has sent to its hosts: MSI-X messages (port, function, vector) and answers to
reads. -/
structure Module where
  present : Bool
  resetAt : Nat
  step : Nat
  stuck : Bool
  xjtbase : Word
  xvtbase : Word
  mvecbase : Word
  xhtbase : Word
  trinva : Word
  trCount : BitVec 20
  trData : Bool
  trScope : BitVec 2
  trJob : BitVec 8
  trBusy : Bool
  jsBusy : Bool
  jsOp : BitVec 2
  jsJob : BitVec 8
  suspended : List Nat
  schstall : Word
  mer : Table MerCh
  queues : Table Queue
  rr : Table Nat
  comp : Table CompCtr
  levels : Table CompCtr
  launches : List Launch
  graphs : List Graph
  heads : Table Head
  apc : Table Word
  readBuf : Table Line
  links : Table Link
  routes : Table Route
  domV : Bool
  domModule : BitVec 6
  domSize : BitVec 8
  nlkrsel : BitVec 6
  nlkpt : Word
  nlksel : BitVec 5
  clTmo : BitVec 5
  pwrcap : BitVec 14
  capping : Bool
  watts : Nat
  qsplit : BitVec 6
  qsplitNext : BitVec 6
  revoked : BitVec 2
  firmware : BitVec 384
  monitor : BitVec 384
  fwVersion : BitVec 32
  monVersion : BitVec 32
  monImage : Option Image
  mbox : Mailbox
  ring : List EvRec
  heldEv : List EvRec
  evSeq : Nat
  msix : List (Nat × Nat × Nat)
  answers : List HostAns
  heap : Table Arena
  colls : List CollWait
  deriving DecidableEq, Repr

/-- What happens to the hardware of itself: an uncorrectable error in a line of HBM4, a word of a scratchpad or a line of a slice's data
array (R429), and a soft error that a unit corrects (R428). (DESIGN CHOICE, log 38) -/
inductive Chance where
  | line (n : Nat)
  | word (core n : Nat)
  | tile (gslice n : Nat)
  | soft (gdie cls idx : Nat) (addr : Word)
  deriving DecidableEq, Repr

/-- What acts next, as an oracle may choose it: the n-th entry of the agenda, a thread's issue, the oldest input, what happens of itself. -/
inductive Pick where
  | deliver (n : Nat)
  | issue (gti : Nat)
  | input
  | chance (c : Chance)
  deriving DecidableEq, Repr

/-- The whole machine. `now` is a clock that every step advances; `cur` the thread whose issue is performed; `agenda` what is
on its way, oldest first; `inputs` what the outside has done and the machine has not taken; `choice` an oracle for the orders
the spec leaves to arbiters, whose empty list means the model's own order; `fresh` numbers the readings of the values the spec
leaves open; `hbm` is the physical memory of every die and `hbmBad` its lines with an uncorrectable error; `pending` the bytes that the
step in hand has written, newest first, empty between steps; `hostMem` the memory of the hosts; `linkHeld` marks the step in hand, which has met a link that takes no flit
now and is tried again (R410), and is false between steps. (DESIGN CHOICE, log 6) -/
structure State where
  now : Nat
  cur : Nat
  fresh : Nat
  agenda : List Flight
  inputs : List Event
  choice : List Pick
  hbm : List Host.Cell
  hbmBad : List Nat
  pending : List Host.Cell
  hostMem : List Host.Cell
  threads : Table Thread
  cores : Table Core
  clusters : Table Cluster
  slices : Table Slice
  ctrls : Table Ctrl
  dies : Table Die
  modules : Table Module
  linkHeld : Bool
  deriving DecidableEq, Repr

/-! ## Reset -/

/-- A slot without a context; its registers are zero (R183). (DESIGN CHOICE, log 4) -/
def Ctx.zero : Ctx :=
  { pc := 0, x := [], cond := 0, mode := .user, pmode := .user, mpmode := .user, ie := false, pie := false, mpie := false,
    imask := 0, ipend := 0, haz := false, modfb := false, arith := 0, svec := 0, mvec := 0, tcmp := 0,
    cause := ⟨false, false, 0, 0, 0, 0, 0, 0⟩, epc := 0, addr := 0, info := ⟨0, 0, 0, 0⟩,
    mcause := ⟨false, false, 0, 0, 0, 0, 0, 0⟩, mepc := 0, rpc := 0, rx := [], rcond := 0, xeq := 0,
    ss := false, pss := false, mpss := false, hpat := 2 ^ 30 + 2 ^ 20, sqsel := 0, mersel := 0, origin := 0,
    ids := ⟨0, 0, 0, 0, 0⟩, tseq := 0, pd := 0, px := 0, po := 0 }

def Xa.zero : Xa := ⟨false, false, false, false, 0⟩

def Stream.unbound : Stream := ⟨.unbound, false, 0, 0, 0, [], 0⟩

def Thread.empty : Thread :=
  { status := .absent, ctx := Ctx.zero, v := [], p := [], h := [], xa := Xa.zero, streams := [], rgsel := 0, since := 0, seq := none,
    displaced := false, stage := .start, nextId := 0, out := [], pend := [],
    stf := [], eng := [], engines := 0, guardRec := none, units := [], creates := [], filter := [], acks := 0,
    stepDue := false, opened := false, solverDead := false, solverJoin := false, checked := false, gone := [], bypass := false, volatiles := 0, parkPc := 0, att := none }

def Arrival.zero : Arrival := ⟨0, 0⟩

def Acc.zero : Acc := ⟨[], false, 0, [], false, 0, 0, 0⟩

def Lease.free : Lease := ⟨0, 0, 0, ⟨0, 0, 0, 0, 0⟩, 0⟩

def Core.empty : Core :=
  { skew := 0, scratch := [], scratchBad := [], guardMap := [], spgsel := 0, spskip := 0, spconf := 0, acrej := 0,
    clEmpty := false, l1d := [], plru := [], l1i := [], comm := [], arrivals := [], rq := [], rqOwner := 0, wt := [],
    work := [], shares := [], leases := [], runq := [], quarantine := none, saved := [], cancels := [], jobCache := [],
    regionCache := [], acc := [], deps := [], sequencer := [], weights := none, mxReads := [], solver := [], cmdId := 0 }

def Barrier.zero : Barrier := ⟨0, 0, 0, 0⟩

def Cluster.empty : Cluster := ⟨[], [], 0⟩

def Slice.empty : Slice :=
  { lines := [], spec := [], regs := [], regOrder := [], regions := [], comm := [], copies := [], tiles := [], bad := [],
    stalls := [], latched := [], subs := [], seals := [], asleep := false, lastServed := 0, maxo := 0, accepted := 0,
    occsum := 0, tvdefer := 0, tvlate := 0, tvstall := 0, cohfwd := 0, cohrevoke := 0, cohrecall := 0, cohsplit := 0,
    cohmerge := 0, cohinv := 0, atmcoll := 0 }

def Ctrl.empty : Ctrl := ⟨[], [], 0⟩

/-- The die registers' reset values (R53, R105, R192, R210, R425, R426, R428). -/
def Die.empty : Die :=
  { tsplit := 8, thresh := 16, alBase := 40, alSize := 8, copy := false, quiet := 16, sxMin := 8, sxInt := 12, psBase := 0,
    psV := false, stepdly := 0, slcfg := 20, errsel := 0, errs := [], rises := [], vec := [], waitSince := none, edgeTries := [] }

/-- A closed queue: QCFG FMT 1, LOG 4 (R401). -/
def Queue.closed : Queue :=
  { qbase := 0, cbase := 0, v := false, sup := false, prio := 0, fmt := 1, job := 0, log := 4, func := 0, vec := 0, head := 0,
    chead := 0, ctail := 0, tail := 0, held := [], pass := true, busy := false }

def CompCtr.zero : CompCtr := ⟨0, false⟩

/-- A Meridian channel out of use: GAPLOG 11 (R194). -/
def MerCh.off : MerCh := ⟨false, 0, 11, false, 0, 0, false⟩

def Link.down : Link := ⟨.down, 0, 0, 0, 0, 0, 0, [], [], 0, [], 0⟩

def Arena.empty : Arena := ⟨[]⟩

def Mailbox.empty : Mailbox := ⟨0, 0, 0, 0, false, []⟩

/-- The module registers' reset values (R409, R417, R421, R425 and the rules that name the others). -/
def Module.empty : Module :=
  { present := false, resetAt := 0, step := 0, stuck := false, xjtbase := 0, xvtbase := 0, mvecbase := 0, xhtbase := 0, trinva := 0, trCount := 0,
    trData := false, trScope := 0, trJob := 0, trBusy := false, jsBusy := false, jsOp := 0, jsJob := 0, suspended := [],
    schstall := 0, mer := [], queues := [], rr := [], comp := [], levels := [], launches := [], graphs := [], heads := [], apc := [],
    readBuf := [], links := [], routes := [], domV := false, domModule := 0, domSize := 1, nlkrsel := 0, nlkpt := 0,
    nlksel := 0, clTmo := 24, pwrcap := 8000, capping := false, watts := 0, qsplit := 16, qsplitNext := 16, revoked := 0,
    firmware := 0, monitor := 0, fwVersion := 0, monVersion := 0, monImage := none, mbox := Mailbox.empty, ring := [], heldEv := [], evSeq := 0, msix := [], answers := [],
    heap := [], colls := [] }

/-- The machine right after reset: no thread, no job, nothing listed in any memory or table; bring-up (R419) has not run. (DESIGN CHOICE, logs 4 and 18) -/
def State.reset : State :=
  { now := 0, cur := 0, fresh := 0, agenda := [], inputs := [], choice := [], hbm := [], hbmBad := [], pending := [],
    hostMem := [], threads := [], cores := [], clusters := [], slices := [], ctrls := [], dies := [], modules := [], linkHeld := false }

end Sys2Proof.Machine
end

