-- ==== Sys2Proof/Machine/Ops.lean ====
section
/-! DEFINITION. The shared operations: tables and memories in their canonical form, the units of the state by number, the
registers of a thread, the sending of messages, reports to the event arbiter, and the taking of a trap or call entry with
its return (R199, R201). -/

namespace Sys2Proof

/-! ## Contexts, modes and causes -/

/-- The posting counters (R126). -/
def Ctx.count (c : Ctx) : PostCtr → Nat
  | .pd => c.pd
  | .px => c.px
  | .po => c.po

def Ctx.setCount (c : Ctx) : PostCtr → Nat → Ctx
  | .pd, n => { c with pd := n }
  | .px, n => { c with px := n }
  | .po, n => { c with po := n }

/-- Modes by their codes (R155). -/
def Mode.code : Mode → Nat
  | .user => 0
  | .supervisor => 1
  | .monitor => 2

def Mode.of (n : Nat) : Mode := if n = 0 then .user else if n = 1 then .supervisor else .monitor

/-- A task's id: THTASK[31:0] (R155). -/
def Ctx.task (c : Ctx) : BitVec 32 := c.tseq ++ BitVec.ofNat 23 c.origin

/-- The code of a cause (R197). -/
def Cause.code : Cause → Nat
  | .illegalInstruction => 0
  | .illegalOperand => 1
  | .privilege => 2
  | .translation => 3
  | .tile => 4
  | .sequence => 5
  | .scratchpadGuard => 6
  | .streamState => 7
  | .poison => 8
  | .matrix => 9
  | .gaussian => 10
  | .alignment => 11
  | .breakpoint => 12
  | .singleStep => 13
  | .systemCall => 14
  | .monitorCall => 15
  | .doubleTrap => 16
  | .interrupt => 17

/-- The causes of a discarding class (R197). -/
def Cause.discards : Cause → Bool
  | .breakpoint | .singleStep | .systemCall | .monitorCall | .interrupt => false
  | _ => true

/-- The restart context as it stands (R165). -/
def Ctx.capture (c : Ctx) (pc : Word) : Ctx :=
  { c with rpc := pc, rx := c.x.filter fun e => decide (1 ≤ e.1 ∧ e.1 ≤ 9), rcond := c.cond }

end Sys2Proof

namespace Sys2Proof.Machine

/-! ## Tables -/

/-- The entry of a key, or the default. -/
def tget {α : Type} (d : α) : Table α → Nat → α
  | [], _ => d
  | (k, v) :: t, a => if a = k then v else tget d t a

/-- The entry of a key, if listed. -/
def tfind {α : Type} : Table α → Nat → Option α
  | [], _ => none
  | (k, v) :: t, a => if a = k then some v else tfind t a

/-- The table with an entry put at its place: keys rise. -/
def tput {α : Type} : Table α → Nat → α → Table α
  | [], a, x => [(a, x)]
  | (k, v) :: t, a, x =>
    if a < k then (a, x) :: (k, v) :: t
    else if a = k then (a, x) :: t
    else (k, v) :: tput t a x

/-- The table without a key. -/
def tdel {α : Type} : Table α → Nat → Table α
  | [], _ => []
  | (k, v) :: t, a => if a = k then tdel t a else (k, v) :: tdel t a

/-- tput that lists no entry equal to the default. -/
def tset {α : Type} [DecidableEq α] (d : α) (t : Table α) (a : Nat) (x : α) : Table α :=
  if x = d then tdel t a else tput t a x

/-- Every entry changed by a function. -/
def tmap {α : Type} (f : Nat → α → α) : Table α → Table α
  | [] => []
  | (k, v) :: t => (k, f k v) :: tmap f t

/-! ## Memories: lists of cells in canonical form -/

/-- What a byte that no cell lists reads as: bring-up writes zero everywhere (R419 step 3). (DESIGN CHOICE, log 5) -/
def Memory.blank : Byte := 0

/-- The canonical form: addresses rise strictly, and no cell holds what an unlisted address reads as. -/
def Memory.wf : List Host.Cell → Bool
  | [] => true
  | [(_, b)] => b != Memory.blank
  | (a, b) :: (a', b') :: t => decide (a < a') && b != Memory.blank && Memory.wf ((a', b') :: t)

/-- The byte at an address. (DESIGN CHOICE, log 5) -/
def Memory.get (m : List Host.Cell) (a : Nat) : Byte := tget Memory.blank m a

/-- The memory with one byte written, in canonical form. -/
def Memory.put (m : List Host.Cell) (a : Nat) (b : Byte) : List Host.Cell := tset Memory.blank m a b

/-- Bytes written in turn, the first first. -/
def Memory.puts : List Host.Cell → List Host.Cell → List Host.Cell
  | m, [] => m
  | m, (a, b) :: t => Memory.puts (Memory.put m a b) t

/-- n bytes from an address up. -/
def Memory.read (m : List Host.Cell) (a : Nat) : Nat → List Byte
  | 0 => []
  | n + 1 => Memory.get m a :: Memory.read m (a + 1) n

/-- Bytes written from an address up. -/
def Memory.write (m : List Host.Cell) (a : Nat) : List Byte → List Host.Cell
  | [] => m
  | b :: t => Memory.write (Memory.put m a b) (a + 1) t

/-- Cells for bytes from an address up. -/
def cellsAt (a : Nat) : List Byte → List Host.Cell
  | [] => []
  | b :: t => (a, b) :: cellsAt (a + 1) t

/-! ## Words, lines and bytes -/

/-- A 64-bit word of little-endian bytes (R8). -/
def wordOf (bs : List Byte) : Word := .ofNat 64 (leNat bs)

def bytesOf (n : Nat) (w : Word) : List Byte := leBytes n w.toNat

/-- Byte i of a line or vector register: bits [8i+7:8i]. -/
def lineByte (l : Line) (i : Nat) : Byte := .ofNat 8 (l.toNat / 2 ^ (8 * i))

def lineOf (bs : List Byte) : Line := .ofNat 1024 (leNat bs)

def lineBytes (l : Line) : List Byte := leBytes 128 l.toNat

/-- Word i (8 bytes) of a line. -/
def lineWord (l : Line) (i : Nat) : Word := .ofNat 64 (l.toNat / 2 ^ (64 * i))

/-- The bits that a byte mask selects, as a line-wide mask: byte i is all ones where bit i of the mask is set. -/
def maskBytes (m : Nat) : Nat → List Byte
  | 0 => []
  | n + 1 => (if m % 2 = 1 then 0xFF#8 else 0#8) :: maskBytes (m / 2) n

def byteMask (m : Pred) : Line := lineOf (maskBytes m.toNat 128)

/-- The bytes of `new` where the mask has a bit, those of `old` elsewhere. -/
def mergeLine (m : Pred) (new old : Line) : Line := (new &&& byteMask m) ||| (old &&& ~~~(byteMask m))

/-- A mask of n bytes from byte i up. -/
def maskFrom (i n : Nat) : Pred := .ofNat 128 ((2 ^ n - 1) * 2 ^ i)

/-- Bytes placed from byte i of a line up. -/
def lineAt (i : Nat) (bs : List Byte) : Line := .ofNat 1024 (leNat bs * 2 ^ (8 * i))

/-- n bytes of a line from byte i up. -/
def lineSlice (l : Line) (i n : Nat) : List Byte := leBytes n (l.toNat / 2 ^ (8 * i))

/-- Bits [hi:lo] of a word, as a number. -/
def bits (w : Word) (hi lo : Nat) : Nat := w.toNat / 2 ^ lo % 2 ^ (hi + 1 - lo)

def bit (w : Word) (i : Nat) : Bool := w.toNat / 2 ^ i % 2 == 1

/-- A list with its n-th element replaced. -/
def setAt {α : Type} : List α → Nat → α → List α
  | [], _, _ => []
  | _ :: t, 0, x => x :: t
  | h :: t, n + 1, x => h :: setAt t n x

def dropAt {α : Type} : List α → Nat → List α
  | [], _ => []
  | _ :: t, 0 => t
  | h :: t, n + 1 => h :: dropAt t n

/-! ## Units by number (R6, R7) -/

/-- The number under which the table of threads holds the context of a save frame (R209), and a number that what a thread that is
gone has still on its way goes under (R170, R184); k tells those of a core apart. (DEDUCED, log 25) -/
def savedGti (core frame : Nat) : Nat := 2 ^ 33 + core * 64 + frame
def orphanGti (core k : Nat) : Nat := 2 ^ 34 + k * 2 ^ 20 + core

def coreOf (gti : Nat) : Nat :=
  if gti < 2 ^ 33 then gti / 16 else if gti < 2 ^ 34 then (gti - 2 ^ 33) / 64 else (gti - 2 ^ 34) % 2 ^ 20
def slotOf (gti : Nat) : Nat := gti % 16
def moduleOf (gcore : Nat) : Nat := gcore / 6144
def dieOf (gcore : Nat) : Nat := gcore / 96
def clusterOf (gcore : Nat) : Nat := gcore / 8
def dieModule (gdie : Nat) : Nat := gdie / 64
def sliceDie (gslice : Nat) : Nat := gslice / 16
def sliceModule (gslice : Nat) : Nat := gslice / 1024

def State.thread (s : State) (g : Nat) : Thread := tget Thread.empty s.threads g
def State.core (s : State) (c : Nat) : Core := tget Core.empty s.cores c
def State.cluster (s : State) (c : Nat) : Cluster := tget Cluster.empty s.clusters c
def State.slice (s : State) (g : Nat) : Slice := tget Slice.empty s.slices g
def State.ctrl (s : State) (g : Nat) : Ctrl := tget Ctrl.empty s.ctrls g
def State.die (s : State) (d : Nat) : Die := tget Die.empty s.dies d
def State.modu (s : State) (m : Nat) : Module := tget Module.empty s.modules m

/-- The lease row of a thread's slot (R184). -/
def State.lease (s : State) (g : Nat) : Lease := tget Lease.free (s.core (coreOf g)).leases (slotOf g)

def State.setThread (s : State) (g : Nat) (t : Thread) : State := { s with threads := tput s.threads g t }
def State.setCore (s : State) (c : Nat) (x : Core) : State := { s with cores := tput s.cores c x }
def State.setCluster (s : State) (c : Nat) (x : Cluster) : State := { s with clusters := tput s.clusters c x }
def State.setSlice (s : State) (g : Nat) (x : Slice) : State := { s with slices := tput s.slices g x }
def State.setCtrl (s : State) (g : Nat) (x : Ctrl) : State := { s with ctrls := tput s.ctrls g x }
def State.setDie (s : State) (d : Nat) (x : Die) : State := { s with dies := tput s.dies d x }
def State.setModu (s : State) (m : Nat) (x : Module) : State := { s with modules := tput s.modules m x }

def State.modThread (s : State) (g : Nat) (f : Thread → Thread) : State := s.setThread g (f (s.thread g))
def State.modCore (s : State) (c : Nat) (f : Core → Core) : State := s.setCore c (f (s.core c))
def State.modCluster (s : State) (c : Nat) (f : Cluster → Cluster) : State := s.setCluster c (f (s.cluster c))
def State.modSlice (s : State) (g : Nat) (f : Slice → Slice) : State := s.setSlice g (f (s.slice g))
def State.modCtrl (s : State) (g : Nat) (f : Ctrl → Ctrl) : State := s.setCtrl g (f (s.ctrl g))
def State.modDie (s : State) (d : Nat) (f : Die → Die) : State := s.setDie d (f (s.die d))
def State.modModu (s : State) (m : Nat) (f : Module → Module) : State := s.setModu m (f (s.modu m))

/-- Whether a number still stands for a context: what a thread that is gone has left on its way answers nobody. -/
def State.hasThread (s : State) (g : Nat) : Bool := (tfind s.threads g).isSome && decide (g < 2 ^ 34)

/-- Only the carried context of a thread changes. -/
def State.modCtx (s : State) (g : Nat) (f : Ctx → Ctx) : State := s.modThread g fun t => { t with ctx := f t.ctx }

/-- A fresh reading of a value that the spec leaves open. (DESIGN CHOICE, log 13) (DESIGN CHOICE, log 18) -/
def State.freeValue (s : State) : Word × State := (Config.freeWord s.fresh, { s with fresh := s.fresh + 1 })

/-- The end of a step: the bytes written during it enter HBM in order, and the clock advances. (DEDUCED, log 10) -/
def finish (s t : State) : Host.Outcome State Fault Refusal :=
  .next { t with now := s.now + 1, hbm := Memory.puts s.hbm t.pending.reverse, pending := [], linkHeld := false }

/-! ## Physical memory (HBM4, 56-bit addresses) -/

/-- A byte of HBM4, with what this step has written. -/
def State.peek (s : State) (a : Nat) : Byte :=
  match tfind s.pending a with
  | some b => b
  | none => Memory.get s.hbm a

def State.peeks (s : State) (a : Nat) : Nat → List Byte
  | 0 => []
  | n + 1 => s.peek a :: s.peeks (a + 1) n

/-- n bytes as a number, least significant first. -/
def State.peekNat (s : State) (a n : Nat) : Nat := leNat (s.peeks a n)

def State.poke (s : State) (a : Nat) (b : Byte) : State := { s with pending := (a, b) :: s.pending }

def State.pokes (s : State) (a : Nat) : List Byte → State
  | [] => s
  | b :: t => (s.poke a b).pokes (a + 1) t

/-- The bytes of a physical line whose mask bit is set. -/
def State.pokeMasked (s : State) (a : Nat) (m : Nat) : List Byte → State
  | [] => s
  | b :: t => (if m % 2 = 1 then s.poke a b else s).pokeMasked (a + 1) (m / 2) t

/-- Whether the physical line that holds an address carries an uncorrectable error (R429). -/
def State.badLine (s : State) (a : Nat) : Bool := s.hbmBad.contains (a / 128)

/-- A write of a whole line clears its poison (R429). -/
def State.clearBad (s : State) (a : Nat) : State := { s with hbmBad := s.hbmBad.filter (· != a / 128) }

/-! ## Registers of a thread (R154) -/

/-- x0 reads as zero (R217). -/
def Thread.x (t : Thread) (n : Nat) : Word := if n = 0 then 0 else tget 0 t.ctx.x n

/-- A write to x0 is discarded (R217). -/
def Thread.setX (t : Thread) (n : Nat) (w : Word) : Thread :=
  if n = 0 then t else { t with ctx := { t.ctx with x := tset 0 t.ctx.x n w } }

def Thread.vreg (t : Thread) (n : Nat) : Line := tget 0 t.v n
def Thread.setV (t : Thread) (n : Nat) (l : Line) : Thread := { t with v := tset 0 t.v n l }
def Thread.preg (t : Thread) (n : Nat) : Pred := tget 0 t.p n
def Thread.setP (t : Thread) (n : Nat) (p : Pred) : Thread := { t with p := tset 0 t.p n p }
def Thread.creg (t : Thread) (n : Nat) : Bool := t.ctx.cond.getLsbD n
def Thread.setC (t : Thread) (n : Nat) (b : Bool) : Thread :=
  { t with ctx := { t.ctx with cond := if b then t.ctx.cond ||| (1#16 <<< n) else t.ctx.cond &&& ~~~(1#16 <<< n) } }
def Thread.handle (t : Thread) (n : Nat) : Word := tget 0 t.h n
def Thread.setH (t : Thread) (n : Nat) (w : Word) : Thread := { t with h := tset 0 t.h n w }
def Thread.stream (t : Thread) (n : Nat) : Stream := tget Stream.unbound t.streams n
def Thread.setStream (t : Thread) (n : Nat) (x : Stream) : Thread := { t with streams := tput t.streams n x }

/-- The reported PC of an event of the instruction about to be performed (R225, R226): the first word of its sequence, or the
resume form for repetition k. -/
def resumeForm (k : Nat) (a : Word) : Word := .ofNat 64 (2 ^ 63 + k % 64 * 2 ^ 57 + a.toNat % 2 ^ 57)

def Thread.reportPc (t : Thread) : Word :=
  match t.seq with
  | none => t.ctx.pc
  | some q => if q.rep.isSome && decide (0 < q.k) then resumeForm q.k q.start else q.start

/-- PC[56:2] of an instruction, as THINFO.OPC holds it (R199). -/
def opcField (pc : Word) : BitVec 55 := .ofNat 55 (pc.toNat / 4)

/-- The cycle count of a core (R158). (DESIGN CHOICE, log 2) -/
def State.cycles (s : State) (core : Nat) : Nat := s.now - (s.modu (moduleOf core)).resetAt + (s.core core).skew

/-- IPEND with TIMER as the level that R160 describes. (DEDUCED, log 77) -/
def State.ipend (s : State) (g : Nat) : BitVec 4 :=
  let c := (s.thread g).ctx
  let timer := c.tcmp != 0 && decide (c.tcmp.toNat ≤ s.cycles (coreOf g) % 2 ^ 64)
  (c.ipend &&& 0b1101#4) ||| (if timer then 0b0010#4 else 0#4)

/-! ## Faults -/

def noInfo : InfoRec := ⟨0, 0, 0, 0⟩

/-- A fault of a cause and kind with its address, for the instruction at which it is taken. -/
def mkFault (cause : Cause) (kind : Nat) (addr : Word) : FaultRec :=
  ⟨cause, .ofNat 4 kind, none, addr, noInfo, 0, 0, 0⟩

/-- The kinds of TRANSLATION (R29). -/
def kNotMapped : Nat := 0
def kPermission : Nat := 1
def kPteFormat : Nat := 2
def kPlacement : Nat := 3
def kPrivateAlias : Nat := 4
def kReserved : Nat := 5
def kNonCanonical : Nat := 6
def kWindowBound : Nat := 7
def kSpaceOp : Nat := 8
def kRegionInvalid : Nat := 9
def kPoisonedTable : Nat := 10

def xlate (kind : Nat) (ptr : Word) : FaultRec := mkFault .translation kind ptr

/-! ## Messages -/

/-- Where a message acts: a slice, a core, a module, a die. -/
def atSlice (g : Nat) : Nat := 4 * g
def atCore (c : Nat) : Nat := 4 * c + 1
def atModule (m : Nat) : Nat := 4 * m + 2
def atDie (d : Nat) : Nat := 4 * d + 3

def placeModule (p : Nat) : Nat :=
  match p % 4 with
  | 0 => sliceModule (p / 4)
  | 1 => moduleOf (p / 4)
  | 2 => p / 4
  | _ => dieModule (p / 4)

/-- Who sent a message: a thread (its engines included), a slice, a module. -/
def fromThread (g : Nat) : Nat := 3 * g
def fromSlice (g : Nat) : Nat := 3 * g + 1
def fromModule (m : Nat) : Nat := 3 * m + 2

def srcModule (p : Nat) : Nat :=
  match p % 3 with
  | 0 => moduleOf (coreOf (p / 3))
  | 1 => sliceModule (p / 3)
  | _ => p / 3

/-- Whether an edge of a die joins it to a neighbour (R2, R428): 0 +X, 1 −X, 2 +Y, 3 −Y. -/
def edgeExists (d e : Nat) : Bool :=
  match e with
  | 0 => decide (d % 8 < 7)
  | 1 => decide (0 < d % 8)
  | 2 => decide (d % 64 / 8 < 7)
  | 3 => decide (0 < d % 64 / 8)
  | _ => false

/-- The place of a router in its package's grid (R81), from its die, column and row. -/
def routerAt (gdie col row : Nat) : Nat × Nat := (gdie % 8 * 8 + col, gdie % 64 / 8 * 4 + row)

/-- The routers of a core's cluster and of a slice (R3). -/
def coreRouter (c : Nat) : Nat × Nat := routerAt (dieOf c) (1 + c % 96 / 8 % 6) (1 + c % 96 / 8 / 6)
def sliceRouter (g : Nat) : Nat × Nat := routerAt (sliceDie g) (g % 8) (if g % 16 < 8 then 0 else 3)

/-- The module and router at which a message enters a mesh, and at which it leaves one. -/
def srcRouter (p : Nat) : Option (Nat × Nat × Nat) :=
  match p % 3 with
  | 0 => some (moduleOf (coreOf (p / 3)), coreRouter (coreOf (p / 3)))
  | 1 => some (sliceModule (p / 3), sliceRouter (p / 3))
  | _ => none

def dstRouter (p : Nat) : Option (Nat × Nat × Nat) :=
  match p % 4 with
  | 0 => some (sliceModule (p / 4), sliceRouter (p / 4))
  | 1 => some (moduleOf (p / 4), coreRouter (p / 4))
  | _ => none

/-- A message joins the end of the agenda of its own module. -/
def State.post (s : State) (f : Flight) : State := { s with agenda := s.agenda ++ [f] }

/-- A step that goes before everything else on the agenda: what a home does first when a request needs it. -/
def State.urge (s : State) (f : Flight) : State := { s with agenda := f :: s.agenda }

/-- The link toward a module in the route table, if its entry is valid (R409). -/
def State.route (s : State) (m dest : Nat) : Option Nat :=
  match tfind (s.modu m).routes dest with
  | some r => if r.v then some r.link else none
  | none => none

/-- Who sends a report: a unit of a die, for which the die's first slice stands, or a unit of the module. The arbiter takes those of
different dies in either order (R427). -/
def reporter (r : Report) : Nat :=
  if 7 ≤ r.cls ∧ r.cls ≤ 10 then fromModule r.module else fromSlice ((r.module * 64 + r.die) * 16)

/-- A report to the package event arbiter of a module (R427): it travels as a step of its own. -/
def State.report (s : State) (r : Report) : State :=
  s.post ⟨s.now, reporter r, atModule r.module, .eventReport r⟩

/-- The number of a unit in the error counts of its die (R428): classes 7 to 10 are the module's, held at its die 0. -/
def errUnit (gdie : Nat) (sel : BitVec 12) : Nat × Nat :=
  let cls := sel.toNat / 128 % 16
  let d := if 7 ≤ cls ∧ cls ≤ 10 then gdie / 64 * 64 else gdie
  (d, sel.toNat % 2048)

/-- A corrected error at a unit (R428): SECOR rises, and every 2^16 corrections are reported. (DESIGN CHOICE, log 38) -/
def State.countCorrected (s : State) (gdie cls idx : Nat) (addr : Word) : State :=
  let u := errUnit gdie (.ofNat 12 (cls * 128 + idx))
  let e := tget 0 (s.die u.1).errs u.2
  let v : BitVec 64 := e + 1 <<< 32
  let s := s.modDie u.1 fun d => { d with errs := tput d.errs u.2 v }
  if v.toNat / 2 ^ 32 % 2 ^ 16 = 0 then
    s.report ⟨dieModule gdie, 0, none, if 7 ≤ cls ∧ cls ≤ 10 then 0 else gdie % 64, cls, idx,
      if cls = 3 ∨ cls = 4 ∨ cls = 8 then 0 else addr, .ofNat 79 v.toNat⟩
  else s

/-- An uncorrectable error found at a unit (R428). (DESIGN CHOICE, log 38) -/
def State.countBad (s : State) (gdie cls idx : Nat) : State :=
  let u := errUnit gdie (.ofNat 12 (cls * 128 + idx))
  let e := tget 0 (s.die u.1).errs u.2
  s.modDie u.1 fun d => { d with errs := tput d.errs u.2 (.ofNat 64 (e.toNat / 2 ^ 32 * 2 ^ 32 + (e.toNat % 2 ^ 32 + 1) % 2 ^ 32)) }

/-- Poisoned data found at a unit on its way to a consumer (R429, R431): counted, and reported with the address and the fault. -/
def State.foundPoison (s : State) (gdie cls idx : Nat) (addr : Word) (cause kind : Nat) : State :=
  (s.countBad gdie cls idx).report ⟨dieModule gdie, 1, none, gdie % 64, cls, idx, addr, .ofNat 79 (cause + kind * 2 ^ 8)⟩

/-! ## Arrival counters and engine operations (R187, R189, R303) -/

/-- Arrival counters (R187): an increment by a job that does not own the counter is refused, counted and reported. -/
def ownerReport (core job owner ctr event : Nat) (addr : Word) : Report :=
  ⟨moduleOf core, 8, some owner, dieOf core % 64, 0, core % 96, addr,
   .ofNat 79 (event + ctr * 4 + core * 2 ^ 8 + job * 2 ^ 27)⟩

/-- The waiting-task entries of one counter, in index order (R189): the counter's value and the entries after the scan. -/
def fireScan (c order : Nat) : Nat → Table WtEntry → Nat × Table WtEntry
  | v, [] => (v, [])
  | v, (i, e) :: t =>
    if e.ctr = c ∧ ¬ e.fired ∧ e.thresh ≤ v then
      let r := fireScan c order (v - e.thresh) t
      (r.1, (i, { e with fired := true, value := v, order := order }) :: r.2)
    else
      let r := fireScan c order v t
      (r.1, (i, e) :: r.2)

/-- A counter wait that has been met stays met (R173): its thread issues again and goes on; a saved one may resume. -/
def metWait (core c v : Nat) (g : Nat) (t : Thread) : Thread :=
  match t.status with
  | .waiting (.arrival k thr) =>
    if g < 2 ^ 33 ∧ g / 16 = core ∧ k = c ∧ thr ≤ v then { t with status := .ready, stage := .answered 0 } else t
  | _ => t

def metSaved (c v : Nat) (_ : Nat) (x : Saved) : Saved :=
  match x.wake with
  | .arrival k thr => if k = c ∧ thr ≤ v then { x with wake := .unit } else x
  | _ => x

/-- A core's counter is evaluated (R189); a fired entry is a candidate of the loader, and waits on the value it then has are
met. -/
def evalCounter (s : State) (core c : Nat) : State :=
  let k := s.core core
  let a := tget Arrival.zero k.arrivals c
  let r := fireScan c s.now a.value k.wt
  let fired := r.1 != a.value
  let s := s.setCore core { k with arrivals := tput k.arrivals c { a with value := r.1 }, wt := r.2, saved := tmap (metSaved c r.1) k.saved }
  let s := { s with threads := tmap (metWait core c r.1) s.threads }
  if fired ∨ !k.saved.isEmpty then s.post ⟨s.now, fromThread (core * 16), atCore core, .loaderChoice ⟨core⟩⟩ else s

/-- One increment of an arrival counter by a job, which no evaluation has followed yet (R187). -/
def raiseCount (s : State) (core c job : Nat) : State :=
  let k := s.core core
  let a := tget Arrival.zero k.arrivals c
  if a.owner = job then
    let v := if a.value = 0xFFFFFFFF then a.value else a.value + 1
    s.setCore core { k with arrivals := tput k.arrivals c { a with value := v } }
  else
    (s.setCore core { k with acrej := k.acrej + 1 }).report (ownerReport core job a.owner c 0 0)

/-- One increment of an arrival counter by a job, and its evaluation (R187, R189). -/
def bump (s : State) (core c job : Nat) : State :=
  let a := tget Arrival.zero (s.core core).arrivals c
  if a.owner = job then evalCounter (raiseCount s core c job) core c else raiseCount s core c job

/-- The counters that a step has raised are evaluated once each, after all its increments (R189). -/
def evalRaised (core : Nat) : List Nat → State → State
  | [], s => s
  | c :: t, s => evalRaised core t (evalCounter s core c)

/-- One engine operation of a thread is over (R303), and a fault waits to be observed. An operation of a thread that is gone may have been the
last of its launch on the core (R181), which the loader's step reports. -/
def engineOver (s : State) (g core : Nat) (ctr : Option Nat) (acc : BitVec 4) (f : Option FaultRec) : State :=
  let s := s.modThread g fun t =>
    { t with engines := t.engines - 1
             eng := match f with
               | none => t.eng
               | some x => t.eng ++ [⟨ctr, acc, x⟩] }
  if 2 ^ 34 ≤ g then s.post ⟨s.now, fromThread (core * 16), atCore core, .loaderChoice ⟨core⟩⟩ else s

/-- One engine operation of a thread ends (R303): its counter rises, whatever the status. -/
def engineEnd (s : State) (g core : Nat) (ctr : Option Nat) (acc : BitVec 4) (f : Option FaultRec) : State :=
  let s := engineOver s g core ctr acc f
  match ctr with
  | none => s
  | some c => bump s core c (s.thread g).ctx.ids.job

def engineDone (s : State) (g core : Nat) (ctr : Option Nat) (f : Option FaultRec) : State := engineEnd s g core ctr 0 f

/-! ## Lost messages (R406, R412) -/

/-- Poisoned words of a core's scratchpad found by a read, at the core that holds them (R428, R429). -/
def scratchError (s : State) (core : Nat) (ptr : Word) : State := s.foundPoison (dieOf core) 0 (core % 96) ptr (Cause.code .poison) 2

/-- The answer of a request that a FAILED link, or a die edge, has lost (R412): for whom, and what its fault reports (R200). -/
structure LinkAnswer where
  gti : Nat
  id : Option Nat
  ctr : Option PostCtr
  ptr : Word
  pc : Word
  task : BitVec 32
  deriving DecidableEq, Repr

/-- The scratchpad of a core as a generic pointer. -/
def scratchPtr (core off : Nat) : Word := .ofNat 64 (2 * 2 ^ 60 + core % 8 * 2 ^ 57 + off)

/-- The answer of a lost result: its access is the one that expects it. -/
def lostResult (s : State) (g id : Nat) (pc : Word) : LinkAnswer :=
  match (s.thread g).out.find? fun o => o.id == id with
  | some o => ⟨g, some id, none, o.ptr, o.pc, o.task⟩
  | none => ⟨g, some id, none, 0, pc, (s.thread g).ctx.task⟩

/-- A message whose fault answers a request on a FAILED link (R412): POISON kind 0 for the requester, with the pointer of its access. (DEDUCED, log 65) -/
def linkAnswer (s : State) (ev : Event) : Option LinkAnswer :=
  let task (g : Nat) : BitVec 32 := (s.thread g).ctx.task
  match ev with
  | .lineFill r => some ⟨r.gti, some r.id, none, r.ptr, r.pc, r.task⟩
  | .forwardedRead r => some ⟨r.gti, some r.id, none, r.ptr, r.pc, r.task⟩
  | .speculativeStoreReceipt w => some ⟨w.gti, none, some w.ctr, w.ptr, w.pc, w.task⟩
  | .nonSpeculativeHomeWrite w => some ⟨w.w.gti, none, some w.w.ctr, w.w.ptr, w.w.pc, w.w.task⟩
  | .fallBackAtomicGrant a => some { lostResult s a.gti a.id a.pc with ptr := a.ptr, pc := a.pc }
  | .resultReturn r => some (lostResult s r.gti r.id 0)
  | .msendDelivery m => some ⟨m.gti, none, some m.post, scratchPtr m.core m.pos, m.pc, m.task⟩
  | .qputDelivery m => some ⟨m.gti, none, some m.post, 0, m.pc, m.task⟩
  | .mailboxMessageArrival m => some ⟨m.gti, none, some m.post, scratchPtr m.core m.pos, m.pc, m.task⟩
  | .ephemerisCreate c => some (lostResult s c.gti c.id c.pc)
  | .ephemerisRelease r => some (lostResult s r.gti r.id r.pc)
  | .subscriptionRecord r => some (lostResult s r.gti r.id 0)
  | .ephemerisLoad l =>
    match l.client with
    | .thread g i => some (lostResult s g i l.pc)
    | .matrix _ _ => none
  | .softInterruptDelivery i => some (lostResult s i.gti i.id 0)
  | .faultResponse r => some ⟨r.gti, r.id, r.ctr, r.fault.addr, r.fault.pc.getD 0, r.fault.task⟩
  | .frameAdmission f => some ⟨f.gti, some f.id, none, f.ptr, f.pc, task f.gti⟩
  | _ => none

/-- The place of a request within its access. -/
def partOff : Event → Nat
  | .lineFill r => r.off
  | .forwardedRead r => r.off
  | .speculativeStoreReceipt w => w.off
  | .nonSpeculativeHomeWrite w => w.w.off
  | _ => 0

/-- A POISON kind 0 fault response (R412), to a thread. -/
def poisonAnswer (s : State) (a : LinkAnswer) (off : Nat) : State :=
  let f : FaultRec := { mkFault .poison 0 a.ptr with task := a.task }
  let f : FaultRec := if a.ctr.isSome then { f with info := ⟨0, 0, opcField a.pc, 0⟩ } else { f with pc := some a.pc }
  s.post ⟨s.now, fromModule (moduleOf (coreOf a.gti)), atCore (coreOf a.gti), .faultResponse ⟨a.gti, a.id, a.ctr, off, f⟩⟩

/-- Detail and report of a message that a FAILED link did not carry (R412, R431 KIND LINK). -/
def linkReport (m link event dest : Nat) (ver : BitVec 4) (addr : Word) : Report :=
  ⟨m, 4, none, 0, 8, link, addr, .ofNat 79 (event + dest % 64 * 16 + ver.toNat * 1024)⟩

/-- The virtual channel of a message (R81, R408): 0 request, 1 response, 2 notice. -/
def chan : Event → Nat
  | .resultReturn _ | .faultResponse _ | .copyFillArrival _ => 1
  | .arrivalNotice _ | .nolkaiMulticast _ | .dandelionWake _ | .rerankNotice _ | .launchCompletion _ | .migrantPacketArrival _
  | .msendDelivery _ | .qputDelivery _ | .mailboxMessageArrival _ | .collectiveCancelNotice _ | .copyInvalidation _ => 2
  | _ => 0

/-- A commit's message is lost: it counts as acknowledged, and the fault pends. -/
def commitLost (s : State) (g : Nat) (task : BitVec 32) (ptr : Word) : State :=
  if s.hasThread g then
    s.modThread g fun t => { t with acks := t.acks - 1, pend := t.pend ++ [{ mkFault .poison 0 ptr with task := task }] }
  else s

/-- The contributors of a lost flush are answered, each counter by the contributions that it counts (R108). -/
def flushLost (ctr : PostCtr) : List Contrib → State → State
  | [], s => s
  | e :: t, s =>
    let s := if s.hasThread e.gti then s.modCtx e.gti fun c => c.setCount ctr (c.count ctr - (e.count - 1)) else s
    flushLost ctr t (poisonAnswer s ⟨e.gti, none, some ctr, e.ptr, e.pc, (s.thread e.gti).ctx.task⟩ 0)

/-- A matrix command whose readiness wait or pin is lost fails (R343, R412). -/
def matrixLost (s : State) (core id : Nat) (ptr : Word) : State :=
  let fail (e : MxEntry) : MxEntry := if e.id = id then { e with failed := some (mkFault .poison 0 ptr) } else e
  (s.modCore core fun c => { c with deps := c.deps.map fail, sequencer := c.sequencer.map fail }).post
    ⟨s.now, fromThread (core * 16), atCore core, .matrixDispatch ⟨core⟩⟩

/-- What the loss of a message is to its requester (R406, R412): POISON kind 0 in place of the answer; none: nobody asked for it. (DEDUCED, log 65) -/
def State.lost (s : State) (ev : Event) : Option State :=
  let handle (r : TileRef) : Word := .ofNat 64 (r.name * 2 ^ 24 + r.ver)
  match linkAnswer s ev with
  | some a => some (poisonAnswer s a (partOff ev))
  | none =>
    match ev with
    | .commitInstall c => some (commitLost s c.gti c.task (.ofNat 64 (c.line * 128)))
    | .ephemerisCommit c => some (commitLost s c.gti c.task (handle c.t))
    | .commutativeFlush n => some (flushLost n.ctr n.contrib s)
    | .copyFillArrival f =>
      some (s.post ⟨s.now, fromSlice f.gslice, atSlice f.gslice, .copyFillArrival { f with fault := some (mkFault .poison 0 0) }⟩)
    | .ephemerisLoad l =>
      match l.client with
      | .matrix core id => some (matrixLost s core id (handle l.t))
      | .thread _ _ => none
    | .ephemerisPin q =>
      match q.pinner with
      | .matrix core id => some (matrixLost s core id (handle q.t))
      | .promotion g core ctr _ pc task _ =>
        let f := mkFault .poison 0 (handle q.t)
        some (engineDone s g core (some ctr) (some { f with engine := 4, task := task, info := { f.info with opc := opcField pc } }))
    | _ => none

/-- A message that a FAILED link, or no route, does not carry (R412): its requester is answered with the fault; anything else is lost, and
reported. -/
def State.undelivered (s : State) (m link dest : Nat) (ver : BitVec 4) (ev : Event) : State :=
  match (s.report (linkReport m link 5 dest ver 0)).lost ev with
  | some s => s
  | none =>
    match ev with
    | .nolkaiMulticast c => s.report (linkReport m link 4 dest ver (.ofNat 64 c.mask.toNat))
    | _ => s.report (linkReport m link 3 dest ver 0)

/-- The messages on a link that have not been delivered. -/
def Link.flights (k : Link) : List Flight := k.buf.filterMap (·.2) ++ k.wait

/-- Every message on its way: on the agenda, or in a link's buffer. -/
def State.flights (s : State) : List Flight :=
  s.agenda ++ s.modules.flatMap fun m => m.2.links.flatMap fun k => k.2.flights

/-- Whether any message of a kind is on its way. -/
def State.onWay (s : State) (p : Event → Bool) : Bool :=
  (s.agenda.any fun f => p f.ev) ||
  (s.modules.any fun m => m.2.links.any fun l => l.2.flights.any fun e => p e.ev)

/-- Every message on its way, changed by a function. -/
def State.mapFlights (f : Event → Event) (s : State) : State :=
  let g (x : Flight) : Flight := { x with ev := f x.ev }
  { s with
    agenda := s.agenda.map g
    modules := tmap (fun _ m => { m with
      links := tmap (fun _ k => { k with buf := k.buf.map (fun e => (e.1, e.2.map g)), wait := k.wait.map g }) m.links }) s.modules }

/-- A link's record. -/
def State.link (s : State) (m l : Nat) : Link := tget Link.down (s.modu m).links l
def State.modLink (s : State) (m l : Nat) (f : Link → Link) : State :=
  s.modModu m fun x => { x with links := tput x.links l (f (tget Link.down x.links l)) }

/-- Whether two messages go from one router to another in one virtual channel: their flits follow one path and stay in order (R81). -/
def samePath (a b : Flight) : Bool :=
  (srcRouter a.src).isSome && (dstRouter a.dst).isSome && srcRouter a.src == srcRouter b.src && dstRouter a.dst == dstRouter b.dst &&
    chan a.ev == chan b.ev

/-- The data bytes that a message carries. -/
def payload : Event → Nat
  | .ephemerisCreate c => 128 * 2 ^ c.size
  | .mailboxMessageArrival _ => 0x170
  | .resultReturn r =>
    match r.val with
    | .bytes _ bs => bs.length
    | .regs xs vs _ => 8 * xs.length + 128 * vs.length
    | .ack => 0
  | _ => 0

/-- The flits of 256 B that a message fills: a context packet two, or four with v0 to v3 (R163); any other as many as its data needs of 236 B
each, and one at least (R408). (DESIGN CHOICE, log 63) -/
def flitsOf : Event → Nat
  | .migrantPacketArrival p => if p.carry then 4 else 2
  | ev => max 1 ((payload ev + 235) / 236)

/-- Whether a link takes n flits of a channel now (R408): it is UP, the far end does not hold the channel off, the replay buffer has room, and
no earlier message of the channel waits. -/
def Link.takes (k : Link) (ch n : Nat) : Bool :=
  k.state == .up && !k.xoff.contains ch && decide (k.buf.length + n ≤ Config.replayBuffer) && !k.wait.any fun w => chan w.ev == ch

/-- The flits of a message that follow the number n: the last carries it. -/
def flitList (n : Nat) (f : Flight) : Nat → List (Nat × Option Flight)
  | 0 => []
  | 1 => [(n % 4096, some f)]
  | k + 1 => (n % 4096, none) :: flitList (n + 1) f k

/-- Flits put on the wire, in the order of their numbers. -/
def State.putFlits (s : State) (m l partner : Nat) (fs : List (Nat × Option Flight)) : State :=
  fs.foldl (fun s e => s.post ⟨s.now, fromModule m, atModule partner, .nolkaiFlitReceipt ⟨m, l, e.1, true, true, false⟩⟩) s

/-- Flits on a link: they are numbered, enter the replay buffer and are sent (R408). -/
def State.sendFlits (s : State) (m l : Nat) (fs : List (Nat × Option Flight)) : State :=
  (s.modLink m l fun k => { k with sendSeq := (k.sendSeq + fs.length) % 4096, buf := k.buf ++ fs }).putFlits m l (s.link m l).partner fs

/-- A message over a link (R408): it is sent, or waits. -/
def State.transmit (s : State) (m l : Nat) (f : Flight) : State :=
  let k := s.link m l
  let n := flitsOf f.ev
  if k.takes (chan f.ev) n then s.sendFlits m l (flitList k.sendSeq f n) else s.modLink m l fun k => { k with wait := k.wait ++ [f] }

/-- A message to another module goes over the first link of its route (R409, R410); over a FAILED link, or without a route, it is
answered at once (R412). -/
def State.cross (s : State) (m dest : Nat) (f : Flight) : State :=
  match s.route m dest with
  | none => s.undelivered m 0 dest 0 f.ev
  | some l =>
    if (s.link m l).state = .failed then s.undelivered m l dest (s.link m l).ver f.ev else s.transmit m l f

/-- A message to where it acts: within the module, or over the Nolkai links. -/
def State.send (s : State) (src dst : Nat) (ev : Event) : State :=
  let f : Flight := ⟨s.now, src, dst, ev⟩
  if srcModule src = placeModule dst then s.post f else s.cross (srcModule src) (placeModule dst) f

/-- How the links of the route from a module to another stand; `failed` too where there is none. -/
inductive Way where
  | clear | held | failed
  deriving DecidableEq, Repr

def State.wayGo (s : State) (dest : Nat) : Nat → Nat → Way
  | 0, _ => .failed
  | n + 1, m =>
    if m = dest then .clear
    else match s.route m dest with
      | none => .failed
      | some l =>
        let k := s.link m l
        match k.state, s.wayGo dest n k.partner with
        | .failed, _ => .failed
        | _, .failed => .failed
        | .up, w => w
        | _, _ => .held

def State.way (s : State) (m dest : Nat) : Way := s.wayGo dest 65 m

/-- Whether a link toward a module is FAILED or there is none (R409, R412). -/
def linkDown (s : State) (here dest : Nat) : Bool := s.way here dest == .failed

/-- One flit of a channel over every link of the route to a module; a link that takes none now marks the step (R410). -/
def State.hops (ch dest : Nat) : Nat → Nat → State → State
  | 0, _, s => s
  | n + 1, m, s =>
    if m = dest then s
    else match s.route m dest with
      | none => s
      | some l =>
        let k := s.link m l
        if k.takes ch 1 then State.hops ch dest n k.partner (s.sendFlits m l [(k.sendSeq, none)]) else { s with linkHeld := true }

/-- An access of another module's memory that is one step of an engine, a fetch or a descriptor read: its request and its response are flits of
every link between (R410). Where one takes none, the step is marked and is tried again (`orHeld`). (DEDUCED, log 107) -/
def State.overLinks (s : State) (m dest : Nat) : State := State.hops 1 m 65 dest (State.hops 0 dest 65 m s)

/-- What a step leaves: one that has been marked leaves `back`, the state in which it will be tried again. -/
def orHeld (back t : State) : State := if t.linkHeld && !back.linkHeld then back else t

/-- A step that comes due later. -/
def State.later (s : State) (delay src dst : Nat) (ev : Event) : State := s.post ⟨s.now + delay, src, dst, ev⟩

/-- The step at which the cycle count reaches THTCMP (R160), if it lies ahead. (DEDUCED, log 77) -/
def State.armTimer (s : State) (g : Nat) : State :=
  let n := (s.thread g).ctx.tcmp.toNat
  let now := s.cycles (coreOf g) % 2 ^ 64
  if now < n then
    s.later (n - now) (fromThread g) (atCore (coreOf g)) (.timerInterrupt ⟨g⟩)
  else s

/-! ## The step governor (R424, R425) -/

/-- The cycles of 1 µs at 1.1 GHz. -/
def microsecond : Nat := 1100

/-- The most that a die's current may rise within 1 µs, and the most that it may be, in mA. -/
def riseLimit : Nat := 32000
def peakLimit : Nat := 250000

/-- The estimated current of a piece of work in mA, no more than one rise. (DESIGN CHOICE, log 66) -/
def workAmps (k : Nat) : Nat := Config.workCurrent k % (riseLimit + 1)

/-- The estimates of a vector unit that leaves its idle state, and of a matrix command. -/
def vectorAmps : Nat := workAmps 0
def commandAmps (x : MxEntry) : Nat := workAmps (1 + x.cmd.toNat)

/-- The power that the package may take in watts: PWRCAP, and never more than 8,000 W. -/
def powerLimit (x : Module) : Nat := min x.pwrcap.toNat 8000

/-- The current that a die may hold, in mA: while the package is capped, a 64th of its power at 650 mV. (DESIGN CHOICE, log 66) -/
def currentLimit (x : Module) : Nat := if x.capping then min peakLimit (powerLimit x * 1000000 / (650 * 64)) else peakLimit

/-- The rises of the last microsecond. -/
def Die.recent (d : Die) (now : Nat) : List (Nat × Nat) := d.rises.filter fun e => decide (now < e.1 + microsecond)

/-- Currents added up. -/
def ampsOf (l : List (Nat × Nat)) : Nat := l.foldl (fun n e => n + e.2) 0

/-- Whether a core's vector unit has not gone idle. -/
def State.vectorBusy (s : State) (gdie core : Nat) : Bool :=
  match tfind (s.die gdie).vec core with
  | some t => decide (s.now < t + Config.vectorIdle)
  | none => false

/-- The estimates of the work that a die has under way: its vector units, and the commands that its sequencers have begun. -/
def State.current (s : State) (gdie : Nat) : Nat :=
  vectorAmps * ((s.die gdie).vec.filter fun e => decide (s.now < e.2 + Config.vectorIdle)).length +
  s.cores.foldl (fun n c => if dieOf c.1 = gdie then n + ((c.2.sequencer.filter fun x => x.begun).map commandAmps).sum else n) 0

/-- Whether a die's slope and its share allow a rise: one alone always does. -/
def State.slopeAllows (s : State) (gdie amps : Nat) : Bool :=
  let r := (s.die gdie).recent s.now
  r.isEmpty || decide (ampsOf r + amps ≤ riseLimit)
def State.shareAllows (s : State) (gdie amps : Nat) : Bool :=
  s.current gdie == 0 || decide (s.current gdie + amps ≤ currentLimit (s.modu (dieModule gdie)))

/-- A die once the wait for its governor has ended: STEPDLY has counted its cycles. -/
def Die.served (d : Die) (now : Nat) : Die :=
  match d.waitSince with
  | some n => { d with stepdly := d.stepdly + .ofNat 64 (now - n), waitSince := none }
  | none => d

/-- STEPDLY as it reads: the wait in hand counts each of its cycles. -/
def Die.stepDelay (d : Die) (now : Nat) : Word := (d.served now).stepdly

/-- Work asks the governor of its die before it begins (R425): the die's slope and share allow it, or it waits, and the first that waits is
looked at again when a rise has passed. (DESIGN CHOICE, log 66) -/
def State.askGovernor (s : State) (gdie amps : Nat) : Bool × State :=
  let d := s.die gdie
  if s.slopeAllows gdie amps && s.shareAllows gdie amps then
    let d := d.served s.now
    (true, s.setDie gdie { d with rises := (s.now, amps) :: d.recent s.now })
  else if d.waitSince.isSome then (false, s)
  else (false, (s.setDie gdie { d with waitSince := some s.now }).later
    (match (d.recent s.now).getLast? with
     | some e => e.1 + microsecond - s.now
     | none => microsecond) (fromModule (dieModule gdie)) (atDie gdie) (.governorGrant ⟨gdie⟩))

/-- A vector instruction of a core: its unit asks before it leaves its idle state. -/
def State.askVector (s : State) (core : Nat) : Bool × State :=
  let d := dieOf core
  let r := if s.vectorBusy d core then (true, s) else s.askGovernor d vectorAmps
  if r.1 then (true, r.2.modDie d fun x => { x with vec := tput x.vec core s.now }) else r

/-! ## Tasks -/

/-- A task opens (R165): TSEQ advances; the restart context is captured unless a trap record is live. -/
def openTask (t : Thread) (pc : Word) : Thread :=
  let c := { t.ctx with tseq := t.ctx.tseq + 1 }
  let live := c.cause.live || c.mcause.live
  { t with
    ctx := if live then c else c.capture pc
    opened := live
    gone := t.gone.filter (· != c.task)
    units := [], creates := [], filter := [] }

/-- The L1 words that are SPEC for a slot become INVALID (R91). -/
def dropSpec (slot : Nat) (l : L1Line) : L1Line :=
  { l with st := l.st.filter fun e =>
      match e.2 with
      | .spec k _ => k != slot
      | _ => true }

/-- A stream returns to UNBOUND with nothing buffered (R154, R167). -/
def unbindAll (t : Thread) : Thread := { t with streams := [] }

/-- Steps of the engines of a thread's task that a discard stops (R167): Heliostat transfers, stream elements, collectives that have not
joined. Every stream becomes UNBOUND, whichever task bound it. -/
def engineOf (g : Nat) (task : BitVec 32) : Event → Bool
  | .heliostatLineReceive h => h.gti == g && h.task == task
  | .streamFillElement r => r.gti == g
  | .streamDrainWrite r => r.gti == g
  | .collectiveAllreduce c | .collectiveBroadcast c | .hostToDevice c | .deviceToHost c => c.gti == g && c.task == task
  | _ => false

/-- A promotion of a discarded task moves nothing any more (R167); its counter still rises (R303). -/
def stopPinner (g : Nat) (task : BitVec 32) : Pinner → Pinner
  | .promotion h core ctr toHbm pc t x => .promotion h core ctr toHbm pc t (x || (h == g && t == task))
  | p => p

def stopPromotion (g : Nat) (task : BitVec 32) : Event → Event
  | .ephemerisPin q => .ephemerisPin { q with pinner := stopPinner g task q.pinner }
  | .promotionCompletion p => .promotionCompletion { p with stopped := p.stopped || (p.gti == g && p.task == task) }
  | e => e

def stopPromotions (s : State) (g : Nat) (task : BitVec 32) : State :=
  let s := s.mapFlights (stopPromotion g task)
  { s with slices := tmap (fun _ x => { x with tiles := tmap (fun _ e =>
      { e with pinWait := e.pinWait.map fun q => { q with pinner := stopPinner g task q.pinner } }) x.tiles }) s.slices }

/-- KIND and TILE of a matrix command (R333), whether its memory lies in linear space, and the counter that its completion increments. -/
def mxKind (c : BitVec 512) : Nat := c.toNat / 2 ^ 60 % 16
def mxTile (c : BitVec 512) : Nat := c.toNat / 2 ^ 56 % 4
def mxLinear (c : BitVec 512) : Bool := c.toNat / 2 ^ 316 % 16 == 0 || c.toNat / 2 ^ 316 % 16 == 3
def mxCtr (c : BitVec 512) : Option Nat := if c.getLsbD 4 then some (c.toNat / 2 ^ 122 % 64) else none

/-- An accumulator tile's record changed. -/
def modAcc (s : State) (core tile : Nat) (f : Acc → Acc) : State :=
  s.modCore core fun c => { c with acc := tput c.acc tile (f (tget Acc.zero c.acc tile)) }

/-- The dependency table and the sequencer of a core look for something to do (R341). -/
def kickMatrix (s : State) (core : Nat) : State := s.post ⟨s.now, fromThread (core * 16), atCore core, .matrixDispatch ⟨core⟩⟩

/-- A matrix command leaves the dependency table or the sequencer (R341 to R344): PEND falls, its pins are dropped, and readiness waits
that have not ended are withdrawn. -/
def endEntry (s : State) (core : Nat) (e : MxEntry) : State :=
  let s := s.modCore core fun c =>
    { c with deps := c.deps.filter fun x => x.id != e.id
             sequencer := c.sequencer.filter fun x => x.id != e.id }
  let s := modAcc s core (mxTile e.cmd) fun a => { a with pend := a.pend - 1 }
  let s := e.pins.foldl (fun s r => s.send (fromThread e.gti) (atSlice r.gslice) (.ephemerisUnpin r)) s
  let s := (e.tiles.zip e.ready).foldl (fun s r =>
    if r.2 then s else s.send (fromThread e.gti) (atSlice r.1.gslice) (.waiterCancel ⟨r.1, .matrix core e.id⟩)) s
  kickMatrix s core

/-- A command completes DISCARDED (R344): one that has begun to write leaves its tile poisoned. Its counter rises. -/
def discardEntry (s : State) (core : Nat) (e : MxEntry) : State :=
  let s := if e.begun && e.wrote then modAcc s core (mxTile e.cmd) fun a => { a with poison := true } else s
  let s := endEntry s core e
  match mxCtr e.cmd with
  | some c => raiseCount s core c e.job
  | none => s

/-- Commands complete DISCARDED in one step; the evaluation of their counters follows (R189). -/
def discardEntries (core : Nat) : List MxEntry → State → State
  | [], s => s
  | e :: t, s => discardEntries core t (discardEntry s core e)

/-- Heliostat transfers of a discarded task complete DISCARDED: each counter still rises (R167, R303), and is evaluated after. -/
def stopTransfers (g : Nat) (task : BitVec 32) : List Flight → State → State
  | [], s => s
  | f :: t, s =>
    stopTransfers g task t <|
      if !engineOf g task f.ev then s
      else match f.ev with
        | .heliostatLineReceive h => raiseCount (engineOver s g h.core (some h.ctr) 0 none) h.core h.ctr (s.thread g).ctx.ids.job
        | .collectiveAllreduce c | .collectiveBroadcast c | .hostToDevice c | .deviceToHost c =>
          s.post ⟨s.now, fromModule c.module, atModule c.module, .collectiveCompletion ⟨c, 6, 0, 0, none⟩⟩
        | _ => s

/-- Collective members of a discarded task that still wait complete DISCARDED, and the others are told (R417). -/
def stopCollectives (g : Nat) (task : BitVec 32) : List CollWait → State → State
  | [], s => s
  | w :: t, s =>
    if w.c.gti = g ∧ w.c.task = task then
      let s := s.modModu w.c.module fun m => { m with colls := m.colls.filter fun y => !(y.c.gti == g && y.c.tag == w.c.tag) }
      stopCollectives g task t (s.post ⟨s.now, fromModule w.c.module, atModule w.c.module, .collectiveCompletion ⟨w.c, 6, 0, 0, none⟩⟩)
    else stopCollectives g task t s

/-- An EPHEMERIS_DISCARD to the home of each version the task created (R48). -/
def discardCreates (g : Nat) (task : BitVec 32) : List TileRef → State → State
  | [], s => s
  | r :: t, s => discardCreates g task t (s.send (fromThread g) (atSlice r.gslice) (.ephemerisDiscard ⟨r, g, task⟩))

/-- The speculative bytes that homes hold for a task are freed (R90, R167). -/
def freeSpec (g : Nat) (s : State) : State :=
  { s with slices := tmap (fun _ x => { x with spec := x.spec.filter fun p => p.gti != g }) s.slices }

/-- The posting counter of a target core (R126). -/
def coreClass (core target : Nat) : PostCtr :=
  if dieOf core = dieOf target then .pd else if moduleOf core = moduleOf target then .px else .po

/-- The target core of a gmsend's target word (R375). -/
def GOp.target (o : GOp) : Nat := bits o.control 43 25

/-- Solver operations that have not begun complete DISCARDED (R370, R378): no result is expected of them, and a gmsend posts nothing. -/
def dropSolver (core : Nat) : List GOp → State → State
  | [], s => s
  | o :: t, s =>
    let s := s.modCore core fun c => { c with solver := c.solver.filter (· != o) }
    let s := s.modThread o.gti fun h =>
      { h with out := h.out.filter fun r => r.id != o.id
               ctx := if o.op = 3 then h.ctx.setCount (coreClass core o.target) (h.ctx.count (coreClass core o.target) - 1) else h.ctx }
    dropSolver core t s

/-- The pins of an attention step are dropped (R43, R365). -/
def dropPins (gslice : Nat) : List TileRef → State → State
  | [], s => s
  | r :: t, s => dropPins gslice t (s.post ⟨s.now, fromSlice gslice, atSlice r.gslice, .ephemerisUnpin r⟩)

/-- An attention step of a thread is stopped: it writes nothing, and its pins are dropped (R167, R365). -/
def stopAtt (s : State) (g : Nat) : State :=
  match (s.thread g).att with
  | some a => dropPins a.gslice a.read.pins (s.modThread g fun t => { t with att := none })
  | none => s

/-- discard_task (R167, R199): speculative stores and creates are freed, streams become UNBOUND, the task's engine operations stop. Those of
earlier tasks, which no commit waits for, run on. (DEDUCED, log 20) -/
def discardTask (s : State) (g : Nat) : State :=
  let t := s.thread g
  let core := coreOf g
  let arrivals := (s.core core).arrivals
  let s := stopAtt (freeSpec g s) g
  let s := s.modCore core fun c =>
    { c with l1d := tmap (fun _ l => dropSpec (slotOf g) l) c.l1d }
  let s := dropSolver core ((s.core core).solver.filter fun o => o.gti == g) s
  let task := t.ctx.task
  let es := ((s.core core).deps ++ (s.core core).sequencer).filter fun e => e.gti == g && e.task == task
  let s := (discardEntries core es s).modThread g fun t => { t with engines := t.engines - es.length }
  let s := stopPromotions s g task
  let s := discardCreates g task t.creates s
  let s := stopTransfers g task s.agenda s
  let s := stopCollectives g task (s.modu (moduleOf core)).colls s
  let s := { s with agenda := s.agenda.filter fun f => !engineOf g task f.ev }
  let before (c : Nat) : Nat := (tget Arrival.zero arrivals c).value
  let s := evalRaised core ((List.range 64).filter fun c => (tget Arrival.zero (s.core core).arrivals c).value != before c) s
  s.modThread g fun t =>
    { unbindAll t with units := [], creates := [], filter := [], acks := 0
                       gone := if t.gone.contains task then t.gone else t.gone ++ [task]
                       eng := t.eng.filter fun e => e.fault.task != task
                       stf := t.stf.filter fun e => e.fault.task != task
                       out := t.out.filter fun o => o.dest != .none
                       solverDead := false, solverJoin := false, checked := false, seq := none, stage := .start }

/-- A record of a trap or call entry (R199). -/
def mkRecord (f : FaultRec) (task : BitVec 32) : CauseRec :=
  ⟨true, f.cause.discards, 0, f.more, f.engine, task, f.kind, .ofNat 8 f.cause.code⟩

/-- The thread halts (R201): it keeps its slot and issues nothing; the event arbiter is told (R431 DOUBLE_HALT). -/
def haltThread (s : State) (g : Nat) (f : FaultRec) (pc : Word) : State :=
  let core := coreOf g
  (s.modThread g fun t => { t with status := .halted }).report
    ⟨moduleOf core, 9, some (s.thread g).ctx.ids.job, dieOf core % 64, 0, core % 96, pc,
     .ofNat 79 (f.cause.code + f.kind.toNat * 2 ^ 8 + core * 2 ^ 12 + slotOf g * 2 ^ 31)⟩

/-- Entry to monitor mode (R199). -/
def enterMonitor (c : Ctx) (r : CauseRec) (pc : Word) : Ctx :=
  { c with mcause := r, mepc := pc, mpmode := c.mode, mpie := c.ie, mpss := c.ss, mode := .monitor,
           pc := .ofNat 64 (c.mvec.toNat * 4), ie := false, ss := false }

/-- Entry to supervisor mode (R199). -/
def enterSupervisor (c : Ctx) (r : CauseRec) (pc addr : Word) (info : InfoRec) : Ctx :=
  { c with cause := r, epc := pc, addr := addr, info := info, pmode := c.mode, pie := c.ie, pss := c.ss,
           mode := .supervisor, pc := .ofNat 64 (c.svec.toNat * 4), ie := false, ss := false }

/-- TAKING A TRAP OR CALL ENTRY (R199): enter(cause, kind, pc, addr, info). Fault responses of the discarded task that have reached the core
already are gone with it; those that come later count in MORE (R198). (DEDUCED, log 95) -/
def enter (s : State) (g : Nat) (f : FaultRec) : State :=
  let pc := f.pc.getD (s.thread g).reportPc
  let task := (s.thread g).ctx.task
  let disc := f.cause.discards
  let s := if disc then discardTask s g else s
  let t : Thread := { s.thread g with
    status := .ready, seq := none, stage := .start, checked := false, displaced := false, stepDue := false
    guardRec := if f.cause = .scratchpadGuard ∧ f.engine = 0 then none else (s.thread g).guardRec
    pend := (s.thread g).pend.filter fun p => !(disc && p.task == task) }
  let c : Ctx := t.ctx
  let f : FaultRec := if f.cause = .scratchpadGuard then f else { f with more := 0 }
  if c.mode = .monitor ∨ f.cause = .monitorCall then
    if c.mcause.live then haltThread (s.setThread g t) g f pc
    else
      let t := { t with ctx := enterMonitor c (mkRecord f task) pc }
      s.setThread g (if disc then openTask t t.ctx.pc else t)
  else if c.cause.live then
    if c.mcause.live then haltThread (s.setThread g t) g f pc
    else
      let r := { mkRecord f task with inner := .ofNat 6 f.cause.code, more := 0, kind := 0, cause := .ofNat 8 (Cause.code .doubleTrap) }
      let t := { t with ctx := enterMonitor c r pc }
      s.setThread g (if disc then openTask t t.ctx.pc else t)
  else
    let t := { t with ctx := enterSupervisor c (mkRecord f task) pc f.addr f.info }
    s.setThread g (if disc then openTask t t.ctx.pc else t)

/-- What every form of trap return restores (R201), and the address it returns to. -/
def leave (c : Ctx) : Ctx × Word :=
  if c.mode = .monitor then
    ({ c with mode := c.mpmode, ie := c.mpie, ss := c.mpss, mcause := { c.mcause with live := false } }, c.mepc)
  else
    ({ c with mode := c.pmode, ie := c.pie, ss := c.pss, cause := { c.cause with live := false } }, c.epc)

end Sys2Proof.Machine
end

