-- ==== Sys2Proof/Machine/Translate.lean ====
section
/-! DEFINITION. From a generic pointer to where an access acts: resolution at the requester (R13, R15, R17), the home of a
linear address (R20, R79), and the translation a memory controller makes at a fill (R22 to R26, R29). -/

namespace Sys2Proof.Machine

/-! ## Resolution at the requester -/

/-- The kinds of access that R15 tells apart. -/
inductive Access where
  | load | store | atomic | fetch | streamFill | streamDrain | migrate | tile
  deriving DecidableEq, Repr

/-- Where a pointer leads (R13). -/
inductive Target where
  /-- a byte offset of the own scratchpad -/
  | own (off : Nat)
  /-- a byte offset of the scratchpad of another core of the cluster -/
  | remote (core off : Nat)
  /-- a linear address -/
  | linear (addr : Nat)
  deriving DecidableEq, Repr

/-- op_allowed of R15 for the scratchpad spaces. -/
def opAllowed (other : Bool) : Access → Bool
  | .load | .store => true
  | .atomic => !other
  | .fetch => false
  | .streamFill => !other
  | .streamDrain => true
  | .migrate => true
  | .tile => !other

/-- op_allowed of R15 for the private window. -/
def windowAllowed : Access → Bool
  | .fetch | .streamFill | .streamDrain => false
  | _ => true

/-- The job translation table entry of a job on a module (R25), 16 bytes at XJTBASE + 16 × job. Its reserved bits are not looked at, nor
are XJTBASE [63:56] kept out of the address: the spec states no consequence. (DESIGN CHOICE, log 84) -/
def State.jobEntryAt (s : State) (m job : Nat) : BitVec 128 :=
  .ofNat 128 (s.peekNat ((s.modu m).xjtbase.toNat / 4096 * 4096 + 16 * job) 16)

/-- The entry as a core has it: its cached copy if it holds one (R27), else the table's. -/
def State.jobEntry (s : State) (core job : Nat) : BitVec 128 :=
  match tfind (s.core core).jobCache job with
  | some e => e
  | none => s.jobEntryAt (moduleOf core) job

def jobValid (e : BitVec 128) : Bool := e.toNat % 2 == 1
def jobPrt (e : BitVec 128) : Nat := e.toNat / 2 ^ 74 % 2 ^ 46 * 2 ^ 10
def jobPwlog (e : BitVec 128) : Nat := e.toNat / 2 ^ 64 % 32
def jobRoot (e : BitVec 128) : Nat := e.toNat / 2 ^ 14 % 2 ^ 42 * 2 ^ 14

/-- A placement region entry (R19). -/
def State.regionAt (s : State) (e : BitVec 128) (r : Nat) : Word := .ofNat 64 (s.peekNat (jobPrt e + 8 * r) 8)

def State.region (s : State) (core job r : Nat) : Word :=
  match tfind (s.core core).regionCache (job * 128 + r) with
  | some e => e
  | none => s.regionAt (s.jobEntry core job) r

def regV (e : Word) : Bool := bit e 63
def regMode (e : Word) : Nat := bits e 2 0
def regModule (e : Word) : Nat := bits e 17 12
def regDie (e : Word) : Nat := bits e 11 6
/-- Reserved bits zero and a mode that exists (R19). The spec states what a nonzero bit of [62:18] does and not what one of [5:3] does:
both make the region unusable. (DESIGN CHOICE, log 85) -/
def regOk (e : Word) : Bool := regV e && bits e 62 18 == 0 && bits e 5 3 == 0 && decide (regMode e < 4)

/-- The PRIVATE regions of a job with V = 1, by number (R17). -/
def State.privates (s : State) (rd : Nat → Word) : Nat → List Nat
  | 0 => []
  | n + 1 => s.privates rd n ++ (if regV (rd n) && regMode (rd n) == 3 then [n] else [])

/-- The private-alias base: the first address of the one PRIVATE region (R17). -/
def State.privateBase (s : State) (core job : Nat) : Option Nat :=
  match s.privates (s.region core job) 128 with
  | [r] => some (r * 2 ^ 50)
  | _ => none

/-- resolve(ptr, op, mode) of R13; the fault is its TRANSLATION kind. -/
def State.resolve (s : State) (g : Nat) (ptr : Word) (op : Access) : Except Nat Target :=
  let c := (s.thread g).ctx
  let core := coreOf g
  let sp := bits ptr 63 60
  if 4 ≤ sp then .error kNonCanonical
  else if bits ptr 59 57 ≠ 0 ∧ sp ≠ 2 then .error kNonCanonical
  else if sp = 0 then
    if bit ptr 56 ∧ c.mode = .user then .error kNonCanonical else .ok (.linear (bits ptr 56 0))
  else if sp = 1 ∨ sp = 2 then
    if bits ptr 56 19 ≠ 0 then .error kWindowBound
    else
      let other := decide (sp = 2 ∧ bits ptr 59 57 ≠ core % 8)
      if opAllowed other op then
        if other then .ok (.remote (core / 8 * 8 + bits ptr 59 57) (bits ptr 18 0)) else .ok (.own (bits ptr 18 0))
      else .error kSpaceOp
  else
    let e := s.jobEntry core c.ids.job
    if 2 ^ jobPwlog e ≤ bits ptr 56 0 then .error kWindowBound
    else if ¬ windowAllowed op then .error kSpaceOp
    else if ¬ jobValid e then .error kNotMapped
    else if jobPwlog e < 12 ∨ 27 < jobPwlog e then .error kRegionInvalid
    else
      match s.privateBase core c.ids.job with
      | none => .error kRegionInvalid
      | some b => .ok (.linear ((b + c.origin * 2 ^ jobPwlog e + bits ptr 56 0) % 2 ^ 57))

/-- A pointer that must name the own scratchpad, in space 1 or as the own core of space 2 (R13): the offset, or the kind for any other
place. -/
def ownOnly (g : Nat) (ptr : Word) : Except Nat Nat :=
  let sp := bits ptr 63 60
  if sp ≠ 1 ∧ sp ≠ 2 then .error kSpaceOp
  else if bits ptr 56 19 ≠ 0 then .error kWindowBound
  else if bits ptr 59 57 = (if sp = 1 then 0 else coreOf g % 8) then .ok (bits ptr 18 0)
  else .error kSpaceOp

/-! ## Homes -/

/-- The slice hash (R79). -/
def sliceOf (a : Nat) : Nat := ((a / 2 ^ 7 % 16) ^^^ (a / 2 ^ 11 % 16)) ^^^ ((a / 2 ^ 15 % 16) ^^^ (a / 2 ^ 19 % 16))

/-- The mask of modules of a job's partition (R409): 8 bytes at NLKPT + 8 × job. A module outside any domain has itself alone. (DEDUCED, log 79) -/
def State.partition (s : State) (m job : Nat) : BitVec 64 :=
  if (s.modu m).domV then .ofNat 64 (s.peekNat ((s.modu m).nlkpt.toNat / 2 ^ 11 * 2 ^ 11 + 8 * job) 8)
  else .ofNat 64 (2 ^ m)

/-- Whether a module's requests of a job may go to another: it is the module itself, or a routed module of the job's partition
(R409). (DEDUCED, log 79) -/
def State.reachable (s : State) (m job dest : Nat) : Bool :=
  m == dest || ((s.partition m job).getLsbD dest && (s.route m dest).isSome && decide (dest < 64))

/-- Whether a module is one of the job's (R281, R296): itself, or in the job's partition. -/
def State.ofJob (s : State) (m job dest : Nat) : Bool := m == dest || ((s.partition m job).getLsbD dest && decide (dest < 64))

/-- The home die of a linear address (R20), from the die of the requester; the fault is its kind. The region's mode comes with
it. -/
def State.homeDie (s : State) (m gdie : Nat) (e : BitVec 128) (rd : Nat → Word) (addr : Nat) : Except Nat (Nat × Nat) :=
  if ¬ jobValid e then .error kNotMapped
  else
    let r := rd (addr / 2 ^ 50)
    if ¬ regOk r then .error kRegionInvalid
    else if regMode r = 0 then .ok (gdie, 0)
    else if regMode r = 1 then .ok (regModule r * 64 + regDie r, 1)
    else if regMode r = 2 then .ok (regModule r * 64 + addr / 2 ^ 16 % 64, 2)
    else if jobPwlog e < 12 ∨ 27 < jobPwlog e ∨ (s.privates rd 128).length ≠ 1 then .error kRegionInvalid
    else
      let g := addr % 2 ^ 50 / 2 ^ jobPwlog e / 16
      if m / 64 = 0 ∧ g / 6144 < 64 then .ok (g / 6144 * 64 + g % 6144 / 96, 3) else .error kRegionInvalid

/-- The home slice of a linear address for a thread's job (R20, R79), checked as R29 orders. -/
def State.home (s : State) (core job addr : Nat) : Except Nat Nat :=
  match s.homeDie (moduleOf core) (dieOf core) (s.jobEntry core job) (s.region core job) addr with
  | .error k => .error k
  | .ok (d, _) =>
    if s.reachable (moduleOf core) job (dieModule d) then .ok (d * 16 + sliceOf addr) else .error kRegionInvalid

/-- A core keeps the job entry and the region entry that an access used (R27). -/
def State.noteEntries (s : State) (core job addr : Nat) : State :=
  let e := s.jobEntry core job
  let r := s.region core job (addr / 2 ^ 50)
  s.modCore core fun c =>
    { c with jobCache := tput c.jobCache job e
             regionCache := tput c.regionCache (job * 128 + addr / 2 ^ 50) r }

/-- The posting counter of a home (R90). -/
def postClass (core gslice : Nat) : PostCtr :=
  if sliceDie gslice = dieOf core then .pd else if sliceModule gslice = moduleOf core then .px else .po

/-! ## Translation at the controller -/

/-- The pseudo-channel of a byte of a die, and its controller (R83). -/
def pseudoChannel (p : Nat) : Nat := (p / 2 ^ 7 % 128) ^^^ (p / 2 ^ 14 % 4 * 32)
def ctrlOf (gdie p : Nat) : Nat := gdie * 4 + pseudoChannel p / 32

/-- The fields of a page-table entry (R24). -/
def pteV (e : Nat) : Bool := e % 2 == 1
def pteLeaf (e : Nat) : Bool := e / 2 % 2 == 1
def ptePerms (e : Nat) : Perms := ⟨e / 4 % 2 == 1, e / 8 % 2 == 1, e / 16 % 2 == 1, e / 32 % 2 == 1⟩
def ptePriv (e : Nat) : Bool := e / 256 % 2 == 1
def pteOwner (e : Nat) : Nat := e / 2 ^ 56
def pteFrame (e : Nat) : Nat := e / 2 ^ 16 % 2 ^ 40 * 2 ^ 16

/-- PTE_FORMAT of a valid entry at a level with pages of `size` bytes, for a region of a mode (R24, R18). -/
def pteBad (level size mode e : Nat) : Bool :=
  let leaf := pteLeaf e
  let frame := pteFrame e
  (e / 2 ^ 9 % 2 ^ 7 != 0) || (e / 2 ^ 6 % 4 != 0) ||
  (!leaf && level == 3) || (leaf && level == 0) ||
  (leaf && (ptePerms e).w && !(ptePerms e).r) ||
  (pteOwner e != 0 && !(leaf && ptePriv e)) ||
  (leaf && (ptePriv e != (mode == 3))) ||
  (leaf && (mode == 2 || mode == 3) && level != 3) ||
  (leaf && frame % size != 0) ||
  (leaf && decide (Config.dieBytes < frame % 2 ^ 44 + size))

/-- Whether a page overlaps the die's allocator reserve or its save pool while V = 1 (R24, R210). -/
def State.reservedPage (s : State) (gdie p size : Nat) : Bool :=
  let d := s.die gdie
  let a0 := d.alBase.toNat * 2 ^ 30
  let a1 := a0 + d.alSize.toNat * 2 ^ 30
  let p0 := d.psBase.toNat * 2 ^ 26
  let p1 := p0 + 48 * 2 ^ 20
  decide (p < a1 ∧ a0 < p + size) || (d.psV && decide (p < p1 ∧ p0 < p + size))

/-- A leaf that a walk found: the page's first byte within the die, and the entry. -/
structure Leaf where
  page : Nat
  size : Nat
  entry : Nat
  deriving DecidableEq, Repr

/-- The walk from a table (R24, R29): each level is given by the lowest index bit and the index width. -/
def State.walk (s : State) (mode addr : Nat) : Nat → Nat → List (Nat × Nat) → Except Nat Leaf
  | _, _, [] => .error kPteFormat
  | level, table, (lo, len) :: rest =>
    let at_ := table + 8 * (addr / 2 ^ lo % 2 ^ len)
    if s.badLine at_ then .error kPoisonedTable
    else
      let e := s.peekNat at_ 8
      if ¬ pteV e then .error kNotMapped
      else if pteBad level (2 ^ lo) mode e then .error kPteFormat
      else if pteLeaf e then .ok ⟨pteFrame e, 2 ^ lo, e⟩
      else s.walk mode addr (level + 1) (pteFrame e) rest

/-- The checks at the leaf (R29): PLACEMENT_MISMATCH, RESERVED_FRAME, PRIVATE_ALIAS; the physical line and the permissions. -/
def State.leafCheck (s : State) (gdie job mode addr : Nat) (l : Leaf) : Except Nat HomeLine :=
  let p := l.page % 2 ^ 44
  if mode ≠ 0 ∧ l.page / 2 ^ 44 ≠ gdie then .error kPlacement
  else if s.reservedPage gdie p l.size then .error kReserved
  else if ptePriv l.entry ∧ pteOwner l.entry ≠ job then .error kPrivateAlias
  else .ok ⟨gdie * 2 ^ 44 + p + addr % l.size / 128 * 128, ptePerms l.entry, 0⟩

/-- The region's mode as the home die's module reads it. -/
def State.modeAt (s : State) (gdie job addr : Nat) : Nat :=
  regMode (s.regionAt (s.jobEntryAt (dieModule gdie) job) (addr / 2 ^ 50))

/-- The translation of a line at its home die (R22 to R24): a cached leaf if the controller holds one (R27), else a walk. -/
def State.translate (s : State) (gdie job addr : Nat) : Except Nat (HomeLine × Option (Nat × Word)) :=
  let m := dieModule gdie
  let mode := s.modeAt gdie job addr
  let key := job * 2 ^ 41 + addr / 2 ^ 16
  match tfind (s.ctrl (ctrlOf gdie addr)).leaves key with
  | some e =>
    match s.leafCheck gdie job mode addr ⟨pteFrame e.toNat, 2 ^ 16, e.toNat⟩ with
    | .error k => .error k
    | .ok h => .ok (h, none)
  | none =>
    match s.walk mode addr 0 (jobRoot (s.jobEntryAt m job)) [(46, 11), (36, 10), (26, 10), (16, 10)] with
    | .error k => .error k
    | .ok l =>
      match s.leafCheck gdie job mode addr l with
      | .error k => .error k
      | .ok h =>
        -- the cached copy of a large page's leaf names the 64 KiB page of this address
        let page := l.page + addr % l.size / 2 ^ 16 * 2 ^ 16
        .ok (h, some (key, .ofNat 64 (l.entry / 2 ^ 56 * 2 ^ 56 + page + l.entry % 2 ^ 16)))

/-- Whether the kept permissions allow an access (R22): a read needs R, a write W, a fetch X, user mode U. -/
def permOk (p : Perms) (user write fetch : Bool) : Bool :=
  (if fetch then p.x else if write then p.w else p.r) && (p.u || !user)

end Sys2Proof.Machine
end

