-- ==== Sys2Proof/Machine/Home.lean ====
section
/-! DEFINITION. The caches and the home slices (R77, R89 to R113): L1 lines and word states, fills with the synonym filter,
registration, region tracking, requester-side copies, commutative contributions, and reads and writes at a home. -/

namespace Sys2Proof.Machine

/-! ## Keys of a slice's tables -/

def lineKey (job line : Nat) : Nat := job * 2 ^ 50 + line
def wordKey (job word : Nat) : Nat := job * 2 ^ 54 + word
def tileKey (job name ver : Nat) : Nat := job * 2 ^ 64 + name * 2 ^ 24 + ver

/-! ## The L1 data cache (R77) -/

/-- A bit of the replacement tree set or cleared. -/
def setBitN (n i : Nat) (b : Bool) : Nat :=
  n / 2 ^ (i + 1) * 2 ^ (i + 1) + (if b then 2 ^ i else 0) + n % 2 ^ i

def bitN (n i : Nat) : Bool := n / 2 ^ i % 2 == 1

/-- The tree bits after way w became the most recent (or, with `lru`, the least recent) of its set: bit 0 is the root, bits 1
and 2 the middle, bits 3 to 6 the leaves; a set bit names the upper half as the older. -/
def plruTouch (t w : Nat) (lru : Bool) : Nat :=
  let t := setBitN t 0 ((w / 4 % 2 == 1) == lru)
  let t := setBitN t (1 + w / 4) ((w / 2 % 2 == 1) == lru)
  setBitN t (3 + w / 2) ((w % 2 == 1) == lru)

/-- The way the tree names for replacement. (DESIGN CHOICE, log 9) -/
def plruVictim (t : Nat) : Nat :=
  let a := bitNat (bitN t 0)
  let b := bitNat (bitN t (1 + a))
  let c := bitNat (bitN t (3 + 2 * a + b))
  4 * a + 2 * b + c

/-- The way of a set that holds a line, searched from way n - 1 down. -/
def l1Way (c : Core) (job line : Nat) : Nat → Option (Nat × L1Line)
  | 0 => none
  | n + 1 =>
    match tfind c.l1d (line % 64 * 8 + n) with
    | some l => if l.job = job ∧ l.line = line then some (line % 64 * 8 + n, l) else l1Way c job line n
    | none => l1Way c job line n

def l1Find (c : Core) (job line : Nat) : Option (Nat × L1Line) := l1Way c job line 8

/-- The state of a word of a line in L1: none is INVALID. -/
def l1Word (l : L1Line) (i : Nat) : Option WordSt := tfind l.st i

/-- A word with a new state and value. -/
def l1SetWord (l : L1Line) (i : Nat) (st : WordSt) (v : Word) : L1Line :=
  { l with st := tput l.st i st
           data := mergeLine (maskFrom (8 * i) 8) (lineAt (8 * i) (bytesOf 8 v)) l.data }

/-- An access makes its way the most recent of the set. -/
def l1Touch (c : Core) (key : Nat) : Core :=
  { c with plru := tput c.plru (key / 8) (plruTouch (tget 0 c.plru (key / 8)) (key % 8) false) }

/-- The first way of a set that holds nothing. -/
def l1Free (c : Core) (set : Nat) : Nat → Option Nat
  | 0 => none
  | n + 1 => if (tfind c.l1d (set * 8 + (8 - (n + 1)))).isNone then some (8 - (n + 1)) else l1Free c set n

/-- The words of a line in some state, as a mask. -/
def stMask (p : WordSt → Bool) (l : L1Line) : BitVec 16 :=
  .ofNat 16 (l.st.foldl (fun n e => if p e.2 then n + 2 ^ e.1 else n) 0)

def isReg : WordSt → Bool
  | .reg | .regd => true
  | _ => false

def isRegd : WordSt → Bool
  | .regd => true
  | _ => false

/-- A line enters the speculative-line filter of a slot's thread (R90). -/
def filterLine (s : State) (g job line : Nat) : State :=
  s.modThread g fun t => { t with filter := if t.filter.contains (lineKey job line) then t.filter else t.filter ++ [lineKey job line] }

/-- A line that leaves L1 with SPEC words enters the filters of their slots: the home alone holds their bytes now (R94), and the loads
of those slots must go there. (DEDUCED, log 41) -/
def filterSlots (s : State) (core : Nat) (l : L1Line) : State :=
  l.st.foldl (fun s e =>
    match e.2 with
    | .spec k _ => filterLine s (core * 16 + k) l.job l.line
    | _ => s) s

/-- An evicted line deregisters its words (R94). -/
def evictLine (s : State) (core : Nat) (l : L1Line) : State :=
  let w := stMask isReg l
  let s := filterSlots s core l
  if w = 0 then s
  else s.send (fromThread (core * 16)) (atSlice l.home)
    (.deregistration ⟨l.home, core, l.job, l.line, w, stMask isRegd l, l.data⟩)

/-- Room for a line in its set: its own way, a free way, or the victim's, which is evicted. -/
def l1Room (s : State) (core job line home : Nat) (perms : Perms) (lru : Bool) : State × Nat × L1Line :=
  let c := s.core core
  match l1Find c job line with
  | some (k, l) => (s, k, { l with perms := perms })
  | none =>
    let set := line % 64
    let tree := tget 0 c.plru set
    let (s, w) := match l1Free c set 8 with
      | some w => (s, w)
      | none =>
        let v := plruVictim tree
        match tfind c.l1d (set * 8 + v) with
        | some old => (evictLine s core old, v)
        | none => (s, v)
    let s := s.modCore core fun c => { c with plru := tput c.plru set (plruTouch tree w lru), l1d := tdel c.l1d (set * 8 + w) }
    (s, set * 8 + w, ⟨job, line, home, perms, 0, []⟩)

/-- Words 0 to n - 1 that are INVALID or VALID become VALID (R94). -/
def validate (l : L1Line) : Nat → Table WordSt
  | 0 => l.st
  | n + 1 =>
    let t := validate l n
    match tfind t n with
    | none => tput t n .valid
    | some _ => t

/-- The bytes of the words whose state keeps its data under a fill. -/
def keptMask (l : L1Line) : Nat → Nat
  | 0 => 0
  | n + 1 =>
    keptMask l n + match tfind l.st n with
      | some (.spec _ _) | some .reg | some .regd => 255 * 2 ^ (8 * n)
      | _ => 0

/-- A line fill (R94): SPEC, REG and REGD words keep their data, the others become VALID. -/
def fillLine (l : L1Line) (data : Line) : L1Line :=
  { l with data := mergeLine (.ofNat 128 (keptMask l 16)) l.data data, st := validate l 16 }

def installL1 (s : State) (f : LineFillData) : State :=
  let r := l1Room s f.core f.job f.line f.home f.perms f.lru
  r.1.modCore f.core fun c => { c with l1d := tput c.l1d r.2.1 (fillLine r.2.2 f.data) }

/-- A read whose fill of a core, job and line is stopped: its answer installs nothing. -/
def noFill (p : Nat → Nat → Nat → Bool) (r : HomeReq) : HomeReq :=
  if p r.core r.job (r.addr / 128) then { r with fill := false } else r

/-- L1 fills under way, of the cores, jobs and lines that a predicate selects, install nothing, wherever their reads stand: on their way,
answered, or waiting at a copy slice (R95, R134). -/
def stopFills (p : Nat → Nat → Nat → Bool) (s : State) : State :=
  let s := s.mapFlights fun e =>
    match e with
    | .resultReturn r =>
      match r.fill with
      | some d => if p d.core d.job d.line then .resultReturn { r with fill := none } else e
      | none => e
    | .lineFill r => .lineFill (noFill p r)
    | .forwardedRead r => .forwardedRead (noFill p r)
    | .copySliceMiss r => .copySliceMiss (noFill p r)
    | _ => e
  { s with
    slices := tmap (fun _ x =>
      { x with copies := tmap (fun _ c => { c with waiting := c.waiting.map (noFill p) }) x.copies }) s.slices }

/-- Fills of a line under way to a core install nothing: what they bring is older than what the core now has. -/
def cancelFills (s : State) (core job line : Nat) : State := stopFills (fun c j l => c == core && j == job && l == line) s

/-- Self-invalidation (R95): every VALID word of the core becomes INVALID; fills under way install nothing. -/
def acquireCore (s : State) (core : Nat) : State :=
  stopFills (fun c _ _ => c == core) <| s.modCore core fun c =>
    { c with l1d := tmap (fun _ l => { l with st := l.st.filter fun e => e.2 != .valid }) c.l1d }

/-! ## Registration (R93) -/

/-- The REGD value on its way home in a DEREGISTRATION that has not arrived. -/
def inFlight (core job line : Nat) : List Flight → Option Dereg
  | [] => none
  | f :: t =>
    match f.ev with
    | .deregistration d => if d.core = core ∧ d.job = job ∧ d.line = line then some d else inFlight core job line t
    | _ => inFlight core job line t

/-- The value of a REGD word that has left its registrant's L1 and not reached the home (R94). -/
def evictedValue (s : State) (core job word : Nat) : Option Word :=
  match inFlight core job (word / 16) s.flights with
  | some d => if d.dirty.getLsbD (word % 16) then some (lineWord d.data (word % 16)) else none
  | none => none

/-- The value that a registrant holds for a REGD word (R93): in its L1, else on its way home, also where the line is in L1 anew. -/
def regdValue (s : State) (core job word : Nat) : Option Word :=
  match l1Find (s.core core) job (word / 16) with
  | some (_, l) =>
    if l1Word l (word % 16) = some .regd then some (lineWord l.data (word % 16)) else evictedValue s core job word
  | none => evictedValue s core job word

/-- The physical line of a name: as the slice holds it, else as the synonym filter of its controller does, which is inclusive of every
line that is held anywhere (R26). -/
def lineFrame (s : State) (g job line : Nat) : Option Nat :=
  match tfind (s.slice g).lines (lineKey job line) with
  | some h => some h.frame
  | none => ((s.ctrl (ctrlOf (sliceDie g) (line * 128))).syn.find? fun e => e.2.1 == job && e.2.2 == line).map (·.1)

/-- The physical address of a word of such a line. -/
def wordFrame (s : State) (g job word : Nat) : Option Nat := (lineFrame s g job (word / 16)).map (· + 8 * (word % 16))

/-- A REGD word's value enters the home's data (R93). -/
def writeBack (s : State) (g core job word : Nat) : State :=
  match regdValue s core job word, wordFrame s g job word with
  | some v, some a => s.pokes a (bytesOf 8 v)
  | _, _ => s

/-- A word of a core's L1 takes a state, or becomes INVALID. -/
def setL1State (s : State) (core job word : Nat) (st : Option WordSt) : State :=
  match l1Find (s.core core) job (word / 16) with
  | none => s
  | some (k, l) =>
    let t := match st with
      | none => tdel l.st (word % 16)
      | some x => tput l.st (word % 16) x
    s.modCore core fun c => { c with l1d := tput c.l1d k { l with st := t } }

/-- The directory no longer tracks a line of which no word is registered (R96). (DESIGN CHOICE, log 88) -/
def untrack (s : State) (g job line : Nat) : State :=
  if (s.slice g).regs.any fun e => e.1 / 16 == wordKey job (line * 16) / 16 then s
  else s.modSlice g fun x => { x with regOrder := x.regOrder.filter (· != lineKey job line) }

/-- A revoke (R93): the registrant writes a REGD word back and its L1 word becomes INVALID; the word is NONE; COHREVOKE rises. -/
def doRevoke (s : State) (g core job word : Nat) : State :=
  let s := match tfind (s.slice g).regs (wordKey job word) with
    | some r => if r.dirty then writeBack s g core job word else s
    | none => s
  let s := match l1Find (s.core core) job (word / 16) with
    | some (_, l) => match l1Word l (word % 16) with
      | some .reg | some .regd => setL1State s core job word none
      | _ => s
    | none => s
  untrack (s.modSlice g fun x => { x with regs := tdel x.regs (wordKey job word), cohrevoke := x.cohrevoke + 1 }) g job (word / 16)

/-- A recall (R93): as a revoke, but the registrant's word stays, VALID; COHRECALL rises. -/
def doRecall (s : State) (g job word : Nat) : State :=
  match tfind (s.slice g).regs (wordKey job word) with
  | none => s
  | some r =>
    let s := if r.dirty then writeBack s g r.core job word else s
    let s := match l1Find (s.core r.core) job (word / 16) with
      | some (_, l) => match l1Word l (word % 16) with
        | some .reg | some .regd => setL1State s r.core job word (some .valid)
        | _ => s
      | none => s
    s.modSlice g fun x => { x with regs := tdel x.regs (wordKey job word), cohrecall := x.cohrecall + 1 }

/-- The registered words of a line are recalled, words 0 to n - 1. -/
def recallWords (s : State) (g job line : Nat) : Nat → State
  | 0 => s
  | n + 1 => doRecall (recallWords s g job line n) g job (line * 16 + n)

/-- The line leaves the registration directory's order when none of its words is registered. -/
def recallLine (s : State) (g job line : Nat) : State :=
  (recallWords s g job line 16).modSlice g fun x => { x with regOrder := x.regOrder.filter (· != lineKey job line) }

/-- A word is registered (R91, R113); a full directory first recalls the least recently registered line (R96). -/
def register (s : State) (g job word core : Nat) (dirty : Bool) : State :=
  let key := lineKey job (word / 16)
  let x := s.slice g
  let s := if ¬ x.regOrder.contains key ∧ Config.regDir ≤ x.regOrder.length then
      match x.regOrder with
      | [] => s
      | old :: _ => recallLine s g (old / 2 ^ 50) (old % 2 ^ 50)
    else s
  s.modSlice g fun x =>
    { x with regs := tput x.regs (wordKey job word) ⟨core, dirty⟩
             regOrder := (x.regOrder.filter (· != key)) ++ [key] }

/-! ## Regions and sharers (R97 to R100) -/

def covers (job line : Nat) (r : Region) : Bool := r.job == job && r.base ≤ line && line < r.base + 2 ^ r.size

def regionOf (x : Slice) (job line : Nat) : Option Region := x.regions.find? (covers job line)

/-- The largest aligned range of at most 64 KiB around a line that overlaps no entry (R98). -/
def freeRange (x : Slice) (job line : Nat) : Nat → Nat
  | 0 => 0
  | n + 1 =>
    let b := line / 2 ^ (n + 1) * 2 ^ (n + 1)
    if x.regions.any fun r => r.job == job && decide (r.base < b + 2 ^ (n + 1) ∧ b < r.base + 2 ^ r.size) then
      freeRange x job line n
    else n + 1

/-- The dies whose bits are set, from die n - 1 down. -/
def dieList (m : BitVec 64) : Nat → List Nat
  | 0 => []
  | n + 1 => dieList m n ++ (if m.getLsbD n then [n] else [])

/-- An entry's sharers, as the invalidations sent to them. -/
def invalsOf (g : Nat) (r : Region) : List CopyInval :=
  (dieList r.dies 64).map (fun d => ⟨.copy ((sliceModule g * 64 + d) * 16 + g % 16), g, r.job, r.base, r.size⟩) ++
  (if r.host.getLsbD 0 then [⟨.host 0, g, r.job, r.base, r.size⟩] else []) ++
  (if r.host.getLsbD 1 then [⟨.host 1, g, r.job, r.base, r.size⟩] else [])

/-! ## Requests at a slice (R50, R84, R426) -/

/-- A slice wakes (R50): requester-side copies are gone before it serves a request. -/
def wakeSlice (s : State) (g : Nat) : State :=
  s.modSlice g fun x => { x with asleep := false, lastServed := s.now, copies := x.copies.filter fun c => c.2.filling }

/-- Whether a message is the answer of a slice to a request: until it leaves, the slice holds the request. -/
def answersFor (g : Nat) (f : Flight) : Bool :=
  f.src == fromSlice g && match f.ev with
    | .resultReturn _ | .faultResponse _ | .copyFillArrival _ => true
    | _ => false

/-- CUR of a slice (R84): the requests that it holds: those whose answers have not left, and those that wait at it for a copy's fill.
(DESIGN CHOICE, log 91) -/
def State.held (s : State) (g : Nat) : Nat :=
  min Config.sliceQueue (((s.agenda.filter (answersFor g)).length) +
    (s.slice g).copies.foldl (fun n c => n + c.2.waiting.length) 0)

/-- A slice accepts a request and answers it (R84): it holds a request that it answers from its own data for 8 cycles (R387). -/
def State.serve (s : State) (g : Nat) : State :=
  let s := if (s.slice g).asleep then wakeSlice s g else s
  let n := s.held g + 1
  s.modSlice g fun x =>
    { x with accepted := (x.accepted + 1) % 2 ^ 48, occsum := (x.occsum + 8) % 2 ^ 64, maxo := max x.maxo (min Config.sliceQueue n), lastServed := s.now }

/-! ## Invalidations (R99, R102) -/

/-- What a copy slice or host read buffer drops for an invalidation (R99, R102): lines of the range homed on the sender; a
FILLING line is marked. -/
def inRange (v : CopyInval) (key : Nat) : Bool :=
  key / 2 ^ 50 == v.job && decide (v.base ≤ key % 2 ^ 50 ∧ key % 2 ^ 50 < v.base + 2 ^ v.size) &&
  sliceOf (key % 2 ^ 50 * 128) == v.home % 16

def dropCopies (v : CopyInval) : Table CopyLine → Table CopyLine
  | [] => []
  | (k, c) :: t =>
    if inRange v k then
      if c.filling then (k, { c with marked := true }) :: dropCopies v t else dropCopies v t
    else (k, c) :: dropCopies v t

def dropLines (v : CopyInval) : Table Line → Table Line
  | [] => []
  | (k, l) :: t => if inRange v (k / 128) ∧ k / 2 % 64 = sliceDie v.home % 64 then dropLines v t else (k, l) :: dropLines v t

/-- A host read buffer's key: line by home die and port (R104, R400). -/
def bufKey (port job gdie line : Nat) : Nat := (lineKey job line * 64 + gdie % 64) * 2 + port

/-- An invalidation acts at its sharer (R99, R102): a copy slice serves it as a request, and so wakes for it (R50, R426). -/
def doInvalidate (s : State) (v : CopyInval) : State :=
  match v.sharer with
  | .copy c => (s.serve c).modSlice c fun x => { x with copies := dropCopies v x.copies }
  | .host p => s.modModu (sliceModule v.home) fun m =>
      { m with readBuf := dropLines v (m.readBuf.filter fun e => e.1 % 2 == p) ++ m.readBuf.filter fun e => e.1 % 2 != p }

/-- A sharer's bit is set in the entry that covers a line; an entry is made if none does (R98). The invalidations that a full
directory sends come with it. -/
def addSharer (s : State) (g job line : Nat) (sh : Sharer) : State × List CopyInval :=
  let mark (r : Region) : Region :=
    match sh with
    | .copy c => { r with dies := r.dies ||| .ofNat 64 (2 ^ (sliceDie c % 64)) }
    | .host p => { r with host := r.host ||| .ofNat 2 (2 ^ p) }
  let x := s.slice g
  match regionOf x job line with
  | some _ => (s.setSlice g { x with regions := x.regions.map fun r => if covers job line r then mark r else r }, [])
  | none =>
    let (x, inv) :=
      if Config.regionDir ≤ x.regions.length then
        match x.regions with
        | [] => (x, [])
        | old :: rest =>
          let iv := invalsOf g old
          ({ x with regions := rest, cohinv := x.cohinv + .ofNat 64 iv.length }, iv)
      else (x, [])
    let n := freeRange x job line 9
    let r : Region := ⟨job, line / 2 ^ n * 2 ^ n, n, 0, 0, s.now, 0, s.now⟩
    (s.setSlice g { x with regions := x.regions ++ [mark r] }, inv)

/-- A conflict (R99): the covering entry splits once if it can, the sharers of the part that covers the line are cleared and
are to be invalidated. What is left of a split stands last in the order by which R98 picks the least recently made. (DESIGN CHOICE, log 89) -/
def conflict (s : State) (g job line : Nat) : State × List CopyInval :=
  let x := s.slice g
  match regionOf x job line with
  | none => (s, [])
  | some r =>
    if r.dies = 0 ∧ r.host = 0 then (s, [])
    else
      let rest := x.regions.filter fun q => q != r
      let c := min 0xFFFF (r.confl + 1)
      if 0 < r.size ∧ x.regions.length < Config.regionDir then
        let half := 2 ^ (r.size - 1)
        let lo : Region := { r with size := r.size - 1, quiet0 := s.now, confl := c }
        let hi : Region := { lo with base := r.base + half }
        let hit := if covers job line lo then lo else hi
        let other := if covers job line lo then hi else lo
        let iv := invalsOf g hit
        (s.setSlice g { x with
            regions := rest ++ [other], cohsplit := x.cohsplit + 1, cohinv := x.cohinv + .ofNat 64 iv.length }, iv)
      else
        let iv := invalsOf g r
        (s.setSlice g { x with regions := rest, cohinv := x.cohinv + .ofNat 64 iv.length }, iv)

def doInvalidates : List CopyInval → State → State
  | [], s => s
  | v :: t, s => doInvalidates t (doInvalidate s v)

/-- The merge interval of a die (R105). -/
def quietLog (d : Die) : Nat := max 10 (min 24 d.quiet.toNat)

/-- Whether an invalidation brings the copies of a line to an end. -/
def coversInval (g job line : Nat) (v : CopyInval) : Bool :=
  v.home == g && v.job == job && decide (v.base ≤ line ∧ line < v.base + 2 ^ v.size)

/-- Whether an event is an invalidation of copies of a line that its home has sent. -/
def invalidates (g job line : Nat) : Event → Bool
  | .copyInvalidation v => coversInval g job line v
  | _ => false

/-- Invalidations of a line on their way act (R99): a write performed in one step waits for none. -/
def takeInvals (s : State) (g job line : Nat) : State :=
  (s.agenda.filter fun f => invalidates g job line f.ev).foldl (fun s f =>
    match f.ev with
    | .copyInvalidation v => doInvalidate s v
    | _ => s) { s with agenda := s.agenda.filter fun f => !invalidates g job line f.ev }

/-- Two quiet halves of one range merge; an entry without a twin merges alone into the parent range (R100). CONFL of the merged entry is the
larger of the two. (DESIGN CHOICE, log 89) -/
def mergeRegions (now q : Nat) : Nat → List Region → List Region × Nat
  | 0, l => (l, 0)
  | n + 1, l =>
    match l.find? fun r => decide (r.size < 9 ∧ 2 ^ q ≤ now - r.quiet0 ∧
        (l.all fun o => o == r || !(o.job == r.job &&
          decide (o.base < r.base / 2 ^ (r.size + 1) * 2 ^ (r.size + 1) + 2 ^ (r.size + 1) ∧
                  r.base / 2 ^ (r.size + 1) * 2 ^ (r.size + 1) < o.base + 2 ^ o.size)) ||
          (o.size == r.size && decide (2 ^ q ≤ now - o.quiet0)))) with
    | none => (l, 0)
    | some r =>
      let b := r.base / 2 ^ (r.size + 1) * 2 ^ (r.size + 1)
      let inn := l.filter fun o => o.job == r.job && decide (b ≤ o.base ∧ o.base < b + 2 ^ (r.size + 1))
      let out := l.filter fun o => !(o.job == r.job && decide (b ≤ o.base ∧ o.base < b + 2 ^ (r.size + 1)))
      let u : Region := inn.foldl (fun a o => { a with host := a.host ||| o.host, dies := a.dies ||| o.dies, confl := max a.confl o.confl })
        { r with base := b, size := r.size + 1, quiet0 := now }
      let k := mergeRegions now q n (out ++ [u])
      (k.1, k.2 + 1)

/-! ## Fills (R22, R26) -/

/-- Lines of data that one predicate selects of each core, and lines of instructions that another does, leave their caches (R26, R27
DATA = 1). -/
def dropL1 (p : Nat → L1Line → Bool) (q : Nat → ILine → Bool) (s : State) : State :=
  let s := s.cores.foldl (fun s c => (c.2.l1d.filter fun e => p c.1 e.2).foldl (fun s e => filterSlots s c.1 e.2) s) s
  { s with cores := tmap (fun n c =>
      { c with l1d := c.l1d.filter fun e => !p n e.2, l1i := c.l1i.filter fun e => !q n e.2 }) s.cores }

/-- Every cached copy of a line is written back and invalidated (R26, R27): registered words, L1 copies of data and instructions, fills
under way, requester-side copies, host buffers, and the home's own line with its name in the synonym filter. Speculative bytes stay held
at the home (R28). -/
def purgeLine (s : State) (g job line : Nat) : State :=
  let s := recallLine s g job line
  let s := dropL1 (fun _ l => l.job == job && l.line == line && l.home == g) (fun _ l => l.job == job && l.line == line) s
  let s := stopFills (fun _ j l => j == job && l == line) s
  let s := { s with slices := tmap (fun k x => if sliceModule k = sliceModule g ∧ k % 16 = g % 16 then
      { x with copies := dropCopies ⟨.copy k, g, job, line, 0⟩ x.copies } else x) s.slices }
  let s := doInvalidate (doInvalidate s ⟨.host 0, g, job, line, 0⟩) ⟨.host 1, g, job, line, 0⟩
  let s := s.modCtrl (ctrlOf (sliceDie g) (line * 128)) fun c => { c with syn := c.syn.filter fun e => !(e.2.1 == job && e.2.2 == line) }
  s.modSlice g fun x => { x with lines := tdel x.lines (lineKey job line) }

/-- The synonym filter (R26): a physical line lives under one name; the old name, or the oldest entry of a full filter, is
recalled first. That the victim is the oldest is the model's. (DESIGN CHOICE, log 90) -/
def synonym (s : State) (gdie frame job line : Nat) : State :=
  let k := ctrlOf gdie frame
  let c := s.ctrl k
  let recallEntry (s : State) (e : Nat × Nat × Nat) : State :=
    (purgeLine s (gdie * 16 + sliceOf (e.2.2 * 128)) e.2.1 e.2.2).modCtrl k fun c =>
      { c with syn := c.syn.filter (· != e), synrc := c.synrc + 1 }
  match c.syn.find? fun e => e.1 == frame with
  | some e =>
    if e.2.1 = job ∧ e.2.2 = line then s
    else (recallEntry s e).modCtrl k fun c => { c with syn := c.syn ++ [(frame, job, line)] }
  | none =>
    let s := if Config.synonyms ≤ c.syn.length then
        match c.syn with
        | [] => s
        | e :: _ => recallEntry s e
      else s
    s.modCtrl k fun c => { c with syn := c.syn ++ [(frame, job, line)] }

/-- The set of a line in a slice, and the ways of a set that hold linear lines (R80). -/
def lineSet (line : Nat) : Nat := line % 1024 ^^^ line / 1024 % 1024
def linearWays (s : State) (g : Nat) : Nat := 16 - (s.die (sliceDie g)).tsplit.toNat

/-- The least recently used of some residents: its key and the time of its last use. -/
def leastUsed (l : List (Nat × Nat)) : Option (Nat × Nat) :=
  l.foldl (fun a e =>
    match a with
    | none => some e
    | some b => if e.2 < b.2 then some e else a) none

/-- The home lines and the copies in the set of a line, with the times of their last use. -/
def residents (x : Slice) (line : Nat) : List (Nat × Nat) × List (Nat × Nat) :=
  ((x.lines.filter fun e => lineSet (e.1 % 2 ^ 50) == lineSet line).map fun e => (e.1, e.2.used),
   (x.copies.filter fun e => !e.2.filling && lineSet (e.1 % 2 ^ 50) == lineSet line).map fun e => (e.1, e.2.used))

/-- Room in a line's set (R80, R101): the least recently used home lines and copies leave, silently, until one more fits; `fuel` bounds their
number. (DESIGN CHOICE, log 9) -/
def roomWay (g line : Nat) : Nat → State → State
  | 0, s => s
  | fuel + 1, s =>
    let r := residents (s.slice g) line
    if r.1.length + r.2.length < linearWays s g then s
    else
      let toCopies := match leastUsed r.1, leastUsed r.2 with
        | some a, some b => decide (b.2 < a.2)
        | none, some _ => true
        | _, none => false
      roomWay g line fuel <| s.modSlice g fun x =>
        if toCopies then { x with copies := tdel x.copies (((leastUsed r.2).map (·.1)).getD 0) }
        else { x with lines := tdel x.lines (((leastUsed r.1).map (·.1)).getD 0) }

/-- A line stands in its slice, most recently used, or with `once` least (R77); a slice without linear ways holds none (R80). -/
def holdLine (s : State) (g job line : Nat) (once : Bool) (h : HomeLine) : State :=
  if linearWays s g = 0 then s
  else
    (roomWay g line 16 s).modSlice g fun x =>
      { x with lines := tput x.lines (lineKey job line) { h with used := if once then 0 else s.now } }

/-- The mesh of a die (R3): the column and row of a slice and of a controller, and the transit between them (R82). -/
def slicePos (g : Nat) : Nat × Nat := (g % 8, g % 16 / 8 * 3)
def ctrlPos (k : Nat) : Nat × Nat := (k % 2 * 7, 1 + k % 4 / 2)
def transit (a b : Nat × Nat) : Nat := 2 + (if a.1 = b.1 then 0 else 1) + (if a.2 = b.2 then 0 else 1)

/-- The cycles that a request is held for HBM4 beyond those of a hit (R387). -/
def missHold (g addr : Nat) : Nat := 2 * transit (slicePos g) (ctrlPos (ctrlOf (sliceDie g) addr)) + 230

/-- A request of a slice waits for HBM4 at an address (R387): OCCSUM grows by those cycles. -/
def holdFor (s : State) (g addr : Nat) : State := s.modSlice g fun x => { x with occsum := (x.occsum + missHold g addr) % 2 ^ 64 }

/-- The line is held at its home, filled through the controller if it is not (R22), for an access whose needs of the leaf's permissions
are `ok`; the fault is a TRANSLATION kind, and fills nothing (R30). (DESIGN CHOICE, log 8) -/
def homeFill (s : State) (g job line : Nat) (ok : Perms → Bool) (once : Bool) : Except Nat (State × HomeLine) :=
  match tfind (s.slice g).lines (lineKey job line) with
  | some h =>
    if ok h.perms then
      .ok (s.modSlice g fun x => { x with lines := tput x.lines (lineKey job line) { h with used := s.now } }, h)
    else .error kPermission
  | none =>
    match s.translate (sliceDie g) job (line * 128) with
    | .error k => .error k
    | .ok (h, leaf) =>
      if ¬ ok h.perms then .error kPermission
      else
        let s := match leaf with
          | none => s
          | some (key, e) => s.modCtrl (ctrlOf (sliceDie g) (line * 128)) fun c => { c with leaves := tput c.leaves key e }
        let s := holdFor s g (line * 128)
        .ok (holdLine (synonym s (sliceDie g) h.frame job line) g job line once h, h)

/-! ## Commutative contributions (R107 to R111) -/

/-- The bits of an operand of n bytes. -/
def low (n : Nat) (w : Word) : Word := .ofNat 64 (w.toNat % 2 ^ (8 * n))
def sxt (n : Nat) (w : Word) : Int :=
  let v := w.toNat % 2 ^ (8 * n)
  if v < 2 ^ (8 * n - 1) then v else (v : Int) - 2 ^ (8 * n)

/-- An operation on operands of n bytes (R291); floating-point addition is Atomics.lean's. -/
def atomicNew (op : AtomicOp) (n : Nat) (old v cmp : Word) : Word :=
  match op with
  | .add => low n (old + v)
  | .and => low n (old &&& v)
  | .or => low n (old ||| v)
  | .xor => low n (old ^^^ v)
  | .minS => if sxt n old ≤ sxt n v then low n old else low n v
  | .maxS => if sxt n old ≤ sxt n v then low n v else low n old
  | .minU => if (low n old).toNat ≤ (low n v).toNat then low n old else low n v
  | .maxU => if (low n old).toNat ≤ (low n v).toNat then low n v else low n old
  | .swap => low n v
  | .cas => if low n old = low n cmp then low n v else low n old
  | .fadd => low n old

/-- Bytes of a key's operand, and its offset within the word (R109). -/
def keyBytes (k : CommKey) : Nat := if k.size = 2 then 8 else 4
def keyOff (k : CommKey) : Nat := if k.size = 1 then 4 else 0

/-- Poisoned data found in a line that its home holds (R428, R429): its report names the fault that a consumer receives, or none where nobody
does (R431). -/
def foundBad (s : State) (g line : Nat) (h : HomeLine) (cause kind : Nat) : State :=
  s.foundPoison (sliceDie g) 5 (ctrlOf (sliceDie g) h.frame % 4) (.ofNat 64 (line * 128)) cause kind

def lineError (s : State) (g line : Nat) (h : HomeLine) (kind : Nat) : State := foundBad s g line h (Cause.code .poison) kind

/-- A contribution applied to the committed word at a home that holds its line (R110). -/
def applyComm (s : State) (g : Nat) (k : CommKey) (v : Word) : State :=
  match wordFrame s g k.job k.word with
  | none => s
  | some a =>
    let old := wordOf (s.peeks (a + keyOff k) (keyBytes k))
    s.pokes (a + keyOff k) (bytesOf (keyBytes k) (atomicNew k.op (keyBytes k) old v 0))

/-- Contributions acknowledged: each contributor's counter falls (R108). -/
def ackContrib (ctr : PostCtr) : List Contrib → State → State
  | [], s => s
  | e :: t, s =>
    ackContrib ctr t (if s.hasThread e.gti then s.modCtx e.gti fun c => c.setCount ctr (c.count ctr - e.count) else s)

/-- The fault of a contribution that its home cannot apply (R30, R429), one for each contributor, with the pointer and PC of its first. -/
def faultContrib (c : Cause) (kind : Nat) (ctr : PostCtr) : List Contrib → State → State
  | [], s => s
  | e :: t, s =>
    faultContrib c kind ctr t
      (if s.hasThread e.gti then s.modThread e.gti fun h =>
        { h with stf := h.stf ++ [⟨ctr, 0, { mkFault c kind e.ptr with info := ⟨0, 0, opcField e.pc, 0⟩, task := h.ctx.task }⟩] } else s)

/-- One buffer entry reaches its home (R108, R110): revocations and invalidations first, then the value. -/
def mergeEntry (s : State) (core : Nat) (e : CommEntry) : State :=
  let ctr := postClass core e.gslice
  let s := ackContrib ctr e.contrib (s.serve e.gslice)
  match homeFill s e.gslice e.key.job (e.key.word / 16) (fun p => permOk p e.user true false) false with
  | .error k => faultContrib .translation k ctr e.contrib s
  | .ok (s, h) =>
    if s.badLine h.frame then faultContrib .poison 0 ctr e.contrib (lineError s e.gslice (e.key.word / 16) h 0)
    else
    let s := match tfind (s.slice e.gslice).regs (wordKey e.key.job e.key.word) with
      | some r => doRevoke s e.gslice r.core e.key.job e.key.word
      | none => s
    let c := conflict (takeInvals s e.gslice e.key.job (e.key.word / 16)) e.gslice e.key.job (e.key.word / 16)
    applyComm (doInvalidates c.2 c.1) e.gslice e.key e.value

/-- Every entry of a core's buffer that a predicate selects reaches its home, oldest first. -/
def mergeEntries (core : Nat) : List CommEntry → State → State
  | [], s => s
  | e :: t, s => mergeEntries core t (mergeEntry s core e)

def flushWhere (s : State) (core : Nat) (p : CommEntry → Bool) : State :=
  let c := s.core core
  mergeEntries core (c.comm.filter p) (s.setCore core { c with comm := c.comm.filter fun e => !p e })

/-- Each core flushes the entries that a predicate selects of it. -/
def flushCores (p : Nat → CommEntry → Bool) : List Nat → State → State
  | [], s => s
  | c :: t, s => flushCores p t (flushWhere s c (p c))

/-- Whether a directory entry's bits name a core as a holder (R109): a DIES bit reaches every core of its die, a MODS bit every core of its
module. -/
def reaches (gslice core : Nat) (d : CommDir) : Bool :=
  if dieOf core = sliceDie gslice then d.cores.getLsbD (core % 96)
  else if moduleOf core = sliceModule gslice then d.dies.getLsbD (dieOf core % 64)
  else d.mods.getLsbD (moduleOf core)

/-- Whether a flush on its way brings contributions to words of a line. -/
def bringsTo (g job line : Nat) (ws : List Nat) : Event → Bool
  | .commutativeFlush n => n.gslice == g && n.key.job == job && n.key.word / 16 == line && ws.contains (n.key.word % 16)
  | _ => false

/-- Flushes that have reached the home's die act before a collection that they belong to ends (R110). -/
def takeFlushes : List Flight → State → State
  | [], s => s
  | f :: t, s =>
    takeFlushes t (match f.ev with
      | .commutativeFlush n => mergeEntry s n.core ⟨n.key, n.user, n.gslice, n.value, n.contrib⟩
      | _ => s)

/-- A collection of words of a line (R110): every holder that the directory names flushes its matching entry, flushes on their way
act, the directory entries are freed, ATMCOLL rises once for each. -/
def doCollect (s : State) (g job line : Nat) (ws : List Nat) : State :=
  let here (k : CommKey) : Bool := k.job == job && k.word / 16 == line && ws.contains (k.word % 16)
  let due := (s.slice g).comm.filter fun d => here d.key
  let s := takeFlushes (s.agenda.filter fun f => bringsTo g job line ws f.ev)
    { s with agenda := s.agenda.filter fun f => !bringsTo g job line ws f.ev }
  let s := flushCores (fun c e => e.gslice == g && due.any fun d => d.key == e.key && reaches g c d) (s.cores.map (·.1)) s
  s.modSlice g fun x =>
    { x with comm := x.comm.filter fun d => !here d.key
             atmcoll := x.atmcoll + .ofNat 64 (x.comm.filter fun d => here d.key).length }

/-- All the words of a line. -/
def allWords : List Nat := List.range 16

/-- The words of a line that n bytes from byte o touch. -/
def wordSpan (o n : Nat) : List Nat := allWords.filter fun w => decide (o < w * 8 + 8 ∧ w * 8 < o + n)

/-- Whether the directory records contributions to some words of a line. (DEDUCED, log 22) -/
def collectDue (s : State) (g job line : Nat) (ws : List Nat) : Bool :=
  (s.slice g).comm.any fun d => d.key.job == job && d.key.word / 16 == line && ws.contains (d.key.word % 16)

/-! ## Who asks a slice (R127, R50) -/

/-- Who sent a request to a slice: its thread, the copy slice that asks for a line, else the slice itself. A request that must come again
stays that sender's (R127). -/
def senderOf (g : Nat) : Event → Nat
  | .lineFill r | .forwardedRead r =>
    match r.copy with
    | some cs => fromSlice cs
    | none => fromThread r.gti
  | .copySliceMiss r => fromThread r.gti
  | .speculativeStoreReceipt w => fromThread w.gti
  | .nonSpeculativeHomeWrite w => fromThread w.w.gti
  | .fallBackAtomicGrant a => fromThread a.gti
  | .commitInstall c => fromThread c.gti
  | .holderNotice n | .commutativeFlush n => fromThread (n.core * 16)
  | .deregistration d => fromThread (d.core * 16)
  | _ => fromSlice g

/-- A request at its slice: a sleeping slice first wakes (R50, R426). -/
def atHome (s : State) (g : Nat) (ev : Event) (k : State → State) : State :=
  if (s.slice g).asleep then
    (s.urge ⟨s.now, senderOf g ev, atSlice g, ev⟩).urge ⟨s.now, fromSlice g, atSlice g, .sliceWake ⟨g⟩⟩
  else k s

/-! ## Reads at a home -/

/-- The committed line with the REGD words that their registrants return (R93), of the words that are read; the number forwarded for
another party. -/
def forwardWords (s : State) (g job line : Nat) (by_ : Option Nat) (l : Line) : List Nat → Line × Nat
  | [] => (l, 0)
  | n :: t =>
    let r := forwardWords s g job line by_ l t
    match tfind (s.slice g).regs (wordKey job (line * 16 + n)) with
    | some q =>
      if q.dirty then
        match regdValue s q.core job (line * 16 + n) with
        | some v => (mergeLine (maskFrom (8 * n) 8) (lineAt (8 * n) (bytesOf 8 v)) r.1, if some q.core = by_ then r.2 else r.2 + 1)
        | none => r
      else r
    | none => r

/-- Whether one of the words read is REGD to another core than a requester's. -/
def forwardDue (s : State) (g job line : Nat) (by_ : Option Nat) (ws : List Nat) : Bool :=
  (s.slice g).regs.any fun e =>
    e.2.dirty && e.1 / 16 == wordKey job (line * 16) / 16 && ws.contains (e.1 % 16) && some e.2.core != by_

/-- The committed value of words of a line at their home, COHFWD counted for the words that were forwarded. -/
def committedLine (s : State) (g job line : Nat) (by_ : Option Nat) (ws : List Nat) (h : HomeLine) : State × Line :=
  let r := forwardWords s g job line by_ (lineOf (s.peeks h.frame 128)) ws
  (if r.2 = 0 then s else s.modSlice g fun x => { x with cohfwd := x.cohfwd + .ofNat 64 r.2 }, r.1)

/-- A task's speculative bytes over a committed line (R90). -/
def overlay (x : Slice) (gti : Nat) (task : BitVec 32) (job line : Nat) (l : Line) : Line :=
  match x.spec.find? fun p => p.gti == gti && p.task == task && p.job == job && p.line == line with
  | some p => mergeLine p.mask p.data l
  | none => l

/-- Words of a line read at their home in one step, for an engine, a fetch or the host: filled, collected, forwarded (R22, R93, R110).
The fault is a cause and kind; `told`: a consumer receives it. -/
def readLineFor (told : Bool) (s : State) (g job line : Nat) (ws : List Nat) (user fetch : Bool) :
    State × Except (Cause × Nat) (Line × HomeLine) :=
  let s := s.serve g
  match homeFill s g job line (fun p => permOk p user false fetch) false with
  | .error k => (s, .error (.translation, k))
  | .ok (s, h) =>
    if s.badLine h.frame then
      (if told then lineError s g line h (bitNat fetch) else foundBad s g line h 0 0, .error (.poison, bitNat fetch))
    else
      let s := if collectDue s g job line ws then doCollect s g job line ws else s
      let r := committedLine s g job line none ws h
      (r.1, .ok (r.2, h))

def readLine (s : State) (g job line : Nat) (ws : List Nat) (user fetch : Bool) : State × Except (Cause × Nat) (Line × HomeLine) :=
  readLineFor true s g job line ws user fetch

/-! ## Writes at a home (R92) -/

/-- Words of a line that a byte mask touches, words 0 to n - 1. -/
def touched (m : Pred) : Nat → List Nat
  | 0 => []
  | n + 1 => touched m n ++ (if m.toNat / 2 ^ (8 * n) % 256 = 0 then [] else [n])

/-- The registrants that a write revokes: of the touched words, those of another core than `keep`. -/
def revokesOf (s : State) (g job line : Nat) (keep : Option Nat) : List Nat → List (Nat × Nat)
  | [] => []
  | w :: t =>
    match tfind (s.slice g).regs (wordKey job (line * 16 + w)) with
    | some r => if some r.core = keep then revokesOf s g job line keep t else (r.core, line * 16 + w) :: revokesOf s g job line keep t
    | none => revokesOf s g job line keep t

def doRevokes (g job : Nat) : List (Nat × Nat) → State → State
  | [], s => s
  | (c, w) :: t, s => doRevokes g job t (doRevoke s g c job w)

/-- The bytes a mask selects enter a line that its home holds, with everything a home write needs first: collection,
revocations, invalidations. A write of the whole line clears its poison (R429). -/
def writeLine (s : State) (g job line : Nat) (keep : Option Nat) (h : HomeLine) (m : Pred) (data : Line) : State :=
  let s := if collectDue s g job line (touched m 16) then doCollect s g job line (touched m 16) else s
  let s := doRevokes g job (revokesOf s g job line keep (touched m 16)) s
  let c := conflict (takeInvals s g job line) g job line
  let s := doInvalidates c.2 c.1
  let s := s.pokeMasked h.frame m.toNat (lineBytes data)
  if m = .ofNat 128 (2 ^ 128 - 1) then s.clearBad h.frame else s

/-- A write at a home in one step, for an engine or the host. -/
def homeWrite (s : State) (g job line : Nat) (user : Bool) (m : Pred) (data : Line) : State × Except (Cause × Nat) Unit :=
  let s := s.serve g
  match homeFill s g job line (fun p => permOk p user true false) false with
  | .error k => (s, .error (.translation, k))
  | .ok (s, h) => (writeLine s g job line none h m data, .ok ())

/-- The steps that must come before a home write (R93, R99, R110): a collection, revokes, and the invalidations of a conflict,
whose entry is split and cleared here. -/
def writeNeeds (s : State) (g job line : Nat) (keep : Option Nat) (words : List Nat) : State × List Event :=
  let a := if collectDue s g job line words then [Event.collection ⟨g, job, line, words⟩] else []
  let b := (revokesOf s g job line keep words).map fun e => Event.revoke ⟨g, e.1, job, e.2⟩
  let c := conflict s g job line
  (c.1, a ++ b ++ c.2.map Event.copyInvalidation)

/-- Steps urged before the step that needs them, which follows them. -/
def urgeAll (src dst : Nat) : List Event → State → State
  | [], s => s
  | e :: t, s => (urgeAll src dst t s).urge ⟨s.now, src, dst, e⟩

/-- A thread's posted write is acknowledged (R126). -/
def ackPosts (s : State) (g : Nat) (c : PostCtr) (n : Nat) : State :=
  if s.hasThread g then s.modCtx g fun x => x.setCount c (x.count c - n) else s

/-- The acknowledgement of one counted write. -/
def ackPost (s : State) (g : Nat) (c : PostCtr) : State := ackPosts s g c 1

end Sys2Proof.Machine
end

