-- ==== Sys2Proof/Machine/Flags.lean ====
section
/-! DEFINITION. The arithmetic flags (R248, R249) and the floating-point, integer and residue arithmetic that sets them (R243 to
R257, R262): exact values, one rounding, and the flags of each result. A result is a bit pattern with its flags. -/

namespace Sys2Proof.Machine

/-! ## Flags (R248) -/

abbrev Flags := BitVec 8

def fNX : Flags := 1
def fUF : Flags := 2
def fOF : Flags := 4
def fDZ : Flags := 8
def fNV : Flags := 16
def fSAT : Flags := 32
def fIDIG : Flags := 64
def fXOV : Flags := 128

/-- A flag if a condition holds. -/
def flagIf (b : Bool) (f : Flags) : Flags := if b then f else 0

/-- Flags ORed into ARITH (R249). -/
def Thread.orFlags (t : Thread) (f : Flags) : Thread := { t with ctx := { t.ctx with arith := t.ctx.arith ||| f } }

def Thread.setModfb (t : Thread) : Thread := { t with ctx := { t.ctx with modfb := true } }

/-- A result: its bits, and its flags. -/
abbrev FRes := Nat × Flags

/-! ## Integers (R250) -/

/-- The value of the low w bits, signed or not. -/
def intVal (w : Nat) (signed : Bool) (b : Nat) : Int :=
  let v := b % 2 ^ w
  if signed && decide (2 ^ (w - 1) ≤ v) then (v : Int) - 2 ^ w else v

def intMin (w : Nat) (signed : Bool) : Int := if signed then -(2 ^ (w - 1)) else 0
def intMax (w : Nat) (signed : Bool) : Int := if signed then 2 ^ (w - 1) - 1 else 2 ^ w - 1

/-- The low w bits of an integer (wrap of R262). -/
def intBits (w : Nat) (v : Int) : Nat := (v % 2 ^ w).toNat

/-- The nearest value of a type (sat of R262); SAT when it differs. -/
def satInt (w : Nat) (signed : Bool) (v : Int) : FRes :=
  if v < intMin w signed then (intBits w (intMin w signed), fSAT)
  else if intMax w signed < v then (intBits w (intMax w signed), fSAT)
  else (intBits w v, 0)

/-- An exact result wrapped or, with sat, saturated (R250). -/
def fitInt (w : Nat) (signed sat : Bool) (v : Int) : FRes := if sat then satInt w signed v else (intBits w v, 0)

/-! ## Floating-point values (R243, R244) -/

/-- A format: width, precision, largest exponent. -/
structure Fmt where
  w : Nat
  p : Nat
  emax : Nat
  deriving DecidableEq, Repr

/-- The formats by their type codes 0 to 3 (R231). -/
def fmt : Nat → Fmt
  | 0 => ⟨64, 53, 1023⟩
  | 1 => ⟨32, 24, 127⟩
  | 2 => ⟨16, 11, 15⟩
  | _ => ⟨16, 8, 127⟩

/-- The exponent of the last place of the least normal number. -/
def Fmt.umin (f : Fmt) : Int := 2 - (f.emax : Int) - (f.p : Int)

/-- The encoding of +∞. -/
def Fmt.inf (f : Fmt) : Nat := (2 ^ (f.w - f.p) - 1) * 2 ^ (f.p - 1)

/-- The canonical NaN (R243). -/
def canon (t : Nat) : Nat := (fmt t).inf + 2 ^ ((fmt t).p - 2)

/-- The exact value of an encoding: (−1)^neg × m × 2^e, an infinity, a quiet or signalling NaN. -/
inductive Fv where
  | fin (neg : Bool) (m : Nat) (e : Int)
  | inf (neg : Bool)
  | nan (signalling : Bool)
  deriving DecidableEq, Repr

/-- fp_val (R262). -/
def fpVal (t b : Nat) : Fv :=
  let f := fmt t
  let fr := b % 2 ^ (f.p - 1)
  let ex := b / 2 ^ (f.p - 1) % 2 ^ (f.w - f.p)
  let neg := b / 2 ^ (f.w - 1) % 2 == 1
  if ex = 2 ^ (f.w - f.p) - 1 then
    if fr = 0 then .inf neg else .nan (decide (fr < 2 ^ (f.p - 2)))
  else if ex = 0 then .fin neg fr f.umin
  else .fin neg (2 ^ (f.p - 1) + fr) (f.umin + (ex : Int) - 1)

/-- m × 2^e as a multiple of 2^u in a rounding mode (R246), and whether it is inexact. -/
def shiftRound (mode : Nat) (neg : Bool) (m : Nat) (e u : Int) : Nat × Bool :=
  if u ≤ e then (m * 2 ^ (e - u).toNat, false)
  else
    let k := (u - e).toNat
    let q := m / 2 ^ k
    let r := m % 2 ^ k
    let up := match mode with
      | 2 => false
      | 3 => r != 0 && !neg
      | 4 => r != 0 && neg
      | _ => decide (2 ^ k < 2 * r) || (2 * r == 2 ^ k && q % 2 == 1)
    (q + (if up then 1 else 0), r != 0)

/-- A sign in place above a magnitude. -/
def signBits (t : Nat) (neg : Bool) (mag : Nat) : Nat := (if neg then 2 ^ ((fmt t).w - 1) else 0) + mag

/-- An overflowed result (R247). -/
def overflowed (t mode : Nat) (neg : Bool) : Nat :=
  let inf := (fmt t).inf
  signBits t neg (match mode with
    | 2 => inf - 1
    | 3 => if neg then inf - 1 else inf
    | 4 => if neg then inf else inf - 1
    | _ => inf)

/-- round_fp of a finite value (R246, R247, R244: tininess after rounding, underflow when tiny and inexact). -/
def roundFp (t mode : Nat) (neg : Bool) (m : Nat) (e : Int) : FRes :=
  if m = 0 then (signBits t neg 0, 0)
  else
    let f := fmt t
    let top : Int := (Nat.log2 m : Int) + e
    let u := max (top - ((f.p : Int) - 1)) f.umin
    let r := shiftRound mode neg m e u
    let enc := (u - f.umin).toNat * 2 ^ (f.p - 1) + r.1
    if f.inf ≤ enc then (overflowed t mode neg, fOF ||| fNX)
    else
      let free := shiftRound mode neg m e (top - ((f.p : Int) - 1))
      let top' := if free.1 = 2 ^ f.p then top + 1 else top
      let tiny := decide (top' < 1 - (f.emax : Int))
      (signBits t neg enc, flagIf r.2 fNX ||| flagIf (r.2 && tiny) fUF)

/-- NV for a signalling operand. -/
def sigNv : Fv → Flags
  | .nan true => fNV
  | _ => 0

def Fv.isNan : Fv → Bool
  | .nan _ => true
  | _ => false

def Fv.neg : Fv → Fv
  | .fin n m e => .fin (!n) m e
  | .inf n => .inf (!n)
  | .nan q => .nan q

/-- An exact real value or infinity as an encoding. -/
def roundFv (t mode : Nat) : Fv → FRes
  | .fin n m e => roundFp t mode n m e
  | .inf n => (signBits t n (fmt t).inf, 0)
  | .nan q => (canon t, flagIf q fNV)

/-- A finite value as an integer multiple of 2^e'. -/
def atExp (neg : Bool) (m : Nat) (e e' : Int) : Int :=
  let v : Int := (m * 2 ^ (e - e').toNat : Nat)
  if neg then -v else v

/-- The exact sum of two values that are not NaN: a NaN for infinities of both signs. The sign of an exact zero follows R244. -/
def exactAdd (mode : Nat) : Fv → Fv → Fv
  | .nan q, _ => .nan q
  | _, .nan q => .nan q
  | .inf a, .inf b => if a = b then .inf a else .nan false
  | .inf a, _ => .inf a
  | _, .inf b => .inf b
  | .fin a m e, .fin b n k =>
    let u := min e k
    let v := atExp a m e u + atExp b n k u
    if v = 0 then .fin (if a = b then a else mode == 4) 0 u
    else .fin (decide (v < 0)) v.natAbs u

/-- The exact product of two values that are not NaN: a NaN for 0 × ∞. -/
def exactMul : Fv → Fv → Fv
  | .nan q, _ => .nan q
  | _, .nan q => .nan q
  | .inf a, .inf b => .inf (a != b)
  | .inf a, .fin b n _ => if n = 0 then .nan false else .inf (a != b)
  | .fin a m _, .inf b => if m = 0 then .nan false else .inf (a != b)
  | .fin a m e, .fin b n k => .fin (a != b) (m * n) (e + k)

/-- A result made from operands: any NaN operand gives canonical NaN, NV for a signalling one; a NaN made by the operation
itself is invalid. -/
def fpResult (t mode : Nat) (ops : List Fv) (r : Fv) : FRes :=
  if ops.any Fv.isNan then (canon t, (ops.map sigNv).foldl (· ||| ·) 0)
  else match r with
    | .nan _ => (canon t, fNV)
    | r => roundFv t mode r

def fpAdd (t mode a b : Nat) : FRes :=
  fpResult t mode [fpVal t a, fpVal t b] (exactAdd mode (fpVal t a) (fpVal t b))

def fpSub (t mode a b : Nat) : FRes :=
  fpResult t mode [fpVal t a, fpVal t b] (exactAdd mode (fpVal t a) (fpVal t b).neg)

def fpMul (t mode a b : Nat) : FRes :=
  fpResult t mode [fpVal t a, fpVal t b] (exactMul (fpVal t a) (fpVal t b))

/-- a × b + c, rounded once; 0 × ∞ raises NV even when c is a quiet NaN (R244). -/
def fpFma (t mode a b c : Nat) : FRes :=
  let x := fpVal t a
  let y := fpVal t b
  let z := fpVal t c
  let p := exactMul x y
  let bad := p.isNan && !x.isNan && !y.isNan
  let r := fpResult t mode [x, y, z] (exactAdd mode p z)
  (r.1, r.2 ||| flagIf bad fNV)

/-- A quotient of magnitudes to at least p + 3 bits, its last bit sticky: (m, e). -/
def quotient (p m n : Nat) (e : Int) : Nat × Int :=
  let k := Nat.log2 n + p + 3
  let q := m * 2 ^ k / n
  (2 * q + (if m * 2 ^ k % n = 0 then 0 else 1), e - (k : Int) - 1)

def fpDiv (t mode a b : Nat) : FRes :=
  let x := fpVal t a
  let y := fpVal t b
  let s := match x, y with
    | .fin n _ _, .fin n' _ _ => n != n'
    | .fin n _ _, .inf n' => n != n'
    | .inf n, .fin n' _ _ => n != n'
    | _, _ => false
  if x.isNan || y.isNan then fpResult t mode [x, y] (.nan false)
  else match x, y with
    | .inf _, .inf _ => (canon t, fNV)
    | .inf _, _ => (signBits t s (fmt t).inf, 0)
    | _, .inf _ => (signBits t s 0, 0)
    | .fin _ m e, .fin _ n k =>
      if n = 0 then (if m = 0 then (canon t, fNV) else (signBits t s (fmt t).inf, fDZ))
      else if m = 0 then (signBits t s 0, 0)
      else
        let q := quotient (fmt t).p m n (e - k)
        roundFp t mode s q.1 q.2
    | _, _ => (canon t, 0)

/-- ⌊√n⌋ by halving the search: k bits remain, r is the root so far. -/
def isqrtGo (n : Nat) : Nat → Nat → Nat
  | 0, r => r
  | k + 1, r => if (r + 2 ^ k) * (r + 2 ^ k) ≤ n then isqrtGo n k (r + 2 ^ k) else isqrtGo n k r

def isqrt (n : Nat) : Nat := isqrtGo n (Nat.log2 n / 2 + 1) 0

def fpSqrt (t mode a : Nat) : FRes :=
  match fpVal t a with
  | .nan q => (canon t, flagIf q fNV)
  | .inf n => if n then (canon t, fNV) else ((fmt t).inf, 0)
  | .fin n m e =>
    if m = 0 then (signBits t n 0, 0)
    else if n then (canon t, fNV)
    else
      let odd := (e % 2).toNat
      let m := m * 2 ^ odd
      let e := e - (odd : Int)
      let k := (fmt t).p + 2
      let v := m * 2 ^ (2 * k)
      let r := isqrt v
      roundFp t mode false (2 * r + (if r * r = v then 0 else 1)) (e / 2 - (k : Int) - 1)

/-- The order of two values: none when unordered. −0 and +0 are equal. -/
def fpOrder : Fv → Fv → Option Ordering
  | .nan _, _ => none
  | _, .nan _ => none
  | .inf a, .inf b => some (if a = b then .eq else if a then .lt else .gt)
  | .inf a, _ => some (if a then .lt else .gt)
  | _, .inf b => some (if b then .gt else .lt)
  | .fin a m e, .fin b n k => some (compare (atExp a m e (min e k)) (atExp b n k (min e k)))

def Fv.sign : Fv → Bool
  | .fin n _ _ => n
  | .inf n => n
  | .nan _ => false

/-- minimumNumber and maximumNumber (R244); −0 counts as below +0. -/
def fpMinMax (t : Nat) (max : Bool) (a b : Nat) : FRes :=
  let x := fpVal t a
  let y := fpVal t b
  let f := sigNv x ||| sigNv y
  if x.isNan then (if y.isNan then (canon t, f) else (b % 2 ^ (fmt t).w, f))
  else if y.isNan then (a % 2 ^ (fmt t).w, f)
  else
    let less := match fpOrder x y with
      | some .lt => true
      | some .eq => x.sign && !y.sign
      | _ => false
    ((if less != max then a else b) % 2 ^ (fmt t).w, f)

/-- The compares by number: 0 equal, 1 less, 2 less or equal, 3 unordered, with their flags (R244). -/
def fpCompare (t op a b : Nat) : Bool × Flags :=
  let x := fpVal t a
  let y := fpVal t b
  let quiet := sigNv x ||| sigNv y
  let any := flagIf (x.isNan || y.isNan) fNV
  match op with
  | 0 => (fpOrder x y == some .eq, quiet)
  | 1 => (fpOrder x y == some .lt, any)
  | 2 => (fpOrder x y == some .lt || fpOrder x y == some .eq, any)
  | _ => ((fpOrder x y).isNone, quiet)

/-- The class word of R270. -/
def fpClass (t a : Nat) : Nat :=
  match fpVal t a with
  | .inf n => if n then 2 ^ 0 else 2 ^ 7
  | .nan q => if q then 2 ^ 8 else 2 ^ 9
  | .fin n m _ =>
    if m = 0 then (if n then 2 ^ 3 else 2 ^ 4)
    else if m < 2 ^ ((fmt t).p - 1) then (if n then 2 ^ 2 else 2 ^ 5)
    else (if n then 2 ^ 1 else 2 ^ 6)

/-- The magnitude of a with a given sign; a NaN gives canonical NaN (R270). -/
def fpSigned (t a : Nat) (neg : Bool) : FRes :=
  match fpVal t a with
  | .nan q => (canon t, flagIf q fNV)
  | _ => (signBits t neg (a % 2 ^ ((fmt t).w - 1)), 0)

def fpNeg (t a : Nat) : FRes := fpSigned t a (a / 2 ^ ((fmt t).w - 1) % 2 == 0)
def fpAbs (t a : Nat) : FRes := fpSigned t a false
def fpSgn (t a b : Nat) : FRes := fpSigned t a (b / 2 ^ ((fmt t).w - 1) % 2 == 1)

/-! ## Residues and scales (R251, R252, R254, R255) -/

/-- res_dec of RES8 (R252). -/
def resDec8 (b : Nat) : Int × Flags :=
  let h := b / 32 % 8
  let m := b / 4 % 8
  let l := b % 4
  if 6 < h ∨ 2 < l then (0, fIDIG)
  else
    let x := (120 * h + 105 * m + 112 * l) % 168
    (if x ≤ 83 then x else (x : Int) - 168, 0)

/-- res_dec of RES12 (R252). -/
def resDec12 (b : Nat) : Int × Flags :=
  let h := b / 256 % 16
  let m := b / 16 % 16
  let l := b % 16
  if b / 4096 % 16 ≠ 0 ∨ 14 < h ∨ 12 < l then (0, fIDIG)
  else
    let x := (1456 * h + 2145 * m + 2640 * l) % 3120
    (if x ≤ 1559 then x else (x : Int) - 3120, 0)

def resEnc8 (v : Int) : Nat := (v % 7).toNat * 32 + (v % 8).toNat * 4 + (v % 3).toNat
def resEnc12 (v : Int) : Nat := (v % 15).toNat * 256 + (v % 16).toNat * 16 + (v % 13).toNat

/-- crt_acc (R254). -/
def crtAcc (q0 q1 q2 : Nat) : Int :=
  let x := (q0 * 851 * 1047552 + q1 * 511 * 1045504 + q2 * 683 * 1044483) % 1069550592
  if x < 534775296 then x else (x : Int) - 1069550592

/-- e8val (R255). -/
def e8Val (e : Nat) : Fv := if e = 255 then .nan false else .fin false 1 ((e : Int) - 127)

/-! ## Conversions (R257) -/

/-- The integer types by code 4 to 11 (R231): width and signedness. -/
def intType (c : Nat) : Nat × Bool :=
  ((match (c - 4) / 2 with | 0 => 64 | 1 => 32 | 2 => 16 | _ => 8), c % 2 == 0)

/-- The bytes of an element of a type code (R231, R251). -/
def typeBytes (c : Nat) : Nat :=
  if c < 4 then (fmt c).w / 8
  else if c < 12 then (intType c).1 / 8
  else if c = 13 then 2 else 1

/-- A finite value rounded to an integer, and whether it is inexact. -/
def roundInt (mode : Nat) (neg : Bool) (m : Nat) (e : Int) : Int × Bool :=
  let r := shiftRound mode neg m e 0
  (if neg then -(r.1 : Int) else r.1, r.2)

/-- An integer as a value. -/
def ofInt (v : Int) : Fv := .fin (decide (v < 0)) v.natAbs 0

/-- cvt_int to an integer type (R257, R262). An out-of-range value raises NV alone. -/
def toInt (w : Nat) (signed : Bool) (mode : Nat) : Fv → FRes
  | .nan _ => (0, fNV)
  | .inf n => (intBits w (if n then intMin w signed else intMax w signed), fNV)
  | .fin n m e =>
    let r := roundInt mode n m e
    if r.1 < intMin w signed then (intBits w (intMin w signed), fNV)
    else if intMax w signed < r.1 then (intBits w (intMax w signed), fNV)
    else (intBits w r.1, flagIf r.2 fNX)

/-- The limits of a residue format, and its encoding. -/
def resMin (c : Nat) : Int := if c = 12 then -84 else -1560
def resMax (c : Nat) : Int := if c = 12 then 83 else 1559
def resEnc (c : Nat) (v : Int) : Nat := if c = 12 then resEnc8 v else resEnc12 v

def clampRes (c : Nat) (v : Int) : FRes :=
  if v < resMin c then (resEnc c (resMin c), fSAT)
  else if resMax c < v then (resEnc c (resMax c), fSAT)
  else (resEnc c v, 0)

/-- A real value to a residue (R257). -/
def toRes (c mode : Nat) : Fv → FRes
  | .nan _ => (resEnc c 0, fNV)
  | .inf n => (resEnc c (if n then resMin c else resMax c), fSAT ||| fNV)
  | .fin n m e =>
    let r := roundInt mode n m e
    let q := clampRes c r.1
    (q.1, q.2 ||| flagIf r.2 fNX)

/-- A value to an E8 scale (R257). -/
def toE8 : Fv → FRes
  | .nan q => (255, flagIf q fNV)
  | .inf _ => (254, fOF ||| fNX)
  | .fin _ m e =>
    if m = 0 then (0, 0)
    else
      let top : Int := (Nat.log2 m : Int) + e + 127
      let pow := decide (m = 2 ^ Nat.log2 m)
      if top < 0 then (0, fUF ||| fNX)
      else if 254 < top then (254, fOF ||| fNX)
      else (top.toNat, flagIf (!pow) fNX)

/-- A conversion between two distinct type codes (R257). `rm` is HMOD.RM, 0 for the own mode; `sat` is HMOD.SAT. -/
def convert (dst src rm : Nat) (sat : Bool) (b : Nat) : FRes :=
  let near := if rm = 0 then 1 else rm
  let chop := if rm = 0 then 2 else rm
  -- the source: its value, whether it is an integer, its flags
  let v : Fv × Bool × Flags :=
    if src < 4 then (fpVal src b, false, 0)
    else if src < 12 then (ofInt (intVal (intType src).1 (intType src).2 b), true, 0)
    else if src = 12 then (ofInt (resDec8 b).1, true, (resDec8 b).2)
    else if src = 13 then (ofInt (resDec12 b).1, true, (resDec12 b).2)
    else (e8Val (b % 256), false, 0)
  let r : FRes :=
    if dst < 4 then roundFv dst near v.1
    else if dst < 12 then
      if v.2.1 then
        match v.1 with
        | .fin n m _ => fitInt (intType dst).1 (intType dst).2 sat (if n then -(m : Int) else m)
        | _ => (0, 0)
      else toInt (intType dst).1 (intType dst).2 chop v.1
    else if dst < 14 then toRes dst near v.1
    else toE8 v.1
  (r.1, r.2 ||| v.2.2)

/-- Whether a conversion rounds (R257, R235): the widening floating-point pairs, the integer and residue pairs among themselves
and every conversion to E8 do not. -/
def convertRounds (dst src : Nat) : Bool :=
  let int (c : Nat) := decide (4 ≤ c ∧ c < 14)
  if dst = 14 then false
  else if int dst && int src then false
  else !((dst == 0 && decide (1 ≤ src ∧ src < 4)) || (dst == 1 && (src == 2 || src == 3)))

/-- Whether a conversion can set a flag (R257, R235): not from an integer to a type that is wider and holds each of its values. -/
def convertSets (dst src : Nat) : Bool :=
  let int (c : Nat) := decide (4 ≤ c ∧ c < 12)
  !(int dst && int src && decide ((intType src).1 < (intType dst).1) && ((intType dst).2 || !(intType src).2))

end Sys2Proof.Machine
end

