-- ==== Sys2Proof/Machine/Operands.lean ====
section
/-! DEFINITION. The operand forms: how a sequence's modifier words and repeat prefix (R221 to R226, R235) change the fields of
the instruction that they modify, the guard (R217, R218), the lanes of vector registers (R245), and the cache policy and
ordering class of format M (R219). -/

namespace Sys2Proof.Machine

/-! ## Register files and fields -/

/-- What a register field names (R217, R228 to R232); `code` is a field that is reserved or holds a code. -/
inductive RegFile where
  | code | x | v | p | c | h | s | a
  deriving DecidableEq, Repr

def RegFile.size : RegFile → Nat
  | .x | .v => 32
  | .p | .s => 8
  | .c | .h => 16
  | .a => 4
  | .code => 1

/-- A register field of an instruction word and the file it names. -/
structure Field where
  n : Nat
  file : RegFile
  deriving DecidableEq, Repr

def fx (n : BitVec 5) : Field := ⟨n.toNat, .x⟩
def fv (n : BitVec 5) : Field := ⟨n.toNat, .v⟩
def fp (n : BitVec 5) : Field := ⟨n.toNat, .p⟩
def fc (n : BitVec 5) : Field := ⟨n.toNat, .c⟩
def fs (n : BitVec 5) : Field := ⟨n.toNat, .s⟩
def fa (n : BitVec 5) : Field := ⟨n.toNat, .a⟩
def fh (n : BitVec 4) : Field := ⟨n.toNat, .h⟩
/-- A field that names no register. -/
def fk (n : BitVec 5) : Field := ⟨n.toNat, .code⟩
def fnone : Field := ⟨0, .code⟩

/-- A field in repetition k with step 2^inc (R224). -/
def Field.stepped (f : Field) (on : Bool) (k inc : Nat) : Nat :=
  if on && f.file != .code then (f.n + k * 2 ^ inc) % f.file.size else f.n

/-- How HMOD.POL acts (R235). -/
inductive PolUse where
  /-- no linear access, or an ACQUIRE or VOLATILE one: ignored, MODFB set -/
  | ignored
  /-- it replaces or supplies the policy, or a linear access that has none makes nothing of it -/
  | taken
  deriving DecidableEq, Repr

/-- What an instruction is, for the words that modify it. -/
structure Traits where
  m : Bool
  guard : BitVec 5
  d : Field
  a : Field
  b : Field
  /-- the field that HIMM extends and its width; none: HIMM is ignored (R235) -/
  imm : Option (Nat × Nat)
  /-- whether the joined value takes the place of register B -/
  immB : Bool
  rounds : Bool
  sets : Bool
  sat : Bool
  pol : PolUse
  rep : Bool
  /-- bits of the joined value above bit 9 are reserved, whether or not the guard passes (R218, R267) -/
  narrow : Bool
  /-- registers it reads or writes beyond D, A and B: of x and of v -/
  more : List Nat × List Nat
  /-- registers that follow D, A and B in their groups -/
  group : Nat × Nat × Nat := (0, 0, 0)
  /-- whether it runs in the vector unit, which asks the step governor (R425) -/
  power : Bool := false
  deriving DecidableEq, Repr

/-- Format R: B may be replaced where it names an x register. -/
def Traits.ofR (o : OpR) (d a b : Field) : Traits :=
  { m := o.m, guard := o.g, d := d, a := a, b := b,
    imm := if b.file = .x then some (o.b.toNat, 5) else none, immB := true,
    rounds := false, sets := false, sat := false, pol := .ignored, rep := true, narrow := false, more := ([], []) }

def Traits.ofF (o : OpF) (d a b : Field) : Traits :=
  { m := o.m, guard := o.g, d := d, a := a, b := b,
    imm := if b.file = .x then some (o.b.toNat, 5) else none, immB := true,
    rounds := false, sets := true, sat := false, pol := .ignored, rep := true, narrow := false, more := ([], []) }

/-- Format I: K. -/
def Traits.ofI (o : OpI) (d a : Field) : Traits :=
  { m := o.m, guard := o.g, d := d, a := a, b := fnone, imm := some (o.k.toNat, 10), immB := false,
    rounds := false, sets := false, sat := false, pol := .ignored, rep := true, narrow := false, more := ([], []) }

/-- The SHI shape of format I: K[9:8] holds the form. -/
def Traits.ofSh (o : OpSh) (form : Nat) (d a : Field) : Traits :=
  { m := o.m, guard := o.g, d := d, a := a, b := fnone, imm := some (form * 256 + o.k.toNat, 10), immB := false,
    rounds := false, sets := false, sat := false, pol := .ignored, rep := true, narrow := true, more := ([], []) }

def Traits.ofB (o : OpB) : Traits :=
  { m := o.m, guard := o.g, d := fnone, a := fnone, b := fnone, imm := some (o.k.toNat, 20), immB := false,
    rounds := false, sets := false, sat := false, pol := .ignored, rep := false, narrow := false, more := ([], []) }

/-- The offset bits of X by ordering class (R219). -/
def offBits (o : OpM) : Nat := if o.o = 1 ∨ o.o = 2 then 3 else 4

def Traits.ofM (o : OpM) (d a : Field) : Traits :=
  { m := o.m, guard := o.g, d := d, a := a, b := fnone, imm := some (o.x.toNat % 2 ^ (offBits o), offBits o), immB := false,
    rounds := false, sets := false, sat := false, pol := if o.o = 0 ∨ o.o = 2 then .taken else .ignored,
    rep := true, narrow := false, more := ([], []) }

/-- Formats V, VM, A and T have no G field. -/
def Traits.ofV (o : OpV) (d a b : Field) : Traits :=
  { m := o.m, guard := 0, d := d, a := a, b := b,
    imm := if b.file = .x ∨ b.file = .v then some (o.b.toNat, 5) else none, immB := true,
    rounds := false, sets := false, sat := false, pol := .ignored, rep := true, narrow := false, more := ([], []), power := true }

def Traits.ofVM (o : OpVM) (d a b : Field) : Traits :=
  { m := o.m, guard := 0, d := d, a := a, b := b,
    imm := if b.file = .x ∨ b.file = .v then some (o.b.toNat, 5) else none, immB := true,
    rounds := false, sets := false, sat := false, pol := if o.v then .ignored else .taken, rep := true, narrow := false, more := ([], []) }

def Traits.ofA (o : OpA) (d a b : Field) : Traits :=
  { m := o.m, guard := 0, d := d, a := a, b := b, imm := some (o.b.toNat, 5), immB := true,
    rounds := false, sets := false, sat := false, pol := if o.o = 0 ∨ o.o = 2 then .taken else .ignored,
    rep := true, narrow := false, more := ([], []) }

/-- Format T: the module register E is not stepped. -/
def Traits.ofT (o : OpT) (a b : Field) : Traits :=
  { m := o.m, guard := 0, d := fnone, a := a, b := b, imm := if b.file = .x then some (o.b.toNat, 5) else none, immB := true,
    rounds := false, sets := false, sat := false, pol := .ignored, rep := true, narrow := false, more := ([o.e.toNat], []) }

/-- The instruction as its sequence makes it: what a meaning works on. -/
structure Iss where
  g : Nat
  /-- the address of the instruction word -/
  pc : Word
  /-- the PC that its events report (R225, R226) -/
  rpc : Word
  d : Nat
  a : Nat
  b : Nat
  /-- the value in place of register B -/
  bv : Option Word
  /-- the immediate: the own field sign-extended, or the joined value -/
  imm : Word
  nimm : Nat
  rm : Nat
  nf : Bool
  sat : Bool
  pol : Nat
  deriving DecidableEq, Repr

/-- HI fields joined with an own field of w bits (R221): sign-extended when narrower than 64 bits. -/
def joined (himm n own w : Nat) : Word :=
  let v := himm * 2 ^ w + own
  let k := 25 * n + w
  if k < 64 then .ofInt 64 (intVal k true v) else .ofNat 64 v

/-- The guard of a field (R217): none, a condition bit set or clear, or never. -/
def guardPass (t : Thread) (g : BitVec 5) : Bool :=
  if g = 0 then true
  else if g = 16 then false
  else if g.toNat < 16 then t.creg g.toNat
  else !t.creg (g.toNat - 16)

/-- The register B, or the value in its place. -/
def Iss.bval (i : Iss) (t : Thread) : Word := i.bv.getD (t.x i.b)

/-! ## Lanes (R245) -/

/-- The elements of b bytes of a vector register, lane 0 first, n lanes. -/
def lanesGo (w : Nat) (v : Nat) : Nat → List Nat
  | 0 => []
  | n + 1 => v % 2 ^ w :: lanesGo w (v / 2 ^ w) n

/-- The lanes of w bits of a register. -/
def lanes (w : Nat) (l : Line) : List Nat := lanesGo w l.toNat (1024 / w)

/-- The number whose lanes are a list. -/
def lanesNat (w : Nat) : List Nat → Nat
  | [] => 0
  | h :: t => h % 2 ^ w + 2 ^ w * lanesNat w t

def ofLanes (w : Nat) (ls : List Nat) : Line := .ofNat 1024 (lanesNat w ls)

/-- Every lane of w bits holds a value. -/
def broadcast (w : Nat) (v : Nat) : Line := ofLanes w (List.replicate (1024 / w) v)

/-- Register B of a vector instruction as lanes of w bits, or the immediate broadcast (R221). -/
def Iss.vB (i : Iss) (t : Thread) (w : Nat) : Line :=
  match i.bv with
  | some k => broadcast w k.toNat
  | none => t.vreg i.b

/-! ## Policies and classes (R77, R118, R219) -/

/-- Cache policies: 0 NORMAL, 1 STREAM, 2 NOL1, 3 ONCE (R77). -/
def mPolicy (o : OpM) : Nat := if o.o = 1 ∨ o.o = 2 then 0 else o.x.toNat / 16

/-- The scope of an ACQUIRE or RELEASE access (R219). -/
def mScope (o : OpM) : Nat := o.x.toNat / 8

/-- The address of a format-M access of n bytes (R219): an offset in units of n, or the joined byte offset. -/
def mEa (i : Iss) (o : OpM) (t : Thread) (n : Nat) : Word :=
  if i.nimm = 0 then t.x i.a + .ofNat 64 (o.x.toNat % 2 ^ (offBits o) * n) else t.x i.a + i.imm

/-- The scope of formats R and A, THREAD acting as CORE (R119). -/
def scopeOf (n : Nat) : Nat := if n = 0 then 1 else n

end Sys2Proof.Machine
end

