-- ==== Sys2Proof/Machine/Issue.lean ====
section
/-! DEFINITION. One issue of a thread (R158): the checks that the words of a sequence make necessary, the guard, the hazard flag,
the instruction's own effect, and what follows it: the next repetition, the loop-end check (R274), the switch marker (R159),
the step of a single-stepped thread (R214), or the taking of its trap or call entry. -/

namespace Sys2Proof.Machine

/-- How an instruction's own effect ends. -/
inductive Res where
  /-- it completes, and the next word follows -/
  | done (s : State)
  /-- it completes, and the next word is the one named, unless R274 steps back -/
  | next (pc : Word) (s : State)
  /-- it completes, and has parked its thread until then: its switch marker has no further effect (R263) -/
  | whole (s : State)
  /-- it completes with a transfer of control, which leaves a loop unchanged (R274) -/
  | jump (pc : Word) (s : State)
  /-- a trap, or a call entry at the instruction itself -/
  | trap (f : FaultRec) (s : State)
  /-- it completes, then its call entry is taken with the next word's address (R284) -/
  | call (f : FaultRec) (s : State)
  /-- it waits, and issues again when the wake condition holds -/
  | wait (w : Wake) (s : State)
  /-- one of its phases is done, and it issues again -/
  | again (s : State)
  /-- the thread has left its slot -/
  | gone (s : State)
  deriving DecidableEq, Repr

/-- The state that an end leaves. -/
def Res.state : Res → State
  | .done s | .next _ s | .whole s | .jump _ s | .trap _ s | .call _ s | .wait _ s | .again s | .gone s => s

/-- The end of an instruction that has met a link that takes no flit now: it issues again at its next turn, from `back` (R410). -/
def Res.orHeld (back : State) (r : Res) : Res := if r.state.linkHeld && !back.linkHeld then .wait .unit back else r

def illegal : FaultRec := mkFault .illegalInstruction 0 0
def badOperand : FaultRec := mkFault .illegalOperand 0 0
def denied : FaultRec := mkFault .privilege 0 0

/-- PC + 4 (R272). -/
def nextPc (pc : Word) : Word := pc + 4

/-- The address of the word that a PC names: bits [56:0] of a resume form (R226), else all of it. -/
def wordAddr (pc : Word) : Word := if bit pc 63 then .ofNat 64 (pc.toNat % 2 ^ 57) else pc

/-- The PC after a word whose sequence began at `first` (R274): where one of its words stands at the address of x8, the loop steps back or
ends; else it does not concern it. -/
def loopEnd (t : Thread) (first pc next : Word) : Thread :=
  let x8 := t.x 8
  let e := bits x8 56 0
  if bit x8 63 && bits x8 62 57 == 0 && decide (first.toNat ≤ e ∧ e ≤ pc.toNat ∧ (e - first.toNat) % 4 = 0) then
    let x9 := t.x 9
    if bits x9 31 0 = 0 then
      let t := t.setX 8 (.ofNat 64 (x8.toNat % 2 ^ 63))
      { t with ctx := { t.ctx with pc := next } }
    else
      let t := t.setX 9 (x9 - 1)
      { t with ctx := { t.ctx with pc := .ofNat 64 e - 4 * (.ofNat 64 (bits x9 63 56) - 1) } }
  else { t with ctx := { t.ctx with pc := next } }

/-- The first word of the sequence that a thread is in, or the word at its PC. -/
def Thread.seqStart (t : Thread) : Word :=
  match t.seq with
  | some q => q.start
  | none => wordAddr t.ctx.pc

/-- A word has completed: no sequence, no phase, nothing checked, nothing displaced. -/
def Thread.clearWord (t : Thread) : Thread := { t with seq := none, stage := .start, checked := false, displaced := false }

/-- The thread after its instruction, with the PC that R274 chooses. -/
def Thread.advance (t : Thread) (next : Word) : Thread := (loopEnd t t.seqStart (wordAddr t.ctx.pc) next).clearWord

/-- The thread after a transfer of control. -/
def Thread.transfer (t : Thread) (pc : Word) : Thread :=
  let t := t.clearWord
  { t with ctx := { t.ctx with pc := pc } }

/-- A thread that parks at a marker or for a single step, or goes on (R159, R214). -/
def Thread.settle (t : Thread) (m ss : Bool) : Thread :=
  { t with status := if m || ss then .waiting .results else .ready, stepDue := ss }

/-- Whether a repetition follows (R224). -/
def moreReps (q : Option SeqSt) : Bool :=
  match q with
  | some q => match q.rep with
    | some r => decide (q.k < r.n.toNat)
    | none => false
  | none => false

/-- After an instruction's effect (R159, R214, R224, R274). -/
def complete (s : State) (g : Nat) (m ss : Bool) (next : Word) : State :=
  s.modThread g fun t =>
    if moreReps t.seq then
      { t.settle false ss with
        seq := t.seq.map fun q => { q with k := q.k + 1, point := true }
        stage := .start
        checked := false
        displaced := false
        parkPc := t.reportPc }
    else
      { (t.advance next).settle m ss with
        parkPc := t.reportPc }

/-- What a Res does to the thread that issued. `h` and `f` are HAZ and MODFB as they stood before. -/
def settle (s0 : State) (g : Nat) (m : Bool) : Res → State
  | .done s => complete s g m (s0.thread g).ctx.ss (nextPc (wordAddr (s.thread g).ctx.pc))
  | .whole s => complete s g false (s0.thread g).ctx.ss (nextPc (wordAddr (s.thread g).ctx.pc))
  | .next pc s => complete s g m (s0.thread g).ctx.ss pc
  | .jump pc s => s.modThread g fun t =>
      { (t.transfer pc).settle m (s0.thread g).ctx.ss with
        parkPc := t.reportPc }
  | .trap f s => enter s g f
  | .call f s =>
    let s := s.modThread g fun t => t.advance (nextPc (wordAddr t.ctx.pc))
    enter s g { f with pc := some (s.thread g).ctx.pc }
  | .wait w s =>
    s.modThread g fun t =>
      { t with status := .waiting w
               parkPc := t.reportPc
               since := if (s0.thread g).status = .waiting w then t.since else s0.now
               ctx := if t.stage = .start then
                 { t.ctx with haz := (s0.thread g).ctx.haz, modfb := (s0.thread g).ctx.modfb } else t.ctx }
  | .again s => s.modThread g fun t => { t with status := .ready }
  | .gone s => s

/-- Whether an outstanding result goes to a register (R159). -/
def Dest.hits (d : Dest) (xs vs : List Nat) : Bool :=
  match d with
  | .x n _ _ => n != 0 && xs.contains n
  | .v n _ => vs.contains n
  | .regs as bs => as.any (fun n => n != 0 && xs.contains n) || bs.any (fun n => vs.contains n)
  | .none | .scratch _ => false

/-- The registers of a file that a stepped field names, its group's included. -/
def Field.reg (f : Field) (file : RegFile) (n group : Nat) : List Nat :=
  if f.file = file then (List.range (group + 1)).map fun k => n + k else []

/-- A guard of the instruction's own and one of its HMOD word (R235). (DEDUCED, log 29) -/
def bothGuards (t : Traits) (q : SeqSt) : Bool :=
  match q.hmod with
  | some h => h.g != 0 && t.guard != 0
  | none => false

/-- The modifiers' fallbacks (R235) that set MODFB. (DEDUCED, log 29) (DEDUCED, log 30) -/
def fallback (t : Traits) (q : SeqSt) (replaced : Bool) : Bool :=
  (decide (0 < q.nimm) && t.imm.isNone) ||
  (match q.rep with
   | some r => (r.d && t.d.file == .code) || (r.a && t.a.file == .code) || (r.b && (t.b.file == .code || replaced))
   | none => false) || bothGuards t q ||
  (match q.hmod with
   | some h => (h.r != 0 && !t.rounds) || (h.n && !t.sets) || (h.s && !t.sat) ||
       (h.p != 0 && t.pol == .ignored)
   | none => false)

/-- A sequence of no modifier words. -/
def SeqSt.plain (pc : Word) : SeqSt := ⟨pc, none, 0, 0, none, 0, 0, false⟩

/-- The instruction as its sequence makes it. -/
def mkIss (g : Nat) (th : Thread) (t : Traits) (q : SeqSt) : Iss :=
  let k := if q.rep.isSome then q.k else 0
  let r : OpRep := q.rep.getD ⟨0, false, false, false, 0⟩
  let h : OpHmod := q.hmod.getD ⟨0, 0, false, 0, false⟩
  let used := decide (0 < q.nimm) && t.imm.isSome
  let value : Word :=
    match t.imm with
    | some (own, w) => joined q.himm q.nimm own w
    | none => 0
  { g := g, pc := wordAddr th.ctx.pc, rpc := th.reportPc
    d := t.d.stepped r.d k r.i.toNat, a := t.a.stepped r.a k r.i.toNat
    b := t.b.stepped (r.b && !(used && t.immB)) k r.i.toNat
    bv := if used && t.immB then some value else none
    imm := value, nimm := q.nimm
    rm := if t.rounds then h.r.toNat else 0
    nf := h.n, sat := h.s && t.sat
    pol := if t.pol = .taken then h.p.toNat else 0 }

/-- ONE ISSUE of the current thread: the whole of R158 to R161, R214, R217 to R226, R235 and R274 around an instruction's own
effect. (DESIGN CHOICE, log 11) (DEDUCED, log 30) -/
def issue (s : State) (t : Traits) (body : Iss → State → Res) : State :=
  let g := s.cur
  let th := s.thread g
  if th.seq.isNone && bit th.ctx.pc 63 then
    -- a resume form whose word is not a REP (R226)
    enter s g { illegal with pc := some (wordAddr th.ctx.pc) }
  else
    let q := th.seq.getD (SeqSt.plain (wordAddr th.ctx.pc))
    let i := mkIss g th t q
    if q.rep.isSome && !t.rep then enter s g illegal
    else if t.narrow && decide (0 < q.nimm) && bits i.imm 63 10 != 0 then enter s g illegal
    else if !(guardPass th t.guard && guardPass th (match q.hmod with | some h => h.g | none => 0)) then
      -- two guards on one instruction are themselves a fallback, the one that R235 states of an instruction not performed too
      settle s g t.m (.done (if bothGuards t q then s.modCtx g fun c => { c with modfb := true } else s))
    else if t.power && !(s.askVector (coreOf g)).1 then
      settle s g t.m (.wait .unit (s.askVector (coreOf g)).2)
    else
      let s := if t.power then (s.askVector (coreOf g)).2 else s
      let regs (file : RegFile) : List Nat :=
        t.d.reg file i.d t.group.1 ++ t.a.reg file i.a t.group.2.1 ++
          (if i.bv.isSome then [] else t.b.reg file i.b t.group.2.2)
      let xs := regs .x ++ t.more.1
      let vs := regs .v ++ t.more.2
      let haz := th.stage == .start && th.out.any fun o => o.dest.hits xs vs
      let fb := fallback t q i.bv.isSome
      let s1 :=
        if haz || fb then s.modCtx g fun c => { c with haz := c.haz || haz, modfb := c.modfb || fb } else s
      settle s g t.m (body i s1)

/-! ## Small operations of bodies -/

/-- A thread's change as the whole effect. -/
def doneT (i : Iss) (s : State) (f : Thread → Thread) : Res := .done (s.modThread i.g f)

/-- A value to x[D]. -/
def setD (i : Iss) (s : State) (w : Word) : Res := doneT i s fun t => t.setX i.d w

/-- A value to x[D] with its flags (R249). -/
def setDF (i : Iss) (s : State) (r : FRes) : Res :=
  doneT i s fun t => (if i.nf then t else t.orFlags r.2).setX i.d (.ofNat 64 r.1)

end Sys2Proof.Machine
end

