-- ==== Sys2Proof/Machine/Tasks.lean ====
section
/-! DEFINITION. Posting counters and guard records (R71, R126, R202), releases, acquires and commits (R119, R121, R128, R165 to
R168), as the phases of the instruction that makes them. -/

namespace Sys2Proof.Machine

/-! ## Posting counters -/

/-- The classes whose counters a scope's release waits for (R119). -/
def scopeWaits (scope : Nat) (c : PostCtr) : Bool :=
  match c with
  | .pd => decide (2 ≤ scope)
  | .px => decide (4 ≤ scope)
  | .po => decide (5 ≤ scope)

/-- The wait field's counter (R126). -/
def waitCtr (w : Nat) : Option PostCtr :=
  match w with
  | 1 => some .pd
  | 2 => some .px
  | 3 => some .po
  | _ => none

def someCtrs (p : PostCtr → Bool) : Wake := .counters (p .pd) (p .px) (p .po)

def ctrsZero (c : Ctx) (p : PostCtr → Bool) : Bool :=
  (!p .pd || c.pd == 0) && (!p .px || c.px == 0) && (!p .po || c.po == 0)

/-- The commutative entries that a thread contributed to and a predicate selects leave the core's buffer for their homes
(R108, R111). -/
def sendFlushes (g core : Nat) : List CommEntry → State → State
  | [], s => s
  | e :: t, s =>
    sendFlushes g core t (s.send (fromThread g) (atSlice e.gslice)
      (.commutativeFlush ⟨e.gslice, core, e.key, e.user, e.value, e.contrib, postClass core e.gslice⟩))

def flushComm (s : State) (g core : Nat) (p : CommEntry → Bool) : State :=
  let c := s.core core
  let out := c.comm.filter p
  if out.isEmpty then s
  else sendFlushes g core out (s.setCore core { c with comm := c.comm.filter fun e => !p e })

/-- Every entry that a thread contributed to leaves the buffer (R111). -/
def flushMine (s : State) (g : Nat) : State := flushComm s g (coreOf g) fun e => e.contrib.any fun x => x.gti == g

/-- A wait on some posting counters flushes every entry that the thread contributed to, if they count a contribution of it (R111). -/
def flushWaited (s : State) (g : Nat) (p : PostCtr → Bool) : State :=
  if (s.core (coreOf g)).comm.any fun e => e.contrib.any (fun x => x.gti == g) && p (postClass (coreOf g) e.gslice) then flushMine s g
  else s

/-! ## Faults that surface, and guard records -/

/-- The fault of a posted store surfaces, once, at a wait on its counter, a release, a fence or a commit (R30). -/
def surfacePosted (i : Iss) (p : PostCtr → Bool) (s : State) (k : State → Res) : Res :=
  match (s.thread i.g).stf.find? fun e => p e.ctr with
  | some e => .trap e.fault (s.modThread i.g fun t => { t with stf := t.stf.erase e })
  | none => k s

/-- The fault of an engine operation surfaces, once, at the first instruction that observes it (R197, R303). -/
def surfaceEngine (i : Iss) (p : EngFault → Bool) (s : State) (k : State → Res) : Res :=
  match (s.thread i.g).eng.find? p with
  | some e => .trap e.fault (s.modThread i.g fun t => { t with eng := t.eng.erase e })
  | none => k s

/-- The trap that a guard record makes (R71, R202). -/
def guardFault (r : GuardRec) : FaultRec :=
  { mkFault .scratchpadGuard 0 r.ptr with info := ⟨r.gkind, 0, opcField r.pc, 0⟩, more := r.more }

/-- An instruction that goes on waiting at its start has made its check of the guard record; a later stage makes none. -/
def Res.noteChecked (g : Nat) : Res → Res
  | .wait w s => .wait w (s.modThread g fun t => { t with checked := t.checked || t.stage == .start })
  | .again s => .again (s.modThread g fun t => { t with checked := t.checked || t.stage == .start })
  | r => r

/-- A synchronising instruction checks the guard record once, after its own posting-counter waits (R202): what comes while it then waits is
for the next one. -/
def checkGuard (i : Iss) (s : State) (k : State → Res) : Res :=
  if (s.thread i.g).checked then k s
  else match (s.thread i.g).guardRec with
    | some r => .trap (guardFault r) s
    | none => (k s).noteChecked i.g

/-- A wait until some posting counters are zero (R126): contributions they count are flushed, and faults they count surface. -/
def drainCounters (i : Iss) (p : PostCtr → Bool) (s : State) (k : State → Res) : Res :=
  let s := flushWaited s i.g p
  surfacePosted i p s fun s =>
    if ctrsZero (s.thread i.g).ctx p then k s else .wait (someCtrs p) s

/-- Such a wait of an instruction that has no precise fault of its own, with the check of the guard record after it (R202). -/
def waitCounters (i : Iss) (p : PostCtr → Bool) (s : State) (k : State → Res) : Res :=
  drainCounters i p s fun s => checkGuard i s k

/-- The wait field (R126): no wait, PD, PX or PO. The instruction's own precise faults come before the check of the guard record
(R198), which fieldGuard makes. -/
def waitField (i : Iss) (w : Nat) (s : State) (k : State → Res) : Res :=
  if (s.thread i.g).stage != .start then k s
  else match waitCtr w with
    | none => k s
    | some c => drainCounters i (fun x => x == c) s k

/-- The check of the guard record that a wait field makes (R71, R198, R202). -/
def fieldGuard (i : Iss) (w : Nat) (s : State) (k : State → Res) : Res :=
  if (s.thread i.g).stage != .start || w == 0 then k s else checkGuard i s k

/-- A write that counts waits for room in its counter (R126). -/
def withRoom (i : Iss) (c : PostCtr) (s : State) (k : State → Res) : Res :=
  if (s.thread i.g).ctx.count c < Config.maxPosted then k s
  else .wait (.room c) (flushWaited s i.g fun x => x == c)

/-- So many more writes count (R126). -/
def countPosts (s : State) (g : Nat) (c : PostCtr) (n : Nat) : State := s.modCtx g fun x => x.setCount c (x.count c + n)

/-- One more write counts (R126). -/
def countPost (s : State) (g : Nat) (c : PostCtr) : State := countPosts s g c 1

/-! ## What a commit waits for -/

/-- Whether an event is a speculative store of a thread on its way to its home. -/
def isSpecStore (g : Nat) : Event → Bool
  | .speculativeStoreReceipt w => w.gti == g
  | .ephemerisCreate c => c.gti == g
  | _ => false

/-- The base pointer of a stream's descriptor (R72). -/
def drainPtr (d : BitVec 512) : Word := .ofNat 64 (d.toNat / 2 ^ 448)

/-- Whether a generic pointer lies in linear memory. -/
def linearPtr (p : Word) : Bool := bits p 63 60 == 0 || bits p 63 60 == 3

/-- Whether a collective operation that has not completed is one that a predicate selects. -/
def collOut (s : State) (g : Nat) (p : Coll → Bool) : Bool :=
  ((s.modu (moduleOf (coreOf g))).colls.any fun w => w.c.gti == g && p w.c) ||
  s.onWay fun e =>
    match e with
    | .collectiveAllreduce c | .collectiveBroadcast c | .hostToDevice c | .deviceToHost c => c.gti == g && p c
    | .collectiveCompletion d => d.c.gti == g && p d.c
    | _ => false

/-- Whether a collective operation writes linear memory on its module (R130): the STATUS of a descriptor there, or DST (R414, R415). -/
def collLinear (c : Coll) : Bool :=
  linearPtr c.desc || (linearPtr c.dst && (c.kind == 0 || (c.kind == 1 && c.mask.getLsbD c.module) || c.kind == 2))

/-- Whether a drain stream of the thread has elements to write, to an address that a predicate selects. -/
def drainsOut (s : State) (g : Nat) (p : Word → Bool) : Bool :=
  (s.thread g).streams.any fun e => e.2.drains && !e.2.buf.isEmpty && p (drainPtr e.2.desc)

/-- Whether an engine operation of the thread that writes linear memory has not completed (R128 step 3): a drain stream, a
matrix STORE, a collective. (DEDUCED, log 21) -/
def lateEngines (s : State) (g : Nat) : Bool :=
  let c := s.core (coreOf g)
  drainsOut s g linearPtr || ((c.deps ++ c.sequencer).any fun e => e.gti == g && mxKind e.cmd == 3 && mxLinear e.cmd) ||
  collOut s g collLinear

/-- Whether a write of the thread to host memory has not been accepted by its I/O die (R119, R414). -/
def hostWrites (s : State) (g : Nat) : Bool := collOut s g fun c => c.kind == 3

/-- The fill check of R128 step 2: the home of each line that holds speculative bytes of the task holds its committed copy, and
the mapping in force allows the write. -/
def fillUnits (job : Nat) (user : Bool) : List (Nat × Nat) → State → Except FaultRec State
  | [], s => .ok s
  | (g, l) :: t, s =>
    match homeFill s g job l (fun p => permOk p user true false) false with
    | .error k => .error (xlate k (.ofNat 64 (l * 128)))
    | .ok (s, _) => fillUnits job user t s

/-- The commit of each line goes to its home (R128 step 4). -/
def sendInstalls (g core job : Nat) (task : BitVec 32) : List (Nat × Nat) → State → State
  | [], s => s
  | (sl, l) :: t, s =>
    sendInstalls g core job task t (s.send (fromThread g) (atSlice sl) (.commitInstall ⟨g, sl, job, l, task, core⟩))

/-- The commit of each created version goes to its home (R47). -/
def sendPublishes (g : Nat) (task : BitVec 32) : List TileRef → State → State
  | [], s => s
  | r :: t, s => sendPublishes g task t (s.send (fromThread g) (atSlice r.gslice) (.ephemerisCommit ⟨r, g, task⟩))

/-! ## Commit (R128, R165, R166) -/

/-- A new task opens inside an instruction: its first instruction is the one that follows, or with `own` this one (R165,
R166). -/
def reopen (t : Thread) (own : Bool) : Thread :=
  let next : Thread :=
    if own then t
    else if moreReps t.seq then t
    else t.advance (nextPc (wordAddr t.ctx.pc))
  let pc : Word :=
    if own then t.reportPc
    else match t.seq with
      | some q => if moreReps t.seq then resumeForm (q.k + 1) q.start else next.ctx.pc
      | none => next.ctx.pc
  let n := openTask next pc
  { t with
    ctx := { n.ctx with pc := t.ctx.pc, x := t.ctx.x }
    opened := n.opened, gone := n.gone, units := [], creates := [], filter := [], stage := .committed, bypass := false }

/-- A commit as TCOM makes it, by phases; what follows it runs in the new task. (DEDUCED, log 21) -/
def withCommit (i : Iss) (own : Bool) (s : State) (k : State → Res) : Res :=
  let t := s.thread i.g
  let core := coreOf i.g
  let opened (s : State) : Res := k (s.modThread i.g fun t => reopen t own)
  let publish (s : State) : Res :=
    let t := s.thread i.g
    if t.creates.isEmpty then opened s
    else
      let s := s.modThread i.g fun t => { t with stage := .publishing, acks := t.creates.length }
      .wait .acks (sendPublishes i.g t.ctx.task t.creates s)
  match t.stage with
  | .start =>
    if !t.out.isEmpty then .wait .results s
    else surfacePosted i (fun _ => true) s fun s =>
      if s.onWay (isSpecStore i.g) then .wait .specs s
      else match fillUnits t.ctx.ids.job (t.ctx.mode == .user) t.units s with
        | .error f => .trap f s
        | .ok s =>
          surfaceEngine i (fun _ => true) s fun s =>
            if lateEngines s i.g then .wait .engines s
            else if t.units.isEmpty then publish s
            else
              let s := s.modThread i.g fun t => { t with stage := .installing, acks := t.units.length }
              .wait .acks (sendInstalls i.g core t.ctx.ids.job t.ctx.task t.units s)
  | .installing => if t.acks = 0 then publish s else .wait .acks s
  | .publishing => if t.acks = 0 then opened s else .wait .acks s
  | _ => k s

/-! ## Release and acquire (R119, R121) -/

/-- release(S): earlier results returned, contributions flushed, the posting counters of the scope at zero, the guard record
checked, and the task committed (R119). The record is checked after the instruction's counter waits and before it performs anything else
(R202), so the commit comes after them; it counts nothing, so the counters are still at zero after it. The wait of scope SYSTEM for writes to
host memory comes last. -/
def withRelease (i : Iss) (scope : Nat) (s : State) (k : State → Res) : Res :=
  let last (s : State) : Res :=
    if scope = 6 ∧ (s.thread i.g).stage = .committed ∧ hostWrites s i.g then .wait .hostWrites s else k s
  if (s.thread i.g).stage = .start ∧ ¬ (s.thread i.g).checked then
    if !(s.thread i.g).out.isEmpty then .wait .returned s
    else
      let s := flushMine s i.g
      surfacePosted i (fun _ => true) s fun s =>
        if ctrsZero (s.thread i.g).ctx (scopeWaits scope) then checkGuard i s fun s => withCommit i false s last
        else .wait (someCtrs (scopeWaits scope)) s
  else withCommit i false s last

/-- The acquire steps once every result of the thread has returned: the core self-invalidates its L1 (R95, R121). -/
def withAcquire (i : Iss) (s : State) (k : State → Res) : Res :=
  if (s.thread i.g).out.isEmpty then k (acquireCore s (coreOf i.g)) else .wait .results s

/-- A stage put into a thread. -/
def State.stage (s : State) (g : Nat) (x : Stage) : State := s.modThread g fun t => { t with stage := x }

/-- release(S) and then the acquire steps: a fence (R123). -/
def withFence (i : Iss) (scope : Nat) (s : State) (k : State → Res) : Res :=
  withRelease i scope s fun s => withAcquire i s k

/-! ## Speculative units (R165, R166) -/

/-- The lines not yet units of the task. -/
def newUnits (t : Thread) (ls : List (Nat × Nat)) : List (Nat × Nat) :=
  (ls.filter fun l => !t.units.contains l).eraseDups

/-- A store or create that would pass 4,096 units first commits (R166); the instruction is the new task's first. -/
def withUnits (i : Iss) (ls : List (Nat × Nat)) (creates : Nat) (s : State) (k : State → Res) : Res :=
  let t := s.thread i.g
  let n := (newUnits t ls).length + creates
  if t.stage = .start ∧ t.units.length + t.creates.length + n ≤ Config.maxUnits then k s
  else withCommit i true s k

/-- Lines become units of the task. -/
def addUnits (s : State) (g : Nat) (ls : List (Nat × Nat)) : State :=
  s.modThread g fun t => { t with units := t.units ++ newUnits t ls }

/-! ## Long-class results (R159) -/

/-- Whether a 17th result would be outstanding: the thread parks first. -/
def withRoomOut (i : Iss) (s : State) (k : State → Res) : Res :=
  if Config.maxOutstanding ≤ (s.thread i.g).out.length then .wait .results s else k s

/-- A new outstanding result, of a number of parts; its id. -/
def expect (s : State) (i : Iss) (d : Dest) (parts : Nat) (vol : Bool) (ptr : Word := 0) : State × Nat :=
  let t := s.thread i.g
  (s.setThread i.g { t with nextId := t.nextId + 1, out := t.out ++ [⟨t.nextId, d, parts, [], none, i.rpc, vol, ptr, t.ctx.task⟩] }, t.nextId)

/-- A result sent to a thread from where it is made. -/
def answer (s : State) (src g id : Nat) (v : ResultVal) (fill : Option LineFillData) : State :=
  s.send src (atCore (coreOf g)) (.resultReturn ⟨g, id, v, fill⟩)

/-- A fault response to a thread (R30). -/
def refuse (s : State) (src g : Nat) (id : Option Nat) (c : Option PostCtr) (off : Nat) (f : FaultRec) : State :=
  s.send src (atCore (coreOf g)) (.faultResponse ⟨g, id, c, off, f⟩)

/-- A fault of the thread's own, reported at its next issue with the instruction's PC (R30). -/
def addPend (s : State) (i : Iss) (f : FaultRec) : State :=
  s.modThread i.g fun t => { t with pend := t.pend ++ [{ f with pc := some i.rpc, task := t.ctx.task }] }

end Sys2Proof.Machine
end

