-- ==== Sys2Proof/Machine/Memory.lean ====
section
/-! DEFINITION. Accesses to scratchpad, cluster scratchpad and linear memory as threads and engines make them (R65, R67, R70, R77,
R90, R115, R118, R125, R126, R290), and the synchronous reads and writes of engines (R130). -/

namespace Sys2Proof.Machine

/-- An ordering class that does not fit its access sets MODFB (R124). -/
def noteFallback (i : Iss) (b : Bool) (s : State) : State := if b then s.modThread i.g Thread.setModfb else s

/-- A policy that nothing takes: every pointer of an instruction that reads memory as a PLAIN load lies in a scratchpad (R235). -/
def notePolicy (i : Iss) (ps : List Word) (s : State) : State :=
  noteFallback i (decide (i.pol ≠ 0) && ps.all fun p => bits p 63 60 == 1 || bits p 63 60 == 2) s

/-! ## Own scratchpad (R65, R70) -/

/-- Whether a range of the scratchpad touches a guard granule (R69, R70), granules g to g + n - 1. -/
def guardedGo (c : Core) (g : Nat) : Nat → Bool
  | 0 => false
  | n + 1 => bit (tget 0 c.guardMap (g / 64)) (g % 64) || guardedGo c (g + 1) n

def guarded (c : Core) (off n : Nat) : Bool :=
  if n = 0 then false else guardedGo c (off / 256) ((off + n - 1) / 256 - off / 256 + 1)

/-- Whether a word of the range carries an uncorrectable error (R429). -/
def scratchPoisoned (c : Core) (off n : Nat) : Bool :=
  c.scratchBad.any fun w => decide (off < w * 8 + 8 ∧ w * 8 < off + n)

/-- Kinds of guard access (R199). -/
def gkLoad : BitVec 2 := 0
def gkStore : BitVec 2 := 1
def gkAtomic : BitVec 2 := 2
def gkStream : BitVec 2 := 3

/-- A thread's guard record keeps its first guard access and counts later ones (R71). -/
def noteGuard (s : State) (g : Nat) (kind : BitVec 2) (ptr pc : Word) : State :=
  s.modThread g fun t =>
    { t with guardRec := match t.guardRec with
        | none => some ⟨kind, ptr, pc, 0⟩
        | some r => some { r with more := if r.more = 255 then 255 else r.more + 1 } }

/-- A guard record that returns with the acknowledgement of a remote access (R70). -/
def remoteGuard (s : State) (g : Nat) (kind : BitVec 2) (ptr pc : Word) : State :=
  if s.hasThread g then noteGuard s g kind ptr pc else s

def scratchBytes (s : State) (core off n : Nat) : List Byte := Memory.read (s.core core).scratch off n

/-- Bytes written to a scratchpad; a word wholly written carries no error any more. (DEDUCED, log 20) -/
def scratchWrite (s : State) (core off : Nat) (bs : List Byte) : State :=
  s.modCore core fun c =>
    { c with scratch := Memory.write c.scratch off bs
             scratchBad := c.scratchBad.filter fun w => !decide (off ≤ w * 8 ∧ w * 8 + 8 ≤ off + bs.length) }

/-- Bytes written where a mask says so. -/
def scratchPut (m : List Host.Cell) (off : Nat) : List (Option Byte) → List Host.Cell
  | [] => m
  | some b :: t => scratchPut (Memory.put m off b) (off + 1) t
  | none :: t => scratchPut m (off + 1) t

/-! ## Line pieces of a linear access (R116, R289) -/

/-- A piece of an access that lies in one line: its address, its place within the access, its length, its home slice. -/
structure Piece where
  addr : Nat
  off : Nat
  len : Nat
  gslice : Nat
  deriving DecidableEq, Repr

/-- The pieces of n bytes from an address up; `fuel` bounds their number. The spec checks a pointer and not each byte: the bytes of an access
that passes the end of a private window are those that follow in linear memory, and those past the last address of the space are the
first ones. (DESIGN CHOICE, log 86) -/
def splitGo (addr off n : Nat) : Nat → List (Nat × Nat × Nat)
  | 0 => []
  | fuel + 1 =>
    let k := min n (128 - addr % 128)
    if n ≤ k then [(addr, off, n)] else (addr, off, k) :: splitGo ((addr + k) % 2 ^ 57) (off + k) (n - k) fuel

def splitLines (addr n : Nat) : List (Nat × Nat × Nat) := splitGo addr 0 n (n / 128 + 2)

/-- The homes of the pieces; the first fault is the access's (R20, R29). -/
def placeGo (s : State) (core job : Nat) : List (Nat × Nat × Nat) → Except Nat (List Piece)
  | [] => .ok []
  | (a, o, l) :: t =>
    match s.home core job a with
    | .error k => .error k
    | .ok g =>
      match placeGo s core job t with
      | .error k => .error k
      | .ok ps => .ok (⟨a, o, l, g⟩ :: ps)

/-- Whether bytes of a user-mode access lie in the supervisor half (R19). -/
def crosses (s : State) (g addr n : Nat) : Bool := (s.thread g).ctx.mode == .user && decide (2 ^ 56 < addr + n)

/-- The pieces of n bytes from an address up for a thread, each with its home, or the first fault (R20, R29). -/
def place (s : State) (g addr n : Nat) : Except Nat (List Piece) :=
  if crosses s g addr n then .error kNonCanonical
  else placeGo s (coreOf g) (s.thread g).ctx.ids.job (splitLines addr n)

/-- Where n bytes at a pointer lie, with every precise TRANSLATION fault of the access (R13, R15, R19, R29, R65). -/
def State.target (s : State) (g : Nat) (ptr : Word) (n : Nat) (op : Access) : Except Nat Target :=
  match s.resolve g ptr op with
  | .error k => .error k
  | .ok (.linear a) =>
    match place s g a n with
    | .error k => .error k
    | .ok _ => .ok (.linear a)
  | .ok (.own off) => if Config.scratchBytes < off + n then .error kWindowBound else .ok (.own off)
  | .ok (.remote c off) => if Config.scratchBytes < off + n then .error kWindowBound else .ok (.remote c off)

def notePieces (core job : Nat) : List Piece → State → State
  | [], s => s
  | p :: t, s => notePieces core job t (s.noteEntries core job p.addr)

/-- The lines of pieces, as units are named. -/
def pieceLines (ps : List Piece) : List (Nat × Nat) := ps.map fun p => (p.gslice, p.addr / 128)

/-! ## Loads (R90, R101, R115, R118, R125) -/

/-- The classes (R118). -/
inductive Class where
  | plain | acquire | volatile
  deriving DecidableEq, Repr

/-- The bytes of word w of a line that n bytes from byte o touch. -/
def wordBytes (o n w : Nat) : BitVec 8 := .ofNat 8 ((maskFrom o n).toNat / 2 ^ (8 * w))

/-- Whether an L1 word answers a load of some of its bytes, of a class by a slot: a VALID, REG or REGD word for a PLAIN one, and an own
SPEC word whose task has written them; only REG or REGD for the others (R77, R90, R118, R125). (DEDUCED, log 41) -/
def wordHits (cls : Class) (slot : Nat) (bytes : BitVec 8) : Option WordSt → Bool
  | none => false
  | some .valid => cls == .plain
  | some (.spec k m) => cls == .plain && k == slot && bytes &&& ~~~m == 0
  | some .reg => true
  | some .regd => true

/-- Whether an event is a write of a thread that is not speculative, on its way to where it is performed. -/
def isDirectWrite (g : Nat) : Event → Bool
  | .nonSpeculativeHomeWrite w => w.w.gti == g
  | .fallBackAtomicGrant a => a.gti == g
  | .commutativeFlush n => n.contrib.any fun k => k.gti == g
  | .remoteScratchpadWrite w => w.gti == g
  | _ => false

/-- The line of linear memory that such a write goes to. -/
def writesLine (job line : Nat) : Event → Bool
  | .nonSpeculativeHomeWrite w => w.w.job == job && w.w.line == line
  | .fallBackAtomicGrant a => a.job == job && a.addr / 128 == line
  | .commutativeFlush n => n.key.job == job && n.key.word / 16 == line
  | _ => false

/-- Whether a write of the thread to a line is on its way past L1: a load of the line comes after it at the home (R127). -/
def directOut (s : State) (g job line : Nat) : Bool := s.onWay fun e => isDirectWrite g e && writesLine job line e

/-- The L1 line that answers a piece, if it can. The loads of a slot bypass L1 for a line of its filter, and all those of a resumed thread
do (R90, R209); so do those of a line that a write of the thread goes past L1 to (R127). -/
def l1Answer (s : State) (g : Nat) (cls : Class) (p : Piece) : Option (Nat × L1Line) :=
  let t := s.thread g
  let line := p.addr / 128
  match l1Find (s.core (coreOf g)) t.ctx.ids.job line with
  | none => none
  | some (k, l) =>
    let o := p.addr % 128
    let ok := (wordSpan o p.len).all fun w => wordHits cls (slotOf g) (wordBytes o p.len w) (l1Word l w)
    if ok && !t.bypass && !t.filter.contains (lineKey t.ctx.ids.job line) && !directOut s g t.ctx.ids.job line &&
        (permOk l.perms (t.ctx.mode == .user) false false) then some (k, l) else none

/-- Entries of the core's own commutative buffer for the words of a piece (R111). -/
def bufferedPiece (job : Nat) (p : Piece) (e : CommEntry) : Bool :=
  e.key.job == job && e.key.word / 16 == p.addr / 128 && (wordSpan (p.addr % 128) p.len).contains (e.key.word % 16)

/-- The copy slice of a home for a die (R101). -/
def copySlice (gdie gslice : Nat) : Nat := gdie * 16 + gslice % 16

/-- Whether a piece covers a word that is SPEC in L1 for the thread's slot. -/
def ownWord (s : State) (g : Nat) (p : Piece) : Bool :=
  match l1Find (s.core (coreOf g)) (s.thread g).ctx.ids.job (p.addr / 128) with
  | none => false
  | some (_, l) => (wordSpan (p.addr % 128) p.len).any fun w =>
      match l1Word l w with
      | some (.spec k _) => k == slotOf g
      | _ => false

/-- One piece of a load leaves the core (R101, R111, R115). One that the task has written some bytes of goes to the home, which lays them
over the line (R90, R127). (DEDUCED, log 41) -/
def loadPiece (s : State) (i : Iss) (cls : Class) (pol id : Nat) (ptr : Word) (p : Piece) : State :=
  let g := i.g
  let core := coreOf g
  let t := s.thread g
  let job := t.ctx.ids.job
  let c := s.core core
  let hit := c.comm.any (bufferedPiece job p)
  let s := if hit then flushComm s g core (bufferedPiece job p) else s
  match if hit then none else l1Answer s g cls p with
  | some (k, l) =>
    let s := s.modCore core fun c => l1Touch c k
    answer s (fromThread g) g id (.bytes p.off (lineSlice l.data (p.addr % 128) p.len)) none
  | none =>
    let own := ownWord s g p || t.bypass || t.filter.contains (lineKey job (p.addr / 128))
    let fill := cls == .plain && decide (pol ≤ 1) && !own
    let copies := fill && !hit && (s.die (dieOf core)).copy && decide (sliceDie p.gslice ≠ dieOf core) &&
      decide (sliceModule p.gslice = moduleOf core)
    let r : HomeReq :=
      { gti := g, id := id, off := p.off, job := job, user := t.ctx.mode == .user, gslice := p.gslice, addr := p.addr,
        size := p.len, task := t.ctx.task, own := !fill, fill := fill, lru := pol == 1, once := pol == 3,
        copy := if copies then some (copySlice (dieOf core) p.gslice) else none, core := core, pc := i.rpc, ptr := ptr }
    if copies then s.send (fromThread g) (atSlice (copySlice (dieOf core) p.gslice)) (.copySliceMiss r)
    else s.send (fromThread g) (atSlice p.gslice) (.lineFill r)

def loadPieces (i : Iss) (cls : Class) (pol id : Nat) (ptr : Word) : List Piece → State → State
  | [], s => s
  | p :: t, s => loadPieces i cls pol id ptr t (loadPiece s i cls pol id ptr p)

/-- A volatile access waits until the thread's previous one has been performed (R125). -/
def withVolatile (i : Iss) (vol : Bool) (s : State) (k : State → Res) : Res :=
  let t := s.thread i.g
  if vol && (decide (0 < t.volatiles) || t.out.any fun o => o.vol) then .wait .unit s else k s

/-- Whether a piece covers a word that the open task has written: SPEC for the slot, or in a line of its filter (R113, R125). -/
def ownSpec (s : State) (g : Nat) (p : Piece) : Bool :=
  ownWord s g p || (s.thread g).filter.contains (lineKey (s.thread g).ctx.ids.job (p.addr / 128))

/-- Whether a load of the thread from a line is still out (R127): on its way, or waiting for a fill. -/
def loadOut (s : State) (g job line : Nat) : Bool :=
  let here (r : HomeReq) : Bool := r.gti == g && r.job == job && r.addr / 128 == line
  s.onWay (fun e => match e with
    | .lineFill r | .forwardedRead r | .copySliceMiss r => here r
    | _ => false) ||
  s.slices.any fun x => x.2.copies.any fun c => c.2.waiting.any here

/-- A write that acts past the thread's loads waits until those of its lines are performed (R127, same byte). -/
def withLoads (i : Iss) (ps : List Piece) (s : State) (k : State → Res) : Res :=
  if ps.any fun p => loadOut s i.g (s.thread i.g).ctx.ids.job (p.addr / 128) then .wait .unit s else k s

/-- What ends an access that has sent its requests: an ACQUIRE waits for its value and self-invalidates (R121). -/
def endAccess (i : Iss) (cls : Class) (s : State) : Res :=
  if cls = .acquire then withAcquire i (s.stage i.g .sent) fun s => .done s else .done s

/-- A load of n bytes into x[D], under a class and policy, at a target that has been resolved (R290). -/
def loadAt (i : Iss) (cls : Class) (pol : Nat) (ptr : Word) (n : Nat) (signed : Bool) (tgt : Target) (s : State) : Res :=
  let g := i.g
  let core := coreOf g
  match tgt with
  | .own off => withVolatile i (cls == .volatile) s fun s =>
    let c := s.core core
    if guarded c off n then endAccess i cls ((noteGuard s g gkLoad ptr i.pc).modThread g fun t => t.setX i.d 0)
    else if scratchPoisoned c off n then .trap (mkFault .poison 2 ptr) (scratchError s core ptr)
    else
      let v : Word := .ofInt 64 (intVal (8 * n) signed (leNat (scratchBytes s core off n)))
      endAccess i cls (s.modThread g fun t => t.setX i.d v)
  | .remote target off =>
    withRoomOut i s fun s => withVolatile i (cls == .volatile) s fun s =>
      let r := expect s i (.x i.d n signed) 1 (cls == .volatile) ptr
      endAccess i cls (r.1.send (fromThread g) (atCore target) (.remoteScratchpadRead ⟨g, r.2, 0, target, off, n, i.rpc, i.pc, ptr⟩))
  | .linear addr =>
    match place s g addr n with
    | .error k => .trap (xlate k ptr) s
    | .ok ps =>
      let go (s : State) : Res :=
        withRoomOut i s fun s => withVolatile i (cls == .volatile) s fun s =>
          let s := notePieces core (s.thread g).ctx.ids.job ps s
          let r := expect s i (.x i.d n signed) ps.length (cls == .volatile) ptr
          endAccess i cls (loadPieces i cls pol r.2 ptr ps r.1)
      if cls = .volatile ∧ ((s.thread g).stage ≠ .start ∨ ps.any (ownSpec s g)) then withCommit i false s go else go s

/-! ## Stores (R90, R125, R126, R290) -/

/-- Bytes of a store laid into a line at byte o, and the mask of their places. -/
def storeMask (o : Nat) (bs : List Byte) : Pred := maskFrom o bs.length
def storeLine (o : Nat) (bs : List Byte) : Line := lineAt o bs

/-- A store's effect on the words of its core's L1 line (R90, R94): a word becomes SPEC, with the bytes written; one that is SPEC for another
slot keeps that slot's data, and the line enters the storing slot's filter. Words below n. -/
def specWords (slot : Nat) (m : Pred) (data : Line) : Nat → L1Line × Bool → L1Line × Bool
  | 0, r => r
  | n + 1, r =>
    let (l, f) := specWords slot m data n r
    let b := m.toNat / 2 ^ (8 * n) % 256
    if b = 0 then (l, f)
    else
      let own (had : BitVec 8) : L1Line :=
        { l with st := tput l.st n (.spec slot (had ||| .ofNat 8 b)), data := mergeLine (.ofNat 128 (b * 2 ^ (8 * n))) data l.data }
      match l1Word l n with
      | some (.spec k had) => if k = slot then (own had, f) else (l, true)
      | _ => (own 0, f)

/-- REGD words that a store covers are first written back to their homes, which turns them into REG (R90). -/
def settleRegd (core job line : Nat) (m : Pred) (gslice : Nat) : Nat → State → State
  | 0, s => s
  | n + 1, s =>
    let s := settleRegd core job line m gslice n s
    if m.toNat / 2 ^ (8 * n) % 256 = 0 then s
    else match tfind (s.slice gslice).regs (wordKey job (line * 16 + n)) with
      | some r =>
        if r.dirty ∧ r.core = core then
          let s := writeBack s gslice core job (line * 16 + n)
          let s := s.modSlice gslice fun x => { x with regs := tput x.regs (wordKey job (line * 16 + n)) ⟨core, false⟩ }
          match l1Find (s.core core) job line with
          | some (_, l) => if l1Word l n = some .regd then setL1State s core job (line * 16 + n) (some .reg) else s
          | none => s
        else s
      | none => s

/-- The leaf's permissions of a line, as its home has them or would fill them (R22): none where it cannot. A line that a store makes room
for in L1 keeps them. (DEDUCED, log 42) -/
def leafPerms (s : State) (gslice job line : Nat) : Perms :=
  match tfind (s.slice gslice).lines (lineKey job line) with
  | some h => h.perms
  | none =>
    match s.translate (sliceDie gslice) job (line * 128) with
    | .ok (h, _) => h.perms
    | .error _ => ⟨false, false, false, false⟩

/-- A PLAIN store's bytes enter L1 as SPEC (R77, R90). The spec does not say what a store does whose policy allocates no line in L1 and whose
line is absent: its line enters the filter instead. (DESIGN CHOICE, log 102) -/
def storeL1 (s : State) (g pol job : Nat) (p : Piece) (m : Pred) (data : Line) : State :=
  let core := coreOf g
  let line := p.addr / 128
  let s := settleRegd core job line m p.gslice 16 s
  let found := (l1Find (s.core core) job line).isSome
  if !found && decide (2 ≤ pol) then filterLine s g job line
  else
    let perms := match l1Find (s.core core) job line with
      | some (_, l) => l.perms
      | none => leafPerms s p.gslice job line
    let r := l1Room s core job line p.gslice perms (pol == 1)
    let w := specWords (slotOf g) m data 16 (r.2.2, false)
    let s := r.1.modCore core fun c => l1Touch { c with l1d := tput c.l1d r.2.1 w.1 } r.2.1
    if w.2 then filterLine s g job line else s

/-- VALID words of the core's L1 that its own write at the home makes stale are dropped, and fills on their way install nothing: R127 asks
that a later load see the write, and R94 lists no event that would bring it about. (DESIGN CHOICE, log 101) -/
def dropStale (s : State) (core job line : Nat) : State :=
  let s : State := match l1Find (s.core core) job line with
    | none => s
    | some (k, l) => s.modCore core fun c => { c with l1d := tput c.l1d k { l with st := l.st.filter fun e => e.2 != WordSt.valid } }
  cancelFills s core job line

/-- A line piece of a store as its message. -/
def mkWrite (s : State) (i : Iss) (pol : Nat) (ptr : Word) (p : Piece) (bs : List Byte) : LineWrite :=
  let t := s.thread i.g
  let part := (bs.drop p.off).take p.len
  { gti := i.g, job := t.ctx.ids.job, user := t.ctx.mode == .user, gslice := p.gslice, line := p.addr / 128,
    mask := storeMask (p.addr % 128) part, data := storeLine (p.addr % 128) part, task := t.ctx.task,
    ctr := postClass (coreOf i.g) p.gslice, core := coreOf i.g, off := p.off, once := pol == 3, pc := i.pc, ptr := ptr }

/-- The pieces of a PLAIN store leave the core (R90). -/
def storePieces (i : Iss) (pol : Nat) (ptr : Word) (bs : List Byte) : List Piece → State → State
  | [], s => s
  | p :: t, s =>
    let w := mkWrite s i pol ptr p bs
    let s := storeL1 s i.g pol w.job p w.mask w.data
    let s := countPost s i.g w.ctr
    storePieces i pol ptr bs t (s.send (fromThread i.g) (atSlice p.gslice) (.speculativeStoreReceipt w))

/-- Room in the counters of all the pieces (R126). -/
def roomPieces (s : State) (g : Nat) (ps : List Piece) : Option PostCtr :=
  [PostCtr.pd, .px, .po].find? fun c =>
    decide (Config.maxPosted < (s.thread g).ctx.count c + (ps.filter fun p => postClass (coreOf g) p.gslice == c).length)

def withRooms (i : Iss) (ps : List Piece) (s : State) (k : State → Res) : Res :=
  match roomPieces s i.g ps with
  | none => k s
  | some c => .wait (.room c) (flushWaited s i.g fun x => x == c)

/-- A non-speculative write of a piece at its home (R92, R118, R125). -/
def homeWritePieces (i : Iss) (pol : Nat) (ptr : Word) (bs : List Byte) (vol : Bool) : List Piece → State → State
  | [], s => s
  | p :: t, s =>
    let w := mkWrite s i pol ptr p bs
    let s := dropStale s w.core w.job w.line
    let s := countPost s i.g w.ctr
    let s := if vol then s.modThread i.g fun t => { t with volatiles := t.volatiles + 1 } else s
    homeWritePieces i pol ptr bs vol t (s.send (fromThread i.g) (atSlice p.gslice) (.nonSpeculativeHomeWrite ⟨w, none, vol⟩))

/-- A posted store to another core's scratchpad (R126). -/
def remoteStore (i : Iss) (ptr : Word) (target off : Nat) (data : List (Option Byte)) (vol : Bool) (s : State) : Res :=
  withRoom i .pd s fun s =>
    let s := countPost s i.g .pd
    let s := if vol then s.modThread i.g fun t => { t with volatiles := t.volatiles + 1 } else s
    .done (s.send (fromThread i.g) (atCore target) (.remoteScratchpadWrite ⟨i.g, target, off, data, i.pc, ptr, vol, 1⟩))

/-- A store of bytes at a resolved target; `spec` for a PLAIN one, `vol` for a VOLATILE one (R290). -/
def storeAt (i : Iss) (spec vol : Bool) (pol : Nat) (ptr : Word) (bs : List Byte) (tgt : Target) (s : State) : Res :=
  let g := i.g
  let core := coreOf g
  match tgt with
  | .own off => withVolatile i vol s fun s =>
    if guarded (s.core core) off bs.length then .done (noteGuard s g gkStore ptr i.pc)
    else .done (scratchWrite s core off bs)
  | .remote target off => withVolatile i vol s fun s => remoteStore i ptr target off (bs.map some) vol s
  | .linear addr =>
    match place s g addr bs.length with
    | .error k => .trap (xlate k ptr) s
    | .ok ps =>
      if spec then
        withUnits i (pieceLines ps) 0 s fun s => withRooms i ps s fun s =>
          let s := notePieces core (s.thread g).ctx.ids.job ps s
          .done (storePieces i pol ptr bs ps (addUnits s g (pieceLines ps)))
      else
        let go (s : State) : Res :=
          withVolatile i vol s fun s => withLoads i ps s fun s => withRooms i ps s fun s =>
            .done (homeWritePieces i pol ptr bs vol ps (notePieces core (s.thread g).ctx.ids.job ps s))
        if vol ∧ ((s.thread g).stage ≠ .start ∨ ps.any (ownSpec s g)) then withCommit i false s go else go s

/-! ## Synchronous accesses of engines and of multi-word operands (R130) -/

/-- An engine's access with the privilege under which its operation was issued, whatever the thread's mode has become. -/
def underMode {α : Type} (s : State) (g : Nat) (user : Bool) (f : State → State × α) : State × α :=
  let m := (s.thread g).ctx.mode
  let r := f (s.modCtx g fun c => { c with mode := if user then .user else .supervisor })
  (r.1.modCtx g fun c => { c with mode := m }, r.2)

/-- A task's speculative stores to a line that have not reached its home, in order, over the line (R127, R130, R133). -/
def overWay (g : Nat) (task : BitVec 32) (job line : Nat) (l : Line) (e : Event) : Line :=
  match e with
  | .speculativeStoreReceipt w => if w.gti = g ∧ w.task = task ∧ w.job = job ∧ w.line = line then mergeLine w.mask w.data l else l
  | _ => l

def State.overFlights (s : State) (g : Nat) (task : BitVec 32) (job line : Nat) (l : Line) : Line :=
  s.flights.foldl (fun l f => overWay g task job line l f.ev) l

/-- An instruction that reads memory in its own step waits until the thread's writes that are not speculative have been performed (R127,
R133). -/
def withWritten (i : Iss) (s : State) (k : State → Res) : Res :=
  if s.onWay (isDirectWrite i.g) then .wait .unit s else k s

/-- n bytes of a line of linear memory, with the task's own speculative bytes over the committed ones. (DEDUCED, log 19) -/
def readPiece (s : State) (g : Nat) (p : Piece) : State × Except (Cause × Nat) (List Byte) :=
  let t := s.thread g
  let job := t.ctx.ids.job
  let here := moduleOf (coreOf g)
  let dest := sliceModule p.gslice
  if linkDown s here dest then (s, .error (.poison, 0))
  else
    let s := flushWhere (s.overLinks here dest) (coreOf g) (bufferedPiece job p)
    let r := readLine s p.gslice job (p.addr / 128) (wordSpan (p.addr % 128) p.len) (t.ctx.mode == .user) false
    match r.2 with
    | .error e => (r.1, .error e)
    | .ok (l, _) =>
      let l := overlay (r.1.slice p.gslice) g t.ctx.task job (p.addr / 128) l
      let l := s.overFlights g t.ctx.task job (p.addr / 128) l
      (r.1, .ok (lineSlice l (p.addr % 128) p.len))

def readPieces (g : Nat) : List Piece → State → State × Except (Cause × Nat) (List Byte)
  | [], s => (s, .ok [])
  | p :: t, s =>
    let r := readPiece s g p
    match r.2 with
    | .error e => (r.1, .error e)
    | .ok bs =>
      let q := readPieces g t r.1
      match q.2 with
      | .error e => (q.1, .error e)
      | .ok cs => (q.1, .ok (bs ++ cs))

/-- The fault of an engine's guard access (R70, R303). -/
def guardAccess (kind : BitVec 2) (ptr : Word) : FaultRec :=
  { mkFault .scratchpadGuard 0 ptr with info := ⟨kind, 0, 0, 0⟩ }

/-- n bytes at a generic pointer, read in one step for a thread or an engine of it; a fault comes with its pointer. A guard access
of a thread or a fill stream reads zeros and leaves the record; that of another engine (`eng`) is its fault (R70). -/
def readBytes (s : State) (g : Nat) (ptr : Word) (n : Nat) (acc : Access) (eng : Bool) (kind : BitVec 2) (pc : Word) :
    State × Except FaultRec (List Byte) :=
  let core := coreOf g
  match s.resolve g ptr acc with
  | .error k => (s, .error (xlate k ptr))
  | .ok (.linear a) =>
    match place s g a n with
    | .error k => (s, .error (xlate k ptr))
    | .ok ps =>
      let r := readPieces g ps (notePieces core (s.thread g).ctx.ids.job ps s)
      match r.2 with
      | .error e => (r.1, .error (mkFault e.1 e.2 ptr))
      | .ok bs => (r.1, .ok bs)
  | .ok (.own off) => scratch s core off
  | .ok (.remote c off) => scratch s c off
where
  scratch (s : State) (core off : Nat) : State × Except FaultRec (List Byte) :=
    let c := s.core core
    if Config.scratchBytes < off + n then (s, .error (xlate kWindowBound ptr))
    else if guarded c off n then
      if eng then (s, .error (guardAccess kind ptr)) else (noteGuard s g kind ptr pc, .ok (List.replicate n 0))
    else if scratchPoisoned c off n then (scratchError s core ptr, .error (mkFault .poison 2 ptr))
    else (s, .ok (Memory.read c.scratch off n))

/-- Speculative bytes of a task join what its home holds of a line (R90, R130). -/
def addSpec (x : Slice) (g : Nat) (task : BitVec 32) (job line : Nat) (user : Bool) (m : Pred) (data : Line) : Slice :=
  let here (p : SpecLine) : Bool := p.gti == g && p.task == task && p.job == job && p.line == line
  if x.spec.any here then
    { x with spec := x.spec.map fun p =>
        if here p then { p with mask := p.mask ||| m, data := mergeLine m data p.data, user := p.user || user } else p }
  else { x with spec := x.spec ++ [⟨g, task, job, user, line, m, data &&& byteMask m⟩] }

/-- A step of an engine of a core that meets a link that takes no flit now is made later (R410). (DEDUCED, log 107) -/
def engineHeld (g : Nat) (ev : Event) (s t : State) : State := orHeld (s.later 64 (fromThread g) (atCore (coreOf g)) ev) t

/-- A store's fill check (R22): its home holds the line, and the page allows the write. -/
def storeCheck (s : State) (g job line : Nat) (user once : Bool) : Except Nat State :=
  match homeFill (s.serve g) g job line (fun p => permOk p user true false) once with
  | .error k => .error k
  | .ok (s, _) => .ok s

/-- Bytes that an engine of a thread writes to linear memory join the task's speculative version (R130), piece by piece; none go over a FAILED
link (R412). (DEDUCED, log 19) -/
def specPieces (g : Nat) (bs : List Byte) : List Piece → State → State × Except (Cause × Nat) Unit
  | [], s => (s, .ok ())
  | p :: t, s =>
    let th := s.thread g
    let job := th.ctx.ids.job
    let user := th.ctx.mode == .user
    let here := moduleOf (coreOf g)
    let dest := sliceModule p.gslice
    if linkDown s here dest then (s, .error (.poison, 0))
    else match storeCheck (s.overLinks here dest) p.gslice job (p.addr / 128) user false with
    | .error k => (s, .error (.translation, k))
    | .ok s =>
      let part := (bs.drop p.off).take p.len
      let s := s.modSlice p.gslice fun x =>
        addSpec x g th.ctx.task job (p.addr / 128) user (storeMask (p.addr % 128) part) (storeLine (p.addr % 128) part)
      let s := addUnits s g [(p.gslice, p.addr / 128)]
      specPieces g bs t (filterLine s g job (p.addr / 128))

/-- Bytes that an engine of a thread writes at a generic pointer (R130). A guard access writes nothing and is a fault (R70). -/
def writeBytes (s : State) (g : Nat) (ptr : Word) (bs : List Byte) (acc : Access) (kind : BitVec 2) : State × Except FaultRec Unit :=
  let core := coreOf g
  match s.resolve g ptr acc with
  | .error k => (s, .error (xlate k ptr))
  | .ok (.linear a) =>
    match place s g a bs.length with
    | .error k => (s, .error (xlate k ptr))
    | .ok ps =>
      let r := specPieces g bs ps (notePieces core (s.thread g).ctx.ids.job ps s)
      match r.2 with
      | .error e => (r.1, .error (mkFault e.1 e.2 ptr))
      | .ok _ => (r.1, .ok ())
  | .ok (.own off) => scratch s core off
  | .ok (.remote c off) => scratch s c off
where
  scratch (s : State) (core off : Nat) : State × Except FaultRec Unit :=
    if Config.scratchBytes < off + bs.length then (s, .error (xlate kWindowBound ptr))
    else if guarded (s.core core) off bs.length then (s, .error (guardAccess kind ptr))
    else (scratchWrite s core off bs, .ok ())

end Sys2Proof.Machine
end

