-- ==== Sys2Proof/Machine/LoadStore.lean ====
section
/-! DEFINITION. The scalar loads and stores (R288 to R290): OP 0x18 to 0x23. -/

namespace Sys2Proof.Machine

/-- Whether a target lies in a scratchpad. -/
def Target.scratch : Target → Bool
  | .linear _ => false
  | _ => true

/-- The policy in force: HMOD.POL, or the word's own (R77, R235). -/
def policyOf (i : Iss) (o : OpM) : Nat := if i.pol = 0 then mPolicy o else i.pol

/-- A policy that nothing takes: on a VOLATILE access, or on a scratchpad access (R235, R289). -/
def strayPolicy (i : Iss) (o : OpM) (tgt : Target) : Bool :=
  (decide (o.o = 3) && decide (mPolicy o ≠ 0)) || (tgt.scratch && decide (policyOf i o ≠ 0))

/-- The load forms (R289): n bytes, sign- or zero-extended. -/
def loadOp (s : State) (o : OpM) (n : Nat) (signed : Bool) : State :=
  issue s (Traits.ofM o (fx o.d) (fx o.a)) fun i s =>
    let ptr := mEa i o (s.thread i.g) n
    if (s.thread i.g).stage = .sent then withAcquire i s fun s => .done s
    else waitField i o.w.toNat s fun s =>
      match s.target i.g ptr n .load with
      | .error k => .trap (xlate k ptr) s
      | .ok tgt =>
        if (tgt.scratch ∨ o.o ≠ 0) ∧ ptr.toNat % n ≠ 0 then .trap (mkFault .alignment 0 ptr) s
        else fieldGuard i o.w.toNat s fun s =>
          let pol := if o.o = 3 then 0 else policyOf i o
          let s := noteFallback i (o.o == 2 || strayPolicy i o tgt) s
          if o.o = 2 then withFence i (mScope o) s fun s => loadAt i .volatile 0 ptr n signed tgt s
          else loadAt i (if o.o = 1 then .acquire else if o.o = 3 then .volatile else .plain) pol ptr n signed tgt s

/-- The store forms (R289): the low n bytes of x[D]. -/
def storeOp (s : State) (o : OpM) (n : Nat) : State :=
  issue s (Traits.ofM o (fx o.d) (fx o.a)) fun i s =>
    let ptr := mEa i o (s.thread i.g) n
    let bs := bytesOf n ((s.thread i.g).x i.d)
    waitField i o.w.toNat s fun s =>
      match s.target i.g ptr n .store with
      | .error k => .trap (xlate k ptr) s
      | .ok tgt =>
        if (tgt.scratch ∨ o.o ≠ 0) ∧ ptr.toNat % n ≠ 0 then .trap (mkFault .alignment 0 ptr) s
        else fieldGuard i o.w.toNat s fun s =>
          let s := noteFallback i (o.o == 1 || strayPolicy i o tgt) s
          if o.o = 1 then withFence i (mScope o) s fun s => storeAt i false true 0 ptr bs tgt s
          else if o.o = 2 then withRelease i (mScope o) s fun s => storeAt i false false (policyOf i o) ptr bs tgt s
          else storeAt i (o.o == 0) (o.o == 3) (if o.o = 3 then 0 else policyOf i o) ptr bs tgt s

/-- ld.n8 (R288, R289). -/
def execLdN8 (o : OpM) (s : State) : Host.Outcome State Fault Refusal := finish s (loadOp s o 1 false)

/-- ld.n16 (R288, R289). -/
def execLdN16 (o : OpM) (s : State) : Host.Outcome State Fault Refusal := finish s (loadOp s o 2 false)

/-- ld.n32 (R288, R289). -/
def execLdN32 (o : OpM) (s : State) : Host.Outcome State Fault Refusal := finish s (loadOp s o 4 false)

/-- ld.n64 (R288, R289). -/
def execLdN64 (o : OpM) (s : State) : Host.Outcome State Fault Refusal := finish s (loadOp s o 8 false)

/-- ld.s8 (R288, R289). -/
def execLdS8 (o : OpM) (s : State) : Host.Outcome State Fault Refusal := finish s (loadOp s o 1 true)

/-- ld.s16 (R288, R289). -/
def execLdS16 (o : OpM) (s : State) : Host.Outcome State Fault Refusal := finish s (loadOp s o 2 true)

/-- ld.s32 (R288, R289). -/
def execLdS32 (o : OpM) (s : State) : Host.Outcome State Fault Refusal := finish s (loadOp s o 4 true)

/-- st.n8 (R288, R289). -/
def execStN8 (o : OpM) (s : State) : Host.Outcome State Fault Refusal := finish s (storeOp s o 1)

/-- st.n16 (R288, R289). -/
def execStN16 (o : OpM) (s : State) : Host.Outcome State Fault Refusal := finish s (storeOp s o 2)

/-- st.n32 (R288, R289). -/
def execStN32 (o : OpM) (s : State) : Host.Outcome State Fault Refusal := finish s (storeOp s o 4)

/-- st.n64 (R288, R289). -/
def execStN64 (o : OpM) (s : State) : Host.Outcome State Fault Refusal := finish s (storeOp s o 8)

end Sys2Proof.Machine
end

