-- ==== Sys2Proof/Machine/Atomics.lean ====
section
/-! DEFINITION. The atomics (R107, R108, R113, R118, R291, R292): OP 0x26 to 0x29. -/

namespace Sys2Proof.Machine

/-- The new value of a word of n bytes under an atomic, with the flags of a floating-point addition (R291). -/
def atomicRes (op : AtomicOp) (n : Nat) (old v cmp : Word) (rm : Nat) : Word × Flags :=
  match op with
  | .fadd =>
    let t := if n = 8 then 0 else 1
    let r := fpAdd t (if rm = 0 then 1 else rm) old.toNat v.toNat
    (.ofNat 64 r.1, r.2)
  | _ => (atomicNew op n old v cmp, 0)

/-- The old value as x[D] receives it (R291): sign-extended for the signed forms. -/
def oldValue (op : AtomicOp) (n : Nat) (old : Word) : Word :=
  match op with
  | .minS | .maxS => .ofInt 64 (sxt n old)
  | _ => low n old

/-- A contribution more of a thread: counted, or its first, with its PC and pointer. -/
def addContrib (k : Contrib) (l : List Contrib) : List Contrib :=
  if l.any fun x => x.gti == k.gti then l.map fun x => if x.gti = k.gti then { x with count := x.count + 1 } else x else l ++ [k]

/-- A commutative atomic combines into the core's buffer (R108). -/
def combine (s : State) (i : Iss) (ptr : Word) (key : CommKey) (gslice : Nat) (v : Word) : State :=
  let core := coreOf i.g
  let c := s.core core
  let n := keyBytes key
  let user := (s.thread i.g).ctx.mode == .user
  let add := addContrib ⟨i.g, 1, i.pc, ptr⟩
  let s := countPost s i.g (postClass core gslice)
  if c.comm.any fun e => e.key == key && e.user == user then
    s.setCore core { c with comm := c.comm.map fun e =>
        if e.key = key ∧ e.user = user then { e with value := atomicNew key.op n e.value v 0, contrib := add e.contrib } else e }
  else
    let s := if Config.commBuffer ≤ c.comm.length then
        match c.comm with
        | [] => s
        | old :: _ => flushComm s i.g core fun e => e.key == old.key && e.user == old.user
      else s
    let s := s.modCore core fun c => { c with comm := c.comm ++ [⟨key, user, gslice, low n v, add []⟩] }
    s.send (fromThread i.g) (atSlice gslice) (.holderNotice ⟨gslice, core, key, user, 0, [], postClass core gslice⟩)

/-- The key of a word's contribution (R108). -/
def commKey (job addr n : Nat) (op : AtomicOp) : CommKey := ⟨job, addr / 8, op, if n = 8 then 2 else addr / 4 % 2⟩

/-- An atomic on the own scratchpad, in the bank (R107); `ret` for one with a return value. Its one fault is a poisoned word's. -/
def bankAtomic (i : Iss) (op : AtomicOp) (n : Nat) (ret : Bool) (ptr v cmp : Word) (off : Nat) (s : State) : Except FaultRec State :=
  let core := coreOf i.g
  if guarded (s.core core) off n then
    let s := noteGuard s i.g gkAtomic ptr i.pc
    .ok (if ret then s.modThread i.g fun t => t.setX i.d 0 else s)
  else if scratchPoisoned (s.core core) off n then .error (mkFault .poison 2 ptr)
  else
    let old := wordOf (scratchBytes s core off n)
    let r := atomicRes op n old v cmp i.rm
    let s := scratchWrite s core off (bytesOf n r.1)
    .ok (s.modThread i.g fun t =>
      let t := if i.nf then t else t.orFlags r.2
      if ret then t.setX i.d (oldValue op n old) else t)

/-- A commutative atomic at its home, unbuffered (R118, R125). -/
def sendComm (i : Iss) (pol : Nat) (ptr : Word) (n : Nat) (key : CommKey) (v : Word) (p : Piece) (vol : Bool) (s : State) : Res :=
  withVolatile i vol s fun s => withLoads i [p] s fun s => withRooms i [p] s fun s =>
    let s := s.noteEntries (coreOf i.g) key.job p.addr
    let w := mkWrite s i pol ptr p (List.replicate n 0)
    let s := dropStale s w.core w.job w.line
    let s := countPost s i.g w.ctr
    let s := if vol then s.modThread i.g fun t => { t with volatiles := t.volatiles + 1 } else s
    .done (s.send (fromThread i.g) (atSlice p.gslice) (.nonSpeculativeHomeWrite ⟨w, some (key, low n v), vol⟩))

/-- A fall-back atomic (R113): performed in L1 on a REGD word, else after the home's grant. -/
def fallBack (i : Iss) (op : AtomicOp) (n pol : Nat) (ptr v cmp : Word) (p : Piece) (vol : Bool) (s : State) : Res :=
  let g := i.g
  let core := coreOf g
  withRoomOut i s fun s => withVolatile i vol s fun s => withLoads i [p] s fun s =>
    let job := (s.thread g).ctx.ids.job
    let s := s.noteEntries core job p.addr
    let s := flushComm s g core (bufferedPiece job p)
    let r := expect s i (.regs [i.d] []) 1 vol ptr
    let s := r.1
    let word := p.addr / 8
    .done <| match l1Find (s.core core) job (p.addr / 128) with
    | some (k, l) =>
      if l1Word l (word % 16) = some .regd ∧ permOk l.perms ((s.thread g).ctx.mode == .user) true false then
        let whole := lineWord l.data (word % 16)
        let o := p.addr % 8
        let old : Word := .ofNat 64 (whole.toNat / 2 ^ (8 * o) % 2 ^ (8 * n))
        let q := atomicRes op n old v cmp i.rm
        let l' := { l with data := mergeLine (maskFrom (p.addr % 128) n) (lineAt (p.addr % 128) (bytesOf n q.1)) l.data }
        let s := s.modCore core fun c => l1Touch { c with l1d := tput c.l1d k l' } k
        answer s (fromThread g) g r.2 (.regs [(i.d, oldValue op n old)] [] (if i.nf then 0 else q.2)) none
      else ask s g core job r.2 p.gslice
    | none => ask s g core job r.2 p.gslice
where
  ask (s : State) (g core job id gslice : Nat) : State :=
    s.send (fromThread g) (atSlice gslice) (.fallBackAtomicGrant
      ⟨g, id, job, (s.thread g).ctx.mode == .user, gslice, p.addr, n, op, v, cmp, i.rm, i.nf, pol == 3, core, i.rpc, ptr⟩)

/-- The atomics (R292): `comm` for the commutative class, whose forms return no value. -/
def atomicOp (s : State) (o : OpA) (op : AtomicOp) (comm : Bool) : State :=
  let n := if o.z then 8 else 4
  issue s { Traits.ofA o (if comm then fnone else fx o.d) (fx o.a) (fx o.b) with rounds := op == .fadd, sets := op == .fadd }
    fun i s =>
    let t := s.thread i.g
    let ptr := t.x i.a
    let v := i.bval t
    let cmp := t.x i.d
    if t.stage = .sent then withAcquire i s fun s => .done s
    else waitField i o.w.toNat s fun s =>
      match s.target i.g ptr n .atomic with
      | .error k => .trap (xlate k ptr) s
      | .ok tgt =>
        if ptr.toNat % n ≠ 0 then .trap (mkFault .alignment 0 ptr) s
        else fieldGuard i o.w.toNat s fun s =>
          let pol := if o.o = 0 ∨ o.o = 2 then i.pol else 0
          let s := noteFallback i ((comm && o.o == 1) || (tgt.scratch && i.pol != 0)) s
          let released (s : State) (k : State → Res) : Res :=
            if o.o = 2 then withRelease i (scopeOf o.s.toNat) s k else k s
          -- R124: a commutative atomic of class ACQUIRE is a fence, then a VOLATILE one
          let fenced := comm && o.o == 1
          let vol := o.o == 3 || fenced
          let pre (s : State) (k : State → Res) : Res :=
            if fenced then withFence i (scopeOf o.s.toNat) s k else released s k
          let last : Class := if o.o = 1 ∧ ¬ fenced then .acquire else .plain
          match tgt with
          | .remote _ _ => .trap (xlate kSpaceOp ptr) s
          | .own off =>
            pre s fun s => withVolatile i vol s fun s =>
              match bankAtomic i op n (!comm) ptr v cmp off s with
              | .error f => .trap f (scratchError s (coreOf i.g) ptr)
              | .ok s => endAccess i last s
          | .linear addr =>
            match place s i.g addr n with
            | .error k => .trap (xlate k ptr) s
            | .ok [] => .done s
            | .ok (p :: _) =>
              let settled (s : State) (k : State → Res) : Res :=
                if ((s.thread i.g).stage ≠ .start ∨ ownSpec s i.g p) ∧ (vol ∨ !comm) then withCommit i false s k else k s
              pre s fun s =>
                if comm then
                  let key := commKey t.ctx.ids.job addr n op
                  if o.o = 0 then
                    withLoads i [p] s fun s => withRoom i (postClass (coreOf i.g) p.gslice) s fun s =>
                      .done (combine (dropStale (s.noteEntries (coreOf i.g) t.ctx.ids.job addr) (coreOf i.g) t.ctx.ids.job (addr / 128))
                        i ptr key p.gslice v)
                  else settled s fun s => sendComm i pol ptr n key v p vol s
                else settled s fun s =>
                  match fallBack i op n pol ptr v cmp p (o.o == 3) s with
                  | .done s => endAccess i last s
                  | r => r

/-- aadd (R291, R292). -/
def execAadd (o : OpA) (s : State) : Host.Outcome State Fault Refusal := finish s (atomicOp s o .add true)

/-- aand (R291, R292). -/
def execAand (o : OpA) (s : State) : Host.Outcome State Fault Refusal := finish s (atomicOp s o .and true)

/-- aor (R291, R292). -/
def execAor (o : OpA) (s : State) : Host.Outcome State Fault Refusal := finish s (atomicOp s o .or true)

/-- axor (R291, R292). -/
def execAxor (o : OpA) (s : State) : Host.Outcome State Fault Refusal := finish s (atomicOp s o .xor true)

/-- amins (R291, R292). -/
def execAminS (o : OpA) (s : State) : Host.Outcome State Fault Refusal := finish s (atomicOp s o .minS true)

/-- amaxs (R291, R292). -/
def execAmaxS (o : OpA) (s : State) : Host.Outcome State Fault Refusal := finish s (atomicOp s o .maxS true)

/-- aminn (R291, R292). -/
def execAminN (o : OpA) (s : State) : Host.Outcome State Fault Refusal := finish s (atomicOp s o .minU true)

/-- amaxn (R291, R292). -/
def execAmaxN (o : OpA) (s : State) : Host.Outcome State Fault Refusal := finish s (atomicOp s o .maxU true)

/-- afadd (R291, R292). -/
def execAfadd (o : OpA) (s : State) : Host.Outcome State Fault Refusal := finish s (atomicOp s o .add false)

/-- aswp (R291, R292). -/
def execAswp (o : OpA) (s : State) : Host.Outcome State Fault Refusal := finish s (atomicOp s o .swap false)

/-- acas (R291, R292). -/
def execAcas (o : OpA) (s : State) : Host.Outcome State Fault Refusal := finish s (atomicOp s o .cas false)

/-- afor (R291, R292). -/
def execAfor (o : OpA) (s : State) : Host.Outcome State Fault Refusal := finish s (atomicOp s o .or false)

/-- afxor (R291, R292). -/
def execAfxor (o : OpA) (s : State) : Host.Outcome State Fault Refusal := finish s (atomicOp s o .xor false)

/-- afmins (R291, R292). -/
def execAfminS (o : OpA) (s : State) : Host.Outcome State Fault Refusal := finish s (atomicOp s o .minS false)

/-- afmaxs (R291, R292). -/
def execAfmaxS (o : OpA) (s : State) : Host.Outcome State Fault Refusal := finish s (atomicOp s o .maxS false)

/-- affadd (R291, R292). -/
def execAffadd (o : OpA) (s : State) : Host.Outcome State Fault Refusal := finish s (atomicOp s o .fadd false)

end Sys2Proof.Machine
end

