-- ==== Sys2Proof/Machine/Sync.lean ====
section
/-! DEFINITION. Fences, posting waits, barriers, messages, queues, counters, waiting tasks, work lists and tile queues: the forms
of SYNC (R293 to R300, R326). -/

namespace Sys2Proof.Machine

/-! ## Shared operations -/

/-- An instruction's own precise faults, found before its first phase; the first is the one taken (R198). -/
def precise (i : Iss) (f : Option FaultRec) (s : State) (k : State → Res) : Res :=
  match f with
  | some f => if (s.thread i.g).stage = .start then .trap f s else k s
  | none => k s

/-- A fault when a condition holds, before another. -/
def orFault (b : Bool) (f : FaultRec) (rest : Option FaultRec) : Option FaultRec := if b then some f else rest

/-- What a wait for an event does when the event has come: the acquire steps (R122). -/
def acquired (i : Iss) (s : State) : Res := withAcquire i (s.stage i.g .sent) fun s => .done s

/-- The acquire of an earlier issue of the instruction goes on. -/
def orAcquire (i : Iss) (s : State) (k : State → Res) : Res :=
  if (s.thread i.g).stage = .sent then withAcquire i s fun s => .done s else k s

/-- A fault returned in place of a long-class result (R30). -/
def returnFault (i : Iss) (d : Dest) (f : FaultRec) (s : State) : State :=
  let r := expect s i d 1 false
  refuse r.1 (fromThread i.g) i.g (some r.2) none 0 { f with pc := some i.rpc, task := (s.thread i.g).ctx.task }

/-- A fault returned to an instruction that waits for an answer (R30): it ends the wait. -/
def answerFault (i : Iss) (f : FaultRec) (s : State) : Res := .wait .answer (addPend s i f)

/-- The scope that reaches a core (R122). -/
def reachScope (core target : Nat) : Nat :=
  if clusterOf core = clusterOf target then 2
  else if dieOf core = dieOf target then 3
  else if moduleOf core = moduleOf target then 4
  else 5

/-- Whether a core lies on no module of the thread's job that a route reaches (R281, R296, R409). -/
def offJob (s : State) (g target : Nat) : Bool :=
  !s.reachable (moduleOf (coreOf g)) (s.thread g).ctx.ids.job (moduleOf target)

/-! ## Fences and posting waits (R293) -/

/-- fence (R123, R293). -/
def execFence (o : OpR) (s : State) : Host.Outcome State Fault Refusal :=
  finish s <| issue s (Traits.ofR o (fk o.d) (fk o.a) (fk o.b)) fun i s =>
    withFence i (scopeOf o.b.toNat) s fun s => .done s

/-- wpc (R126, R293). -/
def execWpc (o : OpR) (s : State) : Host.Outcome State Fault Refusal :=
  finish s <| issue s (Traits.ofR o (fk o.d) (fk o.a) (fk o.b)) fun i s =>
    waitCounters i (fun c => match c with
      | .pd => o.b.getLsbD 0
      | .px => o.b.getLsbD 1
      | .po => o.b.getLsbD 2) s fun s => .done s

/-! ## Barriers (R294, R295) -/

def State.barrier (s : State) (core b : Nat) : Barrier := tget Barrier.zero (s.cluster (clusterOf core)).barriers b

def State.setBarrier (s : State) (core b : Nat) (x : Barrier) : State :=
  s.modCluster (clusterOf core) fun c => { c with barriers := tput c.barriers b x }

/-- An arrival at a barrier: a phase that COUNT arrivals complete gives way to the next (R294). -/
def Barrier.arrive (b : Barrier) : Barrier :=
  if b.arrived + 1 = b.count then { b with arrived := 0, phase := b.phase + 1 } else { b with arrived := b.arrived + 1 }

/-- Whether a phase has completed (R294). -/
def Barrier.passed (b : Barrier) (phase : Nat) : Bool :=
  let n := (b.phase - .ofNat 16 phase).toNat
  decide (1 ≤ n ∧ n ≤ 2 ^ 15)

/-- bar.arr (R294). -/
def execBarArr (o : OpR) (s : State) : Host.Outcome State Fault Refusal :=
  finish s <| issue s (Traits.ofR o (fk o.d) (fx o.a) (fk o.b)) fun i s =>
    withRelease i (scopeOf o.d.toNat) s fun s => withRoomOut i s fun s =>
      let core := coreOf i.g
      let b := s.barrier core o.b.toNat
      let dest : Dest := .regs [i.a] []
      if b.owner ≠ (s.thread i.g).ctx.ids.job then .done (returnFault i dest denied s)
      else if b.count = 0 then .done (returnFault i dest badOperand s)
      else
        let r := expect s i dest 1 false
        let s := r.1.setBarrier core o.b.toNat b.arrive
        .done (answer s (fromThread i.g) i.g r.2 (.regs [(i.a, .ofNat 64 b.phase.toNat)] [] 0) none)

/-- bar.wait (R294). -/
def execBarWait (o : OpR) (s : State) : Host.Outcome State Fault Refusal :=
  finish s <| issue s (Traits.ofR o (fk o.d) (fx o.a) (fk o.b)) fun i s =>
    orAcquire i s fun s => checkGuard i s fun s =>
      let t := s.thread i.g
      let phase := (t.x i.a).toNat % 2 ^ 16
      let b := s.barrier (coreOf i.g) o.b.toNat
      let w : Wake := .barrier o.b.toNat phase
      if t.status ≠ .waiting w ∧ b.owner ≠ t.ctx.ids.job then answerFault i denied s
      else if b.passed phase then acquired i s
      else .wait w s

/-! ## Messages and queues (R296, R297) -/

/-- msend (R296). -/
def execMsend (o : OpR) (s : State) : Host.Outcome State Fault Refusal :=
  finish s <| issue s (Traits.ofR o (fk o.d) (fx o.a) (fx o.b)) fun i s =>
    let a := (s.thread i.g).x i.a
    let target := bits a 43 25
    let off := bits a 18 0
    precise i (orFault (bits a 63 44 != 0 || offJob s i.g target) badOperand
      (orFault (off % 8 != 0) (mkFault .alignment 0 (scratchPtr target off)) none)) s fun s =>
    withRelease i (reachScope (coreOf i.g) target) s fun s =>
      let c := coreClass (coreOf i.g) target
      withRoom i c s fun s =>
        let t := s.thread i.g
        .done ((countPost s i.g c).send (fromThread i.g) (atCore target)
          (.msendDelivery ⟨i.g, t.ctx.ids.job, target, bits a 24 19, off, i.bval t, c, i.pc, t.ctx.task⟩))

/-- qput (R297). -/
def execQput (o : OpR) (s : State) : Host.Outcome State Fault Refusal :=
  finish s <| issue s (Traits.ofR o (fk o.d) (fx o.a) (fx o.b)) fun i s =>
    let a := (s.thread i.g).x i.a
    let target := bits a 18 0
    precise i (orFault (bits a 63 19 != 0 || offJob s i.g target) badOperand none) s fun s =>
    withRelease i (reachScope (coreOf i.g) target) s fun s =>
      let c := coreClass (coreOf i.g) target
      withRoom i c s fun s =>
        let t := s.thread i.g
        .done ((countPost s i.g c).send (fromThread i.g) (atCore target)
          (.qputDelivery ⟨i.g, t.ctx.ids.job, target, 0, 0, i.bval t, c, i.pc, t.ctx.task⟩))

/-- Whether another thread of the core issued its qget earlier and still waits (R297). -/
def queueAhead (s : State) (g : Nat) : Bool :=
  let me := s.thread g
  let mine := me.status == .waiting .queue
  s.threads.any fun e => e.1 != g && decide (e.1 < 2 ^ 34) && coreOf e.1 == coreOf g && e.2.status == .waiting .queue &&
    (!mine || decide (e.2.since < me.since ∨ (e.2.since = me.since ∧ e.1 < g)))

/-- qget (R297). -/
def execQget (o : OpR) (s : State) : Host.Outcome State Fault Refusal :=
  finish s <| issue s (Traits.ofR o (fx o.d) (fk o.a) (fk o.b)) fun i s =>
    orAcquire i s fun s =>
      let core := coreOf i.g
      match (s.core core).rq with
      | [] => .wait .queue s
      | w :: rest =>
        if queueAhead s i.g then .wait .queue s
        else acquired i ((s.modCore core fun c => { c with rq := rest }).modThread i.g fun t => t.setX i.d w)

/-! ## Counters (R298, R299) -/

/-- The entries that a clear removes count in ACREJ and are reported (R298). -/
def rejectEntries (core owner job : Nat) : List Word → State → State
  | [], s => s
  | w :: t, s =>
    rejectEntries core owner job t
      ((s.modCore core fun c => { c with acrej := c.acrej + 1 }).report (ownerReport core job owner 0 2 w))

/-- cctl's configuration of a barrier (R295, R298). -/
def Barrier.configure (b : Barrier) (owner count : Nat) (clear : Bool) : Barrier :=
  let b := { b with owner := owner, count := count, arrived := if clear then 0 else b.arrived }
  if b.count ≠ 0 ∧ b.count ≤ b.arrived then { b with arrived := 0, phase := b.phase + 1 } else b

/-- Whether cctl's operands have a reserved bit set or a value out of range (R298). -/
def cctlBad (a b : Word) : Bool :=
  bits b 63 8 != 0 ||
  match bits b 7 6 with
  | 0 => bits a 63 9 != 0
  | 1 => bits a 63 9 != 0 || bits b 5 0 != 0
  | 2 => bits a 63 17 != 0 || bits b 5 4 != 0 || decide (128 < bits a 15 8)
  | _ => true

/-- cctl (R298). -/
def execCctl (o : OpR) (s : State) : Host.Outcome State Fault Refusal :=
  finish s <| issue s (Traits.ofR o (fk o.d) (fx o.a) (fx o.b)) fun i s =>
    let t := s.thread i.g
    let core := coreOf i.g
    let a := t.x i.a
    let b := i.bval t
    if cctlBad a b then .trap badOperand s
    else if t.ctx.mode = .user then .trap denied s
    else
      let owner := bits a 7 0
      match bits b 7 6 with
      | 0 =>
        let old := tget Arrival.zero (s.core core).arrivals (bits b 5 0)
        let new : Arrival := { value := if bit a 8 then 0 else old.value, owner := owner }
        .done (s.modCore core fun c => { c with arrivals := tput c.arrivals (bits b 5 0) new })
      | 1 =>
        let c := s.core core
        let s := if bit a 8 then rejectEntries core c.rqOwner t.ctx.ids.job c.rq s else s
        .done (s.modCore core fun c => { c with rq := if bit a 8 then [] else c.rq, rqOwner := owner })
      | _ => .done (s.setBarrier core (bits b 3 0) ((s.barrier core (bits b 3 0)).configure owner (bits a 15 8) (bit a 16)))

/-- cwait (R299, R303). -/
def execCwait (o : OpR) (s : State) : Host.Outcome State Fault Refusal :=
  finish s <| issue s (Traits.ofR o (fk o.d) (fx o.a) (fx o.b)) fun i s =>
    orAcquire i s fun s =>
      let t := s.thread i.g
      let a := t.x i.a
      let b := i.bval t
      let c := bits a 5 0
      let k := tget Arrival.zero (s.core (coreOf i.g)).arrivals c
      if bits a 63 6 ≠ 0 ∨ bits b 63 32 ≠ 0 then .trap badOperand s
      else if k.owner ≠ t.ctx.ids.job then .trap denied s
      else if k.value < b.toNat ∧ t.stage = .start then .wait (.arrival c b.toNat) s
      else surfaceEngine i (fun e => e.ctr == some c) s fun s => acquired i s

/-- A completion counter of a job on a module (R175). -/
def State.compCtr (s : State) (m job c : Nat) : CompCtr := tget CompCtr.zero (s.modu m).comp (job * 4096 + c)

/-- ccwait (R299). -/
def execCcwait (o : OpR) (s : State) : Host.Outcome State Fault Refusal :=
  finish s <| issue s (Traits.ofR o (fx o.d) (fx o.a) (fx o.b)) fun i s =>
    orAcquire i s fun s =>
      let t := s.thread i.g
      let a := t.x i.a
      let b := i.bval t
      if bits a 63 12 ≠ 0 ∨ bits b 63 32 ≠ 0 then .trap badOperand s
      else
        let k := s.compCtr (moduleOf (coreOf i.g)) t.ctx.ids.job (bits a 11 0)
        if k.value < b.toNat then .wait (.completion (bits a 11 0) b.toNat) s
        else acquired i (s.modThread i.g fun t => t.setX i.d (.ofNat 64 (bitNat k.canc)))

def State.meridian (s : State) (m ch : Nat) : MerCh := tget MerCh.off (s.modu m).mer ch

/-- mwait (R299): the next termination counted after its issue. -/
def execMwait (o : OpR) (s : State) : Host.Outcome State Fault Refusal :=
  finish s <| issue s (Traits.ofR o (fx o.d) (fx o.a) (fk o.b)) fun i s =>
    orAcquire i s fun s =>
      let t := s.thread i.g
      let a := t.x i.a
      let ch := bits a 3 0
      let k := s.meridian (moduleOf (coreOf i.g)) ch
      if bits a 63 4 ≠ 0 then .trap badOperand s
      else
        match t.status with
        | .waiting (.meridian c e) =>
          if k.ends.toNat = e then .wait (.meridian c e) s
          else acquired i (s.modThread i.g fun t => t.setX i.d (.ofNat 64 k.ends.toNat))
        | _ =>
          if ¬ k.v ∨ k.job.toNat ≠ t.ctx.ids.job then answerFault i badOperand s
          else .wait (.meridian ch k.ends.toNat) s

/-! ## Waiting tasks and work lists (R300) -/

/-- The checks of a task's first instruction (R300). -/
def taskPcFault (pc : Word) : Option FaultRec :=
  orFault (bits pc 63 57 != 0) (xlate kNonCanonical pc) (orFault (bits pc 1 0 != 0) (mkFault .alignment 0 pc) none)

/-- The lowest index below n + k that a table does not list, from k up. -/
def firstFree {α : Type} (t : Table α) (k : Nat) : Nat → Option Nat
  | 0 => none
  | n + 1 => if (tfind t k).isNone then some k else firstFree t (k + 1) n

/-- A step of a core's loader (R184). -/
def State.askLoader (s : State) (core : Nat) : State :=
  s.post ⟨s.now, fromThread (core * 16), atCore core, .loaderChoice ⟨core⟩⟩

/-- A core's next comparison of work lists (R192), at the next multiple of the die's interval, if none is due yet. (DEDUCED, log 78) -/
def State.askSextant (s : State) (core : Nat) : State :=
  let d := s.die (dieOf core)
  let due := s.agenda.any fun f => match f.ev with
    | .sextantBalance c => c.core == core
    | _ => false
  if d.sxMin = 0 ∨ due then s
  else
    let n := 2 ^ max 8 d.sxInt.toNat
    s.later (n - s.now % n) (fromThread (core * 16)) (atCore core) (.sextantBalance ⟨core⟩)

/-- wtarm (R300). -/
def execWtarm (o : OpR) (s : State) : Host.Outcome State Fault Refusal :=
  finish s <| issue s (Traits.ofR o (fx o.d) (fx o.a) (fx o.b)) fun i s =>
    let t := s.thread i.g
    let core := coreOf i.g
    let d := t.x i.d
    let thresh := bits d 31 0
    let c := bits d 37 32
    let mode := bits d 39 38
    let owner := (tget Arrival.zero (s.core core).arrivals c).owner
    precise i (orFault (thresh == 0 || mode == 3 || bits d 63 40 != 0) badOperand
      (orFault (decide (t.ctx.mode.code < mode ∨ owner ≠ t.ctx.ids.job)) denied (taskPcFault (t.x i.a)))) s fun s =>
    match firstFree (s.core core).wt 0 Config.waitingTasks with
    | none => .wait (.tableFull 0) s
    | some n =>
      let e : WtEntry :=
        { pc := t.x i.a, arg := i.bval t, thresh := thresh, ctr := c, ids := t.ctx.ids, mode := Mode.of mode, prio := (s.lease i.g).prio,
          fired := false, value := 0, order := 0, into := none }
      .done (evalCounter (s.modCore core fun k => { k with wt := tput k.wt n e }) core c)

/-- wlpush (R300). -/
def execWlpush (o : OpR) (s : State) : Host.Outcome State Fault Refusal :=
  finish s <| issue s (Traits.ofR o (fx o.d) (fx o.a) (fx o.b)) fun i s =>
    let t := s.thread i.g
    let core := coreOf i.g
    let d := t.x i.d
    let mode := bits d 17 16
    precise i (orFault (mode == 3 || bits d 63 18 != 0) badOperand
      (orFault (decide (t.ctx.mode.code < mode)) denied (taskPcFault (t.x i.a)))) s fun s =>
    if Config.workList ≤ (s.core core).work.length then .wait (.tableFull 1) s
    else
      let e : WorkEntry := ⟨t.x i.a, i.bval t, .ofNat 16 (bits d 15 0), t.ctx.ids, Mode.of mode, (s.lease i.g).prio⟩
      .done (((s.modCore core fun k => { k with work := k.work ++ [e] }).askLoader core).askSextant core)

/-! ## Tile queues (R193, R326) -/

def ceilDiv (a b : Nat) : Nat := (a + b - 1) / b

/-- The sub-tiles of a descriptor. -/
def TqDesc.total (d : TqDesc) : Nat := ceilDiv d.m d.tm * ceilDiv d.n d.tn

/-- tqset (R326). -/
def execTqset (o : OpR) (s : State) : Host.Outcome State Fault Refusal :=
  finish s <| issue s (Traits.ofR o (fx o.d) (fx o.a) (fx o.b)) fun i s =>
    let t := s.thread i.g
    let a := t.x i.a
    let b := i.bval t
    let d : TqDesc := ⟨bits a 31 0, bits a 63 32, bits b 15 0, bits b 31 16, t.ctx.ids.job, 0, 0⟩
    precise i (orFault (bits b 63 32 != 0 || d.m == 0 || d.n == 0 || d.tm == 0 || d.tn == 0 || decide (2 ^ 31 - 1 < d.total))
      badOperand none) s fun s =>
    withRoomOut i s fun s =>
      let cl := clusterOf (coreOf i.g)
      let x := s.cluster cl
      match firstFree x.tq 0 Config.tileQueue with
      | none => .wait (.tableFull 2) s
      | some n =>
        let gen := (x.gen + 1) % 2 ^ 16
        let r := expect s i (.regs [i.d] []) 1 false
        let s := r.1.modCluster cl fun c => { c with gen := gen, tq := tput c.tq n { d with gen := gen } }
        .done (answer s (fromThread i.g) i.g r.2 (.regs [(i.d, .ofNat 64 (n + gen * 2 ^ 8))] [] 0) none)

/-- Whether a ticket has a reserved bit set (R326). -/
def ticketBad (a : Word) : Bool := bits a 63 24 != 0 || bits a 7 3 != 0

/-- The two words of sub-tile k (R193, R326). -/
def TqDesc.tile (d : TqDesc) (k : Nat) : Word × Word :=
  let w := ceilDiv d.n d.tn
  let row := k / w * d.tm
  let col := k % w * d.tn
  (.ofNat 64 (col * 2 ^ 32 + row), .ofNat 64 (k * 2 ^ 32 + (min (col + d.tn) d.n - col) * 2 ^ 16 + (min (row + d.tm) d.m - row)))

/-- ftile (R326). -/
def execFtile (o : OpR) (s : State) : Host.Outcome State Fault Refusal :=
  finish s <| issue s { Traits.ofR o (fx o.d) (fx o.a) (fx o.b) with imm := none } fun i s =>
    let t := s.thread i.g
    let a := t.x i.a
    precise i (orFault (ticketBad a) badOperand none) s fun s =>
    withRoomOut i s fun s =>
      let cl := clusterOf (coreOf i.g)
      let n := bits a 2 0
      let dest : Dest := .regs [i.d, i.b] []
      let reply (w : Word × Word) (s : State) : Res :=
        let r := expect s i dest 1 false
        .done (answer r.1 (fromThread i.g) i.g r.2 (.regs [(i.d, w.1), (i.b, w.2)] [] 0) none)
      match tfind (s.cluster cl).tq n with
      | none => reply (0, .ofNat 64 (2 ^ 63)) s
      | some d =>
        if d.job ≠ t.ctx.ids.job then .done (returnFault i dest denied s)
        else if d.gen ≠ bits a 23 8 ∨ d.total ≤ d.k then reply (0, .ofNat 64 (2 ^ 63)) s
        else reply (d.tile d.k) (s.modCluster cl fun c => { c with tq := tput c.tq n { d with k := d.k + 1 } })

/-- tqfree (R326). -/
def execTqfree (o : OpR) (s : State) : Host.Outcome State Fault Refusal :=
  finish s <| issue s (Traits.ofR o (fk o.d) (fx o.a) (fk o.b)) fun i s =>
    let t := s.thread i.g
    let a := t.x i.a
    precise i (orFault (ticketBad a) badOperand none) s fun s =>
    withRoomOut i s fun s =>
      let r := expect s i .none 1 false
      let s := r.1
      let cl := clusterOf (coreOf i.g)
      let n := bits a 2 0
      let hit := match tfind (s.cluster cl).tq n with
        | some d => d.gen == bits a 23 8
        | none => false
      let s := if hit then s.modCluster cl fun c => { c with tq := tdel c.tq n } else s
      .done (answer s (fromThread i.g) i.g r.2 .ack none)

end Sys2Proof.Machine
end

