-- ==== Sys2Proof/Machine/Streams.lean ====
section
/-! DEFINITION. Stream registers and Heliostat transfers (R68, R72 to R76, R301 to R303): OP 0x2D, and the steps of their
engines. -/

namespace Sys2Proof.Machine

/-! ## Descriptors (R72, R73) -/

/-- A field of a descriptor. -/
def dbits (d : BitVec 512) (hi lo : Nat) : Nat := d.toNat / 2 ^ lo % 2 ^ (hi + 1 - lo)

def streamEsize (d : BitVec 512) : Nat := dbits d 159 156
def streamBytes (d : BitVec 512) : Nat := 2 ^ streamEsize d

/-- The counts of the dimensions, innermost first; 1 beyond NDIM. -/
def streamCount (d : BitVec 512) (k : Nat) : Nat :=
  if k ≤ dbits d 151 150 then dbits d (447 - 32 * k) (416 - 32 * k) else 1

def streamTotal (d : BitVec 512) : Nat := streamCount d 0 * streamCount d 1 * streamCount d 2 * streamCount d 3

def streamStride (d : BitVec 512) (k : Nat) : Int := intVal 32 true (dbits d (319 - 32 * k) (288 - 32 * k))

/-- The bank rotation of an offset in row i (R68). -/
def rotOffset (o i rc : Nat) : Nat :=
  o / 256 * 256 + ((o / 8 % 32) ^^^ (i % 2 ^ rc % 32)) * 8 + o % 8

/-- The same of a scratchpad pointer. -/
def rotPtr (p : Word) (i rc : Nat) : Word :=
  if bits p 63 60 = 1 ∨ bits p 63 60 = 2 then .ofNat 64 (p.toNat / 2 ^ 19 * 2 ^ 19 + rotOffset (bits p 18 0) i rc) else p

/-- The address of element n (R73). -/
def streamAddr (d : BitVec 512) (n : Nat) : Word :=
  let a := n % streamCount d 0
  let b := n / streamCount d 0 % streamCount d 1
  let c := n / (streamCount d 0 * streamCount d 1) % streamCount d 2
  let e := n / (streamCount d 0 * streamCount d 1 * streamCount d 2)
  let p : Word := .ofNat 64 (dbits d 511 448) +
    .ofInt 64 (a * streamStride d 0 + b * streamStride d 1 + c * streamStride d 2 + e * streamStride d 3)
  rotPtr p b (dbits d 155 153)

/-- Whether a thread's bind refuses a descriptor (R72): reserved bits, ESIZE, RC, or a space that its direction does not allow; the own
core's scratchpad in space 2 is that of space 1 (R13). -/
def streamBad (g : Nat) (d : BitVec 512) : Bool :=
  let space := dbits d 511 508
  let near := d.getLsbD 152 || dbits d 507 505 == coreOf g % 8
  dbits d 191 160 != 0 || dbits d 143 0 != 0 || decide (7 < streamEsize d) || decide (5 < dbits d 155 153) ||
  !(space == 0 || space == 1 || (near && space == 2))

/-- Elements that a fill may hold fetched (R72): the next unread one, and those of AHEAD lines. -/
def fillRoom (d : BitVec 512) : Nat := 1 + dbits d 149 144 * 128 / streamBytes d

/-- Elements that two unwritten lines hold (R74). -/
def drainRoom (d : BitVec 512) : Nat := 256 / streamBytes d

/-! ## The engine's steps -/

def streamEvent (s : State) (g : Nat) (ev : Event) : State := s.post ⟨s.now, fromThread g, atCore (coreOf g), ev⟩

/-- Whether a step of a stream's engine is on its way. -/
def streamBusy (s : State) (g n : Nat) : Bool :=
  s.agenda.any fun f => match f.ev with
    | .streamFillElement r => r.gti == g && r.s == n
    | .streamDrainWrite r => r.gti == g && r.s == n
    | _ => false

/-- The engine goes on if it has something to do. -/
def kickStream (s : State) (g n : Nat) : State :=
  let x := (s.thread g).stream n
  if streamBusy s g n then s
  else if x.drains then if x.buf.isEmpty then s else streamEvent s g (.streamDrainWrite ⟨g, n⟩)
  else if x.mode = .fill ∧ x.engine < streamTotal x.desc ∧ x.buf.length < fillRoom x.desc then streamEvent s g (.streamFillElement ⟨g, n⟩)
  else s

/-- A fault of a stream's engine. -/
def streamFault (f : FaultRec) (pc : Word) : FaultRec :=
  { f with engine := 2, info := { f.info with opc := opcField pc } }

/-- One element fetched (R73, R74). A guard access reads zero and is kept with the element: it counts when the thread reads it (R70, R71).
A step that finds the stream bound anew leaves it to the new binding. -/
def fillElement (s : State) (g n : Nat) : State :=
  let x := (s.thread g).stream n
  if x.mode ≠ .fill ∨ x.drains ∨ streamTotal x.desc ≤ x.engine then kickStream s g n
  else
    let p := streamAddr x.desc x.engine
    let k := streamBytes x.desc
    let r : State × Except FaultRec (List Byte) :=
      if p.toNat % k ≠ 0 then (s, .error (mkFault .alignment 0 p)) else readBytes s g p k .streamFill true gkStream x.pc
    let e : Line × Option FaultRec := match r.2 with
      | .ok bs => (lineOf bs, none)
      | .error f => (0, some (streamFault f x.pc))
    kickStream (r.1.modThread g fun t =>
      let y := t.stream n
      t.setStream n { y with buf := y.buf ++ [e], engine := y.engine + 1 }) g n

/-- Observations of a drain's fault go by this number (R74). -/
def drainCtr (n : Nat) : Nat := 64 + n

/-- One queued element written (R73, R74, R130). -/
def drainElement (s : State) (g n : Nat) : State :=
  let x := (s.thread g).stream n
  match x.buf with
  | [] => kickStream s g n
  | (l, _) :: rest =>
    let p := streamAddr x.desc x.engine
    let k := streamBytes x.desc
    let r : State × Except FaultRec Unit :=
      if p.toNat % k ≠ 0 then (s, .error (mkFault .alignment 0 p)) else writeBytes s g p (lineSlice l 0 k) .streamDrain gkStream
    kickStream (r.1.modThread g fun t =>
      let t : Thread := match r.2 with
        | .ok _ => t
        | .error f => { t with eng := t.eng ++ [⟨some (drainCtr n), 0, { streamFault f x.pc with task := t.ctx.task }⟩] }
      t.setStream n { t.stream n with buf := rest, engine := x.engine + 1 }) g n

/-- STREAM_FILL_ELEMENT (R74). -/
def execStreamFillElement (o : StreamRef) (s : State) : Host.Outcome State Fault Refusal :=
  finish s (engineHeld o.gti (.streamFillElement o) s (fillElement s o.gti o.s))

/-- STREAM_DRAIN_WRITE (R74, R130). -/
def execStreamDrainWrite (o : StreamRef) (s : State) : Host.Outcome State Fault Refusal :=
  finish s (engineHeld o.gti (.streamDrainWrite o) s (drainElement s o.gti o.s))

/-! ## The instructions (R301) -/

def streamState : FaultRec := mkFault .streamState 0 0

/-- Every queued element of a stream is written before what follows, and a fault of the drain surfaces here. Where elements were queued,
what follows observes the drain's completion, and is an acquire (R130). -/
def withDrained (i : Iss) (n : Nat) (s : State) (k : Bool → State → Res) : Res :=
  let x := (s.thread i.g).stream n
  if x.drains ∧ ¬ x.buf.isEmpty then .wait (.drainEnd n) s
  else surfaceEngine i (fun e => e.ctr == some (drainCtr n)) s fun s => k (x.drains && decide (0 < x.next)) s

/-- sbind (R72, R74, R301). -/
def execSbind (o : OpR) (s : State) : Host.Outcome State Fault Refusal :=
  finish s <| issue s { Traits.ofR o (fs o.d) (fx o.a) (fk o.b) with pol := .taken } fun i s =>
    let p := (s.thread i.g).x i.a
    match s.target i.g p 64 .load with
    | .error k => .trap (xlate k p) s
    | .ok _ =>
      let joined (joins : Bool) (s : State) (k : State → Res) : Res :=
        if joins && (s.thread i.g).stage == .start then withAcquire i s fun s => k (s.stage i.g .sent) else k s
      if p.toNat % 64 ≠ 0 then .trap (mkFault .alignment 0 p) s
      else withDrained i i.d s fun joins s => joined joins s fun s => withWritten i s fun s => Res.orHeld s <|
        let s := notePolicy i [p] s
        let r := readBytes s i.g p 64 .load false gkLoad i.pc
        match r.2 with
        | .error f => answerFault i f r.1
        | .ok bs =>
          let d : BitVec 512 := .ofNat 512 (leNat bs)
          if streamBad i.g d then .trap badOperand r.1
          else
            let drain := d.getLsbD 152
            let x : Stream :=
              { mode := if streamTotal d = 0 then .ended else if drain then .drain else .fill
                drains := drain, desc := d, next := 0, engine := 0, buf := [], pc := i.pc }
            .done (kickStream (r.1.modThread i.g fun t => t.setStream i.d x) i.g i.d)

/-- sunbind (R301). -/
def execSunbind (o : OpR) (s : State) : Host.Outcome State Fault Refusal :=
  finish s <| issue s (Traits.ofR o (fs o.d) (fk o.a) (fk o.b)) fun i s =>
    orAcquire i s fun s => withDrained i i.d s fun joins s =>
      let s := s.modThread i.g fun t => { t with streams := tdel t.streams i.d }
      if joins then acquired i s else .done s

/-- swait (R301). -/
def execSwait (o : OpR) (s : State) : Host.Outcome State Fault Refusal :=
  finish s <| issue s (Traits.ofR o (fs o.d) (fk o.a) (fk o.b)) fun i s =>
    orAcquire i s fun s => withDrained i i.d s fun joins s => if joins then acquired i s else .done s

/-- The next element of a fill stream (R74): its read is a join, and so an acquire (R130). -/
def streamRead (i : Iss) (n : Nat) (wide : Bool) (s : State) (put : Line → Thread → Thread) : Res :=
  orAcquire i s fun s =>
    let x := (s.thread i.g).stream n
    if x.mode ≠ .unbound ∧ ¬ wide ∧ 3 < streamEsize x.desc then .trap badOperand s
    else if x.mode ≠ .fill then .trap streamState s
    else
      match x.buf with
      | [] => .wait (.fill n) (kickStream s i.g n)
      | (l, f) :: rest =>
        let x := { x with buf := rest, next := x.next + 1, mode := if x.next + 1 = streamTotal x.desc then .ended else .fill }
        let go (s : State) : Res := acquired i (kickStream (s.modThread i.g fun t => put l (t.setStream n x)) i.g n)
        match f with
        | none => go s
        | some f => if f.cause = .scratchpadGuard then go (noteGuard s i.g gkStream f.addr i.pc) else .trap f s

/-- sget (R301). -/
def execSget (o : OpR) (s : State) : Host.Outcome State Fault Refusal :=
  finish s <| issue s (Traits.ofR o (fx o.d) (fs o.a) (fk o.b)) fun i s =>
    streamRead i i.a false s fun l t => t.setX i.d (.ofNat 64 l.toNat)

/-- vsget (R301). -/
def execVsget (o : OpR) (s : State) : Host.Outcome State Fault Refusal :=
  finish s <| issue s (Traits.ofR o (fv o.d) (fs o.a) (fk o.b)) fun i s =>
    streamRead i i.a true s fun l t => t.setV i.d l

/-- An element queued on a drain stream (R74). -/
def streamWrite (i : Iss) (n : Nat) (wide : Bool) (l : Line) (s : State) : Res :=
  let x := (s.thread i.g).stream n
  if x.mode ≠ .unbound ∧ ¬ wide ∧ 3 < streamEsize x.desc then .trap badOperand s
  else if x.mode ≠ .drain then .trap streamState s
  else if drainRoom x.desc ≤ x.buf.length then .wait (.drainRoom n) (kickStream s i.g n)
  else
    let x := { x with buf := x.buf ++ [(l, none)], next := x.next + 1
                      mode := if x.next + 1 = streamTotal x.desc then .ended else .drain }
    .done (kickStream (s.modThread i.g fun t => t.setStream n x) i.g n)

/-- sput (R301). -/
def execSput (o : OpR) (s : State) : Host.Outcome State Fault Refusal :=
  finish s <| issue s (Traits.ofR o (fs o.d) (fx o.a) (fk o.b)) fun i s =>
    streamWrite i i.d false (.ofNat 1024 ((s.thread i.g).x i.a).toNat) s

/-- vsput (R301). -/
def execVsput (o : OpR) (s : State) : Host.Outcome State Fault Refusal :=
  finish s <| issue s (Traits.ofR o (fs o.d) (fv o.a) (fk o.b)) fun i s =>
    streamWrite i i.d true ((s.thread i.g).vreg i.a) s

/-! ## The Heliostat (R75, R76, R302, R303) -/

/-- The fields of HPAT (R75). -/
def hpField (h : BitVec 55) (hi lo : Nat) : Nat := h.toNat / 2 ^ lo % 2 ^ (hi + 1 - lo)

/-- What a transfer's issue refuses of HPAT (R75). -/
def hpBad (h : BitVec 55) : Bool :=
  hpField h 39 30 == 0 || hpField h 29 20 == 0 || hpField h 19 0 % 8 != 0 || decide (524280 < hpField h 19 0) ||
  decide (96 < (hpField h 47 44 + 1) * (hpField h 43 40 + 1))

/-- The target core within the die and the offset of word w of row i (R76). -/
def helioTarget (h : BitVec 55) (dbase i w : Nat) : Nat × Nat :=
  let brows := hpField h 39 30
  let bwords := hpField h 29 20
  let pr := hpField h 47 44 + 1
  let pc := hpField h 43 40 + 1
  let bi := i / brows
  let bj := w / bwords
  ((hpField h 54 48 + bi % pr * pc + bj % pc) % 96,
   dbase + (bi / pr * brows + i % brows) * hpField h 19 0 + (bj / pc * bwords + w % bwords) * 8)

/-- The first fault of a transfer is the one that it ends with. -/
def helioNote (h : Helio) (f : FaultRec) : Helio :=
  { h with fault := if h.fault.isSome then h.fault else some { f with engine := 3, task := h.task, info := { f.info with opc := opcField h.pc } } }

/-- Words of a row written to their targets, from word w up. -/
def helioWords (h : Helio) : Nat → List Byte → State → Nat → Helio × State
  | _, _, s, 0 => (h, s)
  | w, bs, s, n + 1 =>
    let t := helioTarget h.hpat h.dbase h.row w
    let core := h.core / 96 * 96 + t.1
    let rest := bs.drop 8
    if Config.scratchBytes < t.2 + 8 then helioWords (helioNote { h with bound := true } badOperand) (w + 1) rest s n
    else if guarded (s.core core) t.2 8 then helioWords (helioNote h (guardAccess gkStore (scratchPtr core t.2))) (w + 1) rest s n
    else helioWords h (w + 1) rest (scratchWrite s core t.2 (bs.take 8)) n

/-- One line of the source received: its words reach their targets; then the next line, or the end. -/
def helioLine (s : State) (h : Helio) : State :=
  let p : Word := h.src + .ofNat 64 (h.row * h.spitch + h.col)
  let n := min (h.rowbytes - h.col) (128 - p.toNat % 128)
  let r := underMode s h.gti h.user fun s => readBytes s h.gti p n .streamFill true gkLoad h.pc
  match r.2 with
  | .error f => engineDone r.1 h.gti h.core (some h.ctr) (helioNote h f).fault
  | .ok bs =>
    let q := helioWords h (h.col / 8) bs r.1 (n / 8)
    let next : Helio := if h.col + n < h.rowbytes then { q.1 with col := h.col + n } else { q.1 with col := 0, row := h.row + 1 }
    if next.row < h.rows then streamEvent q.2 h.gti (.heliostatLineReceive next)
    else engineDone q.2 h.gti h.core (some h.ctr) next.fault

/-- HELIOSTAT_LINE_RECEIVE (R75, R76, R303). -/
def execHeliostatLineReceive (o : Helio) (s : State) : Host.Outcome State Fault Refusal :=
  finish s (engineHeld o.gti (.heliostatLineReceive o) s (helioLine s o))

/-- hxfer (R75, R302, R303): of the source's faults only SPACE_OP is its own (R309); the engine meets the others. -/
def execHxfer (o : OpR) (s : State) : Host.Outcome State Fault Refusal :=
  finish s <| issue s (Traits.ofR o (fx o.d) (fx o.a) (fx o.b)) fun i s =>
    let t := s.thread i.g
    let core := coreOf i.g
    let a := t.x i.a
    let b := i.bval t
    let d := t.x i.d
    let c := bits b 24 19
    let owner := (tget Arrival.zero (s.core core).arrivals c).owner
    let bad := bits b 63 32 % 8 != 0 || bits b 31 25 != 0 || bits b 18 0 % 8 != 0 ||
      bits d 63 32 == 0 || bits d 63 32 % 8 != 0 || bits d 31 0 == 0 || hpBad t.ctx.hpat
    let sp := bits a 63 60
    let far := decide (2 ≤ sp) && !(sp == 2 && bits a 59 57 == core % 8)
    precise i (orFault bad badOperand (orFault (owner != t.ctx.ids.job) denied
      (orFault far (xlate kSpaceOp a) (orFault (a.toNat % 8 != 0) (mkFault .alignment 0 a) none)))) s fun s =>
    waitCounters i (fun k => k == .pd) s fun s =>
      let s := s.modThread i.g fun t => { t with engines := t.engines + 1 }
      .done (streamEvent s i.g (.heliostatLineReceive
        { gti := i.g, job := t.ctx.ids.job, user := t.ctx.mode == .user, task := t.ctx.task, core := core, src := a
          spitch := bits b 63 32, rowbytes := bits d 63 32, rows := bits d 31 0, dbase := bits b 18 0, hpat := t.ctx.hpat
          ctr := c, row := 0, col := 0, bound := false, fault := none, pc := i.pc }))

end Sys2Proof.Machine
end

