-- ==== Sys2Proof/Machine/TileHome.lean ====
section
/-! DEFINITION. Tile versions at their home slice (R31 to R60): the transitions of an Ephemeris entry, storage, waiters,
subscriptions and notices, pins, promotions, stalls and pressure reports. -/

namespace Sys2Proof.Machine

/-! ## Names and homes (R31, R34) -/

/-- The handle of a version: name and version. -/
def handleOf (name ver : Nat) : Word := .ofNat 64 (name * 2 ^ 24 + ver)

def tileHandle (r : TileRef) : Word := handleOf r.name r.ver

def tileKeyOf (r : TileRef) : Nat := tileKey r.job r.name r.ver

/-- The home slice of a name within its die: the XOR of its nibbles. -/
def nameSliceGo (n : Nat) : Nat → Nat
  | 0 => 0
  | k + 1 => (n % 16) ^^^ nameSliceGo (n / 16) k

def nameSlice (name : Nat) : Nat := nameSliceGo (name % 2 ^ 34) 9

/-- The home of a name on a module. -/
def tileSlice (m name : Nat) : Nat := (m * 64 + name / 2 ^ 34 % 64) * 16 + nameSlice name

/-- A handle's version on a module, for a job. -/
def tileRef (m job : Nat) (h : Word) : TileRef := ⟨tileSlice m (bits h 63 24), job, bits h 63 24, bits h 23 0⟩

/-- Serial distance from version a to version b (R34). -/
def serial (a b : Nat) : Nat := (b + 2 ^ 24 - a % 2 ^ 24) % 2 ^ 24

/-- A TILE fault of a kind on a version (R45). -/
def tileFault (kind : Nat) (r : TileRef) (pc : Word) : FaultRec :=
  { mkFault .tile kind (tileHandle r) with info := ⟨0, 0, opcField pc, 0⟩, pc := some pc }

def kTileOperand : Nat := 0
def kWriteOnce : Nat := 1
def kVersionWindow : Nat := 2
def kTileState : Nat := 3
def kPoisonedTile : Nat := 4
def kHeapFree : Nat := 5
def kHeapExhausted : Nat := 6

/-! ## Entries -/

/-- An AWAITED entry with nothing recorded. -/
def TileEntry.awaited : TileEntry :=
  { st := .awaited, size := 0, hbm := false, poison := false, moves := 0, hold := false, count := 0, pins := 0, block := 0,
    task := 0, data := [], waiters := [], pinWait := [] }

def State.tile (s : State) (r : TileRef) : Option TileEntry := tfind (s.slice r.gslice).tiles (tileKeyOf r)

def State.setTile (s : State) (r : TileRef) (e : TileEntry) : State :=
  s.modSlice r.gslice fun x => { x with tiles := tput x.tiles (tileKeyOf r) e }

def State.delTile (s : State) (r : TileRef) : State :=
  s.modSlice r.gslice fun x => { x with tiles := tdel x.tiles (tileKeyOf r) }

def TileSt.code : TileSt → Nat
  | .awaited => 1
  | .pending => 2
  | .present => 3
  | .deferred => 4

/-- SUBS of a name (R35): the first subscription record for it, 0xFFFF if there is none. -/
def firstSub (x : Slice) (job name : Nat) : Nat :=
  (x.subs.filter fun u => u.job == job && u.name == name).foldl (fun n u => min n u.no) 0xFFFF

/-- The 192 bits of an entry (R35), as the state holds them; a version that is FREE has the reset value of every field. -/
def entryBits (x : Slice) (r : TileRef) : Nat :=
  match tfind x.tiles (tileKeyOf r) with
  | none => 0xFFFF * 2 ^ 70
  | some e =>
    e.task.toNat * 2 + e.block / 128 % 2 ^ 37 * 2 ^ 33 + firstSub x r.job r.name * 2 ^ 70 + e.pins * 2 ^ 86 + e.count * 2 ^ 92 +
    bitNat e.hold * 2 ^ 108 + bitNat (e.moves != 0) * 2 ^ 109 + bitNat (!e.waiters.isEmpty) * 2 ^ 110 + bitNat e.poison * 2 ^ 111 +
    bitNat e.hbm * 2 ^ 112 + e.size * 2 ^ 113 + e.st.code * 2 ^ 117 + tileKeyOf r * 2 ^ 120

/-- The 128 bits of a subscription record (R55). -/
def Sub.bits (u : Sub) : Nat :=
  (if u.standing then u.ctr else 0) + u.core * 2 ^ 11 + bitNat u.standing * 2 ^ 30 + u.vlast * 2 ^ 32 + u.vfirst * 2 ^ 56 +
  u.name * 2 ^ 80 + u.job * 2 ^ 120

/-- An operation that an engine, a save or a cancel performs at a home wakes it first (R50). -/
def awake (s : State) (g : Nat) : State := if (s.slice g).asleep then wakeSlice s g else s

/-- Whether an entry holds storage. -/
def TileEntry.stored (e : TileEntry) : Bool := e.st != .awaited

/-- Bytes of size class k (R33). -/
def classBytes (k : Nat) : Nat := 128 * 2 ^ k

/-- The live versions of a name, as the window rule sees them (R49). -/
def liveVersions (x : Slice) (job name : Nat) : List Nat :=
  (x.tiles.filter fun e => e.1 / 2 ^ 24 == job * 2 ^ 40 + name).map fun e => e.1 % 2 ^ 24

/-- Whether every live version of a name, with one more, lies within an arc of fewer than 2^23 versions (R49). -/
def windowOk (x : Slice) (r : TileRef) : Bool :=
  let vs := r.ver :: liveVersions x r.job r.name
  vs.any fun b => vs.all fun v => decide (serial b v < 2 ^ 23)

/-! ## Storage (R37) -/

/-- The first address of a size from `at_` up, below a limit, that meets no block in use; `fuel` bounds the blocks met. (DESIGN CHOICE, log 39) -/
def allocGo (used : List (Nat × Nat)) (size limit : Nat) (at_ : Nat) : Nat → Option Nat
  | 0 => none
  | n + 1 =>
    if limit < at_ + size then none
    else match used.find? fun b => decide (b.1 < at_ + size ∧ at_ < b.1 + b.2) with
      | none => some at_
      | some b => allocGo used size limit ((b.1 + b.2 + size - 1) / size * size) n

def allocate (used : List (Nat × Nat)) (size base limit : Nat) : Option Nat :=
  allocGo used size limit ((base + size - 1) / size * size) (used.length + 1)

/-- The blocks of a slice's entries in its tile partition, or in the die's allocator reserve. -/
def blocksOf (hbm : Bool) (x : Slice) : List (Nat × Nat) :=
  (x.tiles.filter fun e => e.2.stored && e.2.hbm == hbm).map fun e => (e.2.block, classBytes e.2.size)

/-- A block of the slice's tile partition (R53). -/
def sramBlock (s : State) (g k : Nat) : Option Nat :=
  allocate (blocksOf false (s.slice g)) (classBytes k) 0 ((s.die (sliceDie g)).tsplit.toNat * 131072)

/-- A block of the die's allocator reserve (R53). -/
def reserveBlock (s : State) (g k : Nat) : Option Nat :=
  let d := s.die (sliceDie g)
  let used := (s.slices.filter fun e => sliceDie e.1 == sliceDie g).flatMap fun e => blocksOf true e.2
  allocate used (classBytes k) (d.alBase.toNat * 2 ^ 30) ((d.alBase.toNat + d.alSize.toNat) * 2 ^ 30)

/-- The allocator's choice: whether in HBM4, and the block; none if there is no room. A create that prefers HBM4 has no block while the reserve is
full, though the tile partition may have one. (DESIGN CHOICE, logs 39 and 105) -/
def storageFor (s : State) (g k : Nat) (hbm : Bool) : Option (Bool × Nat) :=
  match if hbm then none else sramBlock s g k with
  | some b => some (false, b)
  | none => (reserveBlock s g k).map fun b => (true, b)

/-- Bytes of a sparse table from offset a up. -/
def tableBytes : Table Byte → Nat → Nat → List Byte
  | _, _, 0 => []
  | [], a, n + 1 => 0 :: tableBytes [] (a + 1) n
  | (k, b) :: t, a, n + 1 => if k = a then b :: tableBytes t (a + 1) n else 0 :: tableBytes ((k, b) :: t) (a + 1) n

/-- The nonzero bytes of a list, by offset. -/
def byteTable : Nat → List Byte → Table Byte
  | _, [] => []
  | a, b :: t => if b = 0 then byteTable (a + 1) t else (a, b) :: byteTable (a + 1) t

/-- n bytes of a version from an offset; those beyond its size are zero (R306). -/
def TileEntry.bytes (e : TileEntry) (off n : Nat) : List Byte := tableBytes (e.data.filter fun b => decide (off ≤ b.1)) off n

/-! ## Uncorrectable errors in tile data (R44, R429) -/

/-- Whether a line number, 128 B each, lies in the block of an entry; base is the address of the storage it lies in. -/
def inBlock (e : TileEntry) (base l : Nat) : Bool :=
  decide (base + e.block ≤ l * 128 ∧ l * 128 < base + e.block + classBytes e.size)

/-- The slice finds an uncorrectable error in the data of a version that it reads: it sets POISON. -/
def findError (s : State) (r : TileRef) (e : TileEntry) : State × TileEntry :=
  let found := e.stored && !e.poison &&
    if e.hbm then s.hbmBad.any (inBlock e (sliceDie r.gslice * 2 ^ 44)) else (s.slice r.gslice).bad.any (inBlock e 0)
  if found then
    let e := { e with poison := true }
    ((s.setTile r e).countBad (sliceDie r.gslice) 2 (r.gslice % 16), e)
  else (s, e)

/-- A version that is read: its home wakes first (R50), and POISON is set if its data holds an error. -/
def State.readTile (s : State) (r : TileRef) : State × Option TileEntry :=
  let s := awake s r.gslice
  match s.tile r with
  | none => (s, none)
  | some e => let q := findError s r e; (q.1, some q.2)

/-- The data of a create covers every line of its block: errors there are gone. -/
def clearBlock (s : State) (r : TileRef) (e : TileEntry) : State :=
  if e.hbm then { s with hbmBad := s.hbmBad.filter fun l => !inBlock e (sliceDie r.gslice * 2 ^ 44) l }
  else s.modSlice r.gslice fun x => { x with bad := x.bad.filter fun l => !inBlock e 0 l }

/-! ## Answers -/

def tileAck (s : State) (r : TileRef) (g id : Nat) : State := answer s (fromSlice r.gslice) g id .ack none

/-- A tile operation of a task ends with a fault. -/
def tileRefuse (s : State) (r : TileRef) (g id : Nat) (task : BitVec 32) (f : FaultRec) : State :=
  refuse s (fromSlice r.gslice) g (some id) none 0 { f with task := task }

/-- A thread that no operation concerns: a matrix client's or the sequence engine's. -/
def noThread : Nat := 2 ^ 40

/-- A thread that waits for a tile operation, with what it waits for now. -/
def waitTile (s : State) (g : Nat) (w : Wake) : State :=
  if g = noThread then s
  else s.modThread g fun t =>
    match t.status with
    | .waiting .answer | .waiting (.tile _ _ _) | .waiting (.stall _ _) => { t with status := .waiting w }
    | _ => t

/-- The slices of a die whose stalled operations may now find room are woken (R51). -/
def wakeStalls (s : State) (gdie : Nat) : State :=
  (s.slices.filter fun e => sliceDie e.1 == gdie && !e.2.stalls.isEmpty).foldl
    (fun s e => s.post ⟨s.now, fromSlice e.1, atSlice e.1, .stallResume ⟨e.1⟩⟩) s

/-- A readiness wait of a matrix command that its version has ended (R341). -/
def readyTiles (r : TileRef) : List TileRef → List Bool → List Bool
  | [], _ => []
  | t :: ts, [] => (t == r) :: readyTiles r ts []
  | t :: ts, b :: bs => (b || t == r) :: readyTiles r ts bs

def modMx (s : State) (core id : Nat) (f : MxEntry → MxEntry) : State :=
  kickMatrix (s.modCore core fun c =>
    { c with deps := c.deps.map fun e => if e.id = id then f e else e
             sequencer := c.sequencer.map fun e => if e.id = id then f e else e }) core

/-! ## Transitions (R36) -/

/-- An entry whose storage is freed: AWAITED while waiters remain, else FREE. -/
def freeEntry (s : State) (r : TileRef) (e : TileEntry) : State :=
  let s := if e.waiters.isEmpty then s.delTile r else s.setTile r { TileEntry.awaited with waiters := e.waiters }
  wakeStalls s (sliceDie r.gslice)

/-- A consuming load of a PRESENT version (R36, R39). -/
def consumeEntry (s : State) (r : TileRef) (e : TileEntry) : State :=
  if e.hold then s
  else if 1 < e.count then s.setTile r { e with count := e.count - 1 }
  else if e.pins = 0 then freeEntry s r e
  else (s.setTile r { e with count := 0, st := .deferred }).modSlice r.gslice fun x => { x with tvdefer := x.tvdefer + 1 }

/-- The report of a poisoned version (R44, R431). -/
def poisonReport (r : TileRef) : Report :=
  ⟨sliceModule r.gslice, 1, none, sliceDie r.gslice % 64, 2, r.gslice % 16, tileHandle r, .ofNat 79 (4 + kPoisonedTile * 2 ^ 8 + 2 ^ 13)⟩

/-- A load served from valid data (R39, R44, R306). -/
def giveLoad (s : State) (l : TileLoad) (e : TileEntry) : State :=
  match l.client with
  | .matrix core id => modMx s core id fun x => { x with ready := readyTiles l.t x.tiles x.ready }
  | .thread g id =>
    let q := findError s l.t e
    let e := q.2
    let s := if e.hbm then holdFor q.1 l.t.gslice e.block else q.1
    if e.poison then (tileRefuse s l.t g id l.task (tileFault kPoisonedTile l.t l.pc)).report (poisonReport l.t)
    else
      let n := if l.len = 0 then classBytes e.size - l.off else l.len
      if l.len = 0 ∧ l.room < n then
        tileRefuse s l.t g id l.task { xlate kWindowBound (.ofNat 64 (2 ^ 60 + l.pos)) with pc := some l.pc }
      else
        let s := answer s (fromSlice l.t.gslice) g id (.bytes 0 (e.bytes l.off n)) none
        if l.consume ∧ e.st = .present then consumeEntry s l.t e else s

/-- A waiter recorded in an entry, which is made AWAITED if there is none. -/
def recordWaiter (s : State) (l : TileLoad) : State :=
  let e := (s.tile l.t).getD TileEntry.awaited
  let s := s.setTile l.t { e with waiters := e.waiters ++ [l] }
  match l.client with
  | .thread g _ => waitTile s g (.tile (tileHandle l.t) (sliceModule l.t.gslice) false)
  | .matrix _ _ => s

/-- The waiters of a version that has become PRESENT, in recorded order: those that find it PRESENT no more stay recorded. -/
def serveWaiters : List TileLoad → State → State
  | [], s => s
  | l :: t, s =>
    match s.tile l.t with
    | some e => if e.st = .present then serveWaiters t (giveLoad s l e) else serveWaiters t (recordWaiter s l)
    | none => serveWaiters t (recordWaiter s l)

/-! ## Subscriptions and notices (R55 to R58) -/

def Sub.covers (u : Sub) (v : Nat) : Bool := decide (serial u.vfirst v ≤ serial u.vfirst u.vlast)

/-- The 128 bits of an arrival notice (R58): FMT 1, STATUS ARRIVED. -/
def Notice.bits (n : Notice) : Nat :=
  2 ^ 124 + n.job % 2 ^ 8 * 2 ^ 112 + (handleOf n.name n.ver).toNat * 2 ^ 48 + n.size % 2 ^ 4 * 2 ^ 44 +
  sliceDie n.gslice % 64 * 2 ^ 38 + sliceModule n.gslice % 64 * 2 ^ 32 + n.gslice % 16 * 2 ^ 28

/-- The notice of one version to one record. -/
def sendNotice (s : State) (r : TileRef) (size : Nat) (u : Sub) : State :=
  s.send (fromSlice r.gslice) (atCore u.core)
    (.arrivalNotice ⟨r.job, r.name, r.ver, size, r.gslice, u.core, if u.standing then some u.ctr else none⟩)

/-- A record after its notice for a version; none when it ends: a one-shot record, or a standing one. That one ends at VLAST's notice, but
stands while a version of its range before VLAST is still to be noticed, since every version of the range produces its notice in whatever order
they commit (R57, R386). (DEDUCED, log 103) -/
def Sub.noticed (u : Sub) (v : Nat) : Option Sub :=
  if ¬ u.standing ∨ serial u.vfirst u.vlast ≤ u.seen.length then none else some { u with seen := u.seen ++ [v] }

/-- Whether a record awaits a version: it covers it and has sent no notice for it. -/
def Sub.awaits (u : Sub) (r : TileRef) : Bool := u.job == r.job && u.name == r.name && u.covers r.ver && !u.seen.contains r.ver

def noticeSubs (r : TileRef) (size : Nat) : List Sub → State → State × List Sub
  | [], s => (s, [])
  | u :: t, s =>
    if u.awaits r then
      let q := noticeSubs r size t (sendNotice s r size u)
      (q.1, (u.noticed r.ver).toList ++ q.2)
    else
      let q := noticeSubs r size t s
      (q.1, u :: q.2)

/-- The notices of a version that has become PRESENT. -/
def sendNotices (s : State) (r : TileRef) (size : Nat) : State :=
  let old := (s.slice r.gslice).subs
  let q := noticeSubs r size old s
  let s := q.1.modSlice r.gslice fun x => { x with subs := q.2 }
  if q.2.length < old.length then wakeStalls s (sliceDie r.gslice) else s

/-- A version becomes PRESENT (R36, R47): its waiters are served and its notices sent. -/
def makePresent (s : State) (r : TileRef) (e : TileEntry) : State :=
  let s := s.setTile r { e with st := .present, task := 0, waiters := [] }
  sendNotices (serveWaiters e.waiters s) r e.size

/-! ## Creates, loads and records, which may stall (R51) -/

/-- How many operations stalled at a slice wait for a resource: what becomes free is theirs first. -/
def stallAhead (x : Slice) (res : Resource) (retry : Bool) : Nat :=
  if retry then 0 else (x.stalls.filter fun y => y.res == res).length

/-- Whether a slice has no entry, or no subscription record, for an operation. -/
def noEntry (x : Slice) (retry : Bool) : Bool := decide (Config.ephemeris ≤ x.tiles.length + stallAhead x .entries retry)
def noRecord (x : Slice) (retry : Bool) : Bool := decide (Config.subscriptions ≤ x.subs.length + stallAhead x .records retry)

/-- A create at its home (R36 to R40); the error is the resource it lacks: for want of any block, that of its preference. (DESIGN CHOICE, log 105) -/
def tileCreate (s : State) (c : TileCreate) (retry : Bool) : Except Resource State :=
  let x := s.slice c.t.gslice
  let old := s.tile c.t
  let refuseWith (k : Nat) : Except Resource State :=
    .ok (match c.task with
      | some task => tileRefuse s c.t c.gti c.id task (tileFault k c.t c.pc)
      | none => s)
  if (old.map (·.stored)).getD false then refuseWith kWriteOnce
  else if ¬ windowOk x c.t then refuseWith kVersionWindow
  else if old.isNone ∧ noEntry x retry then .error .entries
  else
    match storageFor s c.t.gslice c.size c.hbm with
    | none => .error (if c.hbm then .hbm else .sram)
    | some (hbm, block) =>
      let e : TileEntry :=
        { (old.getD TileEntry.awaited) with
          st := .pending, size := c.size, hbm := hbm, block := block, hold := c.count == 65535, count := c.count
          task := c.task.getD 0, data := c.data }
      let s := clearBlock s c.t e
      match c.task with
      | some _ => .ok (tileAck (s.setTile c.t e) c.t c.gti c.id)
      | none => .ok (makePresent s c.t e)

/-- The number of a new subscription record: the lowest free one. (DESIGN CHOICE, log 39) -/
def freeRecord (x : Slice) : Nat :=
  ((List.range (x.subs.length + 1)).find? fun n => x.subs.all fun u => u.no != n).getD 0

/-- A one-shot record for the requester's die (R56); the error is the lack of a record. -/
def oneShot (s : State) (r : TileRef) (core : Nat) (retry : Bool) : Except Resource State :=
  let x := s.slice r.gslice
  let target := dieOf core * 96
  if x.subs.any fun u => !u.standing && u.job == r.job && u.name == r.name && u.vfirst == r.ver && u.core == target then .ok s
  else if noRecord x retry then .error .records
  else .ok (s.modSlice r.gslice fun x => { x with subs := x.subs ++ [⟨r.job, r.name, r.ver, r.ver, false, target, 0, [], freeRecord x⟩] })

/-- A thread's wait moves to the notice filter of its die (R56): the home has answered ABSENT. -/
def waitFilter (s : State) (l : TileLoad) : State :=
  match l.client with
  | .matrix _ _ => s
  | .thread g id =>
    (waitTile s g (.tile (tileHandle l.t) (sliceModule l.t.gslice) true)).modThread g fun t =>
      { t with out := t.out.filter fun o => o.id != id }

/-- A load, consume or readiness wait at the home (R36, R39, R56). -/
def tileLoad (s : State) (l : TileLoad) (retry : Bool) : Except Resource State :=
  let x := s.slice l.t.gslice
  let own := match l.client with
    | .thread _ _ => true
    | .matrix _ _ => false
  let servable := (s.tile l.t).filter fun e => e.st == .present || (e.st == .pending && e.task == l.task && own)
  match servable with
  | some e => .ok (giveLoad s l e)
  | none =>
    if dieOf l.core ≠ sliceDie l.t.gslice then
      match oneShot s l.t l.core retry with
      | .error r => .error r
      | .ok s => .ok (waitFilter s l)
    else if (s.tile l.t).isSome then .ok (recordWaiter s l)
    else if ¬ windowOk x l.t then
      .ok (match l.client with
        | .thread g id => tileRefuse s l.t g id l.task (tileFault kVersionWindow l.t l.pc)
        | .matrix core id => modMx s core id fun y => { y with failed := some (tileFault kVersionWindow l.t l.pc) })
    else if noEntry x retry then .error .entries
    else .ok (recordWaiter s l)

/-- Notices for the versions of a new record's range that are PRESENT, in serial order (R57). -/
def noticeAll (r : TileRef) : List (Nat × Nat) → Option Sub → State → State × Option Sub
  | [], u, s => (s, u)
  | _, none, s => (s, none)
  | (v, size) :: t, some u, s => noticeAll r t (u.noticed v) (sendNotice s { r with ver := v } size u)

/-- Insertion by serial distance from a base. -/
def insertSerial (base : Nat) (e : Nat × Nat) : List (Nat × Nat) → List (Nat × Nat)
  | [] => [e]
  | h :: t => if serial base e.1 ≤ serial base h.1 then e :: h :: t else h :: insertSerial base e t

/-- A standing subscription (R57). -/
def tileSub (s : State) (q : SubReq) (retry : Bool) : Except Resource State :=
  let x := s.slice q.t.gslice
  if noRecord x retry then .error .records
  else
    let u : Sub := ⟨q.t.job, q.t.name, q.t.ver, q.vlast, true, q.core, q.ctr, [], freeRecord x⟩
    let here := (x.tiles.filter fun e => e.1 / 2 ^ 24 == q.t.job * 2 ^ 40 + q.t.name && e.2.st == .present && u.covers (e.1 % 2 ^ 24)).map
      fun e => (e.1 % 2 ^ 24, e.2.size)
    let r := noticeAll q.t (here.foldl (fun l e => insertSerial q.t.ver e l) []) (some u) s
    let s := r.1.modSlice q.t.gslice fun x => { x with subs := x.subs ++ r.2.toList }
    .ok (tileAck s q.t q.gti q.id)

/-- The least number of cycles before a pressure report (R53). -/
def thresh (s : State) (gslice : Nat) : Nat := 2 ^ (max 10 (s.die (sliceDie gslice)).thresh.toNat)

/-- An operation stalls at its slice (R51, R52). -/
def stallOp (s : State) (gslice : Nat) (ev : Event) (res : Resource) (job : Nat) (handle : Word) (gti : Nat) : State :=
  let s := s.modSlice gslice fun x =>
    { x with stalls := x.stalls ++ [⟨ev, res, job, handle, gti, s.now⟩], tvstall := x.tvstall + 1 }
  let s := waitTile s gti (.stall gslice (s.now + thresh s gslice))
  s.later (thresh s gslice) (fromSlice gslice) (atSlice gslice) (.pressureReport ⟨gslice, res⟩)

def clientGti (c : TileClient) : Nat :=
  match c with
  | .thread g _ => g
  | .matrix _ _ => noThread

/-- An operation that may stall, performed or stalled. -/
def tileOp (s : State) (ev : Event) : State :=
  match ev with
  | .ephemerisCreate c =>
    match tileCreate s c false with
    | .ok s => s
    | .error r => stallOp s c.t.gslice ev r c.t.job (tileHandle c.t) c.gti
  | .ephemerisLoad l =>
    match tileLoad s l false with
    | .ok s => s
    | .error r => stallOp s l.t.gslice ev r l.t.job (tileHandle l.t) (clientGti l.client)
  | .subscriptionRecord q =>
    match tileSub s q false with
    | .ok s => s
    | .error r => stallOp s q.t.gslice ev r q.t.job (tileHandle q.t) q.gti
  | _ => s

/-- The thread of a stalled operation waits for the home's answer again. -/
def unstall (s : State) (y : Stalled) : State :=
  match y.ev with
  | .ephemerisLoad l => waitTile s y.gti (.tile (tileHandle l.t) (sliceModule l.t.gslice) false)
  | _ => waitTile s y.gti .answer

/-- A stalled operation tried again. A seal's create comes back as a message of its own, which
the sequence engine takes (R143); it has had its turn (gti above noThread). -/
def retryOp (s : State) (ev : Event) : Except Resource State :=
  match ev with
  | .ephemerisCreate c =>
    match c.task, tileCreate s c true with
    | none, .ok _ =>
      .ok (s.urge ⟨s.now, fromSlice c.t.gslice, atSlice c.t.gslice, .ephemerisCreate { c with gti := noThread + 1 }⟩)
    | _, r => r
  | .ephemerisLoad l => tileLoad s l true
  | .subscriptionRecord q => tileSub s q true
  | _ => .ok s

/-- A seal's create, which the sequence engine performs itself: what waits for its resource is tried again after it. -/
def sealOp : Event → Bool
  | .ephemerisCreate c => c.task.isNone
  | _ => false

/-- The pressure report of an operation that waits for another resource now (R52). -/
def reportLater (s : State) (gslice : Nat) (y : Stalled) (res : Resource) : State :=
  if res = y.res then s
  else s.later (y.since + thresh s gslice - s.now) (fromSlice gslice) (atSlice gslice) (.pressureReport ⟨gslice, res⟩)

/-- Stalled operations of a slice in the order in which they stalled: none passes an earlier one of its resource (R51), but one may pass an
earlier one of another resource. (DESIGN CHOICE, log 105) -/
def resumeGo (g : Nat) : List Stalled → List Resource → State → State × List Stalled
  | [], _, s => (s, [])
  | y :: t, blocked, s =>
    if blocked.contains y.res then
      let q := resumeGo g t blocked s
      (q.1, y :: q.2)
    else
      match retryOp (unstall s y) y.ev with
      | .ok s =>
        if sealOp y.ev then
          resumeGo g t (y.res :: blocked) (s.post ⟨s.now, fromSlice g, atSlice g, .stallResume ⟨g⟩⟩)
        else resumeGo g t blocked s
      | .error r =>
        let q := resumeGo g t (r :: y.res :: blocked) (reportLater s g y r)
        (q.1, { y with res := r } :: q.2)

/-- The latches of resources for which nothing is stalled any more are cleared (R52). -/
def unlatch (x : Slice) : Slice := { x with latched := x.latched.filter fun r => x.stalls.any fun y => y.res == r }

def resumeStalls (s : State) (g : Nat) : State :=
  let old := (s.slice g).stalls
  let q := resumeGo g old [] (s.modSlice g fun x => { x with stalls := [] })
  q.1.modSlice g fun x => unlatch { x with stalls := q.2 ++ x.stalls }

/-- Operations withdrawn from the stall queues of slices: those behind them may go on. -/
def withdrawStalls (s : State) (p : Stalled → Bool) : State :=
  (s.slices.filter fun e => e.2.stalls.any p).foldl (fun s e =>
    (s.modSlice e.1 fun x => unlatch { x with stalls := x.stalls.filter fun y => !p y }).post
      ⟨s.now, fromSlice e.1, atSlice e.1, .stallResume ⟨e.1⟩⟩) s

/-! ## Releases, pins and promotions (R41, R43, R59, R60) -/

/-- A release (R36, R41). -/
def tileRelease (s : State) (r : TileRelease) : State :=
  match s.tile r.t with
  | some e =>
    if e.st = .present ∧ e.hold then
      let s := if e.pins = 0 then freeEntry s r.t e
        else (s.setTile r.t { e with st := .deferred }).modSlice r.t.gslice fun x => { x with tvdefer := x.tvdefer + 1 }
      tileAck s r.t r.gti r.id
    else tileRefuse s r.t r.gti r.id (s.thread r.gti).ctx.task (tileFault kTileState r.t r.pc)
  | none => tileRefuse s r.t r.gti r.id (s.thread r.gti).ctx.task (tileFault kTileState r.t r.pc)

/-- The fault of an engine on a version (R43, R44), with its ENGINE code. -/
def engineFault (engine kind : Nat) (r : TileRef) (pc : Word) : FaultRec :=
  { mkFault .tile kind (tileHandle r) with engine := .ofNat 4 engine, info := ⟨0, 0, opcField pc, 0⟩ }

/-- Whether the operation that asks for a pin is still there: a matrix command may have been discarded. -/
def livePin (s : State) (q : TilePin) : Bool :=
  match q.pinner with
  | .matrix core id => (s.core core).deps.any fun e => e.id == id
  | .promotion _ _ _ _ _ _ _ => true

/-- A pin that a discarded task's promotion asked for (R167): the operation ends without one, DISCARDED. -/
def stoppedPin (s : State) (q : TilePin) : Option State :=
  match q.pinner with
  | .promotion g core ctr _ _ _ true => some (engineDone s g core (some ctr) none)
  | _ => none

/-- An engine's pin (R43). -/
def tilePin (s : State) (q : TilePin) : State :=
  if ¬ livePin s q then s
  else if let some s := stoppedPin s q then s
  else match s.tile q.t with
  | some e =>
    if e.st ≠ .present then absent s q
    else if 63 ≤ e.pins then s.setTile q.t { e with pinWait := e.pinWait ++ [q] }
    else
      match q.pinner with
      | .matrix core id => modMx (s.setTile q.t { e with pins := e.pins + 1 }) core id fun x => { x with pins := x.pins ++ [q.t] }
      | .promotion g core ctr toHbm pc task stopped =>
        (s.setTile q.t { e with pins := e.pins + 1, moves := e.moves + 1 }).post
          ⟨s.now, fromThread g, atSlice q.t.gslice, .promotionCompletion ⟨q.t, g, core, ctr, toHbm, pc, task, stopped⟩⟩
  | none => absent s q
where
  absent (s : State) (q : TilePin) : State :=
    match q.pinner with
    | .matrix core id => modMx s core id fun x => { x with failed := some (engineFault 1 kTileState q.t x.pc) }
    | .promotion g core ctr _ pc task _ => engineDone s g core (some ctr) (some { engineFault 4 kTileState q.t pc with task := task })

/-- The pins that waited for one to drop, oldest first, while there is room. -/
def grantPins : List TilePin → State → State
  | [], s => s
  | q :: t, s => grantPins t (tilePin s q)

/-- An unpin (R36). -/
def tileUnpin (s : State) (r : TileRef) : State :=
  match s.tile r with
  | none => s
  | some e =>
    let e := { e with pinWait := e.pinWait.filter (livePin s) }
    if e.pins = 0 then s
    else if 1 < e.pins then grantPins (e.pinWait.take 1) (s.setTile r { e with pins := e.pins - 1, pinWait := e.pinWait.drop 1 })
    else
      match e.st with
      | .deferred => grantPins e.pinWait (freeEntry s r { e with pins := 0, pinWait := [] })
      | _ => grantPins (e.pinWait.take 1) (s.setTile r { e with pins := 0, pinWait := e.pinWait.drop 1 })

/-- The block that a promotion or demotion moves a version to, if it moves it. (DEDUCED, log 92) (DESIGN CHOICE, log 93) -/
def roomToMove (s : State) (p : Promotion) (e : TileEntry) : Option Nat :=
  if e.hbm = p.toHbm then none else if p.toHbm then reserveBlock s p.t.gslice e.size else sramBlock s p.t.gslice e.size

/-- The end of a promotion or demotion (R59, R60): the switch, the unpin and the report to the issuer. A version for which there is no
block stays where it is (NO_SPACE), and so does one that is there already. -/
def promote (s : State) (p : Promotion) : State :=
  match s.readTile p.t with
  | (s, none) => engineDone s p.gti p.core (some p.ctr) none
  | (s, some e) =>
    let e := { e with moves := e.moves - 1 }
    if p.stopped then engineDone (tileUnpin (s.setTile p.t e) p.t) p.gti p.core (some p.ctr) none
    else if e.poison then
      engineDone ((tileUnpin (s.setTile p.t e) p.t).report (poisonReport p.t)) p.gti p.core (some p.ctr)
        (some { engineFault 4 kPoisonedTile p.t p.pc with task := p.task })
    else
      let e := match roomToMove s p e with
        | some b => { e with hbm := p.toHbm, block := b }
        | none => e
      let late := e.st == .deferred
      let s := (s.setTile p.t e).modSlice p.t.gslice fun x => if late then { x with tvlate := x.tvlate + 1 } else x
      let s := wakeStalls (tileUnpin s p.t) (sliceDie p.t.gslice)
      engineDone s p.gti p.core (some p.ctr) none

/-! ## Commit, discard, cancel -/

/-- A version of a task becomes PRESENT at its commit (R47), and the thread has its acknowledgement. -/
def tileCommit (s : State) (q : TileSettle) : State :=
  let s : State := match s.tile q.t with
    | some e => if e.st = .pending ∧ e.task = q.task then makePresent s q.t e else s
    | none => s
  s.modThread q.gti fun t => { t with acks := t.acks - 1 }

/-- A version of a discarded task is freed, or its create withdrawn (R36, R48). -/
def tileDiscard (s : State) (q : TileSettle) : State :=
  let s := withdrawStalls s fun y =>
    match y.ev with
    | .ephemerisCreate c => c.t == q.t && c.task == some q.task
    | _ => false
  match s.tile q.t with
  | some e => if e.st = .pending ∧ e.task = q.task then freeEntry s q.t { e with pinWait := [] } else s
  | none => s

/-- A waiter removed from an entry (R36): AWAITED becomes FREE with the last one. -/
def dropWaiter (s : State) (w : WaiterRef) : State :=
  match s.tile w.t with
  | none => s
  | some e =>
    let s := awake s w.t.gslice
    let ws := e.waiters.filter fun l => l.client != w.client
    if ws.isEmpty && e.st == .awaited then wakeStalls (s.delTile w.t) (sliceDie w.t.gslice) else s.setTile w.t { e with waiters := ws }

/-- Whether a stalled operation is a client's: a thread has one at most. -/
def ofClient (c : TileClient) (y : Stalled) : Bool :=
  match c with
  | .thread g _ => y.gti == g
  | .matrix _ _ => match y.ev with
    | .ephemerisLoad l => l.client == c
    | _ => false

/-- Whether a home still holds a client's tile operation: as a waiter, stalled, or as a message on its way. -/
def opHeld (s : State) (w : WaiterRef) : Bool :=
  ((s.tile w.t).map fun e => e.waiters.any fun l => l.client == w.client).getD false ||
  ((s.slice w.t.gslice).stalls.any (ofClient w.client)) ||
  s.onWay fun e => match e with
    | .ephemerisLoad l => l.client == w.client
    | _ => false

/-- A thread's tile operation is abandoned (R161, R170): nothing of it is left at the home or on its way, and the thread's
result is not expected any more. -/
def abandonOp (s : State) (w : WaiterRef) : State :=
  let s := withdrawStalls (dropWaiter s w) (ofClient w.client)
  let s := { s with agenda := s.agenda.filter fun f =>
      match f.ev with
      | .ephemerisLoad l => l.client != w.client
      | _ => true }
  match w.client with
  | .matrix _ _ => s
  | .thread g id => s.modThread g fun t =>
      { t with out := t.out.filter fun o => o.id != id
               creates := t.creates.filter fun c => !(c == w.t && t.out.any fun o => o.id == id && o.dest == .none)
               stage := .start, checked := false, status := .ready }

/-! ## The steps -/

/-- EPHEMERIS_LOAD (R36, R39, R56). -/
def execEphemerisLoad (o : TileLoad) (s : State) : Host.Outcome State Fault Refusal :=
  finish s <| atHome s o.t.gslice (.ephemerisLoad o) fun s => tileOp (s.serve o.t.gslice) (.ephemerisLoad o)

/-- EPHEMERIS_RELEASE (R36, R41). -/
def execEphemerisRelease (o : TileRelease) (s : State) : Host.Outcome State Fault Refusal :=
  finish s <| atHome s o.t.gslice (.ephemerisRelease o) fun s => tileRelease (s.serve o.t.gslice) o

/-- EPHEMERIS_PIN (R43). -/
def execEphemerisPin (o : TilePin) (s : State) : Host.Outcome State Fault Refusal :=
  finish s <| atHome s o.t.gslice (.ephemerisPin o) fun s => tilePin (s.serve o.t.gslice) o

/-- EPHEMERIS_UNPIN (R36, R43). -/
def execEphemerisUnpin (o : TileRef) (s : State) : Host.Outcome State Fault Refusal :=
  finish s <| atHome s o.gslice (.ephemerisUnpin o) fun s => tileUnpin (s.serve o.gslice) o

/-- EPHEMERIS_COMMIT (R47). -/
def execEphemerisCommit (o : TileSettle) (s : State) : Host.Outcome State Fault Refusal :=
  finish s <| atHome s o.t.gslice (.ephemerisCommit o) fun s => tileCommit (s.serve o.t.gslice) o

/-- EPHEMERIS_DISCARD (R48). -/
def execEphemerisDiscard (o : TileSettle) (s : State) : Host.Outcome State Fault Refusal :=
  finish s <| atHome s o.t.gslice (.ephemerisDiscard o) fun s => tileDiscard (s.serve o.t.gslice) o

/-- WAITER_CANCEL (R36, R46, R161): a wait that the home has served already completes. -/
def execWaiterCancel (o : WaiterRef) (s : State) : Host.Outcome State Fault Refusal :=
  finish s <| atHome s o.t.gslice (.waiterCancel o) fun s => if opHeld s o then abandonOp (s.serve o.t.gslice) o else s

/-- SUBSCRIPTION_RECORD (R57). -/
def execSubscriptionRecord (o : SubReq) (s : State) : Host.Outcome State Fault Refusal :=
  finish s <| atHome s o.t.gslice (.subscriptionRecord o) fun s => tileOp (s.serve o.t.gslice) (.subscriptionRecord o)

/-- Threads of a die that wait at its filter on a version run again (R56). -/
def wakeFilter (n : Notice) (t : Nat × Thread) : Thread :=
  if dieOf (coreOf t.1) = dieOf n.core ∧ t.2.ctx.ids.job = n.job ∧
      t.2.status = .waiting (.tile (handleOf n.name n.ver) (sliceModule n.gslice) true) then { t.2 with status := .ready }
  else t.2

/-- The readiness waits of a die's dependency tables on a version are made again (R56, R341). -/
def reissueReady (n : Notice) (s : State) : State :=
  let r : TileRef := ⟨n.gslice, n.job, n.name, n.ver⟩
  (s.cores.filter fun c => dieOf c.1 == dieOf n.core).foldl (fun s c =>
    (c.2.deps.filter fun e => e.job == n.job && (e.tiles.zip (e.ready ++ List.replicate e.tiles.length false)).any fun p => p.1 == r && !p.2).foldl
      (fun s e => s.send (fromThread (c.1 * 16)) (atSlice r.gslice)
        (.ephemerisLoad ⟨r, .matrix c.1 e.id, false, 0, 0, 0, c.1, 0, e.task, e.pc⟩)) s) s

/-- ARRIVAL_NOTICE (R56, R57): at a counter, or at the notice filter of a die. -/
def execArrivalNotice (o : Notice) (s : State) : Host.Outcome State Fault Refusal :=
  finish s <| match o.ctr with
    | some c => bump s o.core c o.job
    | none =>
      let s := { s with threads := tmap (fun g t => wakeFilter o (g, t)) s.threads }
      reissueReady o s

/-- STALL_RESUME (R51). -/
def execStallResume (o : SliceRef) (s : State) : Host.Outcome State Fault Refusal :=
  finish s <| atHome s o.gslice (.stallResume o) fun s => resumeStalls s o.gslice

def Resource.code : Resource → Nat
  | .entries => 0
  | .records => 1
  | .sram => 2
  | .hbm => 3

/-- PRESSURE_REPORT (R52): once while any operation of the resource stays stalled. -/
def execPressureReport (o : Pressure) (s : State) : Host.Outcome State Fault Refusal :=
  finish s <|
    let x := s.slice o.gslice
    match x.stalls.find? fun y => y.res == o.res with
    | none => s
    | some y =>
      if x.latched.contains o.res then s
      else if s.now < y.since + thresh s o.gslice then
        s.later (y.since + thresh s o.gslice - s.now) (fromSlice o.gslice) (atSlice o.gslice) (.pressureReport o)
      else
        (s.setSlice o.gslice { x with latched := x.latched ++ [o.res] }).report
          ⟨sliceModule o.gslice, 3, some y.job, sliceDie o.gslice % 64, 2, o.gslice % 16, y.handle,
            .ofNat 79 (Resource.code o.res + x.tiles.length * 4)⟩

/-- PROMOTION_COMPLETION (R59, R60). -/
def execPromotionCompletion (o : Promotion) (s : State) : Host.Outcome State Fault Refusal :=
  finish s <| atHome s o.t.gslice (.promotionCompletion o) fun s => promote s o

end Sys2Proof.Machine
end

