-- ==== Sys2Proof/Machine/Tiles.lean ====
section
/-! DEFINITION. The tile instructions and the device heap (R61 to R64, R304 to R308): OP 0x2A and 0x2B. -/

namespace Sys2Proof.Machine

/-! ## Shared operations -/

/-- The module of a tile form (R32): x0 is the current one. -/
def tileModule (s : State) (g : Nat) (o : OpT) : Nat :=
  if o.e = 0 then moduleOf (coreOf g) else ((s.thread g).x o.e.toNat).toNat

/-- TILE_OPERAND of a name and module (R31, R32, R409). -/
def tileOperandBad (s : State) (g m : Nat) (h : Word) : Bool :=
  bits h 63 24 == 0 || !s.reachable (moduleOf (coreOf g)) (s.thread g).ctx.ids.job m

def tileOperandFault (h : Word) : FaultRec := mkFault .tile kTileOperand h

/-- Whether an earlier tile operation of the thread has yet to reach a home (R127, same destination). -/
def tileOnWay (s : State) (g gslice : Nat) : Bool :=
  (s.onWay fun e => match e with
    | .ephemerisCreate c => c.gti == g && c.t.gslice == gslice
    | .ephemerisLoad l => clientGti l.client == g && l.t.gslice == gslice
    | .ephemerisRelease r => r.gti == g && r.t.gslice == gslice
    | .subscriptionRecord r => r.gti == g && r.t.gslice == gslice
    | _ => false)

/-- The answer to this instruction's own request has come. -/
def orAnswered (i : Iss) (s : State) (k : State → Res) : Res :=
  match (s.thread i.g).stage with
  | .answered _ => .done s
  | _ => k s

/-! ## Creates (R37, R38, R306) -/

/-- The source of a tst, checked precisely at the requester (R20, R29, R306). -/
def tileSource (s : State) (g n : Nat) (ptr : Word) : Option FaultRec :=
  match s.target g ptr n .tile with
  | .error k => some (xlate k ptr)
  | .ok (.remote _ _) => some (xlate kSpaceOp ptr)
  | .ok _ => none

/-- tst (R37, R38, R306). (DEDUCED, log 31) -/
def execTst (o : OpT) (s : State) : Host.Outcome State Fault Refusal :=
  finish s <| issue s { Traits.ofT o (fx o.a) (fx o.b) with pol := .taken } fun i s =>
    orAnswered i s fun s => waitField i o.w.toNat s fun s =>
      let t := s.thread i.g
      let h := t.handle o.h.toNat
      let m := tileModule s i.g o
      let b := i.bval t
      let count := bits b 15 0
      let size := bits b 19 16
      let ptr := t.x i.a
      let n := classBytes size
      precise i (orFault (bits b 63 21 != 0) badOperand
        ((tileSource s i.g (if 9 < size then 0 else n) ptr).or
          (orFault (tileOperandBad s i.g m h || count == 0 || decide (9 < size)) (tileOperandFault h)
            (orFault (ptr.toNat % 128 != 0) (mkFault .alignment 0 ptr) none)))) s fun s =>
      fieldGuard i o.w.toNat s fun s =>
      let s := notePolicy i [ptr] s
      withRoomOut i s fun s => withWritten i s fun s => withUnits i [] 1 s fun s => Res.orHeld s <|
        let r := readBytes s i.g ptr n .tile false gkLoad i.pc
        match r.2 with
        | .error f => answerFault i f r.1
        | .ok bs =>
          let q := expect r.1 i .none 1 false h
          let t := q.1.thread i.g
          let ref := tileRef m t.ctx.ids.job h
          let s := q.1.modThread i.g fun t => { t with creates := t.creates ++ [ref] }
          .wait .answer (s.send (fromThread i.g) (atSlice ref.gslice)
            (.ephemerisCreate ⟨ref, i.g, q.2, size, count, bit b 20, byteTable 0 bs, some t.ctx.task, i.pc⟩))

/-! ## Loads (R39, R56, R306) -/

/-- Where a tile load writes: own scratchpad; a fault for any other place (R306). -/
def tileDest (g len : Nat) (ptr : Word) : Except FaultRec Nat :=
  match ownOnly g ptr with
  | .error k => .error (xlate k ptr)
  | .ok off => if len ≠ 0 ∧ Config.scratchBytes < off + len then .error (xlate kWindowBound ptr) else .ok off

/-- tld and tldc: the whole version, or a range, into the own scratchpad; its return is an acquire. -/
def tileLoadOp (s : State) (o : OpT) (consume : Bool) : State :=
  issue s (Traits.ofT o (fx o.a) (fx o.b)) fun i s =>
    match (s.thread i.g).stage with
    | .answered _ | .sent => withAcquire i s fun s => .done s
    | _ => waitField i o.w.toNat s fun s =>
      let t := s.thread i.g
      let h := t.handle o.h.toNat
      let m := tileModule s i.g o
      let b := i.bval t
      let off := bits b 15 0
      let len := bits b 31 16
      let bad := bits b 63 32 != 0 || off % 128 != 0 || len % 128 != 0 || decide (65536 < off + len)
      if bad then .trap badOperand s
      else
        match tileDest i.g len (t.x i.a) with
        | .error f => .trap f s
        | .ok pos =>
          if tileOperandBad s i.g m h then .trap (tileOperandFault h) s
          else fieldGuard i o.w.toNat s fun s =>
            withRoomOut i s fun s =>
              let q := expect s i (.scratch pos) 1 false h
              let ref := tileRef m t.ctx.ids.job h
              .wait (.tile h m false) (q.1.send (fromThread i.g) (atSlice ref.gslice)
                (.ephemerisLoad ⟨ref, .thread i.g q.2, consume, off, len, Config.scratchBytes - pos, coreOf i.g, pos, t.ctx.task, i.pc⟩))

/-- tld (R39, R306). -/
def execTld (o : OpT) (s : State) : Host.Outcome State Fault Refusal := finish s (tileLoadOp s o false)

/-- tldc (R39, R306). -/
def execTldc (o : OpT) (s : State) : Host.Outcome State Fault Refusal := finish s (tileLoadOp s o true)

/-! ## Releases, queries and subscriptions -/

/-- trel (R41, R306). -/
def execTrel (o : OpT) (s : State) : Host.Outcome State Fault Refusal :=
  finish s <| issue s (Traits.ofT o (fk o.a) (fk o.b)) fun i s =>
    waitField i o.w.toNat s fun s =>
      let h := (s.thread i.g).handle o.h.toNat
      let m := tileModule s i.g o
      precise i (orFault (tileOperandBad s i.g m h) (tileOperandFault h) none) s fun s =>
      fieldGuard i o.w.toNat s fun s => withRoomOut i s fun s =>
        let q := expect s i .none 1 false h
        let ref := tileRef m (s.thread i.g).ctx.ids.job h
        .done (q.1.send (fromThread i.g) (atSlice ref.gslice) (.ephemerisRelease ⟨ref, i.g, q.2, i.pc⟩))

/-- The query word of an entry, as a task sees it (R42). -/
def queryWord (e : Option TileEntry) (task : BitVec 32) : Word :=
  match e with
  | none => 0
  | some e =>
    if e.st = .pending ∧ e.task ≠ task then .ofNat 64 (bitNat (!e.waiters.isEmpty) * 2 ^ 61)
    else .ofNat 64 (TileSt.code e.st * 2 ^ 61 + e.size * 2 ^ 57 + bitNat e.hbm * 2 ^ 56 + bitNat e.poison * 2 ^ 55 +
      bitNat (e.moves != 0) * 2 ^ 54 + bitNat e.hold * 2 ^ 53 + e.count * 2 ^ 37 + e.pins * 2 ^ 31)

/-- A request that its home answers at once: after the thread's earlier ones to that home (R127). -/
def askHome (i : Iss) (m : Nat) (ref : TileRef) (d : Dest) (s : State) (k : State → Res) : Res :=
  withRoomOut i s fun s =>
    if tileOnWay s i.g ref.gslice then .wait .unit s
    else if linkDown s (moduleOf (coreOf i.g)) m then .done (returnFault i d (mkFault .poison 0 (tileHandle ref)) s)
    else Res.orHeld s (k ((s.overLinks (moduleOf (coreOf i.g)) m).serve ref.gslice))

/-- tqry (R42, R306). -/
def execTqry (o : OpT) (s : State) : Host.Outcome State Fault Refusal :=
  finish s <| issue s (Traits.ofT o (fx o.a) (fk o.b)) fun i s =>
    waitField i o.w.toNat s fun s =>
      let h := (s.thread i.g).handle o.h.toNat
      let m := tileModule s i.g o
      precise i (orFault (tileOperandBad s i.g m h) (tileOperandFault h) none) s fun s =>
      fieldGuard i o.w.toNat s fun s =>
      let ref := tileRef m (s.thread i.g).ctx.ids.job h
      askHome i m ref (.regs [i.a] []) s fun s =>
        let q := expect (awake s ref.gslice) i (.regs [i.a] []) 1 false h
        .done (answer q.1 (fromSlice ref.gslice) i.g q.2
          (.regs [(i.a, queryWord (s.tile ref) (s.thread i.g).ctx.task)] [] 0) none)

/-- tsub (R57, R306). (DEDUCED, log 31) -/
def execTsub (o : OpT) (s : State) : Host.Outcome State Fault Refusal :=
  finish s <| issue s (Traits.ofT o (fx o.a) (fx o.b)) fun i s =>
    orAnswered i s fun s => waitField i o.w.toNat s fun s =>
      let t := s.thread i.g
      let h := t.handle o.h.toNat
      let m := tileModule s i.g o
      let a := t.x i.a
      let vlast := bits (i.bval t) 23 0
      let core := bits a 24 6
      precise i (orFault (bits a 63 25 != 0 || !s.ofJob (moduleOf (coreOf i.g)) t.ctx.ids.job (moduleOf core) ||
          decide (2 ^ 23 - 1 < serial (bits h 23 0) vlast)) badOperand
        (orFault (tileOperandBad s i.g m h) (tileOperandFault h) none)) s fun s =>
      fieldGuard i o.w.toNat s fun s => withRoomOut i s fun s =>
        let q := expect s i .none 1 false h
        let ref := tileRef m t.ctx.ids.job h
        .wait .answer (q.1.send (fromThread i.g) (atSlice ref.gslice) (.subscriptionRecord ⟨ref, i.g, q.2, vlast, core, bits a 5 0⟩))

/-- tunsub (R57, R306). -/
def execTunsub (o : OpT) (s : State) : Host.Outcome State Fault Refusal :=
  finish s <| issue s (Traits.ofT o (fx o.a) (fk o.b)) fun i s =>
    waitField i o.w.toNat s fun s =>
      let t := s.thread i.g
      let h := t.handle o.h.toNat
      let m := tileModule s i.g o
      let a := t.x i.a
      precise i (orFault (bits a 63 25 != 0) badOperand (orFault (tileOperandBad s i.g m h) (tileOperandFault h) none)) s fun s =>
      fieldGuard i o.w.toNat s fun s =>
      let ref := tileRef m t.ctx.ids.job h
      askHome i m ref .none s fun s =>
        let q := expect s i .none 1 false h
        let s := (awake q.1 ref.gslice).modSlice ref.gslice fun x =>
          { x with subs := x.subs.filter fun u =>
              !(u.standing && u.job == ref.job && u.name == ref.name && u.core == bits a 24 6 && u.ctr == bits a 5 0) }
        .done (tileAck (wakeStalls s (sliceDie ref.gslice)) ref i.g q.2)

/-- tmov (R59, R306): an engine request that retires at issue. -/
def execTmov (o : OpT) (s : State) : Host.Outcome State Fault Refusal :=
  finish s <| issue s (Traits.ofT o (fx o.a) (fk o.b)) fun i s =>
    waitField i o.w.toNat s fun s =>
      let t := s.thread i.g
      let h := t.handle o.h.toNat
      let m := tileModule s i.g o
      let a := t.x i.a
      let c := bits a 5 0
      let owner := (tget Arrival.zero (s.core (coreOf i.g)).arrivals c).owner
      precise i (orFault (bits a 63 9 != 0 || bits a 7 6 != 0) badOperand
        (orFault (owner != t.ctx.ids.job) denied (orFault (tileOperandBad s i.g m h) (tileOperandFault h) none))) s fun s =>
      fieldGuard i o.w.toNat s fun s =>
      let ref := tileRef m t.ctx.ids.job h
      let s := s.modThread i.g fun t => { t with engines := t.engines + 1 }
      .done (s.send (fromThread i.g) (atSlice ref.gslice) (.ephemerisPin ⟨ref, .promotion i.g (coreOf i.g) c (bit a 8) i.pc t.ctx.task false⟩))

/-! ## The heap (R61 to R64) -/

/-- Address of a job's heap-table entry (R61), with every bit of the base in use. (DESIGN CHOICE, log 109) -/
def heapEntryAt (s : State) (m job : Nat) : Nat := (s.modu m).xhtbase.toNat / 4096 * 4096 + 16 * job

/-- The heap of a job: its start and the bytes of an arena; none when V = 0 or PAGES is not a nonzero multiple of 64. Bits [124:105] are ignored.
(DESIGN CHOICE, log 109) -/
def heapOf (e : BitVec 128) : Option (Nat × Nat) :=
  let pages := e.toNat / 2 ^ 32 % 2 ^ 32
  if e.getLsbD 127 ∧ pages ≠ 0 ∧ pages % 64 = 0 then some (e.toNat / 2 ^ 64 % 2 ^ 41 * 2 ^ 16, pages / 64 * 2 ^ 16) else none

def State.heapEntry (s : State) (m job : Nat) : BitVec 128 := .ofNat 128 (s.peekNat (heapEntryAt s m job) 16)

/-- The smallest class of n bytes, from class k up. -/
def heapClass (n k : Nat) : Nat → Nat
  | 0 => k
  | f + 1 => if n ≤ classBytes k then k else heapClass n (k + 1) f

/-- The allocated blocks that an arena holds, as ranges. -/
def arenaUsed (a : Arena) (lo hi : Nat) : List (Nat × Nat) :=
  (a.used.filter fun e => decide (lo ≤ e.1 ∧ e.1 < hi)).map fun e => (e.1, classBytes e.2)

/-- The block that the arenas give, the own die's first, then in ascending order (R62). -/
def heapBlock (a : Arena) (start size k own : Nat) (i : Nat) : Nat → Option Nat
  | 0 => none
  | f + 1 =>
    let lo := start + (own + i) % 64 * size
    match allocate (arenaUsed a lo (lo + size)) (classBytes k) lo (lo + size) with
    | some b => some b
    | none => heapBlock a start size k own (i + 1) f

/-- An exhausted allocation (R62): the count, and the flag in MODE 0. -/
def exhaust (s : State) (m job : Nat) : State × Bool :=
  let e := s.heapEntry m job
  let at_ := heapEntryAt s m job
  let n := min (e.toNat % 2 ^ 32 + 1) 0xFFFFFFFF
  let s := s.pokes at_ (leBytes 4 n)
  if e.getLsbD 126 then (s, false) else (s.poke (at_ + 15) (.ofNat 8 (e.toNat / 2 ^ 120 ||| 0x20)), true)

/-- HALLOC of n bytes: the address, or none for the fault of MODE 1. -/
def heapAlloc (s : State) (core job n : Nat) : State × Option Word :=
  let m := moduleOf core
  let fail (s : State) : State × Option Word :=
    let r := exhaust s m job
    (r.1, if r.2 then some 0 else none)
  if n = 0 then (s, some 0)
  else
    match if 65536 < n then none else heapOf (s.heapEntry m job) with
    | none => fail s
    | some (start, size) =>
      let k := heapClass n 0 9
      let a := tget Arena.empty (s.modu m).heap job
      match heapBlock a start size k (dieOf core % 64) 0 64 with
      | none => fail s
      | some b => (s.modModu m fun x => { x with heap := tput x.heap job { a with used := tput a.used b k } }, some (.ofNat 64 b))

/-- halloc (R62, R308). -/
def execHalloc (o : OpR) (s : State) : Host.Outcome State Fault Refusal :=
  finish s <| issue s (Traits.ofR o (fx o.d) (fx o.a) (fk o.b)) fun i s =>
    withRoomOut i s fun s =>
      let n := (s.thread i.g).x i.a
      let r := heapAlloc s (coreOf i.g) (s.thread i.g).ctx.ids.job n.toNat
      match r.2 with
      | none => .done (returnFault i (.regs [i.d] []) (mkFault .tile kHeapExhausted n) r.1)
      | some a =>
        let q := expect r.1 i (.regs [i.d] []) 1 false
        .done (answer q.1 (fromThread i.g) i.g q.2 (.regs [(i.d, a)] [] 0) none)

/-- hfree (R63, R308). Nothing is freed while the job's entry has V = 0: HEAP_FREE. (DESIGN CHOICE, log 109) -/
def execHfree (o : OpR) (s : State) : Host.Outcome State Fault Refusal :=
  finish s <| issue s (Traits.ofR o (fk o.d) (fx o.a) (fk o.b)) fun i s =>
    let p := (s.thread i.g).x i.a
    if p = 0 then .done s
    else waitCounters i (fun _ => true) s fun s =>
      let m := moduleOf (coreOf i.g)
      let job := (s.thread i.g).ctx.ids.job
      let a := tget Arena.empty (s.modu m).heap job
      let inside := match heapOf (s.heapEntry m job) with
        | some (start, size) => decide (start ≤ p.toNat ∧ p.toNat < start + 64 * size)
        | none => false
      if inside && (tfind a.used p.toNat).isSome then
        .done (s.modModu m fun x => { x with heap := tput x.heap job { a with used := tdel a.used p.toNat } })
      else .done (addPend s i (mkFault .tile kHeapFree p))

end Sys2Proof.Machine
end

