-- ==== Sys2Proof/Machine/Matrix.lean ====
section
/-! DEFINITION. The matrix unit, the quantiser and the exact accumulator (R329 to R353, R204, R205, R253 to R261): OP 0x3A, and the
steps of the dependency table and the sequencer. -/

namespace Sys2Proof.Machine

/-! ## Commands (R333 to R335) -/

/-- Word n of a command. -/
def cmdWord (c : BitVec 512) (n : Nat) : Word := .ofNat 64 (c.toNat / 2 ^ (64 * n))

def mxRow0 (c : BitVec 512) : Nat := dbits c 55 50
def mxCol0 (c : BitVec 512) : Nat := dbits c 49 44
def mxM (c : BitVec 512) : Nat := dbits c 43 37
def mxN (c : BitVec 512) : Nat := dbits c 36 30
def mxK (c : BitVec 512) : Nat := dbits c 29 17
def mxAfmt (c : BitVec 512) : Nat := dbits c 16 13
def mxBfmt (c : BitVec 512) : Nat := dbits c 12 9
def mxScm (c : BitVec 512) : Nat := dbits c 8 6
def mxSalen (c : BitVec 512) : Nat := dbits c 111 96
def mxSblen (c : BitVec 512) : Nat := dbits c 95 80

/-- An operand as a command names it: its base and geometry words (R334). -/
structure MxOp where
  base : Word
  geo : Word
  deriving DecidableEq, Repr

def MxOp.src (o : MxOp) : Nat := bits o.geo 63 62
def MxOp.rc (o : MxOp) : Nat := bits o.geo 61 59
def MxOp.tpitch (o : MxOp) : Nat := bits o.geo 55 32
def MxOp.rpitch (o : MxOp) : Nat := bits o.geo 23 0

def mxA (c : BitVec 512) : MxOp := ⟨cmdWord c 4, cmdWord c 5⟩
def mxB (c : BitVec 512) : MxOp := ⟨cmdWord c 6, cmdWord c 7⟩

/-- The operands that a command reads or writes in memory. -/
def mxOps (c : BitVec 512) : List MxOp :=
  match mxKind c with
  | 0 => [mxA c, mxB c]
  | 2 | 3 => [mxA c]
  | _ => []

/-- The weight block of an operand pair, KB by NB (R329). -/
def mxPair (a b : Nat) : Option (Nat × Nat) :=
  if (a = 3 ∧ b = 3) ∨ (a = 2 ∧ b = 2) then some (32, 64)
  else if a = 12 ∧ b = 12 then some (64, 64)
  else if (a = 13 ∧ (b = 13 ∨ b = 12)) ∨ (a = 12 ∧ b = 13) then some (32, 64)
  else if a = 1 ∧ b = 1 then some (8, 64)
  else if a = 0 ∧ b = 0 then some (8, 16)
  else none

/-- The scale-block length (R333, R338). -/
def mxBlock (c : BitVec 512) : Nat :=
  match mxScm c with
  | 2 => 64
  | 3 => 128
  | 4 => 256
  | _ => 32

/-- Whether a command's view is FP64 (R335). -/
def mxWide (c : BitVec 512) : Bool :=
  match mxKind c with
  | 0 => mxAfmt c == 0 && mxBfmt c == 0
  | 2 | 3 => mxAfmt c == 0
  | _ => false

def mxRows (c : BitVec 512) : Nat := if mxWide c then 32 else 64

/-- Whether the region is the whole tile. -/
def mxWhole (c : BitVec 512) : Bool := mxRow0 c == 0 && mxCol0 c == 0 && mxM c == mxRows c && mxN c == 64

/-- A geometry word with a refused value or a reserved bit (R334). -/
def geoBad (o : MxOp) : Bool :=
  o.src == 3 || decide (5 < o.rc) || bits o.geo 58 56 != 0 || bit o.geo 30 ||
  (o.src != 2 && (bit o.geo 31 || bits o.geo 29 24 != 0)) || (o.src == 2 && bit o.geo 31 && bits o.geo 29 24 != 0) ||
  (o.src == 1 && bits o.base 63 5 != 0)

/-- Vector registers that an operand of `rows` rows of `width` elements of e bytes cannot have (R335). -/
def vregBad (o : MxOp) (rows width e k kb : Nat) : Bool :=
  o.src == 1 && (decide (32 < o.base.toNat % 32 + rows) || decide (128 < width * e) || decide (kb < k))

/-- What an MMA is refused for (R335). -/
def mmaBad (c : BitVec 512) : Bool :=
  match mxPair (mxAfmt c) (mxBfmt c) with
  | none => true
  | some (kb, _) =>
    let lens := mxSalen c != 0 || mxSblen c != 0
    decide (mxK c = 0 ∨ 4096 < mxK c) || (mxScm c == 4 && (mxAfmt c == 13 || mxBfmt c == 13)) ||
    (mxScm c == 5 && ((mxA c).src != 0 || (mxB c).src != 0 || (mxA c).rc != 0 || (mxB c).rc != 0 ||
      cmdWord c 2 != 0 || cmdWord c 3 != 0 || lens)) ||
    (mxScm c == 0 && lens) ||
    vregBad (mxA c) (mxM c) (mxK c) (typeBytes (mxAfmt c)) (mxK c) kb ||
    vregBad (mxB c) (mxK c) (mxN c) (typeBytes (mxBfmt c)) (mxK c) kb

/-- What a ZERO is refused for: any field but KIND, TILE, ROW0, COL0, M, N, CV and CTR (R335). -/
def zeroBad (c : BitVec 512) : Bool :=
  dbits c 29 5 != 0 || dbits c 3 0 != 0 || dbits c 121 64 != 0 || dbits c 511 128 != 0

/-- What a LOAD or STORE is refused for (R335). -/
def moveBad (c : BitVec 512) : Bool :=
  mxK c != 0 || mxBfmt c != 0 || mxScm c != 0 || dbits c 3 2 != 0 || dbits c 255 128 != 0 || dbits c 111 80 != 0 ||
  dbits c 511 384 != 0 || (mxA c).src == 1 || decide (3 < mxAfmt c) || (mxKind c == 3 && (mxA c).src == 2)

/-- ILLEGAL_OPERAND (R335). -/
def cmdBad (c : BitVec 512) : Bool :=
  decide (3 < mxKind c) || decide (5 < mxScm c) || dbits c 121 112 != 0 || dbits c 79 64 != 0 || dbits c 59 58 != 0 ||
  dbits c 1 0 != 0 || decide (mxM c = 0 ∨ mxRows c < mxM c ∨ mxN c = 0 ∨ 64 < mxN c) ||
  decide (mxRows c < mxRow0 c + mxM c ∨ 64 < mxCol0 c + mxN c) || geoBad (mxA c) || geoBad (mxB c) ||
  match mxKind c with
  | 0 => mmaBad c
  | 1 => zeroBad c
  | _ => moveBad c

/-- The module of a tile operand (R334). -/
def MxOp.module (o : MxOp) (core : Nat) : Nat := if bit o.geo 31 then moduleOf core else bits o.geo 29 24

/-- A thread holds a tile (R331). -/
def holdsTile (s : State) (g tile : Nat) : Bool := (tget Acc.zero (s.core (coreOf g)).acc tile).holders.contains g

/-- What a command is refused with at acceptance (R335, R332, R303). -/
def cmdFault (s : State) (g : Nat) (c : BitVec 512) : Option FaultRec :=
  let core := coreOf g
  let t := s.thread g
  let ctrBad := match mxCtr c with
    | some k => (tget Arrival.zero (s.core core).arrivals k).owner != t.ctx.ids.job
    | none => false
  orFault (cmdBad c) badOperand
    (orFault (!holdsTile s g (mxTile c) || ctrBad) denied
      (((mxOps c).find? fun o => o.src == 2 && tileOperandBad s g (o.module core) o.base).map fun o => tileOperandFault o.base))

/-- The readiness waits of an accepted command (R341). -/
def askReady (core : Nat) (e : MxEntry) : List TileRef → State → State
  | [], s => s
  | r :: t, s =>
    askReady core e t (s.send (fromThread e.gti) (atSlice r.gslice)
      (.ephemerisLoad ⟨r, .matrix core e.id, false, 0, 0, 0, core, 0, e.task, e.pc⟩))

/-- An accepted command takes an entry (R341). -/
def acceptCommand (s : State) (i : Iss) (c : BitVec 512) : State :=
  let core := coreOf i.g
  let t := s.thread i.g
  let ops := (mxOps c).filter fun o => o.src == 2
  let tiles := ops.map fun o => tileRef (o.module core) t.ctx.ids.job o.base
  let lost := ops.find? fun o => linkDown s (moduleOf core) (o.module core)
  let e : MxEntry :=
    { id := (s.core core).cmdId, gti := i.g, job := t.ctx.ids.job, user := t.ctx.mode == .user, task := t.ctx.task, cmd := c,
      pc := i.pc, tiles := tiles, ready := tiles.map fun _ => false, asked := false, pins := [], begun := false, wrote := false,
      failed := lost.map fun o => mkFault .poison 0 o.base }
  let s := s.modCore core fun k => { k with cmdId := k.cmdId + 1, deps := k.deps ++ [e] }
  let s := modAcc s core (mxTile c) fun a => { a with pend := a.pend + 1 }
  let s := s.modThread i.g fun t => { t with engines := t.engines + 1 }
  kickMatrix (if lost.isSome then s else askReady core e tiles s) core

/-- The dependency table has no entry left: the instruction issues again at its next turn (R341). -/
def withEntry (i : Iss) (s : State) (k : State → Res) : Res :=
  if 16 ≤ (s.core (coreOf i.g)).deps.length then .wait .unit s else k s

/-- A command from registers: checked precisely, then accepted (R346, R348). -/
def submit (i : Iss) (c : BitVec 512) (s : State) : Res :=
  match cmdFault s i.g c with
  | some f => .trap f s
  | none => withEntry i s fun s => .done (acceptCommand s i c)

/-! ## Accumulator tiles (R330) -/

/-- n elements of w bytes of row i from column j up. -/
def accRow (a : Acc) (w i j n : Nat) : List Nat :=
  let lo := w * (64 * i + j)
  lanesGo (8 * w) (leNat (tableBytes (a.data.filter fun e => decide (lo ≤ e.1 ∧ e.1 < lo + w * n)) lo (w * n))) n

/-- The same elements replaced. -/
def setAccRow (a : Acc) (w i j : Nat) (els : List Nat) : Acc :=
  let lo := w * (64 * i + j)
  let n := w * els.length
  { a with data := (a.data.filter fun e => decide (e.1 < lo)) ++ byteTable lo (leBytes n (lanesNat (8 * w) els)) ++
      a.data.filter fun e => decide (lo + n ≤ e.1) }

/-- Arithmetic flags as a tile keeps them (R350): NV, OF, UF, NX, IDIG. -/
def accFlags (f : Flags) : BitVec 5 :=
  .ofNat 5 (bitNat (f.getLsbD 4) * 16 + bitNat (f.getLsbD 2) * 8 + bitNat (f.getLsbD 1) * 4 + bitNat (f.getLsbD 0) * 2 +
    bitNat (f.getLsbD 6))

def Acc.orFlags (a : Acc) (f : Flags) : Acc := { a with flags := a.flags ||| accFlags f }

/-! ## Operand accesses (R336) -/

/-- A list in pieces of n. -/
def piecesOf {α : Type} (n : Nat) (l : List α) : Nat → List (List α)
  | 0 => []
  | k + 1 => l.take n :: piecesOf n (l.drop n) k

/-- The kind with which an operand's pointer in space 2 is refused: the scratchpad of another core (R13, R334). -/
def otherCore (g : Nat) (p : Word) : Option Nat :=
  if bits p 63 60 ≠ 2 then none
  else match ownOnly g p with
    | .ok _ => none
    | .error k => some k

/-- n bytes at a base plus an offset, one line at a time, or under a bank rotation one element of e bytes at a time (R68); a faulting
access is named by its own pointer. -/
def readRun (s : State) (g : Nat) (pc base : Word) (e rc r off n : Nat) : Nat → State × Except FaultRec (List Byte)
  | 0 => (s, .ok [])
  | fuel + 1 =>
    if n = 0 then (s, .ok [])
    else
      let p := base + .ofNat 64 off
      let turn := rc != 0 && (bits p 63 60 == 1 || bits p 63 60 == 2)
      let k := min n (if turn then e else 128 - p.toNat % 128)
      let q : State × Except FaultRec (List Byte) := match otherCore g p with
        | some kind => (s, .error (xlate kind p))
        | none => readBytes s g (if turn then rotPtr p r rc else p) k .load true gkLoad pc
      match q.2 with
      | .error f => (q.1, .error f)
      | .ok bs =>
        let z := readRun q.1 g pc base e rc r (off + k) (n - k) fuel
        match z.2 with
        | .error f => (z.1, .error f)
        | .ok cs => (z.1, .ok (bs ++ cs))

/-- n elements of e bytes of an operand, from an offset up, in row r of its rotation. -/
def mxElems (s : State) (x : MxEntry) (core : Nat) (o : MxOp) (e off n r : Nat) : State × Except FaultRec (List Nat) :=
  let q : State × Except FaultRec (List Byte) :=
    if o.src = 2 then
      let ref := tileRef (o.module core) x.job o.base
      match (s.overLinks (moduleOf core) (o.module core)).readTile ref with
      | (s, none) => (s, .ok (List.replicate (e * n) 0))
      | (s, some t) =>
        if t.poison then (s.report (poisonReport ref), .error (engineFault 1 kPoisonedTile ref x.pc)) else (s, .ok (t.bytes off (e * n)))
    else readRun s x.gti x.pc o.base e o.rc r off (e * n) (e * n)
  match q.2 with
  | .error f => (q.1, .error f)
  | .ok bs => (q.1, .ok ((piecesOf e bs n).map leNat))

/-- Elements of vector register v from lane j up (R336). -/
def vregElems (s : State) (g v e j n : Nat) : List Nat := ((lanes (8 * e) ((s.thread g).vreg (v % 32))).drop j).take n

/-! ## The arithmetic of an accumulator element (R258) -/

/-- An exact sum of products, and its flags. -/
def sumProducts (vs : List (Fv × Fv)) : Fv × Flags :=
  let ps := vs.map fun p => exactMul p.1 p.2
  let bad := (vs.zip ps).any fun q =>
    q.1.1 == .nan true || q.1.2 == .nan true || (q.2.isNan && !q.1.1.isNan && !q.1.2.isNan)
  let both := ps.contains (.inf true) && ps.contains (.inf false)
  let sum := match ps with
    | [] => .fin false 0 0
    | p :: t => t.foldl (exactAdd 1) p
  (sum, flagIf (bad || both) fNV)

/-- A chunk's exact sum. -/
def chunkSum (t : Nat) (xs : List (Nat × Nat)) : Fv × Flags := sumProducts (xs.map fun p => (fpVal t p.1, fpVal t p.2))

/-- A sum under its two scales (R255). -/
def scaled (p q : Nat) (v : Fv × Flags) : Fv × Flags :=
  if p = 255 ∨ q = 255 then (.nan false, v.2 ||| fNV)
  else match v.1 with
    | .fin n m e => (.fin n m (e + (p : Int) + (q : Int) - 254), v.2)
    | w => (w, v.2)

/-- An accumulator element after a floating-point chunk: two roundings. -/
def accChunk (t acc : Nat) (v : Fv × Flags) : FRes :=
  let r : FRes := match v.1 with
    | .nan _ => (canon t, 0)
    | w => roundFv t 1 w
  let z := fpAdd t 1 acc r.1
  (z.1, v.2 ||| r.2 ||| z.2)

/-- An accumulator element after a residue block: one rounding. -/
def accBlock (acc : Nat) (v : Fv × Flags) : FRes :=
  let z := fpResult 1 1 [fpVal 1 acc, v.1] (exactAdd 1 (fpVal 1 acc) v.1)
  (z.1, v.2 ||| z.2)

/-- res_dec of an element of a residue format (R252). -/
def resDec (f b : Nat) : Int × Flags := if f = 12 then resDec8 b else resDec12 b

/-- The flags of invalid digits among elements of a format. -/
def digitFlags (f : Nat) (els : List Nat) : Flags :=
  if f < 12 then 0 else els.foldl (fun z b => z ||| (resDec f b).2) 0

/-- A block sum as the channels recover it (R253, R254). -/
def channels (v : Int) : Int := crtAcc (v % 1021).toNat (v % 1023).toNat (v % 1024).toNat

/-! ## MMA (R337 to R339) -/

/-- An MMA under way: the state, the weights of the block by column, the scale bytes by block, the residue sums that no block has
ended, what has been written, and the fault that ends it. -/
structure Beat where
  s : State
  cols : List (List Nat)
  bsc : List (List Nat)
  asc : List (List Nat)
  sums : List (List Int)
  wrote : Bool
  fault : Option FaultRec
  deriving DecidableEq, Repr

/-- The fixed facts of an MMA. -/
structure Mma where
  x : MxEntry
  core : Nat
  kb : Nat
  nb : Nat
  /-- the latched weights stand (R337) -/
  kept : Option Weights
  deriving DecidableEq, Repr

def Mma.cmd (m : Mma) : BitVec 512 := m.x.cmd
def Mma.esA (m : Mma) : Nat := typeBytes (mxAfmt m.cmd)
def Mma.esB (m : Mma) : Nat := typeBytes (mxBfmt m.cmd)
def Mma.residue (m : Mma) : Bool := decide (12 ≤ mxAfmt m.cmd)
/-- The accumulator's format and element bytes. -/
def Mma.acc (m : Mma) : Nat := if mxWide m.cmd then 0 else 1
def Mma.width (m : Mma) : Nat := if mxWide m.cmd then 8 else 4
def Mma.blocks (m : Mma) : Nat := ceilDiv (mxK m.cmd) (mxBlock m.cmd)

/-- An access of a Beat: its value, or the fault that stops it. -/
def Beat.get {α : Type} (b : Beat) (r : State × Except FaultRec α) (k : α → Beat → Beat) : Beat :=
  match r.2 with
  | .error f => { b with s := r.1, fault := some f }
  | .ok v => k v { b with s := r.1 }

/-- An element list in runs of 32 along K, as the interleaved layout parts it: first element and length. -/
def runs (k0 k1 : Nat) : List (Nat × Nat) :=
  (List.range 3).filterMap fun n =>
    let lo := max k0 ((k0 / 32 + n) * 32)
    let hi := min k1 ((k0 / 32 + n + 1) * 32)
    if lo < hi then some (lo, hi - lo) else none

/-- The interleaved runs of a row, one after the other, each with its scale byte if its scale block ends or the row does (R256). -/
def readRuns (m : Mma) (o : MxOp) (e row : Nat) : List (Nat × Nat) → State → State × Except FaultRec (List Nat × List Nat)
  | [], s => (s, .ok ([], []))
  | (k, n) :: t, s =>
    let r := mxElems s m.x m.core o e (row * o.rpitch + k * e + k / 32) n row
    match r.2 with
    | .error f => (r.1, .error f)
    | .ok els =>
      let q := mxElems r.1 m.x m.core o 1 (row * o.rpitch + min (32 * (k / 32 + 1)) (mxK m.cmd) * e + k / 32) 1 row
      match q.2 with
      | .error f => (q.1, .error f)
      | .ok sc =>
        let z := readRuns m o e row t q.1
        match z.2 with
        | .error f => (z.1, .error f)
        | .ok w => (z.1, .ok (els ++ w.1, sc ++ w.2))

/-- Row i of A for elements k0 to k1 - 1, with its scale bytes where they are interleaved. -/
def readA (m : Mma) (s : State) (i k0 k1 : Nat) : State × Except FaultRec (List Nat × List Nat) :=
  let o := mxA m.cmd
  if mxScm m.cmd = 5 then readRuns m o m.esA i (runs k0 k1) s
  else
    let r : State × Except FaultRec (List Nat) :=
      if o.src = 1 then (s, .ok (vregElems s m.x.gti (o.base.toNat % 32 + i) m.esA k0 (k1 - k0)))
      else mxElems s m.x m.core o m.esA (k0 / m.kb * o.tpitch + i * o.rpitch) (k1 - k0) i
    match r.2 with
    | .error f => (r.1, .error f)
    | .ok els => (r.1, .ok (els, []))

/-- Rows k to k + n - 1 of B, columns j0 to j1 - 1. -/
def readBRows (m : Mma) (j0 j1 : Nat) : Nat → Nat → State → State × Except FaultRec (List (List Nat))
  | _, 0, s => (s, .ok [])
  | k, n + 1, s =>
    let o := mxB m.cmd
    let r : State × Except FaultRec (List Nat) :=
      if o.src = 1 then (s, .ok (vregElems s m.x.gti (o.base.toNat % 32 + k % m.kb) m.esB j0 (j1 - j0)))
      else mxElems s m.x m.core o m.esB (k / m.kb * o.tpitch + k % m.kb * o.rpitch + j0 * m.esB) (j1 - j0) (k % m.kb)
    match r.2 with
    | .error f => (r.1, .error f)
    | .ok els =>
      let z := readBRows m j0 j1 (k + 1) n r.1
      match z.2 with
      | .error f => (z.1, .error f)
      | .ok w => (z.1, .ok (els :: w))

/-- Columns j to j + n - 1 of an interleaved B, with their scale bytes. -/
def readBCols (m : Mma) (k0 k1 : Nat) : Nat → Nat → State → State × Except FaultRec (List (List Nat) × List (List Nat))
  | _, 0, s => (s, .ok ([], []))
  | j, n + 1, s =>
    let r := readRuns m (mxB m.cmd) m.esB j (runs k0 k1) s
    match r.2 with
    | .error f => (r.1, .error f)
    | .ok c =>
      let z := readBCols m k0 k1 (j + 1) n r.1
      match z.2 with
      | .error f => (z.1, .error f)
      | .ok w => (z.1, .ok (c.1 :: w.1, c.2 :: w.2))

/-- Rows of equal length as columns. -/
def transpose (n : Nat) (rows : List (List Nat)) : List (List Nat) := (List.range n).map fun j => rows.map fun r => r.getD j 0

/-- STREAM_DESYNC (R338). -/
def desync (ptr : Word) : FaultRec := mkFault .matrix 0 ptr

/-- The bytes of blocks b to b + n - 1 of a separate scale stream of `len` bytes, `each` of them a block (R256, R338). -/
def readScales (m : Mma) (ptr : Word) (len each : Nat) : Nat → Nat → State → State × Except FaultRec (List (List Nat))
  | _, 0, s => (s, .ok [])
  | b, n + 1, s =>
    if len < (b + 1) * each then (s, .error (desync ptr))
    else
      let r := readRun s m.x.gti m.x.pc ptr 1 0 0 (b * each) each each
      match r.2 with
      | .error f => (r.1, .error f)
      | .ok bs =>
        let z := readScales m ptr len each (b + 1) n r.1
        match z.2 with
        | .error f => (z.1, .error f)
        | .ok w => (z.1, .ok (bs.map (·.toNat) :: w))

/-- Scale blocks that elements k0 to k1 - 1 meet: the first and the number. -/
def Mma.span (m : Mma) (k0 k1 : Nat) : Nat × Nat := (k0 / mxBlock m.cmd, (k1 - 1) / mxBlock m.cmd + 1 - k0 / mxBlock m.cmd)

/-- Whether the scales come in streams of their own. -/
def Mma.separate (m : Mma) : Bool := decide (1 ≤ mxScm m.cmd ∧ mxScm m.cmd ≤ 4)

/-- Every scale reads as 127 (R338). -/
def plainScales (blocks each : Nat) : List (List Nat) := List.replicate blocks (List.replicate each 127)

def setWeights (s : State) (core : Nat) (w : Option Weights) : State := s.modCore core fun c => { c with weights := w }

/-- Whether a command has one column block and one K block (R337). (DEDUCED, log 46) -/
def Mma.single (m : Mma) : Bool := decide (mxK m.cmd ≤ m.kb ∧ mxN m.cmd ≤ m.nb)

/-- WEIGHT_RELOAD (R337): the weights and the B scales of a block; a reload of more than one block leaves the tag unusable. -/
def reload (m : Mma) (b : Beat) (j0 j1 k0 k1 : Nat) : Beat :=
  let c := m.cmd
  match m.kept with
  | some w => { b with cols := w.cols, bsc := w.scales }
  | none =>
    let b := { b with s := setWeights b.s m.core none }
    let r : State × Except FaultRec (List (List Nat) × List (List Nat)) :=
      if mxScm c = 5 then
        let q := readBCols m k0 k1 j0 (j1 - j0) b.s
        match q.2 with
        | .error f => (q.1, .error f)
        | .ok v => (q.1, .ok (v.1, transpose (runs k0 k1).length v.2))
      else
        let q := readBRows m j0 j1 k0 (k1 - k0) b.s
        match q.2 with
        | .error f => (q.1, .error f)
        | .ok rows =>
          let n := m.span k0 k1
          let z : State × Except FaultRec (List (List Nat)) :=
            if m.separate then readScales m (cmdWord c 3) (mxSblen c) (mxN c) n.1 n.2 q.1
            else (q.1, .ok (plainScales n.2 (mxN c)))
          match z.2 with
          | .error f => (z.1, .error f)
          | .ok sc => (z.1, .ok (transpose (j1 - j0) rows, sc.map fun l => (l.drop j0).take (j1 - j0)))
    b.get r fun v b =>
      let s := modAcc b.s m.core (mxTile c) fun a => a.orFlags (digitFlags (mxBfmt c) v.1.flatten)
      let w : Option Weights :=
        if m.single then some ⟨m.x.job, mxBfmt c, mxScm c, cmdWord c 6, cmdWord c 7, cmdWord c 3, v.1, v.2⟩ else none
      { b with s := setWeights s m.core w, cols := v.1, bsc := v.2 }

/-- One accumulator element over the elements of A's row and B's column in a K block, in pieces of one scale block each: its value, the
sum that no block has ended, whether it was written, and the flags. -/
def element (m : Mma) (as bs : List Nat) (k0 : Nat) (sa sb : Nat → Nat) : List (Nat × Nat) → Nat × Int × Bool × Flags → Nat × Int × Bool × Flags
  | [], r => r
  | (k, n) :: t, (acc, sum, w, fl) =>
    let c := m.cmd
    let blk := k / mxBlock c
    let xs := ((as.drop (k - k0)).take n).zip ((bs.drop (k - k0)).take n)
    let start (first : Bool) : Nat := if first && c.getLsbD 2 then 0 else acc
    if m.residue then
      let sum := sum + (xs.map fun p => (resDec (mxAfmt c) p.1).1 * (resDec (mxBfmt c) p.2).1).sum
      if (k + n) % mxBlock c = 0 ∨ k + n = mxK c then
        let r := accBlock (start (blk == 0)) (scaled (sa blk) (sb blk) (ofInt (channels sum), 0))
        element m as bs k0 sa sb t (r.1, 0, true, fl ||| r.2)
      else element m as bs k0 sa sb t (acc, sum, w, fl)
    else
      let r := accChunk m.acc (start (k == 0)) (scaled (sa blk) (sb blk) (chunkSum (mxAfmt c) xs))
      element m as bs k0 sa sb t (r.1, 0, true, fl ||| r.2)

/-- The pieces of a K block: one for floating-point operands, one for each scale block of residue operands. -/
def Mma.pieces (m : Mma) (k0 k1 : Nat) : List (Nat × Nat) :=
  if m.residue then
    (List.range 3).filterMap fun n =>
      let bl := mxBlock m.cmd
      let lo := max k0 ((k0 / bl + n) * bl)
      let hi := min k1 ((k0 / bl + n + 1) * bl)
      if lo < hi then some (lo, hi - lo) else none
  else [(k0, k1 - k0)]

/-- Columns 0 to n - 1 of a row of the block. -/
def rowElements (m : Mma) (b : Beat) (as sas : List Nat) (row k0 k1 b0 : Nat) (old : List Nat) (sums : List Int) :
    Nat → List (Nat × Int × Bool × Flags)
  | 0 => []
  | n + 1 =>
    rowElements m b as sas row k0 k1 b0 old sums n ++
      [element m as (b.cols.getD n []) k0
        (fun k => if mxScm m.cmd = 5 then sas.getD (k - b0) 127 else (b.asc.getD (k - b0) []).getD row 127)
        (fun k => (b.bsc.getD (k - b0) []).getD n 127)
        (m.pieces k0 k1) (old.getD n 0, sums.getD n 0, false, 0)]

/-- Row i of A passes the block (R339). -/
def mmaRow (m : Mma) (j0 j1 k0 k1 i : Nat) (b : Beat) : Beat :=
  let c := m.cmd
  b.get (readA m b.s i k0 k1) fun v b =>
    let a := tget Acc.zero (b.s.core m.core).acc (mxTile c)
    let old := accRow a m.width (mxRow0 c + i) (mxCol0 c + j0) (j1 - j0)
    let els := rowElements m b v.1 v.2 i k0 k1 (m.span k0 k1).1 old (b.sums.getD i []) (j1 - j0)
    let fl := els.foldl (fun z e => z ||| e.2.2.2) (digitFlags (mxAfmt c) v.1)
    let wrote := els.any fun e => e.2.2.1
    let a := if wrote then setAccRow a m.width (mxRow0 c + i) (mxCol0 c + j0) (els.map (·.1)) else a
    { b with
      s := modAcc b.s m.core (mxTile c) fun _ => a.orFlags fl
      sums := setAt b.sums i (els.map (·.2.1))
      wrote := b.wrote || wrote }

def mmaRows (m : Mma) (j0 j1 k0 k1 : Nat) : List Nat → Beat → Beat
  | [], b => b
  | i :: t, b => if b.fault.isSome then b else mmaRows m j0 j1 k0 k1 t (mmaRow m j0 j1 k0 k1 i b)

/-- One block: its reload, the A scales that enter with it, and the rows of A. -/
def mmaBlock (m : Mma) (cb kb : Nat) (b : Beat) : Beat :=
  let c := m.cmd
  let j0 := cb * m.nb
  let j1 := min (mxN c) (j0 + m.nb)
  let k0 := kb * m.kb
  let k1 := min (mxK c) (k0 + m.kb)
  let b := if kb = 0 then { b with sums := List.replicate (mxM c) [] } else b
  let b := reload m b j0 j1 k0 k1
  if b.fault.isSome then b
  else
    let n := m.span k0 k1
    let r : State × Except FaultRec (List (List Nat)) :=
      if m.separate then readScales m (cmdWord c 2) (mxSalen c) (mxM c) n.1 n.2 b.s else (b.s, .ok (plainScales n.2 (mxM c)))
    b.get r fun sc b => mmaRows m j0 j1 k0 k1 (List.range (mxM c)) { b with asc := sc }

def mmaBlocks (m : Mma) : List (Nat × Nat) → Beat → Beat
  | [], b => b
  | (cb, kb) :: t, b => if b.fault.isSome then b else mmaBlocks m t (mmaBlock m cb kb b)

/-- The end of the operand streams: bytes left in a scale stream are a STREAM_DESYNC (R256, R338). -/
def mmaEnd (m : Mma) (b : Beat) : Beat :=
  let c := m.cmd
  if b.fault.isSome ∨ ¬ m.separate then b
  else if m.blocks * mxM c < mxSalen c then { b with fault := some (desync (cmdWord c 2)) }
  else if m.kept.isNone ∧ m.blocks * mxN c < mxSblen c then { b with fault := some (desync (cmdWord c 3)) }
  else b

/-- The latched weights that a command may use as they stand (R337). (DEDUCED, log 46) -/
def keptWeights (s : State) (core kb nb : Nat) (x : MxEntry) : Option Weights :=
  let c := x.cmd
  if c.getLsbD 3 ∧ mxK c ≤ kb ∧ mxN c ≤ nb then
    (s.core core).weights.filter fun w =>
      w.job == x.job && w.bfmt == mxBfmt c && w.scm == mxScm c && w.bbase == cmdWord c 6 && w.bgeo == cmdWord c 7
  else none

/-- What a command's run gives: whether it wrote its tile, and its fault. -/
abbrev Ran := State × Bool × Option FaultRec

def runMma (s : State) (core : Nat) (x : MxEntry) : Ran :=
  match mxPair (mxAfmt x.cmd) (mxBfmt x.cmd) with
  | none => (s, false, some badOperand)
  | some (kb, nb) =>
    let m : Mma := ⟨x, core, kb, nb, keptWeights s core kb nb x⟩
    let blocks := (List.range (ceilDiv (mxN x.cmd) nb)).flatMap fun cb => (List.range (ceilDiv (mxK x.cmd) kb)).map fun k => (cb, k)
    let b := mmaEnd m (mmaBlocks m blocks ⟨s, [], [], [], [], false, none⟩)
    (b.s, b.wrote, b.fault)

/-! ## ZERO, LOAD and STORE (R340) -/

/-- A tile after the first write of a whole-tile ZERO or LOAD: POISON and the flags cleared. -/
def Acc.renew (a : Acc) (whole : Bool) : Acc := if whole then { a with poison := false, flags := 0 } else a

/-- Rows of the region := +0. -/
def zeroRows (c : BitVec 512) : Nat → Acc → Acc
  | 0, a => a
  | n + 1, a => setAccRow (zeroRows c n a) 4 (mxRow0 c + n) (mxCol0 c) (List.replicate (mxN c) 0)

def runZero (s : State) (core : Nat) (x : MxEntry) : Ran :=
  (modAcc s core (mxTile x.cmd) fun a => (zeroRows x.cmd (mxM x.cmd) a).renew (mxWhole x.cmd), true, none)

/-- A memory element in the view's format, widened exactly; a NaN as canonical (R244). -/
def widened (view src b : Nat) : FRes :=
  if (fpVal src b).isNan then (canon view, sigNv (fpVal src b))
  else if view = src then (b, 0)
  else convert view src 1 false b

def loadRows (core : Nat) (x : MxEntry) (view w e : Nat) : List Nat → Ran → Ran
  | [], r => r
  | i :: t, (s, wrote, _) =>
    let c := x.cmd
    let o := mxA c
    let r := mxElems s x core ⟨o.base, o.geo &&& .ofNat 64 (2 ^ 64 - 1 - 7 * 2 ^ 59)⟩ e (i * o.rpitch) (mxN c) 0
    match r.2 with
    | .error f => (r.1, wrote, some f)
    | .ok els =>
      let vs := els.map (widened view (mxAfmt c))
      let fl := vs.foldl (fun z v => z ||| v.2) 0
      loadRows core x view w e t (modAcc r.1 core (mxTile c) fun a =>
        (setAccRow (a.renew (mxWhole c && i == 0)) w (mxRow0 c + i) (mxCol0 c) (vs.map (·.1))).orFlags fl, true, none)

/-- A row written to memory, one line at a time. -/
def writeRun (s : State) (g : Nat) (p : Word) (bs : List Byte) : Nat → State × Option FaultRec
  | 0 => (s, none)
  | fuel + 1 =>
    if bs.isEmpty then (s, none)
    else
      let k := min bs.length (128 - p.toNat % 128)
      let r : State × Except FaultRec Unit := match otherCore g p with
        | some kind => (s, .error (xlate kind p))
        | none => writeBytes s g p (bs.take k) .store gkStore
      match r.2 with
      | .error f => (r.1, some f)
      | .ok _ => writeRun r.1 g (p + .ofNat 64 k) (bs.drop k) fuel

def storeRows (core : Nat) (x : MxEntry) (view w e : Nat) : List Nat → Ran → Ran
  | [], r => r
  | i :: t, (s, _, _) =>
    let c := x.cmd
    let o := mxA c
    let els := accRow (tget Acc.zero (s.core core).acc (mxTile c)) w (mxRow0 c + i) (mxCol0 c) (mxN c)
    let vs := els.map fun b => if view = mxAfmt c then (b, 0) else convert (mxAfmt c) view 1 false b
    let fl := vs.foldl (fun z v => z ||| v.2) 0
    let s := modAcc s core (mxTile c) fun a => a.orFlags fl
    let r := writeRun s x.gti (o.base + .ofNat 64 (i * o.rpitch)) (vs.flatMap fun v => leBytes e v.1) (e * mxN c)
    match r.2 with
    | some f => (r.1, false, some f)
    | none => storeRows core x view w e t (r.1, false, none)

/-! ## The sequencer (R341 to R344, R204, R205) -/

/-- POISONED_ACC (R205). -/
def poisonedAcc : FaultRec := mkFault .matrix 1 0

/-- A command run as a whole, with the mode that it was issued in. (DEDUCED, log 45) -/
def runCommand (s : State) (core : Nat) (x : MxEntry) : Ran :=
  let c := x.cmd
  let mode := (s.thread x.gti).ctx.mode
  let view := if mxWide c then 0 else 1
  let w := if mxWide c then 8 else 4
  let e := typeBytes (mxAfmt c)
  let issued : Mode := if x.user then .user else if mode = .user then .supervisor else mode
  if (tget Acc.zero (s.core core).acc (mxTile c)).poison ∧ (mxKind c = 0 ∨ mxKind c = 3 ∨ ¬ mxWhole c) then
    (s, false, some poisonedAcc)
  else
    let s := s.modCtx x.gti fun t => { t with mode := issued }
    let r := match mxKind c with
      | 0 => runMma s core x
      | 1 => runZero s core x
      | 2 => loadRows core x view w e (List.range (mxM c)) (s, false, none)
      | _ => storeRows core x view w e (List.range (mxM c)) (s, false, none)
    (r.1.modCtx x.gti fun t => { t with mode := mode }, r.2.1, r.2.2)

/-- A command's fault as its issuer observes it: ENGINE 1, its OPC, and the tile that it poisoned (R199, R204). -/
def mxFault (x : MxEntry) (accm : Nat) (f : FaultRec) : FaultRec :=
  { f with engine := 1, task := x.task, pc := none, info := { f.info with opc := opcField x.pc, accm := .ofNat 4 accm } }

/-- The head of the sequencer begins (R342) once the step governor grants its current (R425): it runs, and its end is a step of its own. (DEDUCED, log 45) -/
def beginHead (s : State) (core : Nat) : State :=
  match (s.core core).sequencer with
  | [] => s
  | x :: _ =>
    if x.begun then s
    else if ¬ (s.askGovernor (dieOf core) (commandAmps x)).1 then (s.askGovernor (dieOf core) (commandAmps x)).2
    else
      let r := runCommand (s.askGovernor (dieOf core) (commandAmps x)).2 core x
      let bad := r.2.1 && r.2.2.isSome
      let s := if bad then modAcc r.1 core (mxTile x.cmd) fun a => { a with poison := true } else r.1
      let s := s.modCore core fun c =>
        { c with sequencer := c.sequencer.map fun y =>
            if y.id = x.id then
              { y with begun := true, wrote := r.2.1, failed := r.2.2.map (mxFault x (if bad then 2 ^ mxTile x.cmd else 0)) }
            else y }
      s.post ⟨s.now, fromThread (core * 16), atCore core, .matrixCommandCompletion ⟨core⟩⟩

/-- A command completes DONE or FAULT (R344). After a fault that poisoned a tile, the commands of its task that stand behind it complete
DISCARDED (R204). -/
def completeCommand (s : State) (core : Nat) (x : MxEntry) : State :=
  let s := endEntry s core x
  let late := match x.failed with
    | some f => if f.info.accm = 0 then []
      else ((s.core core).deps ++ (s.core core).sequencer).filter fun y => y.gti == x.gti && y.task == x.task
    | none => []
  let s := (discardEntries core late s).modThread x.gti fun t => { t with engines := t.engines - late.length }
  let s := engineOver s x.gti core (mxCtr x.cmd) (.ofNat 4 (2 ^ mxTile x.cmd)) x.failed
  let s := match mxCtr x.cmd with
    | some c => raiseCount s core c (s.thread x.gti).ctx.ids.job
    | none => s
  evalRaised core (((x :: late).filterMap fun e => mxCtr e.cmd).eraseDups) s

/-- Commands of the table whose readiness wait or pin has failed complete with status FAULT (R43, R341). -/
def failEntries (core : Nat) : List MxEntry → State → State
  | [], s => s
  | x :: t, s =>
    match x.failed with
    | some f => failEntries core t (completeCommand s core { x with failed := some (mxFault x 0 f) })
    | none => failEntries core t s

def askPins (x : MxEntry) : List TileRef → State → Nat → State
  | [], s, _ => s
  | r :: t, s, core => askPins x t (s.send (fromThread x.gti) (atSlice r.gslice) (.ephemerisPin ⟨r, .matrix core x.id⟩)) core

/-- Whether conditions 2 to 4 of R341 hold for an entry. -/
def mayPass (c : Core) (x : MxEntry) : Bool :=
  let ahead := c.deps.filter fun y => decide (y.id < x.id)
  !(ahead.any fun y => mxTile y.cmd == mxTile x.cmd) && !(x.cmd.getLsbD 5 && ahead.any fun y => y.gti == x.gti) &&
  decide (c.sequencer.length < 4)

/-- Entries pass to the sequencer, oldest first (R341); one whose tiles are ready first pins them. -/
def passEntries (core : Nat) : List MxEntry → State → State
  | [], s => s
  | x :: t, s =>
    if x.ready.all id && mayPass (s.core core) x then
      if x.pins.length = x.tiles.length then
        passEntries core t (s.modCore core fun c =>
          { c with deps := c.deps.filter fun y => y.id != x.id, sequencer := c.sequencer ++ [x] })
      else if x.asked then passEntries core t s
      else
        let s := s.modCore core fun c => { c with deps := c.deps.map fun y => if y.id = x.id then { y with asked := true } else y }
        passEntries core t (askPins x x.tiles s core)
    else passEntries core t s

/-- The 128 bytes that a selector of mxmv names (R349). -/
def selected (a : Acc) (sel : Word) : Line :=
  let off := if bit sel 7 then 8 * (64 * bits sel 4 0 + 16 * bits sel 9 8) else 4 * (64 * bits sel 5 0 + 32 * bits sel 6 6)
  lineOf (tableBytes (a.data.filter fun e => decide (off ≤ e.1 ∧ e.1 < off + 128)) off 128)

/-- A tile's command fault that its issuer has not observed. -/
def tileFaulted (mask : BitVec 4) (e : EngFault) : Bool := e.acc &&& mask != 0

/-- A move from a tile whose earlier commands have completed answers: its bytes, or POISONED_ACC (R349, R205). A fault of a command that the
issuer has not observed surfaces elsewhere (R197). (DEDUCED, log 47) -/
def resolveRead (s : State) (core : Nat) (r : MxRead) : State :=
  let a := tget Acc.zero (s.core core).acc r.tile
  let pc := ((s.thread r.gti).out.find? fun o => o.id == r.id).map (·.pc)
  if a.poison then
    refuse s (fromThread r.gti) r.gti (some r.id) none 0
      { poisonedAcc with engine := 1, pc := pc, info := ⟨0, 0, opcField (pc.getD 0), 0⟩ }
  else answer s (fromThread r.gti) r.gti r.id (.regs [] [(r.d, selected a r.sel)] 0) none

def resolveReads (core : Nat) : List MxRead → State → State
  | [], s => s
  | r :: t, s =>
    if ((s.core core).deps ++ (s.core core).sequencer).any fun x => mxTile x.cmd == r.tile && decide (x.id < r.before) then
      resolveReads core t s
    else resolveReads core t (resolveRead (s.modCore core fun c => { c with mxReads := c.mxReads.filter (· != r) }) core r)

/-- MATRIX_DISPATCH (R341, R336 to R340): ready entries pass to the sequencer, and its head begins. -/
def execMatrixDispatch (o : CoreRef) (s : State) : Host.Outcome State Fault Refusal :=
  finish s <| engineHeld (o.core * 16) (.matrixDispatch o) s <|
    let s := failEntries o.core (s.core o.core).deps s
    let s := beginHead (passEntries o.core (s.core o.core).deps s) o.core
    resolveReads o.core (s.core o.core).mxReads s

/-- MATRIX_COMMAND_COMPLETION (R344, R204): the command that has begun ends. -/
def execMatrixCommandCompletion (o : CoreRef) (s : State) : Host.Outcome State Fault Refusal :=
  finish s <|
    match (s.core o.core).sequencer with
    | [] => s
    | x :: _ => if x.begun then completeCommand s o.core x else s

/-! ## Commands from registers and memory (R345 to R348) -/

/-- The words of a command, the first lowest. -/
def cmdOf (ws : List Word) : BitVec 512 := .ofNat 512 (ws.foldr (fun w n => w.toNat + 2 ^ 64 * n) 0)

/-- mxc (R346). -/
def execMxc (o : OpR) (s : State) : Host.Outcome State Fault Refusal :=
  finish s <| issue s { Traits.ofR o (fx o.d) (fx o.a) (fx o.b) with
      imm := none
      group := (3, 1, 1) } fun i s =>
    let t := s.thread i.g
    if 28 < i.d ∨ 30 < i.a ∨ 30 < i.b then .trap illegal s
    else
      submit i (cmdOf [t.x i.d, t.x (i.d + 1), t.x (i.d + 2), t.x (i.d + 3), t.x i.a, t.x (i.a + 1), t.x i.b, t.x (i.b + 1)]) s

/-- Word 0 of a whole-tile command (R348). -/
def wholeCmd (kind tile m afmt : Nat) (cv : Bool) : Nat :=
  kind * 2 ^ 60 + tile * 2 ^ 56 + m * 2 ^ 37 + 64 * 2 ^ 30 + afmt * 2 ^ 13 + bitNat cv * 2 ^ 4

/-- mxz (R348). -/
def execMxz (o : OpR) (s : State) : Host.Outcome State Fault Refusal :=
  finish s <| issue s (Traits.ofR o (fa o.d) (fk o.a) (fk o.b)) fun i s => submit i (.ofNat 512 (wholeCmd 1 i.d 64 0 false)) s

/-- mxld and mxst: a whole-tile LOAD or STORE (R348). -/
def moveTile (o : OpR) (kind : Nat) (s : State) : State :=
  issue s (Traits.ofR o (fa o.d) (fx o.a) (fx o.b)) fun i s =>
    let t := s.thread i.g
    let b := i.bval t
    let afmt := bits b 27 24
    if bits b 31 28 ≠ 0 ∨ bits b 63 39 ≠ 0 then .trap badOperand s
    else
      submit i (.ofNat 512 (wholeCmd kind i.d (if afmt = 0 then 32 else 64) afmt (bit b 38) + bits b 37 32 * 2 ^ 122 +
        (t.x i.a).toNat * 2 ^ 256 + bits b 23 0 * 2 ^ 320)) s

/-- mxld (R348). -/
def execMxld (o : OpR) (s : State) : Host.Outcome State Fault Refusal := finish s (moveTile o 2 s)

/-- mxst (R348). -/
def execMxst (o : OpR) (s : State) : Host.Outcome State Fault Refusal := finish s (moveTile o 3 s)

/-- mxwl (R347): the read, the refusals of the command and the lease faults return under R30. -/
def execMxwl (o : OpR) (s : State) : Host.Outcome State Fault Refusal :=
  finish s <| issue s { Traits.ofR o (fk o.d) (fx o.a) (fk o.b) with pol := .taken } fun i s =>
    let p := (s.thread i.g).x i.a
    if p.toNat % 64 ≠ 0 then .trap (mkFault .alignment 0 p) s
    else withRoomOut i s fun s => withEntry i s fun s => withWritten i s fun s => Res.orHeld s <|
      let s := notePolicy i [p] s
      let r := readBytes s i.g p 64 .load false gkLoad i.pc
      match r.2 with
      | .error f => .done (returnFault i .none f r.1)
      | .ok bs =>
        let c : BitVec 512 := .ofNat 512 (leNat bs)
        match cmdFault r.1 i.g c with
        | some f => .done (returnFault i .none f r.1)
        | none =>
          let q := expect r.1 i .none 1 false
          .done (answer (acceptCommand q.1 i c) (fromThread i.g) i.g q.2 .ack none)

/-! ## Moves, leases and status (R331, R332, R349, R350) -/

/-- mxmv (R349): the read is an acquire, which parks the thread until v[D] is back (R121). -/
def execMxmv (o : OpR) (s : State) : Host.Outcome State Fault Refusal :=
  finish s <| issue s (Traits.ofR o (fv o.d) (fa o.a) (fx o.b)) fun i s => orAcquire i s fun s =>
    let b := i.bval (s.thread i.g)
    let bad := if bit b 7 then bits b 63 10 != 0 || bits b 6 5 != 0 else bits b 63 8 != 0
    if bad then .trap badOperand s
    else if ¬ holdsTile s i.g i.a then .trap denied s
    else withRoomOut i s fun s =>
      let core := coreOf i.g
      let q := expect s i (.regs [] [i.d]) 1 false
      acquired i (kickMatrix (q.1.modCore core fun c => { c with mxReads := c.mxReads ++ [⟨i.g, q.2, i.d, i.a, b, c.cmdId⟩] }) core)

/-- Whether a lease of a tile is granted (R331). -/
def grants (c : Core) (tile : Nat) (shared : Bool) (job launch : Nat) : Bool :=
  let a := tget Acc.zero c.acc tile
  (a.holders.isEmpty && !(c.deps ++ c.sequencer).any fun x => mxTile x.cmd == tile && x.job != job) ||
  (shared && a.shared && !a.holders.isEmpty && a.job == job && a.launch == launch)

/-- A granted lease (R331): a tile of another job is first zeroed. -/
def leaseTo (g job launch : Nat) (shared : Bool) (a : Acc) : Acc :=
  let a := if a.job = job then a else { a with data := [], poison := false, flags := 0 }
  { a with holders := a.holders ++ [g], shared := shared, job := job, launch := launch }

/-- The tiles of a mask requested in turn, 0 to n - 1. -/
def requestTiles (core g job launch : Nat) (mask : Word) (shared : Bool) : Nat → State → State
  | 0, s => s
  | n + 1, s =>
    let s := requestTiles core g job launch mask shared n s
    if bit mask n && !holdsTile s g n && grants (s.core core) n shared job launch then
      modAcc s core n (leaseTo g job launch shared)
    else s

/-- The mask of the tiles a thread holds. -/
def heldMask (s : State) (g : Nat) : Nat :=
  (List.range 4).foldl (fun m k => if holdsTile s g k then m + 2 ^ k else m) 0

/-- mxls (R331). -/
def execMxls (o : OpR) (s : State) : Host.Outcome State Fault Refusal :=
  finish s <| issue s (Traits.ofR o (fx o.d) (fx o.a) (fk o.b)) fun i s =>
    let a := (s.thread i.g).x i.a
    let c := (s.thread i.g).ctx.ids
    if bits a 63 5 ≠ 0 then .trap badOperand s
    else
      let s := requestTiles (coreOf i.g) i.g c.job c.launch a (bit a 4) 4 s
      setD i s (.ofNat 64 (heldMask s i.g))

/-- mxlr (R332). -/
def execMxlr (o : OpR) (s : State) : Host.Outcome State Fault Refusal :=
  finish s <| issue s (Traits.ofR o (fk o.d) (fx o.a) (fk o.b)) fun i s =>
    let a := (s.thread i.g).x i.a
    if bits a 63 4 ≠ 0 then .trap badOperand s
    else .done (s.modCore (coreOf i.g) fun c =>
      { c with acc := tmap (fun k x => if bit a k then { x with holders := x.holders.filter (· != i.g) } else x) c.acc })

/-- The status of a tile (R350). -/
def tileStatus (a : Acc) (g : Nat) : Nat :=
  bitNat (a.pend == 0) * 2 ^ 15 + bitNat a.poison * 2 ^ 14 + bitNat (a.holders.contains g) * 2 ^ 13 +
  bitNat (a.shared && !a.holders.isEmpty) * 2 ^ 12 + min a.pend 15 * 2 ^ 8 + a.flags.toNat

def statusWord (c : Core) (g : Nat) (mask : Word) : Nat :=
  (List.range 4).foldl (fun n k => if bit mask k then n + tileStatus (tget Acc.zero c.acc k) g * 2 ^ (16 * k) else n) 0

/-- The tiles of a mask that are READY. -/
def readyMask (c : Core) (mask : Word) : BitVec 4 :=
  .ofNat 4 ((List.range 4).foldl (fun n k => if bit mask k && (tget Acc.zero c.acc k).pend == 0 then n + 2 ^ k else n) 0)

/-- mxstat (R350): an acquire, which parks the thread until x[D] is back (R121); a command's fault surfaces where its tile is observed READY (R197, R342). -/
def execMxstat (o : OpR) (s : State) : Host.Outcome State Fault Refusal :=
  finish s <| issue s { Traits.ofR o (fx o.d) (fx o.a) (fk o.b) with imm := none } fun i s => orAcquire i s fun s =>
    let a := (s.thread i.g).x i.a
    let core := coreOf i.g
    let mask : BitVec 4 := .ofNat 4 (bits a 3 0)
    if bits a 63 6 ≠ 0 then .trap badOperand s
    else if bit a 4 && readyMask (s.core core) a != mask then .wait (.ready mask) s
    else surfaceEngine i (tileFaulted (readyMask (s.core core) a)) s fun s => withRoomOut i s fun s =>
      let w := statusWord (s.core core) i.g a
      let s := if bit a 5 then s.modCore core fun c =>
          { c with acc := tmap (fun k x => if bit a k && x.holders.contains i.g then { x with flags := 0 } else x) c.acc } else s
      let q := expect s i (.regs [i.d] []) 1 false
      acquired i (answer q.1 (fromThread i.g) i.g q.2 (.regs [(i.d, .ofNat 64 w)] [] 0) none)

/-! ## The quantiser (R352) -/

/-- A value's magnitude. -/
def Fv.magnitude : Fv → Fv
  | .fin _ m e => .fin false m e
  | .inf _ => .inf false
  | .nan q => .nan q

def fvLe (a b : Fv) : Bool := fpOrder a b == some .lt || fpOrder a b == some .eq

/-- Whether an element is an outlier. -/
def outlier (thr : Nat) (x : Fv) : Bool := thr != 255 && (x.isNan || fvLe (.fin false 1 ((thr : Int) - 127)) x.magnitude)

/-- The block's scale code. -/
def qntScale (qmax : Nat) (amax : Fv) : Nat :=
  if fvLe amax (.fin false 0 0) then 127
  else ((List.range 255).find? fun (e : Nat) => fvLe amax (.fin false qmax ((e : Int) - 127))).getD 254

/-- A quantised element and its flags: NX, SAT, NV at bits 0, 1, 2. -/
def qntElem (fmt e : Nat) (x : Fv) : Nat × Nat :=
  match x with
  | .nan _ => (resEnc fmt 0, 4)
  | .inf n => (resEnc fmt (if n then resMin fmt else resMax fmt), 2)
  | .fin n m k =>
    let r := roundInt 1 n m (k + 127 - (e : Int))
    let q := clampRes fmt r.1
    (q.1, bitNat (q.2 != 0) * 2 + bitNat r.2)

/-- The register that qnt gives for its 32 elements, by format. -/
def qntBlock (fmt thr : Nat) (xs : List Fv) : Line :=
  let keep := xs.filter fun x => !outlier thr x && !x.isNan
  let amax := keep.foldl (fun a x => if fvLe a x.magnitude then x.magnitude else a) (.fin false 0 0)
  let e := qntScale (if fmt = 12 then 83 else 1559) amax
  let qs := xs.map fun x => if outlier thr x then (resEnc fmt 0, 0) else qntElem fmt e x
  let w := if fmt = 12 then 1 else 2
  let body := lanesNat (8 * w) (qs.map (·.1))
  .ofNat 1024 (body + (xs.filter (outlier thr)).length * 2 ^ (8 * 124) + qs.foldl (fun z q => z ||| q.2) 0 * 2 ^ (8 * 125) + e * 2 ^ (8 * 127))

/-- A value as BF16, a NaN as canonical (R352). -/
def asBf16 (src b : Nat) : Nat := if (fpVal src b).isNan then 0x7FC0 else if src = 3 then b else (convert 3 src 1 false b).1

/-- The messages of the outliers, the j-th from index i on (R352, R296). -/
def sendOutliers (i : Iss) (job target ctr hoff chan thr src : Nat) (c : PostCtr) : Nat → Nat → List Nat → State → State
  | _, _, [], s => s
  | n, j, b :: t, s =>
    if outlier thr (fpVal src b) then
      let w : Word := .ofNat 64 (asBf16 src b + (chan + n) % 2 ^ 32 * 2 ^ 32)
      sendOutliers i job target ctr hoff chan thr src c (n + 1) (j + 1) t
        ((countPost s i.g c).send (fromThread i.g) (atCore target) (.msendDelivery ⟨i.g, job, target, ctr, hoff + 8 * j, w, c, i.pc, (s.thread i.g).ctx.task⟩))
    else sendOutliers i job target ctr hoff chan thr src c (n + 1) j t s

/-- qnt (R352). -/
def execQnt (o : OpR) (s : State) : Host.Outcome State Fault Refusal :=
  finish s <| issue s { Traits.ofR o (fv o.d) (fv o.a) (fx o.b) with group := (0, 0, 1) } fun i s =>
    let t := s.thread i.g
    let b := i.bval t
    let b1 := t.x (i.b + 1)
    let hoff := bits b 38 20
    let target := bits b 63 45
    let src := if bit b 0 then 3 else 1
    let fmt := if bit b 1 then 13 else 12
    let thr := bits b 19 12
    let els := (lanes (if bit b 0 then 16 else 32) (t.vreg i.a)).take 32
    let xs := els.map (fpVal src)
    let n := (xs.filter (outlier thr)).length
    let c := coreClass (coreOf i.g) target
    precise i (orFault (decide (30 < i.b)) illegal
      (orFault (bits b 11 2 != 0 || bits b1 63 32 != 0 || offJob s i.g target || decide (Config.scratchBytes < hoff + 256)) badOperand
        (orFault (hoff % 8 != 0) (mkFault .alignment 0 (scratchPtr target hoff)) none))) s fun s =>
    let done (s : State) : Res := doneT i s fun t => t.setV i.d (qntBlock fmt thr xs)
    if n = 0 then done s
    else withRelease i (reachScope (coreOf i.g) target) s fun s =>
      if Config.maxPosted < (s.thread i.g).ctx.count c + n then .wait (.room c) (flushWaited s i.g fun x => x == c)
      else done (sendOutliers i t.ctx.ids.job target (bits b 44 39) hoff (bits b1 31 0) thr src c 0 0 els s)

/-! ## The exact accumulator (R260, R261, R353) -/

/-- VAL as an integer, and a value as a multiple of 2^-2148. -/
def Xa.int (x : Xa) : Int := intVal 4220 true x.val.toNat

/-- A term added exactly (R260, R353): the accumulator and XOV. -/
def Xa.add (x : Xa) (v : Fv) : Xa × Flags :=
  match v with
  | .nan _ => ({ x with nan := true }, 0)
  | .inf n => (if n then { x with ninf := true } else { x with pinf := true }, 0)
  | .fin n m e =>
    let d : Int := (m * 2 ^ (e + 2148).toNat : Nat)
    let y := x.int + (if n then -d else d)
    if y < -(2 ^ 4219) ∨ 2 ^ 4219 - 1 < y then ({ x with val := .ofNat 4220 (intBits 4220 y), ovf := true }, fXOV)
    else ({ x with val := .ofNat 4220 (intBits 4220 y) }, 0)

/-- The value that xa denotes (R261), and NV when it is a NaN by OVF. -/
def Xa.value (x : Xa) : Fv × Flags :=
  if x.nan || (x.pinf && x.ninf) then (.nan false, 0)
  else if x.pinf then (.inf false, 0)
  else if x.ninf then (.inf true, 0)
  else if x.ovf then (.nan false, fNV)
  else (.fin (decide (x.int < 0)) x.int.natAbs (-2148), 0)

/-- Flags of a result, unless HMOD.NF holds them back (R249). -/
def noteFlags (i : Iss) (f : Flags) (t : Thread) : Thread := if i.nf then t else t.orFlags f

/-- xaz (R353). -/
def execXaz (o : OpR) (s : State) : Host.Outcome State Fault Refusal :=
  finish s <| issue s (Traits.ofR o (fk o.d) (fk o.a) (fk o.b)) fun i s => doneT i s fun t => { t with xa := Xa.zero }

/-- xafm (R353). -/
def execXafm (o : OpR) (s : State) : Host.Outcome State Fault Refusal :=
  finish s <| issue s { Traits.ofR o (fk o.d) (fx o.a) (fx o.b) with sets := true } fun i s =>
    doneT i s fun t =>
      let a := fpVal 0 (t.x i.a).toNat
      let b := fpVal 0 (i.bval t).toNat
      let p := exactMul a b
      let nv := a == .nan true || b == .nan true || (p.isNan && !a.isNan && !b.isNan)
      let r := t.xa.add (if o.d.getLsbD 0 then p.neg else p)
      noteFlags i (r.2 ||| flagIf nv fNV) { t with xa := r.1 }

/-- xaadd (R353). -/
def execXaadd (o : OpR) (s : State) : Host.Outcome State Fault Refusal :=
  finish s <| issue s { Traits.ofR o (fk o.d) (fx o.a) (fk o.b) with sets := true } fun i s =>
    doneT i s fun t =>
      let a := fpVal 0 (t.x i.a).toNat
      let r := t.xa.add (if o.d.getLsbD 0 then a.neg else a)
      noteFlags i (r.2 ||| sigNv a) { t with xa := r.1 }

/-- xarnd (R353). -/
def execXarnd (o : OpR) (s : State) : Host.Outcome State Fault Refusal :=
  finish s <| issue s { Traits.ofR o (fx o.d) (fk o.a) (fk o.b) with rounds := true, sets := true } fun i s =>
    let v := (s.thread i.g).xa.value
    let r := roundFv 0 (if i.rm = 0 then 1 else i.rm) v.1
    setDF i s (r.1, r.2 ||| v.2)

/-- xasgn (R353). -/
def execXasgn (o : OpR) (s : State) : Host.Outcome State Fault Refusal :=
  finish s <| issue s { Traits.ofR o (fc o.d) (fk o.a) (fk o.b) with sets := true } fun i s =>
    let v := (s.thread i.g).xa.value
    let test := match fpOrder v.1 (.fin false 0 0) with
      | some .lt => o.b == 0
      | some .eq => o.b == 1
      | some .gt => o.b == 2
      | none => false
    doneT i s fun t => noteFlags i (flagIf v.1.isNan fNV) (t.setC i.d test)

end Sys2Proof.Machine
end

