-- ==== Sys2Proof/Machine/Transcend.lean ====
section
/-! DEFINITION. The functions of R316 and R360 in fixed point with 320 fraction bits: what a special-function result may be inside
its error bound, and the correctly rounded sines, cosines and powers of the Orrery. -/

namespace Sys2Proof.Machine

/-! ## Fixed point -/

/-- Fraction bits. -/
def fixP : Nat := 320
def fixOne : Int := 2 ^ fixP

/-- n terms of the series of atan (with `alt`) or atanh of 1/m, from a power and an odd divisor. -/
def inverseGo (alt : Bool) (mm : Nat) : Nat → Nat → Nat → Int
  | 0, _, _ => 0
  | n + 1, pw, d =>
    let rest := inverseGo alt mm n (pw / mm) (d + 2)
    (pw / d : Nat) + (if alt then -rest else rest)

def inverseSeries (alt : Bool) (bits m : Nat) : Int := inverseGo alt (m * m) (bits / 3) (2 ^ bits / m) 1

/-- π and ln 2 with a number of fraction bits. -/
def piFix (bits : Nat) : Int := 4 * (4 * inverseSeries true bits 5 - inverseSeries true bits 239)
def ln2Fix (bits : Nat) : Int := 2 * inverseSeries false bits 3

/-- n terms of the exponential series of r, the k-th being `term`. -/
def expGo (r : Int) : Nat → Int → Int → Int
  | 0, _, _ => 0
  | n + 1, term, k => term + expGo r n (term * r / fixOne / k) (k + 1)

/-- e^x. -/
def expFix (x : Int) : Int :=
  let l := ln2Fix fixP
  let k := x / l
  let m := expGo (x - k * l) 80 fixOne 1
  if 0 ≤ k then m * 2 ^ k.toNat else m / 2 ^ (-k).toNat

/-- n terms of the sine or cosine series of an angle whose square is rr. -/
def sinGo (rr : Int) : Nat → Int → Int → Int
  | 0, _, _ => 0
  | n + 1, term, k => term + sinGo rr n (-(term * rr / fixOne / (k * (k + 1)))) (k + 2)

/-- The angle m × 2^e reduced into one turn. -/
def reduceAngle (m : Int) (e : Int) : Int :=
  let wide : Nat := fixP + 160
  let x : Int := if 0 ≤ e + wide then m * 2 ^ (e + wide).toNat else m / 2 ^ (-(e + wide)).toNat
  let turn := 2 * piFix wide
  let r := x % turn
  (if turn < 2 * r then r - turn else r) / 2 ^ 160

def sinFix (r : Int) : Int := sinGo (r * r / fixOne) 60 r 2
def cosFix (r : Int) : Int := sinGo (r * r / fixOne) 60 fixOne 1

/-- n terms of the series of atanh from a power of z and an odd divisor. -/
def lnGo (zz : Int) : Nat → Int → Int → Int
  | 0, _, _ => 0
  | n + 1, pw, d => pw / d + lnGo zz n (pw * zz / fixOne) (d + 2)

/-- ln of a positive number with fixP fraction bits. -/
def lnFix (x : Nat) : Int :=
  let k : Int := (Nat.log2 x : Int) - fixP
  let m : Int := if 0 ≤ k then (x : Int) / 2 ^ k.toNat else (x : Int) * 2 ^ (-k).toNat
  let z := (m - fixOne) * fixOne / (m + fixOne)
  k * ln2Fix fixP + 2 * lnGo (z * z / fixOne) 110 z 1

/-- A finite value with fixP fraction bits. -/
def toFix (neg : Bool) (m : Nat) (e : Int) : Int :=
  let v : Int := if 0 ≤ e + fixP then (m : Int) * 2 ^ (e + fixP).toNat else (m : Int) / 2 ^ (-(e + fixP)).toNat
  if neg then -v else v

/-- Rounding of a number with fixP fraction bits (R246). -/
def roundFix (t : Nat) (v : Int) : FRes := roundFp t 1 (decide (v < 0)) v.natAbs (-(fixP : Int))

/-! ## The special functions (R316) -/

/-- The functions by number, as F of the VSFN map (R232). -/
def limitFix (lo hi x : Int) : Int := max (lo * fixOne) (min (hi * fixOne) x)

/-- The exact value of a function at a finite operand outside its special cases, to within 2^-300 of its magnitude. -/
def specialExact (fn : Nat) (neg : Bool) (m : Nat) (e : Int) : Int :=
  let x := toFix neg m e
  match fn with
  | 0 => expFix (limitFix (-200) 100 x)
  | 1 => expFix (limitFix (-200) 150 x * ln2Fix fixP / fixOne)
  | 2 => lnFix x.natAbs
  | 3 => lnFix x.natAbs * fixOne / ln2Fix fixP
  | 4 => if x = 0 then 0 else fixOne * fixOne / x
  | 5 => (isqrt ((fixOne * fixOne * fixOne).natAbs / x.natAbs) : Nat)
  | 6 => sinFix (reduceAngle (if neg then -(m : Int) else m) e)
  | 7 => cosFix (reduceAngle (if neg then -(m : Int) else m) e)
  | 8 =>
    let y := expFix (2 * limitFix (-60) 60 x)
    (y - fixOne) * fixOne / (y + fixOne)
  | _ =>
    let y := expFix (limitFix (-200) 100 x)
    y * fixOne / (y + fixOne)

/-- An ulp of FP32 at a magnitude. -/
def ulp32 (v : Int) : Int := 2 ^ (max ((Nat.log2 v.natAbs : Int) - 23) (fixP - 149)).toNat

/-- The error bound: 1 or 2 ulp; absolute 2^-22 for a sine or cosine beyond 65,536. -/
def specialBound (fn : Nat) (big : Bool) (v : Int) : Int :=
  if (fn = 6 ∨ fn = 7) ∧ big then 2 ^ (fixP - 22)
  else if fn = 4 ∨ fn = 5 then ulp32 v
  else 2 * ulp32 v

/-- The value of an FP32 encoding; ∞ as 2^128. -/
def fix32 (b : Nat) : Option Int :=
  match fpVal 1 b with
  | .fin n m e => some (toFix n m e)
  | .inf n => some (toFix n 1 128)
  | .nan _ => none

/-- Whether an FP32 encoding lies within a bound of a value (the value is known to 2^-300). -/
def within (v bound : Int) (b : Nat) : Bool :=
  match fix32 b with
  | some x => decide ((x - v).natAbs * 2 ^ 60 ≤ bound.natAbs * (2 ^ 60 + 1))
  | none => false

/-- The flags of an inexact FP32 result. -/
def inexact32 (b : Nat) : Flags :=
  fNX ||| flagIf (b % 2 ^ 31 == (fmt 1).inf) fOF ||| flagIf (decide (b % 2 ^ 31 < 2 ^ 23)) fUF

/-- An integer, if a finite value is one. -/
def integerOf (neg : Bool) (m : Nat) (e : Int) : Option Int :=
  let v : Int := if 0 ≤ e then (m : Int) * 2 ^ e.toNat else (m : Int) / 2 ^ (-e).toNat
  if 0 ≤ e ∨ m % 2 ^ (-e).toNat = 0 then some (if neg then -v else v) else none

/-- The exponent k of a value 2^k. -/
def powerOf (m : Nat) (e : Int) : Option Int := if m = 2 ^ Nat.log2 m then some ((Nat.log2 m : Int) + e) else none

/-- The exact results at finite operands: zeros, 2^x of an integer, log2 of a power of two, ln 1 (R316). -/
def specialFinite (fn : Nat) (neg : Bool) (m : Nat) (e : Int) : Option FRes :=
  let inf := (fmt 1).inf
  let nan : FRes := (canon 1, fNV)
  let one : FRes := (0x3F800000, 0)
  let zero := decide (m = 0)
  match fn with
  | 0 => if zero then some one else none
  | 1 =>
    if zero then some one
    else match integerOf neg m e with
      | some k => if -149 ≤ k ∧ k ≤ 127 then some (roundFp 1 1 false 1 k) else none
      | none => none
  | 2 =>
    if zero then some (signBits 1 true inf, fDZ)
    else if neg then some nan
    else if powerOf m e = some 0 then some (0, 0) else none
  | 3 =>
    if zero then some (signBits 1 true inf, fDZ)
    else if neg then some nan
    else match powerOf m e with
      | some k => some (roundFv 1 1 (ofInt k))
      | none => none
  | 4 => if zero then some (signBits 1 neg inf, fDZ) else none
  | 5 => if zero then some (signBits 1 neg inf, fDZ) else if neg then some nan else none
  | 6 => if zero then some (signBits 1 neg 0, 0) else none
  | 7 => if zero then some one else none
  | 8 => if zero then some (signBits 1 neg 0, 0) else none
  | _ => if zero then some (0x3F000000, 0) else none

/-- The results at ±∞. -/
def specialInf (fn : Nat) (neg : Bool) : FRes :=
  let inf := (fmt 1).inf
  let nan : FRes := (canon 1, fNV)
  match fn with
  | 0 | 1 => (if neg then 0 else inf, 0)
  | 2 | 3 | 5 => if neg then nan else (if fn = 5 then 0 else inf, 0)
  | 4 => (signBits 1 neg 0, 0)
  | 6 | 7 => nan
  | 8 => (signBits 1 neg 0x3F800000, 0)
  | _ => (if neg then 0 else 0x3F800000, 0)

/-- A special function on a value, in FP32. The bits inside the error bound are the implementation's own, one choice for each
function, format and operand. (DESIGN CHOICE, log 12) -/
def special32 (fn ty operand : Nat) : Fv → FRes
  | .nan q => (canon 1, flagIf q fNV)
  | .inf n => specialInf fn n
  | .fin n m e =>
    match specialFinite fn n m e with
    | some r => r
    | none =>
      let v := specialExact fn n m e
      let big := decide (2 ^ 16 * fixOne < (toFix false m e))
      let own := Config.specialFn fn ty operand % 2 ^ 32
      let r := if within v (specialBound fn big v) own then own else (roundFix 1 v).1
      (r, inexact32 r)

/-- A special function in an element format of type code 1 to 3 (R316). (DESIGN CHOICE, log 12) -/
def specialFp (fn ty a : Nat) : FRes :=
  let r := special32 fn ty (a % 2 ^ (fmt ty).w) (fpVal ty a)
  if ty = 1 then r
  else
    let q := roundFv ty 1 (fpVal 1 r.1)
    (q.1, r.2 ||| q.2)

/-! ## The Orrery (R360) -/

/-- 2^(−2 × LB × i / RL) in FP64. (DEDUCED, log 44) -/
def orreryW (lb i rl : Nat) : FRes :=
  let a := 2 * lb * i
  if a % rl = 0 then roundFp 0 1 false 1 (-((a / rl : Nat) : Int))
  else roundFix 0 (expFix (-((a : Int) * ln2Fix fixP / (rl : Int))))

/-- The cosine and sine of p × w in FP32. (DEDUCED, log 44) -/
def orreryAngle (lb i rl p : Nat) : Nat × Nat :=
  if p = 0 then (0x3F800000, 0)
  else
    match fpVal 0 (orreryW lb i rl).1 with
    | .fin _ m e =>
      let r := reduceAngle ((p * m : Nat) : Int) e
      ((roundFix 1 (cosFix r)).1, (roundFix 1 (sinFix r)).1)
    | _ => (0x3F800000, 0)

end Sys2Proof.Machine
end

