-- ==== Sys2Proof/Machine/Sequence.lean ====
section
/-! DEFINITION. The sequence engine (R137 to R153, R355 to R366): descriptors and positions, sample commits and seals, playback sets,
truncations, frames, cursor reads, the Orrery and attention steps: OP 0x3B and the engine's part of EPHEMERIS_CREATE. -/

namespace Sys2Proof.Machine

/-! ## Descriptors (R137) -/

/-- Bits [hi:lo] of a descriptor, and the descriptor with them replaced. -/
def lbits (d : Line) (hi lo : Nat) : Nat := d.toNat / 2 ^ lo % 2 ^ (hi + 1 - lo)

def putBits (d : Line) (hi lo v : Nat) : Line :=
  .ofNat 1024 (d.toNat / 2 ^ (hi + 1) * 2 ^ (hi + 1) + v % 2 ^ (hi + 1 - lo) * 2 ^ lo + d.toNat % 2 ^ lo)

def sqOpen (d : Line) : Nat := lbits d 1023 960
def sqFqBase (d : Line) : Nat := lbits d 959 896
def sqGen (d : Line) : Nat := lbits d 895 848
def sqPlay (d : Line) : Nat := lbits d 847 800
def sqPname (d : Line) : Nat := lbits d 799 760
def sqRname (d : Line) : Nat := lbits d 759 720
def sqTepoch (d : Line) : Nat := lbits d 719 704
def sqSinkPg (d : Line) : Nat := lbits d 703 688
def sqWinPg (d : Line) : Nat := lbits d 687 672
def sqFqHead (d : Line) : Nat := lbits d 671 656
def sqFqTail (d : Line) : Nat := lbits d 655 640
def sqLayers (d : Line) : Nat := lbits d 639 632
def sqKrow (d : Line) : Nat := lbits d 631 624
def sqVrow (d : Line) : Nat := lbits d 623 616
def sqRotcfg (d : Line) : Nat := lbits d 615 600
def sqPlog (d : Line) : Nat := lbits d 591 589
def sqLate (d : Line) : Bool := d.getLsbD 588
def sqBusy (d : Line) : Bool := d.getLsbD 587
def sqV (d : Line) : Bool := d.getLsbD 0

def sqSetGen (d : Line) (n : Nat) : Line := putBits d 895 848 n
def sqSetPlay (d : Line) (n : Nat) : Line := putBits d 847 800 n
def sqSetTepoch (d : Line) (n : Nat) : Line := putBits d 719 704 n
def sqSetFqTail (d : Line) (n : Nat) : Line := putBits d 655 640 n
def sqSetLate (d : Line) : Line := putBits d 588 588 1
def sqSetBusy (d : Line) (b : Bool) : Line := putBits d 587 587 (bitNat b)

/-! ## Positions, slots and pages (R139, R140) -/

def sqPs (d : Line) : Nat := 2 ^ sqPlog d
def sqSink (d : Line) : Nat := sqSinkPg d * sqPs d
def sqW (d : Line) : Nat := sqWinPg d * sqPs d
/-- Pages of a layer, and bytes of a slot's rows. -/
def sqPages (d : Line) : Nat := sqSinkPg d + sqWinPg d
def sqRow (d : Line) : Nat := 128 * (sqKrow d + sqVrow d)
/-- Bytes that a page needs, and its size class. -/
def sqNeed (d : Line) : Nat := 8 * sqPs d + sqPs d * sqRow d
def sqClass (d : Line) : Nat := heapClass (sqNeed d) 0 9
def sqPageBytes (d : Line) : Nat := classBytes (sqClass d)

def sqSlot (d : Line) (p : Nat) : Nat := if p < sqSink d then p else sqSink d + (p - sqSink d) % sqW d
def sqWgen (d : Line) (p : Nat) : Nat := if p < sqSink d then 0 else (p - sqSink d) / sqW d
def sqPage (d : Line) (p : Nat) : Nat := sqSlot d p / sqPs d
def sqPver (d : Line) (p : Nat) : Nat := sqWgen d p % 2 ^ 24
def sqPageName (d : Line) (l j : Nat) : Nat := sqPname d + l * sqPages d + j

/-- The largest position (R139). -/
def sqLast : Nat := 2 ^ 48 - 2

/-- The resident position of a slot below a cursor (R151). -/
def sqResident (d : Line) (slot gen : Nat) : Option Nat :=
  if gen ≤ slot then none
  else if slot < sqSink d then some slot
  else some (slot + (gen - 1 - slot) / sqW d * sqW d)

/-- SEQ_DESC (R138): OPEN or FQBASE with any of bits [63:57] set is taken as no space-0 pointer. (DESIGN CHOICE, log 111) -/
def sqBad (d : Line) : Bool :=
  !sqV d || lbits d 599 592 != 0 || lbits d 586 1 != 0 || decide (6 < sqPlog d) || sqWinPg d == 0 || sqLayers d == 0 ||
  sqKrow d == 0 || decide (64 < sqKrow d) || sqVrow d == 0 || decide (64 < sqVrow d) || sqPname d == 0 ||
  decide (2 ^ 34 < sqPname d % 2 ^ 34 + sqLayers d * sqPages d) || decide (sqGen d < sqPlay d) ||
  decide (classBytes 9 < sqNeed d) || sqOpen d / 2 ^ 57 != 0 || sqFqBase d / 2 ^ 57 != 0

/-! ## Faults (R153) -/

def kSeqDesc : Nat := 0
def kLateFrame : Nat := 1
def kSeqBound : Nat := 2

def sqFault (kind : Nat) (ptr : Word) : FaultRec := mkFault .sequence kind ptr

/-! ## The engine at the descriptor's home -/

/-- For whom the engine works, and on which sequence: the descriptor's home, linear address and pointer. -/
structure SqAt where
  g : Nat
  core : Nat
  job : Nat
  user : Bool
  gslice : Nat
  addr : Nat
  ptr : Word
  deriving DecidableEq, Repr

/-- The module that holds the sequence's tiles (R137). -/
def SqAt.module (c : SqAt) : Nat := sliceModule c.gslice

/-- The home of a line of the buffers or of the frame queue, as the issuing core places it (R20); user mode has no upper half (R13). -/
def sqPlace (s : State) (c : SqAt) (a : Nat) : Except Nat Nat :=
  if c.user ∧ a / 2 ^ 56 % 2 = 1 then .error kNonCanonical else s.home c.core c.job a

/-- Bytes of linear memory that the engine reads, line by line; a fault names its piece. -/
def sqReadGo (c : SqAt) : List (Nat × Nat × Nat) → State → State × Except FaultRec (List Byte)
  | [], s => (s, .ok [])
  | (a, _, n) :: t, s =>
    let ptr : Word := .ofNat 64 a
    match sqPlace s c a with
    | .error k => (s, .error (xlate k ptr))
    | .ok g =>
      if linkDown s c.module (sliceModule g) then (s, .error (mkFault .poison 0 ptr))
      else
        let r := readLine (s.overLinks c.module (sliceModule g)) g c.job (a / 128) (wordSpan (a % 128) n) c.user false
        match r.2 with
        | .error e => (r.1, .error (mkFault e.1 e.2 ptr))
        | .ok (l, _) =>
          let q := sqReadGo c t r.1
          match q.2 with
          | .error f => (q.1, .error f)
          | .ok bs => (q.1, .ok (lineSlice l (a % 128) n ++ bs))

def sqRead (s : State) (c : SqAt) (a n : Nat) : State × Except FaultRec (List Byte) := sqReadGo c (splitLines (a % 2 ^ 57) n) s

/-- Bytes of linear memory that the engine writes, as home writes (R92). -/
def sqWriteGo (c : SqAt) (bs : List Byte) : List (Nat × Nat × Nat) → State → State × Except FaultRec Unit
  | [], s => (s, .ok ())
  | (a, o, n) :: t, s =>
    let ptr : Word := .ofNat 64 a
    match sqPlace s c a with
    | .error k => (s, .error (xlate k ptr))
    | .ok g =>
      if linkDown s c.module (sliceModule g) then (s, .error (mkFault .poison 0 ptr))
      else
        let part := (bs.drop o).take n
        let r := homeWrite (s.overLinks c.module (sliceModule g)) g c.job (a / 128) c.user (storeMask (a % 128) part) (storeLine (a % 128) part)
        match r.2 with
        | .error e => (r.1, .error (mkFault e.1 e.2 ptr))
        | .ok _ => sqWriteGo c bs t r.1

def sqWrite (s : State) (c : SqAt) (a : Nat) (bs : List Byte) : State × Except FaultRec Unit :=
  sqWriteGo c bs (splitLines (a % 2 ^ 57) bs.length) s

/-- The descriptor as its home has it, for an operation that will write it (R356). -/
def sqFetch (s : State) (c : SqAt) : State × Except FaultRec Line :=
  let r := readLine s c.gslice c.job (c.addr / 128) allWords c.user false
  match r.2 with
  | .error e => (r.1, .error (mkFault e.1 e.2 c.ptr))
  | .ok (l, h) => if permOk h.perms c.user true false then (r.1, .ok l) else (r.1, .error (xlate kPermission c.ptr))

/-- The descriptor checked (R138). -/
def sqTake (s : State) (c : SqAt) : State × Except FaultRec Line :=
  let r := sqFetch s c
  match r.2 with
  | .error f => (r.1, .error f)
  | .ok d => if sqBad d then (r.1, .error (sqFault kSeqDesc c.ptr)) else (r.1, .ok d)

/-- The bytes in which two lines differ. -/
def changedGo : List Byte → List Byte → Nat → Nat
  | a :: as, b :: bs, k => (if a = b then 0 else k) + changedGo as bs (2 * k)
  | _, _, _ => 0

def changed (old new : Line) : Pred := .ofNat 128 (changedGo (lineBytes old) (lineBytes new) 1)

/-- An update of the descriptor: a home write of the bytes that change (R138). -/
def sqPut (s : State) (c : SqAt) (old new : Line) : State :=
  if old = new then s else (homeWrite s c.gslice c.job (c.addr / 128) false (changed old new) new).1

/-! ## Releases (R144, R147) -/

/-- A version released if it is PRESENT with HOLD, else left alone. -/
def releaseHold (s : State) (r : TileRef) : State :=
  match s.tile r with
  | some e =>
    if e.st = .present ∧ e.hold then
      let s := awake s r.gslice
      if e.pins = 0 then freeEntry s r e
      else (s.setTile r { e with st := .deferred }).modSlice r.gslice fun x => { x with tvdefer := x.tvdefer + 1 }
    else s
  | none => s

def releaseAll : List TileRef → State → State
  | [], s => s
  | r :: t, s => releaseAll t (releaseHold s r)

/-- The live versions of a name from position lo up, below hi, in serial order. -/
def versionsIn (s : State) (m job name lo hi : Nat) : List TileRef :=
  let g := tileSlice m name
  let vs := (liveVersions (s.slice g) job name).filter fun v => decide (serial lo v < hi - lo)
  ((vs.foldl (fun l v => insertSerial lo (v, 0) l) []).map fun e => ⟨g, job, name, e.1⟩)

/-- The recurrent-state versions lo to hi - 1 are released (R144). -/
def releaseStates (s : State) (c : SqAt) (d : Line) (lo hi : Nat) : State :=
  if sqRname d = 0 ∨ hi ≤ lo then s else releaseAll (versionsIn s c.module c.job (sqRname d) lo hi) s

/-! ## Answers -/

/-- The x register that a result of a thread goes to. -/
def resultReg (s : State) (g id : Nat) : Nat :=
  match (s.thread g).out.find? fun o => o.id == id with
  | some o => match o.dest with
    | .regs (d :: _) _ => d
    | _ => 0
  | none => 0

/-- The answer to a sequence operation: its result, or its fault with the PC of the instruction (R153). -/
def sqAnswer (s : State) (c : SqAt) (id : Nat) (pc : Word) (r : Except FaultRec Word) : State :=
  match r with
  | .ok w => answer s (fromSlice c.gslice) c.g id (.regs [(resultReg s c.g id, w)] [] 0) none
  | .error f =>
    refuse s (fromSlice c.gslice) c.g (some id) none 0 { f with pc := some pc, task := (s.thread c.g).ctx.task }

/-! ## Seals (R143) -/

/-- For whom a seal of a slice works. -/
def Seal.at (w : Seal) (gslice : Nat) : SqAt := ⟨w.gti, w.core, w.job, w.user, gslice, w.addr, w.ptr⟩

/-- The version that the seal creates in a layer. -/
def Seal.ref (w : Seal) (gslice layer : Nat) : TileRef :=
  let name := sqPageName w.desc layer (sqPage w.desc w.pos)
  ⟨tileSlice (sliceModule gslice) name, w.job, name, sqPver w.desc w.pos⟩

/-- The seal of a descriptor put in place of what its slice had. -/
def putSeal (s : State) (gslice : Nat) (w : Seal) : State :=
  s.modSlice gslice fun x => { x with seals := (x.seals.filter fun y => !(y.job == w.job && y.addr == w.addr)) ++ [w] }

/-- BUSY is cleared; the rest of the descriptor stands as it is (R143, R147). -/
def clearBusy (s : State) (c : SqAt) : State :=
  let r := readLine s c.gslice c.job (c.addr / 128) allWords false false
  match r.2 with
  | .ok (l, _) => sqPut r.1 c l (sqSetBusy l false)
  | .error _ => r.1

/-- The seal has ended, in a fault or not, and the sample commit is answered. -/
def endSeal (s : State) (gslice : Nat) (w : Seal) (f : Option FaultRec) : State :=
  let c := w.at gslice
  let s := s.modSlice gslice fun x => { x with seals := x.seals.filter fun y => !(y.job == w.job && y.addr == w.addr) }
  let s := clearBusy s c
  sqAnswer s c w.id w.pc (match f with
    | some f => .error f
    | none =>
      match w.bad with
      | some h => .error { mkFault .tile kVersionWindow h with info := ⟨0, 0, opcField w.pc, 0⟩ }
      | none => .ok (.ofNat 64 (sqGen w.desc)))

/-- The create of the layer whose turn it is leaves for its home; after the last layer the seal ends. -/
def sealLayer (s : State) (gslice : Nat) (w : Seal) : State :=
  if sqLayers w.desc ≤ w.layer then endSeal s gslice w none
  else
    let c := w.at gslice
    let n := sqPageBytes w.desc
    let r := sqRead s c (sqOpen w.desc + w.layer * n) n
    match r.2 with
    | .error f => endSeal r.1 gslice w (some f)
    | .ok bs =>
      let t := w.ref gslice w.layer
      (putSeal r.1 gslice w).post ⟨s.now, fromSlice gslice, atSlice t.gslice,
        .ephemerisCreate ⟨t, noThread, gslice, sqClass w.desc, 65535, false, byteTable 0 bs, none, w.pc⟩⟩

/-- The tags of n slots with V cleared from slot k up (R141). -/
def clearTags (bs : List Byte) (keep : Nat → Bool) : List Byte :=
  (bs.zip (List.range bs.length)).map fun e => if e.2 % 8 = 7 ∧ ¬ keep (e.2 / 8) then e.1 &&& 0x7F else e.1

/-- A layer's version has been created (R143 steps 2 and 3): the version before it is released, and the tags of the layer's buffer are
cleared. -/
def sealed (s : State) (gslice : Nat) (w : Seal) (data : Table Byte) : State :=
  let c := w.at gslice
  let t := w.ref gslice w.layer
  let s := if sqSinkPg w.desc ≤ sqPage w.desc w.pos ∧ 1 ≤ sqWgen w.desc w.pos then
      releaseHold s { t with ver := (t.ver + 2 ^ 24 - 1) % 2 ^ 24 }
    else s
  let r := sqWrite s c (sqOpen w.desc + w.layer * sqPageBytes w.desc)
    (clearTags (tableBytes data 0 (8 * sqPs w.desc)) fun _ => false)
  match r.2 with
  | .error f => endSeal r.1 gslice w (some f)
  | .ok _ => sealLayer r.1 gslice { w with layer := w.layer + 1 }

/-- The create of a seal at its home (R143): with the window broken it is not made, and the layer's buffer stays. -/
def sealCreate (s : State) (c : TileCreate) : State :=
  match (s.slice c.id).seals.find? fun w => w.ref c.id w.layer == c.t with
  | none => s
  | some w =>
    if ((s.tile c.t).map (·.stored)).getD false then s.post ⟨s.now, fromSlice c.id, atSlice c.t.gslice, .ephemerisCreate c⟩
    else if ¬ windowOk (s.slice c.t.gslice) c.t then
      sealLayer s c.id { w with layer := w.layer + 1, bad := some (w.bad.getD (tileHandle c.t)) }
    else
      match tileCreate s c (c.gti != noThread) with
      | .ok s => sealed s c.id w c.data
      | .error r => stallOp s c.t.gslice (.ephemerisCreate { c with gti := noThread }) r c.t.job (tileHandle c.t) noThread

/-- EPHEMERIS_CREATE (R36 to R40): a thread's, or the sequence engine's. -/
def execEphemerisCreate (o : TileCreate) (s : State) : Host.Outcome State Fault Refusal :=
  finish s <| atHome s o.t.gslice (.ephemerisCreate o) fun s =>
    match o.task with
    | some _ => tileOp (s.serve o.t.gslice) (.ephemerisCreate o)
    | none => orHeld (s.later 64 (fromSlice o.id) (atSlice o.t.gslice) (.ephemerisCreate o)) (sealCreate s o)

/-! ## Sample commits and playback sets (R145, R146) -/

/-- How a sequence operation ends at its home: with its result, or later. -/
abbrev SqRes := State × Except FaultRec (Option Word)

/-- A sample commit (R145). (DEDUCED, log 48) -/
def sqSample (c : SqAt) (id : Nat) (pc : Word) (p : Nat) (s : State) : SqRes :=
  let r := sqTake s c
  match r.2 with
  | .error f => (r.1, .error f)
  | .ok d =>
    if p ≠ sqGen d then
      (releaseStates r.1 c d (p + 1) (p + 2), .ok (some (.ofNat 64 (2 ^ 63 + sqGen d))))
    else if p = sqLast then (r.1, .error (sqFault kSeqBound c.ptr))
    else
      let seals := sqSlot d (p + 1) % sqPs d == 0
      let d' := sqSetBusy (sqSetGen d (p + 1)) seals
      let s := sqPut r.1 c d d'
      if seals then
        (sealLayer s c.gslice ⟨c.job, c.user, c.core, c.g, id, pc, c.ptr, c.addr, d', p, 0, none⟩, .ok none)
      else (s, .ok (some (.ofNat 64 (p + 1))))

/-- A playback set (R146). -/
def sqSetPlayback (c : SqAt) (q : Nat) (s : State) : SqRes :=
  let r := sqTake s c
  match r.2 with
  | .error f => (r.1, .error f)
  | .ok d =>
    if q < sqPlay d ∨ sqGen d < q then (r.1, .error (sqFault kSeqBound c.ptr))
    else
      let s := releaseStates r.1 c d (sqPlay d) q
      (sqPut s c d (sqSetPlay d q), .ok (some (.ofNat 64 (sqPlay d))))

/-! ## Truncation (R147) -/

/-- The number of the fill of a page that a version is, if it is one of the fills lo to hi - 1: fill k holds positions k × PS up. -/
def fillOf (d : Line) (j v lo hi : Nat) : Option Nat :=
  let k :=
    if j < sqSinkPg d then (if v = 0 ∧ j < hi then some j else none)
    else if hi ≤ j then none
    else
      let top := (hi - 1 - j) / sqWinPg d
      let back := (top + 2 ^ 24 - v % 2 ^ 24) % 2 ^ 24
      if back ≤ top then some (j + (top - back) * sqWinPg d) else none
  match k with
  | some n => if lo ≤ n then some n else none
  | none => none

/-- The versions of a layer's pages on a module that hold positions of the fills lo to hi - 1, with their fills. -/
def livePages (s : State) (m job : Nat) (d : Line) (layer lo hi : Nat) : List (TileRef × Nat) :=
  (s.slices.filter fun e => sliceModule e.1 == m).flatMap fun e =>
    e.2.tiles.filterMap fun t =>
      let name := t.1 / 2 ^ 24 % 2 ^ 40
      let v := t.1 % 2 ^ 24
      let first := sqPageName d layer 0
      if t.1 / 2 ^ 64 = job ∧ first ≤ name ∧ name < first + sqPages d ∧ tileSlice m name = e.1 then
        (fillOf d (name - first) v lo hi).map fun k => (⟨e.1, job, name, v⟩, k)
      else none

/-- The slots of a version below position n of it, with their tags, into the open-page buffer (R147 step 3). -/
def copySlots (s : State) (c : SqAt) (d : Line) (buf n : Nat) (e : TileEntry) : State × Except FaultRec Unit :=
  let r := sqWrite s c buf (e.bytes 0 (8 * n))
  match r.2 with
  | .error f => (r.1, .error f)
  | .ok _ => sqWrite r.1 c (buf + 8 * sqPs d) (e.bytes (8 * sqPs d) (n * sqRow d))

/-- Steps 2 and 3 for one layer: the old fill's tags are cleared, the rows below the cursor return, the versions are released. A poisoned
version gives no rows (R44). -/
def truncateLayer (s : State) (c : SqAt) (d : Line) (cur gen layer : Nat) : State × Except FaultRec Unit :=
  let buf := sqOpen d + layer * sqPageBytes d
  let moved := !(sqPage d cur == sqPage d gen && sqWgen d cur == sqWgen d gen)
  let start := gen - sqSlot d gen % sqPs d
  let r := sqRead s c buf (8 * sqPs d)
  match r.2 with
  | .error f => (r.1, .error f)
  | .ok tags =>
    let w := sqWrite r.1 c buf (clearTags tags fun i => !moved && decide (start + i < cur))
    match w.2 with
    | .error f => (w.1, .error f)
    | .ok _ =>
      let vs := livePages w.1 c.module c.job d layer (cur / sqPs d) (gen / sqPs d)
      let q : State × Except FaultRec Unit :=
        match vs.find? fun v => v.2 == cur / sqPs d && cur % sqPs d != 0 with
        | none => (w.1, .ok ())
        | some v =>
          match w.1.readTile v.1 with
          | (s, none) => (s, .ok ())
          | (s, some e) =>
            if e.st ≠ .present then (s, .ok ())
            else if e.poison then (s.report (poisonReport v.1), .ok ())
            else copySlots s c d buf (cur % sqPs d) e
      match q.2 with
      | .error f => (q.1, .error f)
      | .ok _ => (releaseAll (vs.map (·.1)) q.1, .ok ())

def truncateLayers (c : SqAt) (d : Line) (cur gen : Nat) : Nat → State → State × Except FaultRec Unit
  | 0, s => (s, .ok ())
  | n + 1, s =>
    let r := truncateLayers c d cur gen n s
    match r.2 with
    | .error f => (r.1, .error f)
    | .ok _ => truncateLayer r.1 c d cur gen n

/-- A truncation to a cursor (R147), whole: the descriptor with its new GEN and TEPOCH is `new`. -/
def truncateTo (s : State) (c : SqAt) (d : Line) (cur : Nat) : State × Line × Except FaultRec Unit :=
  let new := sqSetTepoch (sqSetGen d cur) (sqTepoch d + 1)
  let s := sqPut s c d new
  let r := truncateLayers c d cur (sqGen d) (sqLayers d) s
  match r.2 with
  | .error f => (r.1, new, .error f)
  | .ok _ => (releaseStates r.1 c d (cur + 1) (sqGen d + 1), new, .ok ())

/-- An explicit truncation (R147, R362). -/
def sqTruncate (c : SqAt) (cur : Nat) (s : State) : SqRes :=
  let r := sqTake s c
  match r.2 with
  | .error f => (r.1, .error f)
  | .ok d =>
    if cur < sqPlay d ∨ sqGen d < cur then (r.1, .error (sqFault kSeqBound c.ptr))
    else
      let q := truncateTo r.1 c d cur
      match q.2.2 with
      | .error f => (q.1, .error f)
      | .ok _ => (q.1, .ok (some (.ofNat 64 (sqTepoch q.2.1 * 2 ^ 48 + sqGen d))))

/-! ## Frames (R148, R149) -/

/-- A frame-queue entry. -/
def frameEntry (f gen epoch status : Nat) (cookie : Word) (gti : Nat) : List Byte :=
  leBytes 32 (f * 2 ^ 208 + gen * 2 ^ 160 + epoch * 2 ^ 144 + status * 2 ^ 140 + cookie.toNat * 2 ^ 64 + gti % 2 ^ 23)

/-- Whether a frame has to wait for a sequence: for running work (R145), or for room in the queue (R149). -/
def sqHolds (d : Line) : Bool := sqBusy d || (sqFqTail d + 2 ^ 16 - sqFqHead d) % 2 ^ 16 == 64

/-- A frame admitted (R149); none: it goes on waiting. An FQBASE that is not a multiple of 32 is used as it is. (DESIGN CHOICE, log 111) -/
def sqFrame (c : SqAt) (q : FrameReq) (s : State) : State × Option (Except FaultRec Word) :=
  let r := sqTake s c
  match r.2 with
  | .error f => (r.1, some (.error f))
  | .ok d =>
   if sqHolds d then (r.1, none)
   else
    let gen := sqGen d
    let status := if q.f < sqPlay d then 2 else if gen ≤ q.f then 1 else 0
    let u : State × Line × Except FaultRec Unit :=
      if status = 0 then truncateTo r.1 c d q.f else (r.1, if status = 2 then sqSetLate d else d, .ok ())
    match u.2.2 with
    | .error f => (u.1, some (.error f))
    | .ok _ =>
      let n := sqFqTail d
      let w := sqWrite u.1 c (sqFqBase d + n % 64 * 32) (frameEntry q.f gen (sqTepoch u.2.1) status q.cookie q.who)
      let old := if status = 0 then u.2.1 else d
      match w.2 with
      | .error f => (sqPut w.1 c old u.2.1, some (.error f))
      | .ok _ =>
        let s := sqPut w.1 c old (sqSetFqTail u.2.1 (n + 1))
        if status = 2 then (s, some (.error (sqFault kLateFrame c.ptr)))
          else (s, some (.ok (.ofNat 64 (status * 2 ^ 16 + n))))

/-- FRAME_ADMISSION (R149). -/
def execFrameAdmission (o : FrameReq) (s : State) : Host.Outcome State Fault Refusal :=
  finish s <|
    let c : SqAt := ⟨o.gti, coreOf o.gti, o.job, o.user, o.gslice, o.desc, o.ptr⟩
    let r := sqFrame c o s
    orHeld (s.later 64 (fromSlice o.gslice) (atSlice o.gslice) (.frameAdmission o)) <| match r.2 with
    | some x => sqAnswer r.1 c o.id o.pc x
    | none => r.1.urge ⟨s.now, fromSlice o.gslice, atSlice o.gslice, .frameAdmission o⟩

/-- The descriptor as it stands at its home, where it is held there. -/
def sqPeek (s : State) (gslice job addr : Nat) : Option Line :=
  (tfind (s.slice gslice).lines (lineKey job (addr / 128))).map fun h => (committedLine s gslice job (addr / 128) none allWords h).2

/-- Whether a frame waits at its home (R145, R149). A descriptor that a check refuses keeps no frame waiting. -/
def frameWaits (s : State) (o : FrameReq) : Bool :=
  match sqPeek s o.gslice o.job o.desc with
  | none => false
  | some d => !sqBad d && sqHolds d

/-! ## The forms (R355, R356) -/

/-- The sequence of a descriptor pointer, with the precise faults of R356. -/
def sqAt (s : State) (i : Iss) : Except FaultRec SqAt :=
  let t := s.thread i.g
  let ptr := t.x i.a
  match s.resolve i.g ptr .load with
  | .error k => .error (xlate k ptr)
  | .ok (.linear a) =>
    match s.home (coreOf i.g) t.ctx.ids.job a with
    | .error k => .error (xlate k ptr)
    | .ok g =>
      if ptr.toNat % 128 ≠ 0 then .error (mkFault .alignment 0 ptr)
      else .ok ⟨i.g, coreOf i.g, t.ctx.ids.job, t.ctx.mode == .user, g, a, ptr⟩
  | .ok _ => .error (xlate kSpaceOp ptr)

/-- A form on a descriptor: ILLEGAL_OPERAND first, then the faults of the pointer, precisely. -/
def withSeq (i : Iss) (bad : Bool) (s : State) (k : SqAt → State → Res) : Res :=
  match sqAt s i with
  | .error f => if bad then .trap badOperand s else .trap f s
  | .ok c => if bad then .trap badOperand s else k c (s.noteEntries c.core c.job c.addr)

/-- A sequence operation at its home: none of it is done while its link is FAILED (R412). (DEDUCED, log 48) -/
def atSequence (i : Iss) (c : SqAt) (s : State) (k : State → Res) : Res :=
  if linkDown s (moduleOf c.core) c.module then answerFault i (mkFault .poison 0 c.ptr) s else k s

/-- A cursor operation (R145 to R147, R356): released, performed at the home behind running work, its return an acquire. A descriptor that a
check refuses (R138) has no running work to wait for. -/
def cursorOp (o : OpR) (act : Nat → SqAt → Nat → Word → State → SqRes) (s : State) : State :=
  issue s (Traits.ofR o (fx o.d) (fx o.a) (fx o.b)) fun i s =>
    match (s.thread i.g).stage with
    | .answered _ | .sent => withAcquire i s fun s => .done s
    | _ =>
      let p := (i.bval (s.thread i.g)).toNat
      withSeq i (decide (sqLast < p)) s fun c s => withRelease i 5 s fun s => atSequence i c s fun s => Res.orHeld s <|
        let r := sqFetch (s.overLinks (moduleOf c.core) c.module) c
        match r.2 with
        | .error f => answerFault i f r.1
        | .ok d =>
          if sqBusy d ∧ ¬ sqBad d then .wait .unit r.1
          else
            let q := expect r.1 i (.regs [i.d] []) 1 false c.ptr
            let a := act p c q.2 i.rpc q.1
            match a.2 with
            | .error f => .wait .answer (sqAnswer a.1 c q.2 i.rpc (.error f))
            | .ok none => .wait .answer a.1
            | .ok (some w) => .wait .answer (sqAnswer a.1 c q.2 i.rpc (.ok w))

/-- sqsamp (R145, R362). -/
def execSqsamp (o : OpR) (s : State) : Host.Outcome State Fault Refusal :=
  finish s (cursorOp o (fun p c id pc s => sqSample c id pc p s) s)

/-- sqplay (R146, R362). -/
def execSqplay (o : OpR) (s : State) : Host.Outcome State Fault Refusal :=
  finish s (cursorOp o (fun p c _ _ s => sqSetPlayback c p s) s)

/-- sqtrunc (R147, R362). -/
def execSqtrunc (o : OpR) (s : State) : Host.Outcome State Fault Refusal :=
  finish s (cursorOp o (fun p c _ _ s => sqTruncate c p s) s)

/-- sqframe (R149, R362). -/
def execSqframe (o : OpR) (s : State) : Host.Outcome State Fault Refusal :=
  finish s <| issue s { Traits.ofR o (fx o.d) (fx o.a) (fx o.b) with
      imm := none
      group := (0, 0, 1) } fun i s =>
    if 30 < i.b then .trap illegal s
    else match (s.thread i.g).stage with
    | .answered _ | .sent => withAcquire i s fun s => .done s
    | _ =>
      let t := s.thread i.g
      let f := (t.x i.b).toNat
      withSeq i (decide (sqLast < f)) s fun c s => withRelease i 5 s fun s => atSequence i c s fun s =>
        let q := expect s i (.regs [i.d] []) 1 false c.ptr
        .wait .answer (q.1.send (fromThread i.g) (atSlice c.gslice)
          (.frameAdmission ⟨i.g, q.2, c.gslice, c.job, c.user, c.addr, f, t.x (i.b + 1), i.rpc, c.ptr, i.g⟩))

/-! ## Reads of a descriptor (R357, R358) -/

/-- A read of the descriptor as an ACQUIRE load makes it (R118, R356): its result, or its fault, in place of data. -/
def sqReadOp (o : OpR) (bad : Word → Bool) (f : Word → Line → Word → Except FaultRec Word) (s : State) : State :=
  issue s (Traits.ofR o (fx o.d) (fx o.a) (fx o.b)) fun i s =>
    if (s.thread i.g).stage = .sent then withAcquire i s fun s => .done s
    else
      let b := i.bval (s.thread i.g)
      withSeq i (bad b) s fun c s => withRoomOut i s fun s => withWritten i s fun s =>
        let dest : Dest := .regs [i.d] []
        Res.orHeld s <|
        let r := readBytes s i.g c.ptr 128 .load false gkLoad i.pc
        match r.2 with
        | .error e => .done (returnFault i dest e r.1)
        | .ok bs =>
          match f b (lineOf bs) c.ptr with
          | .error e => .done (returnFault i dest e r.1)
          | .ok w =>
            let q := expect r.1 i dest 1 false c.ptr
            endAccess i .acquire (answer q.1 (fromSlice c.gslice) i.g q.2 (.regs [(i.d, w)] [] 0) none)

/-- sqslot (R357). -/
def execSqslot (o : OpR) (s : State) : Host.Outcome State Fault Refusal :=
  finish s <| sqReadOp o (fun b => decide (sqLast < b.toNat)) (fun b d ptr =>
    if sqBad d then .error (sqFault kSeqDesc ptr)
    else
      let p := b.toNat
      .ok (.ofNat 64 (bitNat (decide (p < sqSink d)) * 2 ^ 63 + sqPver d p * 2 ^ 32 + sqSlot d p))) s

/-- sqcur (R358). -/
def execSqcur (o : OpR) (s : State) : Host.Outcome State Fault Refusal :=
  finish s <| sqReadOp o (fun b => bits b 63 2 != 0 || bits b 1 0 == 3) (fun b d _ =>
    .ok (.ofNat 64 (match bits b 1 0 with
      | 0 => sqGen d
      | 1 => sqPlay d
      | _ => sqTepoch d + sqFqTail d * 2 ^ 16 + sqFqHead d * 2 ^ 32 + bitNat (sqLate d) * 2 ^ 48 + bitNat (sqBusy d) * 2 ^ 49 +
          bitNat (sqV d) * 2 ^ 50))) s

/-! ## The Orrery (R359 to R361) -/

def rotKfmt (r : Nat) : Nat := r / 2 ^ 14 % 4
def rotLb (r : Nat) : Nat := r / 2 ^ 8 % 64
def rotLen (r : Nat) : Nat := 4 * (r % 256)

/-- The type code of an element format KFMT (R359). -/
def kfmtType (k : Nat) : Nat := if k = 0 then 3 else if k = 1 then 2 else 1

/-- One rotated element: an exact sum of two products, rounded once; an exact zero is +0 (R360, R393). -/
def rotSum (t : Nat) (a b : Fv × Fv) : FRes :=
  let r := sumProducts [a, b]
  match r.1 with
  | .nan _ => (canon t, r.2)
  | .fin _ 0 e => roundFp t 1 false 0 e
  | v => let q := roundFv t 1 v
         (q.1, r.2 ||| q.2)

/-- The elements of a row from element e0 up, e0 even, rotated for a position (R360). -/
def rotateGo (t lb rl p e0 : Nat) : List Nat → List Nat × Flags
  | a :: b :: rest =>
    let cs := orreryAngle lb (e0 % rl / 2) rl p
    let c := fpVal 1 cs.1
    let n := fpVal 1 cs.2
    let x := fpVal t a
    let y := fpVal t b
    let u := rotSum t (x, c) (y, n.neg)
    let v := rotSum t (x, n) (y, c)
    let q := rotateGo t lb rl p (e0 + 2) rest
    (u.1 :: v.1 :: q.1, u.2 ||| v.2 ||| q.2)
  | l => (l, 0)

/-- Elements rotated under a ROTCFG; with LB or RQ zero they pass unchanged. -/
def rotate (cfg p e0 : Nat) (els : List Nat) : List Nat × Flags :=
  if rotLb cfg = 0 ∨ rotLen cfg = 0 then (els, 0) else rotateGo (kfmtType (rotKfmt cfg)) (rotLb cfg) (rotLen cfg) p e0 els

/-- sqrot (R361). -/
def execSqrot (o : OpR) (s : State) : Host.Outcome State Fault Refusal :=
  finish s <| issue s { Traits.ofR o (fv o.d) (fv o.a) (fx o.b) with
      imm := none
      sets := true
      group := (0, 0, 1) } fun i s =>
    let t := s.thread i.g
    let b := t.x i.b
    let b1 := t.x (i.b + 1)
    let cfg := bits b1 15 0
    let w := (fmt (kfmtType (rotKfmt cfg))).w
    if 30 < i.b then .trap illegal s
    else if bits b 63 48 ≠ 0 ∨ sqLast < bits b 47 0 ∨ bits b1 63 29 ≠ 0 ∨ bit b1 16 ∨ rotKfmt cfg = 3 then .trap badOperand s
    else withRoomOut i s fun s =>
      let r := rotate cfg (bits b 47 0) (bits b1 28 16) (lanes w (t.vreg i.a))
      let q := expect s i (.regs [] [i.d]) 1 false
      .done (answer q.1 (fromThread i.g) i.g q.2 (.regs [] [(i.d, ofLanes w r.1)] (if i.nf then 0 else r.2)) none)

/-! ## Attention block steps (R151, R363 to R365) -/

/-- Whether a tag is valid for a position (R141). -/
def tagValid (d : Line) (p : Nat) (tag : Nat) : Bool :=
  tag / 2 ^ 63 % 2 == 1 && tag % 2 ^ 40 == sqWgen d p % 2 ^ 40

/-- Bytes of the open-page buffer of a layer at an offset, with the task's own over them (R130, R365). -/
def bufBytes (s : State) (i : Iss) (d : Line) (layer off n : Nat) : State × Except FaultRec (List Byte) :=
  readBytes s i.g (.ofNat 64 (sqOpen d + layer * sqPageBytes d + off)) n .load true gkLoad i.pc

/-- A conditional pin (R151): taken if the version is PRESENT with fewer than 63 pins. (DEDUCED, log 49) -/
def condPin (s : State) (r : TileRef) : State × Option TileEntry :=
  match s.tile r with
  | some e => if e.st = .present ∧ e.pins < 63 then
      let q := findError (awake s r.gslice) r e
      (q.1.setTile r { q.2 with pins := e.pins + 1 }, some q.2)
    else (s, none)
  | none => (s, none)

/-- A row added to a step's, if its tag is valid for its position (R141, R151). -/
def AttRead.add (a : AttRead) (d : Line) (p : Nat) (tag key val : List Byte) : AttRead :=
  if tagValid d p (leNat tag) then { a with rows := a.rows ++ [⟨p, lanes 16 (lineOf key), lanes 16 (lineOf val)⟩] } else a

/-- The row of a position in the open-page buffer, at byte offsets of its tag, key and value. -/
def attBuffer (i : Iss) (d : Line) (layer p tagAt keyAt valAt : Nat) (a : AttRead) (s : State) : State × AttRead × Option FaultRec :=
  let x := bufBytes s i d layer tagAt 8
  match x.2 with
  | .error f => (x.1, a, some f)
  | .ok tag =>
    let y := bufBytes x.1 i d layer keyAt 128
    match y.2 with
    | .error f => (y.1, a, some f)
    | .ok key =>
      let z := bufBytes y.1 i d layer valAt 128
      match z.2 with
      | .error f => (z.1, a, some f)
      | .ok val => (z.1, a.add d p tag key val, none)

/-- The row of a position in a page version, pinned first if it is not yet; each read may find an error in its data (R44). -/
def attVersion (i : Iss) (d : Line) (r : TileRef) (p tagAt keyAt valAt : Nat) (a : AttRead) (s : State) :
    State × AttRead × Option FaultRec :=
  if a.absent.contains r then (s, a, none)
  else
    let held := a.pins.contains r
    let q : State × Option TileEntry := if held then s.readTile r else condPin s r
    match q.2 with
    | none => (q.1, { a with absent := a.absent ++ [r] }, none)
    | some e =>
      let a := if held then a else { a with pins := a.pins ++ [r] }
      if e.poison then (q.1.report (poisonReport r), a, some (engineFault 5 kPoisonedTile r i.pc))
      else (q.1, a.add d p (e.bytes tagAt 8) (e.bytes keyAt 128) (e.bytes valAt 128), none)

/-- A slot of a page, for a descriptor whose home is on module m: its resident position's row (R151, R364). (DEDUCED, log 49) -/
def attSlot (i : Iss) (m job : Nat) (d : Line) (layer head slot : Nat) (a : AttRead) (s : State) : State × AttRead × Option FaultRec :=
  let gen := sqGen d
  match sqResident d slot gen with
  | none => (s, a, none)
  | some p =>
    let k := slot % sqPs d
    let keyAt := 8 * sqPs d + k * sqRow d + 128 * head
    let valAt := keyAt + 128 * sqKrow d
    if gen - sqSlot d gen % sqPs d ≤ p then attBuffer i d layer p (8 * k) keyAt valAt a s
    else
      let name := sqPageName d layer (slot / sqPs d)
      attVersion i d ⟨tileSlice m name, job, name, sqPver d p⟩ p (8 * k) keyAt valAt a s

/-- Rows in ascending position. -/
def insertRow (r : AttRow) : List AttRow → List AttRow
  | [] => [r]
  | h :: t => if r.pos ≤ h.pos then r :: h :: t else h :: insertRow r t

/-- A row's score in FP32, and the flags of its rotation and sum (R364). -/
def attScore (t cfg head : Nat) (q : List Nat) (r : AttRow) : FRes :=
  let k := rotate cfg r.pos (64 * head) r.key
  let v := sumProducts ((q.zip k.1).map fun p => (fpVal t p.1, fpVal t p.2))
  match v.1 with
  | .nan _ => (canon 1, k.2 ||| v.2)
  | x => let z := roundFv 1 1 x
         (z.1, k.2 ||| v.2 ||| z.2)

/-- The running sum, accumulator and flags of a step. -/
structure AttSum where
  sum : Nat
  acc : List Nat
  flags : Flags
  deriving DecidableEq, Repr

/-- One row's contribution. -/
def attAdd (t mn : Nat) (a : AttSum) (r : AttRow × Nat) : AttSum :=
  let x := fpSub 1 1 r.2 mn
  let w := specialFp 0 1 x.1
  let z := fpAdd 1 1 a.sum w.1
  let os := (a.acc.zip r.1.val).map fun e =>
    let v := convert 1 t 0 false e.2
    let m := fpFma 1 1 w.1 v.1 e.1
    (m.1, v.2 ||| m.2)
  { sum := z.1, acc := os.map (·.1), flags := os.foldl (fun f e => f ||| e.2) (a.flags ||| x.2 ||| w.2 ||| z.2) }

/-- The flags of a step at STAT[23:19]: NV, OF, UF, NX, DZ (R363). -/
def statFlags (f : Flags) : Nat :=
  bitNat (f.getLsbD 4) * 2 ^ 23 + bitNat (f.getLsbD 2) * 2 ^ 22 + bitNat (f.getLsbD 1) * 2 ^ 21 + bitNat (f.getLsbD 0) * 2 ^ 20 +
  bitNat (f.getLsbD 3) * 2 ^ 19

/-- STAT after a step (R363, R364). -/
def attStat (old : Nat) (f : Flags) (epoch : Nat) (part : Bool) : Nat :=
  let v := (old % 2 ^ 24) ||| statFlags f ||| (if part then 2 ^ 16 else 0)
  if v / 2 ^ 18 % 2 = 0 then v / 2 ^ 16 * 2 ^ 16 + epoch + 2 ^ 18
  else if v % 2 ^ 16 ≠ epoch then v ||| 2 ^ 17 else v

/-- The state block after a step (R364): v[D+1], v[D+2], v[D+3]. -/
def attBlock (t cfg head gen epoch : Nat) (part : Bool) (rows : List AttRow) (v0 v1 v2 v3 : Line) : Line × Line × Line :=
  let st := lanes 32 v3
  let m := st.getD 0 0
  let a0 : AttSum := ⟨st.getD 1 0, lanes 32 v1 ++ lanes 32 v2, 0⟩
  let q := lanes 16 v0
  let sc := rows.map fun r => (r, attScore t cfg head q r)
  let f0 := sc.foldl (fun f e => f ||| e.2.2) 0
  let r : Nat × Nat × AttSum :=
    match sc with
    | [] => (m, st.getD 3 0, a0)
    | h :: rest =>
      let mx := rest.foldl (fun (a : FRes) e => let z := fpMinMax 1 true a.1 e.2.1
                                                (z.1, a.2 ||| z.2)) (h.2.1, 0)
      let mn := fpMinMax 1 true m mx.1
      let d := fpSub 1 1 m mn.1
      let c := specialFp 0 1 d.1
      let z := fpMul 1 1 a0.sum c.1
      let os := a0.acc.map fun o => fpMul 1 1 o c.1
      let fl := os.foldl (fun f e => f ||| e.2) (f0 ||| mx.2 ||| mn.2 ||| d.2 ||| c.2 ||| z.2)
      (mn.1, min (st.getD 3 0 + rows.length) 0xFFFFFFFF,
        (sc.map fun e => (e.1, e.2.1)).foldl (attAdd t mn.1) ⟨z.1, os.map (·.1), fl⟩)
  let stat := attStat (st.getD 2 0) r.2.2.flags epoch part
  (ofLanes 32 (r.2.2.acc.take 32), ofLanes 32 (r.2.2.acc.drop 32),
    ofLanes 32 [r.1, r.2.2.sum, stat, r.2.1, gen % 2 ^ 32, gen / 2 ^ 32])

/-- A fault of the sequence engine's step (R197, R365): ENGINE 5, OPC. -/
def attFault (i : Iss) (f : FaultRec) : FaultRec := { f with engine := 5, info := { f.info with opc := opcField i.pc } }

/-- A step that ends in a fault of its engine: it writes nothing, and its pins are dropped (R365). -/
def attFails (i : Iss) (gslice : Nat) (pins : List TileRef) (e : FaultRec) (s : State) : Res :=
  .done (returnFault i (.regs [] [i.d, i.d + 1, i.d + 2, i.d + 3]) (attFault i e)
    (dropPins gslice pins (s.modThread i.g fun t => { t with att := none })))

/-- The step's snapshot: the descriptor as its home has it (R151, R364). -/
def attBegin (i : Iss) (layer head page : Nat) (c : SqAt) (s : State) : Res :=
  let r := readBytes s i.g c.ptr 128 .load true gkLoad i.pc
  match r.2 with
  | .error e => attFails i c.gslice [] e r.1
  | .ok bs =>
    let d := lineOf bs
    if sqBad d then attFails i c.gslice [] (sqFault kSeqDesc c.ptr) r.1
    else if 1 < rotKfmt (sqRotcfg d) ∨ sqLayers d ≤ layer ∨ min (sqKrow d) (sqVrow d) ≤ head ∨ sqPages d ≤ page then
      attFails i c.gslice [] badOperand r.1
    else
      .wait .unit ((r.1.stage i.g .sent).modThread i.g fun t =>
        { t with att := some ⟨d, c.gslice, List.range' (page * sqPs d) (sqPs d), ⟨[], [], []⟩⟩ })

/-- The result of a step that has read its page (R364, R365). -/
def attEnd (i : Iss) (head : Nat) (a : AttRun) (s : State) : Res :=
  let th := s.thread i.g
  let cfg := sqRotcfg a.desc
  let rows := a.read.rows.foldl (fun l e => insertRow e l) []
  let v := attBlock (kfmtType (rotKfmt cfg)) cfg head (sqGen a.desc) (sqTepoch a.desc) (!a.read.absent.isEmpty) rows
    (th.vreg i.d) (th.vreg (i.d + 1)) (th.vreg (i.d + 2)) (th.vreg (i.d + 3))
  let q := expect (s.modThread i.g fun t => { t with att := none }) i (.regs [] [i.d, i.d + 1, i.d + 2, i.d + 3]) 1 false
  let s := answer q.1 (fromSlice a.gslice) i.g q.2
    (.regs [] [(i.d, th.vreg i.d), (i.d + 1, v.1), (i.d + 2, v.2.1), (i.d + 3, v.2.2)] 0) none
  endAccess i .acquire (dropPins a.gslice a.read.pins s)

/-- The next slot of a step under way; after the last its result. The engine reads each slot when its turn comes, so that a truncation
may come between (R152). (DEDUCED, log 49) -/
def attNext (i : Iss) (layer head : Nat) (a : AttRun) (s : State) : Res :=
  match a.todo with
  | [] => attEnd i head a s
  | slot :: rest =>
    let r := attSlot i (sliceModule a.gslice) (s.thread i.g).ctx.ids.job a.desc layer head slot a.read s
    match r.2.2 with
    | some e => attFails i a.gslice r.2.1.pins e r.1
    | none => .wait .unit (r.1.modThread i.g fun t => { t with att := some { a with todo := rest, read := r.2.1 } })

/-- atts (R363 to R365). -/
def execAtts (o : OpR) (s : State) : Host.Outcome State Fault Refusal :=
  finish s <| issue s { Traits.ofR o (fv o.d) (fx o.a) (fx o.b) with group := (3, 0, 0) } fun i s =>
    if 28 < i.d then .trap illegal s
    else
      let b := i.bval (s.thread i.g)
      let layer := bits b 7 0
      let head := bits b 13 8
      match (s.thread i.g).att with
      | some a => Res.orHeld s (attNext i layer head a s)
      | none =>
        if (s.thread i.g).stage = .sent then withAcquire i s fun s => .done s
        else withSeq i (bits b 15 14 != 0 || bits b 63 48 != 0) s fun c s => withRoomOut i s fun s => withWritten i s fun s =>
          Res.orHeld s (attBegin i layer head (bits b 47 16) c s)

end Sys2Proof.Machine
end

