-- ==== Sys2Proof/Machine/Coherence.lean ====
section
/-! DEFINITION. The steps of the homes, copy slices and scratchpads that answer threads (R22, R30, R50, R70, R90 to R113, R115, R125,
R126, R426). A step that needs others first (a collection, a revoke, an invalidation) puts them, and itself after them, at the head
of the agenda. -/

namespace Sys2Proof.Machine

/-! ## Steps that come first -/

/-- A step of a slice, after those it needs: it stays a message of the thread that sent it, in that thread's order (R127), and waits for the
invalidations among them (R99). -/
def afterNeeds (s : State) (g : Nat) (needs : List Event) (ev : Event) : State :=
  urgeAll (fromSlice g) (atSlice g) needs (s.urge ⟨s.now, senderOf g ev, atSlice g, ev⟩)

/-- The fault of a posted write, with the PC of the store as R199 records it. -/
def postedFault (c : Cause) (k : Nat) (w : LineWrite) : FaultRec :=
  { mkFault c k w.ptr with info := ⟨0, 0, opcField w.pc, 0⟩, task := w.task }

/-- The fault response to a posted write (R30). -/
def refuseWrite (s : State) (w : LineWrite) (c : Cause) (k : Nat) : State :=
  refuse s (fromSlice w.gslice) w.gti none (some w.ctr) w.off (postedFault c k w)

/-- A volatile write of a thread has been performed (R125). (DESIGN CHOICE, log 7) -/
def volDone (s : State) (g : Nat) (vol : Bool) : State :=
  if vol && s.hasThread g then s.modThread g fun t => { t with volatiles := t.volatiles - 1 } else s

/-- A commit of a thread has been acknowledged by one home (R128). (DESIGN CHOICE, log 7) -/
def commitAck (s : State) (g : Nat) : State :=
  if s.hasThread g then s.modThread g fun t => { t with acks := t.acks - 1 } else s

/-! ## Reads (R22, R90, R93, R101, R102) -/

/-- A fault response to one read (R30). -/
def refuseRead (s : State) (src : Nat) (r : HomeReq) (f : FaultRec) : State :=
  refuse s src r.gti (some r.id) none r.off { f with addr := r.ptr, pc := some r.pc, task := r.task }

/-- The access of a read, as it asks for the line's permissions (R22), and whether it allocates at the least-recent position (R77). -/
def readFill (s : State) (r : HomeReq) : Except Nat (State × HomeLine) :=
  homeFill s r.gslice r.job (r.addr / 128) (fun p => permOk p r.user false false) r.once

/-- A line's bytes for one read, and its fill of L1. -/
def serveRead (s : State) (src : Nat) (r : HomeReq) (l : Line) (p : Perms) : State :=
  if permOk p r.user false false then
    answer s src r.gti r.id (.bytes r.off (lineSlice l (r.addr % 128) r.size))
      (if r.fill then some ⟨r.core, r.job, r.addr / 128, r.gslice, l, p, r.lru⟩ else none)
  else refuseRead s src r (xlate kPermission r.ptr)

/-- A read that its home cannot serve goes back to the thread, or to the copy slice that asked. -/
def failRead (s : State) (r : HomeReq) (c : Cause) (k : Nat) : State :=
  let f := mkFault c k r.ptr
  match r.copy with
  | none => refuseRead s (fromSlice r.gslice) r f
  | some cs => s.send (fromSlice r.gslice) (atSlice cs) (.copyFillArrival ⟨cs, r.job, r.addr / 128, 0, ⟨false, false, false, false⟩, some f⟩)

/-- The words that a read brings: a whole line for L1 or a copy, else those it names. (DEDUCED, log 22) -/
def readWords (r : HomeReq) : List Nat := if r.fill || r.copy.isSome then allWords else wordSpan (r.addr % 128) r.size

/-- A read at its home (R22): filled, collected, forwarded by the registrants of REGD words, then served. -/
def homeRead (forwarded : Bool) (r : HomeReq) (s : State) : State :=
  let g := r.gslice
  let line := r.addr / 128
  match readFill s r with
  | .error k => failRead (s.serve g) r .translation k
  | .ok (s, h) =>
    if s.badLine h.frame then failRead (lineError (s.serve g) g line h 0) r .poison 0
    else if collectDue s g r.job line (readWords r) then
      afterNeeds s g [.collection ⟨g, r.job, line, readWords r⟩] (if forwarded then .forwardedRead r else .lineFill r)
    else if !forwarded && forwardDue s g r.job line (some r.core) (readWords r) then afterNeeds s g [] (.forwardedRead r)
    else
      let q := committedLine (s.serve g) g r.job line (some r.core) (readWords r) h
      match r.copy with
      | none =>
        serveRead q.1 (fromSlice g) r (if r.own then overlay (q.1.slice g) r.gti r.task r.job line q.2 else q.2) h.perms
      | some cs =>
        let a := addSharer q.1 g r.job line (.copy cs)
        let s := urgeAll (fromSlice g) (atSlice g) (a.2.map Event.copyInvalidation) a.1
        s.send (fromSlice g) (atSlice cs) (.copyFillArrival ⟨cs, r.job, line, q.2, h.perms, none⟩)

/-- A read arrives at its home slice (R22). -/
def execLineFill (r : HomeReq) (s : State) : Host.Outcome State Fault Refusal :=
  finish s <| atHome s r.gslice (.lineFill r) (homeRead false r)

/-- A read of a line with REGD words, which their registrants return and keep (R93). -/
def execForwardedRead (r : HomeReq) (s : State) : Host.Outcome State Fault Refusal :=
  finish s <| atHome s r.gslice (.forwardedRead r) (homeRead true r)

/-- A request on its way from a copy slice to the home. -/
def askHomeOf (s : State) (cs : Nat) (r : HomeReq) : State := s.send (fromSlice cs) (atSlice r.gslice) (.lineFill r)

/-- A miss of a core at the copy slice of its die (R101, R102, R134). -/
def copyMiss (cs : Nat) (r : HomeReq) (s : State) : State :=
  let s := s.serve cs
  let key := lineKey r.job (r.addr / 128)
  match tfind (s.slice cs).copies key with
  | some c =>
    if !c.filling then
      serveRead (s.modSlice cs fun x => { x with copies := tput x.copies key { c with used := s.now } }) (fromSlice cs) r c.data c.perms
    else if c.marked then askHomeOf s cs { r with copy := none }
    else s.modSlice cs fun x => { x with copies := tput x.copies key { c with waiting := c.waiting ++ [r] } }
  | none =>
    let s := s.modSlice cs fun x => { x with copies := tput x.copies key ⟨true, false, 0, ⟨false, false, false, false⟩, 0, [r]⟩ }
    askHomeOf s cs r

/-- An L1 miss arrives at the copy slice of its die (R101). -/
def execCopySliceMiss (r : HomeReq) (s : State) : Host.Outcome State Fault Refusal :=
  finish s <|
    match r.copy with
    | some cs => atHome s cs (.copySliceMiss r) (copyMiss cs r)
    | none => askHomeOf s r.gslice r

/-- The requests that waited for a fill are answered. -/
def answerWaiting (cs : Nat) (f : CopyFill) : List HomeReq → State → State
  | [], s => s
  | r :: t, s => answerWaiting cs f t (serveRead s (fromSlice cs) r f.data f.perms)

/-- A fill that its home refused: the read that asked takes the fault, and the others, each of which has its own (R30), come again. -/
def refuseWaiting (cs : Nat) (e : FaultRec) : List HomeReq → State → State
  | [], s => s
  | r :: t, s =>
    t.foldr (fun q s => s.urge ⟨s.now, fromThread q.gti, atSlice cs, .copySliceMiss q⟩) (refuseRead s (fromSlice cs) r e)

/-- A home's line arrives at a copy slice (R102): a marked line is not installed, nor is one where the slice has no linear ways (R80). -/
def copyFill (f : CopyFill) (s : State) : State :=
  let key := lineKey f.job f.line
  match tfind (s.slice f.gslice).copies key with
  | none => s
  | some c =>
    if !c.filling then s
    else
      let s := s.modSlice f.gslice fun x => { x with copies := tdel x.copies key }
      match f.fault with
      | some e => refuseWaiting f.gslice e c.waiting s
      | none =>
        let s :=
          if c.marked ∨ linearWays s f.gslice = 0 then s
          else (roomWay f.gslice f.line 16 s).modSlice f.gslice fun x =>
            { x with copies := tput x.copies key ⟨false, false, f.data, f.perms, s.now, []⟩ }
        answerWaiting f.gslice f c.waiting s

/-- Data for a copy slice (R102). -/
def execCopyFillArrival (f : CopyFill) (s : State) : Host.Outcome State Fault Refusal :=
  finish s <| atHome s f.gslice (.copyFillArrival f) fun s => copyFill f (s.serve f.gslice)

/-- An invalidation at a copy slice or a host read buffer (R99, R102, R104). -/
def execCopyInvalidation (v : CopyInval) (s : State) : Host.Outcome State Fault Refusal :=
  finish s <|
    match v.sharer with
    | .copy c => atHome s c (.copyInvalidation v) fun s => doInvalidate s v
    | .host _ => doInvalidate s v

/-! ## Stores and commits (R90, R91, R94, R99) -/

/-- A speculative store is held at its home (R90); one whose task has been discarded is only acknowledged. -/
def holdStore (w : LineWrite) (s : State) : State :=
  match storeCheck s w.gslice w.job w.line w.user w.once with
  | .error k => refuseWrite (s.serve w.gslice) w .translation k
  | .ok s =>
    let s := if s.hasThread w.gti && (s.thread w.gti).ctx.task == w.task then
        s.modSlice w.gslice fun x => addSpec x w.gti w.task w.job w.line w.user w.mask w.data
      else s
    ackPost s w.gti w.ctr

/-- A plain store arrives at its home (R90). -/
def execSpeculativeStoreReceipt (w : LineWrite) (s : State) : Host.Outcome State Fault Refusal :=
  finish s <| atHome s w.gslice (.speculativeStoreReceipt w) (holdStore w)

/-- The words of a commit in the committing core's L1 (R91, R94): each word takes the home's value, REG or VALID, but those SPEC for
another slot. -/
def commitWords (slot : Nat) (st : WordSt) (data : Line) : List Nat → L1Line → L1Line
  | [], l => l
  | w :: t, l =>
    commitWords slot st data t (match l1Word l w with
      | some (.spec k _) => if k = slot then l1SetWord l w st (lineWord data w) else l
      | _ => l1SetWord l w st (lineWord data w))

/-- The words are registered to the committing core (R91). -/
def registerWords (g job line core : Nat) : List Nat → State → State
  | [], s => s
  | w :: t, s => registerWords g job line core t (register s g job (line * 16 + w) core false)

/-- The task's bytes of a line no longer stand at its home. -/
def dropEntry (s : State) (c : Install) : State :=
  s.modSlice c.gslice fun x =>
    { x with spec := x.spec.filter fun p => !(p.gti == c.gti && p.task == c.task && p.job == c.job && p.line == c.line) }

/-- A home installs the bytes (R91) once nothing stands in their way. -/
def installBytes (s : State) (c : Install) (p : SpecLine) (h : HomeLine) : State :=
  let g := c.gslice
  let ws := touched p.mask 16
  let near := sliceDie g == dieOf c.core
  let s := (s.serve g).pokeMasked h.frame p.mask.toNat (lineBytes p.data)
  let s := if p.mask = .ofNat 128 (2 ^ 128 - 1) then s.clearBad h.frame else s
  let s := if near then registerWords g c.job c.line c.core ws s else s
  let data := lineOf (s.peeks h.frame 128)
  let s := match l1Find (s.core c.core) c.job c.line with
    | none => s
    | some (k, l) => s.modCore c.core fun x =>
        { x with l1d := tput x.l1d k { commitWords (slotOf c.gti) (if near then .reg else .valid) data ws l with perms := h.perms } }
  commitAck (cancelFills (dropEntry s c) c.core c.job c.line) c.gti

/-- The commit of one line at its home (R91): the core's own REGD words are written back, then what stands in the way goes first. -/
def install (c : Install) (s : State) : State :=
  let g := c.gslice
  match (s.slice g).spec.find? fun p => p.gti == c.gti && p.task == c.task && p.job == c.job && p.line == c.line with
  | none => commitAck s c.gti
  | some p =>
    match homeFill s g c.job c.line (fun q => permOk q p.user true false) false with
    | .error k =>
      let f : FaultRec := { xlate k (.ofNat 64 (c.line * 128)) with task := c.task }
      let s := dropEntry (s.serve g) c
      commitAck (if s.hasThread c.gti then s.modThread c.gti fun t => { t with pend := t.pend ++ [f] } else s) c.gti
    | .ok (s, h) =>
      let s := settleRegd c.core c.job c.line p.mask g 16 s
      let keep := if sliceDie g = dieOf c.core then some c.core else none
      let n := writeNeeds s g c.job c.line keep (touched p.mask 16)
      if n.2.isEmpty then installBytes n.1 c p h else afterNeeds n.1 g n.2 (.commitInstall c)

/-- The commit of a task at the home of one line (R91). -/
def execCommitInstall (c : Install) (s : State) : Host.Outcome State Fault Refusal :=
  finish s <| atHome s c.gslice (.commitInstall c) (install c)

/-- A non-speculative write at its home (R92, R118, R125): acknowledged when it has been performed. An atomic reads the word, which may be
poisoned (R429). -/
def performWrite (w : HomeWrite) (s : State) : State :=
  let r := w.w
  let g := r.gslice
  match homeFill s g r.job r.line (fun p => permOk p r.user true false) r.once with
  | .error k => volDone (refuseWrite (s.serve g) r .translation k) r.gti w.vol
  | .ok (s, h) =>
    let n := writeNeeds s g r.job r.line none (touched r.mask 16)
    if w.comm.isSome && s.badLine h.frame then volDone (refuseWrite (lineError (s.serve g) g r.line h 0) r .poison 0) r.gti w.vol
    else if ¬ n.2.isEmpty then afterNeeds n.1 g n.2 (.nonSpeculativeHomeWrite w)
    else
      let s := n.1.serve g
      let s := match w.comm with
        | some (key, v) => applyComm s g key v
        | none =>
          let s := s.pokeMasked h.frame r.mask.toNat (lineBytes r.data)
          if r.mask = .ofNat 128 (2 ^ 128 - 1) then s.clearBad h.frame else s
      volDone (ackPost s r.gti r.ctr) r.gti w.vol

/-- A volatile or release store, or an unbuffered commutative atomic, arrives at its home (R92). -/
def execNonSpeculativeHomeWrite (w : HomeWrite) (s : State) : Host.Outcome State Fault Refusal :=
  finish s <| atHome s w.w.gslice (.nonSpeculativeHomeWrite w) (performWrite w)

/-! ## Registration and regions (R93, R96, R100) -/

/-- A registration is revoked (R93). -/
def execRevoke (w : WordRef) (s : State) : Host.Outcome State Fault Refusal :=
  finish s <|
    match tfind (s.slice w.gslice).regs (wordKey w.job w.word) with
    | some r => if r.core = w.core then doRevoke s w.gslice w.core w.job w.word else s
    | none => s

/-- Words of an evicted line that are still registered to the core are NONE, REGD values installed (R93, R94). -/
def deregister (d : Dereg) : List Nat → State → State
  | [], s => s
  | w :: t, s =>
    let key := wordKey d.job (d.line * 16 + w)
    deregister d t (match tfind (s.slice d.gslice).regs key with
      | some r =>
        if r.core = d.core then
          let s := match wordFrame s d.gslice d.job (d.line * 16 + w) with
            | some a => if r.dirty && d.dirty.getLsbD w then s.pokes a (bytesOf 8 (lineWord d.data w)) else s
            | none => s
          s.modSlice d.gslice fun x => { x with regs := tdel x.regs key }
        else s
      | none => s)

/-- An evicted line's registered words arrive at their home (R93, R94). -/
def execDeregistration (d : Dereg) (s : State) : Host.Outcome State Fault Refusal :=
  finish s <| atHome s d.gslice (.deregistration d) fun s =>
    untrack (deregister d ((List.range 16).filter fun w => d.words.getLsbD w) (s.serve d.gslice)) d.gslice d.job d.line

/-- The region entries of a slice with those merged that have been quiet for the interval (R100), and how many were. -/
def mergedRegions (s : State) (g : Nat) : List Region × Nat :=
  mergeRegions s.now (quietLog (s.die (sliceDie g))) (s.slice g).regions.length (s.slice g).regions

/-- REGION_MERGE (R100). -/
def execRegionMerge (r : SliceRef) (s : State) : Host.Outcome State Fault Refusal :=
  finish s <|
    let q := mergedRegions s r.gslice
    s.modSlice r.gslice fun x => { x with regions := q.1, cohmerge := x.cohmerge + .ofNat 64 q.2 }

/-! ## Commutative contributions (R108 to R111) -/

/-- A holder's bit in a directory entry (R109), set. -/
def addHolder (gslice core : Nat) (d : CommDir) : CommDir :=
  if dieOf core = sliceDie gslice then { d with cores := d.cores ||| .ofNat 96 (2 ^ (core % 96)) }
  else if moduleOf core = sliceModule gslice then { d with dies := d.dies ||| .ofNat 64 (2 ^ (dieOf core % 64)) }
  else { d with mods := d.mods ||| .ofNat 64 (2 ^ moduleOf core) }

/-- A core announces that it holds contributions to a word (R109, R111). The victim of a full directory is its oldest entry.
(DESIGN CHOICE, log 90) -/
def holderNotice (n : CommFlush) (s : State) : State :=
  let g := n.gslice
  let x := s.slice g
  let other := x.comm.any fun d => d.key.job == n.key.job && d.key.word == n.key.word && d.key != n.key
  let known := x.comm.any fun d => d.key == n.key
  if other then
    afterNeeds s g [.collection ⟨g, n.key.job, n.key.word / 16, [n.key.word % 16]⟩] (.holderNotice n)
  else if known then
    (s.serve g).modSlice g fun x => { x with comm := x.comm.map fun d => if d.key = n.key then addHolder g n.core d else d }
  else
    match if Config.commDir ≤ x.comm.length then x.comm.head? else none with
    | some v => afterNeeds s g [.collection ⟨g, v.key.job, v.key.word / 16, [v.key.word % 16]⟩] (.holderNotice n)
    | none => (s.serve g).modSlice g fun x => { x with comm := x.comm ++ [addHolder g n.core ⟨n.key, 0, 0, 0⟩] }

/-- A holder notice arrives (R109). -/
def execHolderNotice (n : CommFlush) (s : State) : Host.Outcome State Fault Refusal :=
  finish s <| atHome s n.gslice (.holderNotice n) (holderNotice n)

/-- One buffer entry arrives at its home and is applied (R108, R110): the directory keeps its holder bits until a collection. -/
def execCommutativeFlush (n : CommFlush) (s : State) : Host.Outcome State Fault Refusal :=
  finish s <| atHome s n.gslice (.commutativeFlush n) fun s =>
    mergeEntry s n.core ⟨n.key, n.user, n.gslice, n.value, n.contrib⟩

/-- A collection of contributions to words of a line (R110). -/
def execCollection (l : LineRef) (s : State) : Host.Outcome State Fault Refusal :=
  finish s <| doCollect s l.unit l.job l.line l.words

/-! ## Fall-back atomics (R93, R94, R113) -/

/-- The word in the core's L1 as the grant leaves it: REGD with the new value. A slot that had it SPEC reads it at its home. -/
def grantL1 (s : State) (a : AtomicReq) (perms : Perms) (v : Word) : State :=
  let job := a.job
  let line := a.addr / 128
  let w := a.addr / 8 % 16
  let r := l1Room s a.core job line a.gslice perms false
  let s := match l1Word r.2.2 w with
    | some (.spec k _) => filterLine r.1 (a.core * 16 + k) job line
    | _ => r.1
  cancelFills (s.modCore a.core fun c => { c with l1d := tput c.l1d r.2.1 (l1SetWord r.2.2 w .regd v) }) a.core job line

/-- The current value of a word: its registrant's if it is REGD, else the home's. -/
def currentWord (s : State) (g job word frame : Nat) : Word :=
  match tfind (s.slice g).regs (wordKey job word) with
  | some r => if r.dirty then (regdValue s r.core job word).getD (wordOf (s.peeks frame 8)) else wordOf (s.peeks frame 8)
  | none => wordOf (s.peeks frame 8)

/-- A fault response to a fall-back atomic. -/
def refuseAtomic (s : State) (a : AtomicReq) (c : Cause) (k : Nat) : State :=
  refuse s (fromSlice a.gslice) a.gti (some a.id) none 0
    { mkFault c k a.ptr with pc := some a.pc, task := (s.thread a.gti).ctx.task }

/-- The grant, and the operation that the core then performs on the word (R113 steps 4 and 5). -/
def grant (a : AtomicReq) (s : State) : State :=
  let g := a.gslice
  let word := a.addr / 8
  match homeFill s g a.job (a.addr / 128) (fun p => permOk p a.user true false) a.once with
  | .error k => refuseAtomic (s.serve g) a .translation k
  | .ok (s, h) =>
    if s.badLine h.frame then refuseAtomic (lineError (s.serve g) g (a.addr / 128) h 0) a .poison 0
    else
      let n := writeNeeds s g a.job (a.addr / 128) (some a.core) [word % 16]
      if ¬ n.2.isEmpty then afterNeeds n.1 g n.2 (.fallBackAtomicGrant a)
      else
        let s := n.1.serve g
        let whole := currentWord s g a.job word (h.frame + 8 * (word % 16))
        let o := a.addr % 8
        let old : Word := .ofNat 64 (whole.toNat / 2 ^ (8 * o) % 2 ^ (8 * a.size))
        let q := atomicRes a.op a.size old a.v a.cmp a.rm
        let new : Word := .ofNat 64 (whole.toNat % 2 ^ (8 * o) + 2 ^ (8 * o) * (low a.size q.1).toNat +
          whole.toNat / 2 ^ (8 * (o + a.size)) * 2 ^ (8 * (o + a.size)))
        let s := register s g a.job word a.core true
        let s := grantL1 s a h.perms new
        answer s (fromSlice g) a.gti a.id (.regs [(resultReg s a.gti a.id, oldValue a.op a.size old)] [] (if a.nf then 0 else q.2)) none

/-- A fall-back atomic asks its home for the word (R113). -/
def execFallBackAtomicGrant (a : AtomicReq) (s : State) : Host.Outcome State Fault Refusal :=
  finish s <| atHome s a.gslice (.fallBackAtomicGrant a) (grant a)

/-! ## Scratchpads of the cluster (R70, R115, R126) -/

/-- The aligned 8-byte words that n bytes from an offset touch, as parts: place within the access and length. Up to 8 bytes are one part. -/
def scratchParts (off n : Nat) : List (Nat × Nat) :=
  if n ≤ 8 then [(0, n)]
  else (List.range ((off + n - 1) / 8 - off / 8 + 1)).map fun k =>
    let lo := max off ((off / 8 + k) * 8)
    let hi := min (off + n) ((off / 8 + k) * 8 + 8)
    (lo - off, hi - lo)

/-- The bytes of a remote read: zeros for each part that meets a guard granule. -/
def remoteBytes (r : RemoteRead) : List (Nat × Nat) → State → State × List Byte
  | [], s => (s, [])
  | (o, n) :: t, s =>
    let bad := guarded (s.core r.core) (r.pos + o) n
    let s := if bad then remoteGuard s r.gti gkLoad (r.ptr + .ofNat 64 o) r.ipc else s
    let q := remoteBytes r t s
    (q.1, (if bad then List.replicate n 0 else scratchBytes s r.core (r.pos + o) n) ++ q.2)

/-- Whether a remote read takes bytes of a word with an uncorrectable error (R429). -/
def remotePoison (s : State) (r : RemoteRead) : Bool :=
  (scratchParts r.pos r.size).any fun p =>
    !guarded (s.core r.core) (r.pos + p.1) p.2 && scratchPoisoned (s.core r.core) (r.pos + p.1) p.2

/-- A read at the bank of another core of the cluster (R115). -/
def execRemoteScratchpadRead (r : RemoteRead) (s : State) : Host.Outcome State Fault Refusal :=
  finish s <|
    if remotePoison s r then
      refuse (scratchError s r.core r.ptr) (fromThread (r.core * 16)) r.gti (some r.id) none r.off
        { mkFault .poison 2 r.ptr with pc := some r.pc, task := (s.thread r.gti).ctx.task }
    else
      let q := remoteBytes r (scratchParts r.pos r.size) s
      answer q.1 (fromThread (r.core * 16)) r.gti r.id (.bytes r.off q.2) none

/-- The parts of a remote store; a part that meets a guard granule writes nothing. -/
def remoteParts (w : RemoteWrite) : List (Nat × Nat) → State → State
  | [], s => s
  | (o, n) :: t, s =>
    let part := (w.data.drop o).take n
    remoteParts w t <|
      if part.all Option.isNone then s
      else if guarded (s.core w.core) (w.pos + o) n then remoteGuard s w.gti gkStore (w.ptr + .ofNat 64 o) w.pc
      else s.modCore w.core fun c =>
        { c with scratch := scratchPut c.scratch (w.pos + o) part
                 scratchBad := c.scratchBad.filter fun k =>
                   !(decide (w.pos + o ≤ k * 8 ∧ k * 8 + 8 ≤ w.pos + o + n) && part.all Option.isSome) }

/-- A posted store performed at the bank of another core of the cluster (R126). -/
def execRemoteScratchpadWrite (w : RemoteWrite) (s : State) : Host.Outcome State Fault Refusal :=
  finish s <|
    volDone (ackPosts (remoteParts w (scratchParts w.pos w.data.length) s) w.gti .pd w.count) w.gti w.vol

/-! ## Retention sleep (R50, R426) -/

/-- The interval after which an idle slice sleeps (R426): 0 for never. -/
def sleepAfter (d : Die) : Nat := if d.slcfg = 0 then 0 else 2 ^ max 16 d.slcfg.toNat

/-- Whether a slice has served no request for the interval. -/
def sleepDue (s : State) (g : Nat) : Bool :=
  let n := sleepAfter (s.die (sliceDie g))
  !(s.slice g).asleep && n != 0 && decide ((s.slice g).lastServed + n ≤ s.now)

/-- SLICE_RETENTION_SLEEP (R426). -/
def execSliceRetentionSleep (r : SliceRef) (s : State) : Host.Outcome State Fault Refusal :=
  finish s (if sleepDue s r.gslice then s.modSlice r.gslice fun x => { x with asleep := true } else s)

/-- A slice wakes (R50). -/
def execSliceWake (r : SliceRef) (s : State) : Host.Outcome State Fault Refusal := finish s (wakeSlice s r.gslice)

end Sys2Proof.Machine
end

