-- ==== Sys2Proof/Machine/Fetch.lean ====
section
/-! DEFINITION. The instruction cache and the fetch of a word (R78, R203, R213, R215). -/

namespace Sys2Proof.Machine

/-! ## The instruction cache (R78): 64 sets of 4 ways -/

/-- The way of a set that holds a line, from way n - 1 down: its key and the line. -/
def l1iWay (c : Core) (job line : Nat) : Nat → Option (Nat × ILine)
  | 0 => none
  | n + 1 =>
    match tfind c.l1i (line % 64 * 4 + n) with
    | some l => if l.job = job ∧ l.line = line then some (line % 64 * 4 + n, l) else l1iWay c job line n
    | none => l1iWay c job line n

def l1iFind (c : Core) (job line : Nat) : Option (Nat × ILine) := l1iWay c job line 4

/-- The way of a set that a new line takes: a free one, else the oldest. (DESIGN CHOICE, log 9) -/
def l1iVictim (c : Core) (set : Nat) : Nat → Nat × Nat
  | 0 => (0, 2 ^ 64)
  | n + 1 =>
    let best := l1iVictim c set n
    match tfind c.l1i (set * 4 + n) with
    | none => if best.2 = 0 then best else (n, 0)
    | some l => if l.made + 1 < best.2 then (n, l.made + 1) else best

def l1iInstall (s : State) (core : Nat) (l : ILine) : State :=
  s.modCore core fun c => { c with l1i := tput c.l1i (l.line % 64 * 4 + (l1iVictim c (l.line % 64) 4).1) l }

/-- The lines of a job that hold an address leave the caches of the cores that a predicate selects (R213). -/
def dropILine (s : State) (job line : Nat) (p : Nat → Bool) : State :=
  { s with cores := tmap (fun k c =>
      if p k then { c with l1i := c.l1i.filter fun e => !(e.2.job == job && e.2.line == line) } else c) s.cores }

/-! ## Fills (R22, R203) -/

/-- What a fill of an instruction line brings: its data and permissions, or the cause and kind that its mark holds, PERMISSION among them
(R22). -/
def instructionLine (s : State) (core job line : Nat) (user : Bool) : State × Except (Cause × Nat) (Line × Perms) :=
  match s.home core job (line * 128) with
  | .error k => (s, .error (.translation, k))
  | .ok g =>
    if linkDown s (moduleOf core) (sliceModule g) then (s, .error (.poison, 1))
    else
      let s := (s.overLinks (moduleOf core) (sliceModule g)).noteEntries core job (line * 128)
      match homeFill (s.serve g) g job line (fun p => permOk p user false true) false with
      | .error k => (s.serve g, .error (.translation, k))
      | .ok (s, h) =>
        if s.badLine h.frame then (s.countBad (sliceDie g) 5 (ctrlOf (sliceDie g) h.frame % 4), .error (.poison, 1))
        else
          let s := if collectDue s g job line allWords then doCollect s g job line allWords else s
          let r := committedLine s g job line none allWords h
          (r.1, .ok (r.2, h.perms))

/-- The report of a marked line (R203, R431 CONTAINED). -/
def markReport (core line : Nat) (e : Cause × Nat) : Report :=
  ⟨moduleOf core, 2, none, dieOf core % 64, 0, core % 96, .ofNat 64 (line * 128), .ofNat 79 (e.1.code + e.2 * 2 ^ 8)⟩

/-- A line is brought into the instruction cache if it is absent: with its mark and one report if its fill faults. -/
def fillInstruction (s : State) (core job line : Nat) (user : Bool) : State :=
  match l1iFind (s.core core) job line with
  | some _ => s
  | none =>
    let r := instructionLine s core job line user
    match r.2 with
    | .ok (d, p) => l1iInstall r.1 core ⟨job, line, p, d, none, false, s.now⟩
    | .error e =>
      (l1iInstall r.1 core ⟨job, line, ⟨false, false, false, false⟩, 0, some (e.1, .ofNat 4 e.2), true, s.now⟩).report
        (markReport core line e)

/-- Whether a line fetched ahead lies in the address space that the fetch began in. (DEDUCED, log 37) -/
def aheadOk (line n : Nat) : Bool := decide (line % 2 ^ 50 + n < 2 ^ 50)

/-- A fetch brings its line, and the next two if they are absent (R78) and no link holds them up (R410). (DEDUCED, log 37) -/
def fetchLines (s : State) (core job line : Nat) (user : Bool) : State :=
  let s := fillInstruction s core job line user
  let s := if aheadOk line 1 then orHeld s (fillInstruction s core job (line + 1) user) else s
  if aheadOk line 2 then orHeld s (fillInstruction s core job (line + 2) user) else s

/-! ## The word at the PC -/

/-- The word that a thread issues next: the displaced word (R213), or the word of the instruction cache at its PC; a fault is taken
at that word (R203, R272). -/
def fetch (s : State) (g : Nat) : State × Except FaultRec (BitVec 32) :=
  let t := s.thread g
  let core := coreOf g
  let pc := wordAddr t.ctx.pc
  if t.displaced then (s, .ok t.ctx.xeq)
  else
    match s.resolve g pc .fetch with
    | .error k => (s, .error (xlate k pc))
    | .ok (.own _) => (s, .error (xlate kSpaceOp pc))
    | .ok (.remote _ _) => (s, .error (xlate kSpaceOp pc))
    | .ok (.linear a) =>
      let s := fetchLines s core t.ctx.ids.job (a / 128) (t.ctx.mode == .user)
      match l1iFind (s.core core) t.ctx.ids.job (a / 128) with
      | none => (s, .error (xlate kNotMapped pc))
      | some (_, l) =>
        match l.mark with
        | some (c, k) => (s, .error (mkFault c k.toNat pc))
        | none =>
          if permOk l.perms (t.ctx.mode == .user) false true then (s, .ok (.ofNat 32 (l.data.toNat / 2 ^ (8 * (a % 128)))))
          else (s, .error (xlate kPermission pc))

end Sys2Proof.Machine
end

