-- ==== Sys2Proof/Machine/Registers.lean ====
section
/-! DEFINITION. The control registers (R237): the layouts of those of a thread (R155, R199, R213, R236), of a core, a slice, a
die and a module (R25, R27, R53, R61, R69, R84, R88, R105, R106, R155, R157, R179, R187, R192, R194, R210, R211, R409, R413, R414, R417,
R425 to R428), and who may read and write each (R278). -/

namespace Sys2Proof.Machine

/-! ## Layouts -/

/-- Fields joined into a word: each with its lowest bit. -/
def pack : List (Nat × Nat) → Word
  | [] => 0
  | (v, lo) :: t => .ofNat 64 (v * 2 ^ lo) ||| pack t

def packCause (r : CauseRec) : Word :=
  pack [(bitNat r.live, 63), (bitNat r.disc, 62), (r.inner.toNat, 56), (r.more.toNat, 48), (r.engine.toNat, 44),
        (r.task.toNat, 12), (r.kind.toNat, 8), (r.cause.toNat, 0)]

def unpackCause (w : Word) : CauseRec :=
  ⟨bit w 63, bit w 62, .ofNat 6 (bits w 61 56), .ofNat 8 (bits w 55 48), .ofNat 4 (bits w 47 44), .ofNat 32 (bits w 43 12),
   .ofNat 4 (bits w 11 8), .ofNat 8 (bits w 7 0)⟩

def packInfo (i : InfoRec) : Word :=
  pack [(i.gkind.toNat, 62), (i.pivot.toNat, 59), (i.opc.toNat, 4), (i.accm.toNat, 0)]

def unpackInfo (w : Word) : InfoRec :=
  ⟨.ofNat 2 (bits w 63 62), .ofNat 3 (bits w 61 59), .ofNat 55 (bits w 58 4), .ofNat 4 (bits w 3 0)⟩

/-- THST with an IPEND (R155). -/
def packThst (c : Ctx) (ipend : BitVec 4) : Word :=
  pack [(ipend.toNat, 16), (c.imask.toNat, 12), (bitNat c.haz, 11), (bitNat c.ie, 10), (c.pmode.code, 8), (c.mpmode.code, 6),
        (c.mode.code, 4), (bitNat c.pie, 3), (bitNat c.mpie, 2)]

/-- THID (R155). -/
def packThid (c : Ctx) (core slot : Nat) : Word := pack [(c.origin, 41), (core, 22), (slot, 18), (c.ids.job, 0)]

def packThlvl (c : Ctx) : Word := pack [(c.ids.launch, 48), (c.ids.graph, 32), (c.ids.phase, 24)]

def packThdbg (c : Ctx) : Word := pack [(bitNat c.mpss, 2), (bitNat c.pss, 1), (bitNat c.ss, 0)]

/-- The sticky flag word (R236). -/
def packThflg (c : Ctx) : Word := pack [(bitNat c.modfb, 15), (c.arith.toNat, 0)]

/-- The restart value that THRGSEL selects (R155). -/
def restartValue (t : Thread) : Word :=
  let i := t.rgsel.toNat
  if 1 ≤ i ∧ i ≤ 9 then tget 0 t.ctx.rx i else if i = 10 then .ofNat 64 t.ctx.rcond.toNat else 0

/-- Handle registers stand at 0x020 + n (R304). -/
def isHandle (n : Nat) : Bool := decide (0x020 ≤ n ∧ n < 0x030)

/-- A register of the thread context (R237, R304). -/
def inThread (n : Nat) : Bool := decide (n < 0x016) || isHandle n

/-- What a register of the thread context reads as. -/
def readOwn (s : State) (g n : Nat) : Word :=
  let t := s.thread g
  let c := t.ctx
  if isHandle n then t.handle (n - 0x020)
  else match n with
    | 0x000 => packThst c (s.ipend g)
    | 0x001 => packThid c (coreOf g) (slotOf g)
    | 0x002 => packThlvl c
    | 0x003 => .ofNat 64 c.task.toNat
    | 0x004 => .ofNat 64 (c.svec.toNat * 4)
    | 0x005 => c.tcmp
    | 0x006 => c.rpc
    | 0x007 => .ofNat 64 t.rgsel.toNat
    | 0x008 => restartValue t
    | 0x009 => packCause c.cause
    | 0x00A => c.epc
    | 0x00B => c.addr
    | 0x00C => packInfo c.info
    | 0x00D => packCause c.mcause
    | 0x00E => c.mepc
    | 0x00F => .ofNat 64 (c.mvec.toNat * 4)
    | 0x010 => .ofNat 64 c.xeq.toNat
    | 0x011 => packThdbg c
    | 0x012 => packThflg c
    | 0x013 => .ofNat 64 c.hpat.toNat
    | 0x014 => .ofNat 64 c.sqsel.toNat
    | _ => .ofNat 64 c.mersel.toNat

/-! ## Who may read and write (R278) -/

/-- The numbers that name a register (R237). -/
def isRegister (n : Nat) : Bool :=
  inThread n || decide (0x040 ≤ n ∧ n ≤ 0x046) || decide (0x080 ≤ n ∧ n ≤ 0x08C) || decide (0x0C0 ≤ n ∧ n ≤ 0x0C8) ||
  decide (0x100 ≤ n ∧ n ≤ 0x110)

/-- The lowest mode that may read a register (R278): 0 user, 1 supervisor, 2 monitor. -/
def readMode (n : Nat) : Nat :=
  if isHandle n then 0
  else if [0x000, 0x001, 0x002, 0x003, 0x00C, 0x012, 0x013, 0x014, 0x040, 0x041, 0x045, 0x046, 0x080, 0x081].contains n then 0
  else if [0x00D, 0x00E, 0x00F, 0x0C0, 0x0C1, 0x0C2, 0x0C3, 0x0C4, 0x0C8, 0x104, 0x107, 0x108, 0x109, 0x10B, 0x10C, 0x10D, 0x10E].contains n
    then 2
  else 1

/-- Bits lo to hi of a word. -/
def field (hi lo : Nat) : Word := .ofNat 64 ((2 ^ (hi + 1 - lo) - 1) * 2 ^ lo)

/-- The bits of a register that user mode writes, those that supervisor mode writes besides, and those of monitor mode. (DEDUCED, log 36) (DEDUCED, log 40) -/
def writable (n : Nat) : Word × Word × Word :=
  if isHandle n then (field 63 0, 0, 0)
  else match n with
    | 0x000 => (field 11 11, field 15 12 ||| field 10 10 ||| field 3 3, field 2 2)
    | 0x004 => (0, field 63 2, 0)
    | 0x005 => (0, field 63 0, 0)
    | 0x006 => (0, field 63 0, 0)
    | 0x007 => (0, field 3 0, 0)
    | 0x008 => (0, field 63 0, 0)
    | 0x009 => (0, field 63 63, 0)
    | 0x00A => (0, field 63 0, 0)
    | 0x00B => (0, field 63 0, 0)
    | 0x00D => (0, 0, field 63 63)
    | 0x00E => (0, 0, field 63 0)
    | 0x00F => (0, 0, field 63 2)
    | 0x010 => (0, field 31 0, 0)
    | 0x011 => (0, field 1 0, field 2 2)
    | 0x012 => (field 15 15 ||| field 7 0, 0, 0)
    | 0x013 => (field 54 0, 0, 0)
    | 0x014 => (field 3 0, 0, 0)
    | 0x015 => (0, field 3 0, 0)
    | 0x040 => (0, field 4 0, 0)
    | 0x041 => (0, field 63 0, 0)
    | 0x046 => (field 0 0, 0, 0)
    | 0x0C0 => (0, 0, field 12 8 ||| field 4 0)
    | 0x0C1 => (0, 0, field 43 30 ||| field 5 0)
    | 0x0C2 => (0, 0, field 9 4)
    | 0x0C3 => (0, 0, field 12 0)
    | 0x0C4 => (0, 0, field 43 26 ||| field 0 0)
    | 0x0C5 => (0, field 11 0, 0)
    | 0x0C8 => (0, 0, field 4 0)
    | 0x100 => (0, 0, field 63 12)
    | 0x101 => (0, 0, field 63 12)
    | 0x102 => (0, field 56 16, 0)
    | 0x103 => (0, field 31 12 ||| field 10 0, 0)
    | 0x104 => (0, 0, field 59 58 ||| field 7 0)
    | 0x106 => (0, field 63 49, 0)
    | 0x107 => (0, 0, field 63 63 ||| field 61 56 ||| field 7 0)
    | 0x108 => (0, 0, field 5 0)
    | 0x109 => (0, 0, field 63 63 ||| field 4 0)
    | 0x10A => (0, field 4 0, 0)
    | 0x10B => (0, 0, field 61 61)
    | 0x10C => (0, 0, field 55 11)
    | 0x10D => (0, 0, field 4 0)
    | 0x10E => (0, 0, field 13 0)
    | 0x10F => (0, 0, field 63 12)
    | 0x110 => (0, 0, field 63 2)
    | _ => (0, 0, 0)

/-- The bits that a mode writes. -/
def mayWrite (mode n : Nat) : Word :=
  let w := writable n
  if mode = 0 then w.1 else if mode = 1 then w.1 ||| w.2.1 else w.1 ||| w.2.1 ||| w.2.2

/-- The value a register would take of what any mode may write: bits that only a write of 0 clears, THST.HAZ and LIVE, stay 1 or
0 under a write of 1. (DEDUCED, log 40) -/
def wouldBe (n : Nat) (cur new : Word) : Word :=
  let all := mayWrite 2 n
  let clears : Word := match n with
    | 0x000 => field 11 11
    | 0x009 => field 63 63
    | 0x00D => field 63 63
    | 0x046 => field 0 0
    | _ => 0
  (cur &&& ~~~all) ||| (new &&& all &&& ~~~clears) ||| (cur &&& new &&& clears)

/-- Registers whose write acts whatever its value, and the mode it takes (R27, R84, R211). (DEDUCED, log 36) -/
def actsAt (n : Nat) : Nat :=
  if n = 0x080 ∨ n = 0x102 ∨ n = 0x103 then 1 else if n = 0x104 then 2 else 0

/-- Whether a write is one that the mode may not make (R278). -/
def deniedWrite (mode n : Nat) (cur new : Word) : Bool :=
  decide (mode < actsAt n) ||
  ((cur ^^^ wouldBe n cur new) &&& ~~~(mayWrite mode n)) != 0

/-! ## Writes of a thread's registers -/

/-- A restart value written (R155). -/
def setRestart (t : Thread) (v : Word) : Thread :=
  let i := t.rgsel.toNat
  if 1 ≤ i ∧ i ≤ 9 then { t with ctx := { t.ctx with rx := tset 0 t.ctx.rx i v } }
  else if i = 10 then { t with ctx := { t.ctx with rcond := .ofNat 16 (bits v 15 0) } } else t

/-- What a write of THRGVAL can leave there (R155, R278): nothing where IDX selects no value. -/
def restartOf (t : Thread) (v : Word) : Word :=
  let i := t.rgsel.toNat
  if 1 ≤ i ∧ i ≤ 9 then v else if i = 10 then .ofNat 64 (bits v 15 0) else 0

/-- A register of the thread context takes the value that a permitted write leaves. -/
def writeOwn (t : Thread) (n : Nat) (v : Word) : Thread :=
  let c := t.ctx
  if isHandle n then t.setH (n - 0x020) v
  else match n with
    | 0x000 => { t with ctx := { c with
        imask := .ofNat 4 (bits v 15 12), haz := bit v 11, ie := bit v 10, pie := bit v 3, mpie := bit v 2 } }
    | 0x004 => { t with ctx := { c with svec := .ofNat 62 (bits v 63 2) } }
    | 0x005 => { t with ctx := { c with tcmp := v } }
    | 0x006 => { t with ctx := { c with rpc := v } }
    | 0x007 => { t with rgsel := .ofNat 4 (bits v 3 0) }
    | 0x008 => setRestart t v
    | 0x009 => { t with ctx := { c with cause := { c.cause with live := bit v 63 } } }
    | 0x00A => { t with ctx := { c with epc := v } }
    | 0x00B => { t with ctx := { c with addr := v } }
    | 0x00D => { t with ctx := { c with mcause := { c.mcause with live := bit v 63 } } }
    | 0x00E => { t with ctx := { c with mepc := v } }
    | 0x00F => { t with ctx := { c with mvec := .ofNat 62 (bits v 63 2) } }
    | 0x010 => { t with ctx := { c with xeq := .ofNat 32 (bits v 31 0) } }
    | 0x011 => { t with ctx := { c with mpss := bit v 2, pss := bit v 1, ss := bit v 0 } }
    | 0x012 => { t with ctx := { c with modfb := bit v 15, arith := .ofNat 8 (bits v 7 0) } }
    | 0x013 => { t with ctx := { c with hpat := .ofNat 55 (bits v 54 0) } }
    | 0x014 => { t with ctx := { c with sqsel := .ofNat 4 (bits v 3 0) } }
    | 0x015 => { t with ctx := { c with mersel := .ofNat 4 (bits v 3 0) } }
    | _ => t

/-! ## Registers outside the thread -/

/-- The slice of the current die that SQSEL selects (R84). -/
def selSlice (s : State) (g : Nat) : Nat := dieOf (coreOf g) * 16 + (s.thread g).ctx.sqsel.toNat

/-- The indices of a unit class (R427). -/
def classSize : Nat → Nat
  | 0 => 96 | 1 => 12 | 2 => 16 | 3 => 32 | 4 => 4 | 5 => 4 | 6 => 1 | 7 => 4 | 8 => 32 | 9 => 2 | 10 => 1 | 11 => 1
  | _ => 0

/-- ERRCNT (R428): SECOR and the uncorrectable count, or SYNRC. -/
def errCount (s : State) (gdie : Nat) : Word :=
  let sel := (s.die gdie).errsel
  let cls := sel.toNat / 128 % 16
  let idx := sel.toNat % 128
  if classSize cls ≤ idx then 0
  else if cls = 5 ∧ sel.toNat / 2048 = 1 then .ofNat 64 (s.ctrl (gdie * 4 + idx)).synrc
  else
    let u := errUnit gdie sel
    tget 0 (s.die u.1).errs u.2

/-- MERCTL of a channel (R194). -/
def packMer (k : MerCh) : Word :=
  pack [(bitNat k.v, 63), (k.job.toNat, 55), (k.gaplog.toNat, 50), (bitNat k.dom, 49), (k.ends.toNat, 0)]

/-- Slots of a module that threads of a job occupy (R184, R211). -/
def heldSlots (s : State) (m job : Nat) : Nat :=
  (s.cores.flatMap fun c => if moduleOf c.1 = m then c.2.leases.filter fun r => r.2.state == 2 && r.2.ids.job == job else []).length

def linkCode : LinkState → Nat
  | .down => 0
  | .training => 1
  | .up => 2
  | .failed => 3

/-- What a register outside the thread reads as for a thread (R237); CLSUB's value is not stated and stays free. (DESIGN CHOICE, log 13) -/
def readUnit (s : State) (g n : Nat) : Word × State :=
  let core := coreOf g
  let c := s.core core
  let x := s.slice (selSlice s g)
  let d := s.die (dieOf core)
  let m := s.modu (moduleOf core)
  let w : Word := match n with
    | 0x040 => .ofNat 64 c.spgsel.toNat
    | 0x041 => tget 0 c.guardMap c.spgsel.toNat
    | 0x042 => c.spskip
    | 0x043 => c.spconf
    | 0x044 => c.acrej
    | 0x046 => .ofNat 64 (bitNat c.clEmpty)
    | 0x080 => pack [(s.held (selSlice s g), 56), (x.maxo % 256, 48), (x.accepted % 2 ^ 48, 0)]
    | 0x081 => .ofNat 64 x.occsum
    | 0x082 => .ofNat 64 x.tiles.length
    | 0x083 => x.tvdefer
    | 0x084 => x.tvlate
    | 0x085 => x.tvstall
    | 0x086 => x.cohfwd
    | 0x087 => x.cohrevoke
    | 0x088 => x.cohrecall
    | 0x089 => x.cohsplit
    | 0x08A => x.cohmerge
    | 0x08B => x.cohinv
    | 0x08C => x.atmcoll
    | 0x0C0 => pack [(d.tsplit.toNat, 8), (d.thresh.toNat, 0)]
    | 0x0C1 => pack [(d.alBase.toNat, 30), (d.alSize.toNat, 0)]
    | 0x0C2 => pack [(bitNat d.copy, 9), (d.quiet.toNat, 4)]
    | 0x0C3 => pack [(d.sxMin.toNat, 4), (d.sxInt.toNat, 0)]
    | 0x0C4 => pack [(d.psBase.toNat, 26), (bitNat d.psV, 0)]
    | 0x0C5 => .ofNat 64 d.errsel.toNat
    | 0x0C6 => errCount s (dieOf core)
    | 0x0C7 => d.stepDelay s.now
    | 0x0C8 => .ofNat 64 d.slcfg.toNat
    | 0x100 => m.xjtbase
    | 0x101 => m.xhtbase
    | 0x102 => m.trinva
    | 0x103 => pack [(bitNat m.trBusy, 63), (m.trCount.toNat, 12), (bitNat m.trData, 10), (m.trScope.toNat, 8), (m.trJob.toNat, 0)]
    | 0x104 => pack [(bitNat m.jsBusy, 63), (m.jsOp.toNat, 58), (heldSlots s (moduleOf core) m.jsJob.toNat, 16), (m.jsJob.toNat, 0)]
    | 0x105 => m.schstall
    | 0x106 => packMer (tget MerCh.off m.mer (s.thread g).ctx.mersel.toNat)
    | 0x107 => pack [(bitNat m.domV, 63), (m.domModule.toNat, 56), (m.domSize.toNat, 0)]
    | 0x108 => .ofNat 64 m.nlkrsel.toNat
    | 0x109 =>
      match tfind m.routes m.nlkrsel.toNat with
      | some r => pack [(bitNat r.v, 63), (r.link, 0)]
      | none => 0
    | 0x10A => .ofNat 64 m.nlksel.toNat
    | 0x10B =>
      let k := tget Link.down m.links m.nlksel.toNat
      pack [(linkCode k.state, 62), (k.ver.toNat, 56), (k.partner % 64, 50), (k.replays.toNat, 0)]
    | 0x10C => m.nlkpt
    | 0x10D => .ofNat 64 m.clTmo.toNat
    | 0x10E => .ofNat 64 m.pwrcap.toNat
    | 0x10F => m.xvtbase
    | _ => m.mvecbase
  if n = 0x045 then s.freeValue else (w, s)

/-- Whether a job runs on a module, the writing thread aside (R53). -/
def jobRuns (s : State) (m g : Nat) : Bool :=
  !(s.modu m).launches.isEmpty ||
  (s.threads.any fun e => e.1 != g && decide (e.1 < 2 ^ 34) && moduleOf (coreOf e.1) == m && e.2.status != .absent) ||
  (s.cores.any fun c => moduleOf c.1 == m &&
    (!c.2.runq.isEmpty || c.2.quarantine.isSome || !c.2.saved.isEmpty || !c.2.wt.isEmpty || !c.2.work.isEmpty ||
      c.2.leases.any fun l => l.2.state == 1)) ||
  s.onWay fun e =>
    match e with
    | .migrantPacketArrival p => moduleOf p.dest == m
    | .workListShipment w => moduleOf w.target == m
    | _ => false

/-- Registers that may not be written while a job runs (R53, R105, R192, R210, R409). -/
def quietOnly (n : Nat) : Bool := [0x0C0, 0x0C1, 0x0C2, 0x0C3, 0x0C4, 0x107, 0x109, 0x10C].contains n

/-- The illegal values of a register (R27, R53, R210, R211). -/
def badValue (s : State) (gdie n : Nat) (v : Word) : Bool :=
  match n with
  | 0x0C0 => decide (16 < bits v 12 8)
  | 0x0C1 => decide (48 < bits v 43 30 + bits v 5 0)
  | 0x0C4 =>
    let b := bits v 43 26 * 2 ^ 26
    let a0 := (s.die gdie).alBase.toNat * 2 ^ 30
    let a1 := a0 + (s.die gdie).alSize.toNat * 2 ^ 30
    bit v 0 && (decide (Config.dieBytes < b + 48 * 2 ^ 20) || decide (b < a1 ∧ a0 < b + 48 * 2 ^ 20))
  | 0x103 => bits v 9 8 == 3
  | 0x104 => bits v 59 58 == 3
  | _ => false

/-- The sample gap of a channel (R194). -/
def MerCh.gap (k : MerCh) : Nat :=
  let n := max 10 (min 20 k.gaplog.toNat)
  2 ^ (if k.dom then max 14 n else n)

/-- A write of MERCTL (R194): a channel that comes into use is sampled from the next multiple of its gap on, and a channel with a new job has
seen no sample of it. -/
def writeMer (s : State) (m ch : Nat) (v : Word) : State :=
  let old := tget MerCh.off (s.modu m).mer ch
  let k : MerCh := { old with
    v := bit v 63, job := .ofNat 8 (bits v 62 55), gaplog := .ofNat 5 (bits v 54 50), dom := bit v 49 }
  let k := if old.v ∧ k.job = old.job then k else { k with idle := 0, counted := false }
  let s := s.modModu m fun x => { x with mer := tput x.mer ch k }
  if k.v && !s.agenda.any fun f => f.ev == .meridianSample ⟨m, ch⟩ then s.later (k.gap - s.now % k.gap) (fromModule m) (atModule m) (.meridianSample ⟨m, ch⟩) else s

/-- A write of TRINV starts the invalidation (R27), one of JOBSW its operation (R211). -/
def startTrinv (s : State) (m : Nat) : State :=
  let x := s.modu m
  let o : TrInv := ⟨m, x.trinva.toNat / 2 ^ 16, if x.trCount = 0 then 2 ^ 20 else x.trCount.toNat, x.trData, x.trJob.toNat⟩
  let ev : Event := match x.trScope.toNat with
    | 0 => .trinvRange o
    | 1 => .trinvJob o
    | _ => .trinvAll o
  (s.modModu m fun x => { x with trBusy := true }).post ⟨s.now, fromModule m, atModule m, ev⟩

def startJobsw (s : State) (m : Nat) : State :=
  let x := s.modu m
  match x.jsOp.toNat with
  | 1 => (s.modModu m fun x => { x with jsBusy := true }).post ⟨s.now, fromModule m, atModule m, .jobswSuspend ⟨m, x.jsJob.toNat⟩⟩
  | 2 => (s.modModu m fun x => { x with jsBusy := true }).post ⟨s.now, fromModule m, atModule m, .jobswResume ⟨m, x.jsJob.toNat⟩⟩
  | _ => s

/-- A register outside the thread takes the value that a permitted write leaves, with what the write starts; CLSUB is
Collectives.lean's. A new TVCFG.TSPLIT moves nothing that already lies in a way: a line, a copy or a version stays until its set's next fill, or its
release, takes it away. (DESIGN CHOICE, log 108) -/
def writeUnit (s : State) (g n : Nat) (v : Word) : State :=
  let core := coreOf g
  let gd := dieOf core
  let m := moduleOf core
  match n with
  | 0x040 => s.modCore core fun c => { c with spgsel := .ofNat 5 (bits v 4 0) }
  | 0x041 => s.modCore core fun c => { c with guardMap := tset 0 c.guardMap c.spgsel.toNat v }
  | 0x046 => s.modCore core fun c => { c with clEmpty := bit v 0 }
  | 0x080 => s.post ⟨s.now, fromThread g, atSlice (selSlice s g), .sqstatClear ⟨selSlice s g⟩⟩
  | 0x0C0 => s.modDie gd fun d => { d with tsplit := .ofNat 5 (bits v 12 8), thresh := .ofNat 5 (bits v 4 0) }
  | 0x0C1 => s.modDie gd fun d => { d with alBase := .ofNat 14 (bits v 43 30), alSize := .ofNat 6 (bits v 5 0) }
  | 0x0C2 => s.modDie gd fun d => { d with copy := bit v 9, quiet := .ofNat 5 (bits v 8 4) }
  | 0x0C3 => s.modDie gd fun d => { d with sxMin := .ofNat 9 (bits v 12 4), sxInt := .ofNat 4 (bits v 3 0) }
  | 0x0C4 => s.modDie gd fun d => { d with psBase := .ofNat 18 (bits v 43 26), psV := bit v 0 }
  | 0x0C5 => s.modDie gd fun d => { d with errsel := .ofNat 12 (bits v 11 0) }
  | 0x0C8 => s.modDie gd fun d => { d with slcfg := .ofNat 5 (bits v 4 0) }
  | 0x100 => s.modModu m fun x => { x with xjtbase := v }
  | 0x101 => s.modModu m fun x => { x with xhtbase := v }
  | 0x102 => s.modModu m fun x => { x with trinva := v }
  | 0x103 =>
    startTrinv (s.modModu m fun x => { x with
      trCount := .ofNat 20 (bits v 31 12), trData := bit v 10, trScope := .ofNat 2 (bits v 9 8), trJob := .ofNat 8 (bits v 7 0) }) m
  | 0x104 => startJobsw (s.modModu m fun x => { x with jsOp := .ofNat 2 (bits v 59 58), jsJob := .ofNat 8 (bits v 7 0) }) m
  | 0x106 => writeMer s m (s.thread g).ctx.mersel.toNat v
  | 0x107 => s.modModu m fun x => { x with domV := bit v 63, domModule := .ofNat 6 (bits v 61 56), domSize := .ofNat 8 (bits v 7 0) }
  | 0x108 => s.modModu m fun x => { x with nlkrsel := .ofNat 6 (bits v 5 0) }
  | 0x109 => s.modModu m fun x => { x with
      routes := tput x.routes x.nlkrsel.toNat ⟨bit v 63, bits v 4 0⟩ }
  | 0x10A => s.modModu m fun x => { x with nlksel := .ofNat 5 (bits v 4 0) }
  | 0x10B =>
    if bit v 61 then s.post ⟨s.now, fromModule m, atModule m, .nlkstStart ⟨m, (s.modu m).nlksel.toNat⟩⟩ else s
  | 0x10C => s.modModu m fun x => { x with nlkpt := v }
  | 0x10D => (s.modu m).colls.foldl (fun s w => s.post ⟨s.now, fromModule m, atModule m, .collectiveTimeout ⟨m, w.c.job, w.c.tag⟩⟩)
    (s.modModu m fun x => { x with clTmo := .ofNat 5 (bits v 4 0) })
  | 0x10E =>
    -- a limit that moves past the power of the package begins or ends the capping
    let s := s.modModu m fun x => { x with pwrcap := .ofNat 14 (bits v 13 0) }
    let x := s.modu m
    if decide (powerLimit x < x.watts) == x.capping then s
    else s.post ⟨s.now, fromModule m, atModule m, if x.capping then .powerCapEnd ⟨m, x.watts⟩ else .powerCapStart ⟨m, x.watts⟩⟩
  | 0x10F => s.modModu m fun x => { x with xvtbase := v }
  | 0x110 => s.modModu m fun x => { x with mvecbase := v }
  | _ => s

end Sys2Proof.Machine
end

