-- ==== Sys2Proof/Machine/ControlRegs.lean ====
section
/-! DEFINITION. mfcr and mtcr (R278, R237), and the start of a collective by a write of CLSUB (R413, R414). -/

namespace Sys2Proof.Machine

/-! ## The start of a collective (R413, R414) -/

/-- Field [hi:lo] of a 64 B record. -/
def recField (d : Nat) (hi lo : Nat) : Nat := d / 2 ^ lo % 2 ^ (hi + 1 - lo)

/-- The bytes of an element of a collective's TYPE; 0: no such type. -/
def collBytes (type : Nat) : Nat :=
  match type with
  | 0 => 8
  | 1 => 4
  | 3 => 2
  | 4 => 8
  | 5 => 8
  | _ => 0

/-- The descriptor that a thread hands to the engine (R413). -/
def readColl (s : State) (i : Iss) (ptr : Word) (d : Nat) : Coll :=
  let t := s.thread i.g
  let core := coreOf i.g
  { gti := i.g, core := core, module := moduleOf core, job := t.ctx.ids.job, user := t.ctx.mode == .user, task := t.ctx.task
    desc := ptr, src := .ofNat 64 (recField d 511 448), dst := .ofNat 64 (recField d 447 384), mask := .ofNat 64 (recField d 383 320)
    bytes := recField d 319 296, tag := recField d 295 288, kind := recField d 287 284, op := recField d 283 280
    type := recField d 279 276, ctr := recField d 275 270, root := recField d 269 264, func := recField d 263 256, pc := i.pc }

/-- The checks of R414, in cause-code order. -/
def collFault (s : State) (c : Coll) (d : Nat) (mode : Mode) : Option FaultRec :=
  let group := decide (c.kind ≤ 1)
  let bad := recField d 255 64 != 0 || decide (3 < c.kind) || (group && decide (2 < c.op)) || collBytes c.type == 0 ||
    c.bytes == 0 || c.bytes % collBytes c.type != 0 ||
    (group && (c.mask &&& ~~~(s.partition c.module c.job)) != 0) ||
    (c.kind == 0 && c.mask != 0 && !c.mask.getLsbD c.module) ||
    (c.kind == 1 && c.root != c.module && !c.mask.getLsbD c.module)
  let owner := (tget Arrival.zero (s.core c.core).arrivals c.ctr).owner
  orFault bad badOperand (orFault (owner != c.job || (!group && decide (mode = .user))) denied none)

/-- A checked descriptor enters the module's collective engine; an empty MASK completes at once with EMPTY (R414). -/
def acceptColl (s : State) (c : Coll) : State :=
  let s := s.modThread c.gti fun t => { t with engines := t.engines + 1 }
  let ev : Event := match c.kind with
    | 0 => if c.mask = 0 then .collectiveCompletion ⟨c, 5, 0, 0, none⟩ else .collectiveAllreduce c
    | 1 => if c.mask = 0 then .collectiveCompletion ⟨c, 5, 0, 0, none⟩ else .collectiveBroadcast c
    | 2 => .hostToDevice c
    | _ => .deviceToHost c
  s.send (fromThread c.gti) (atModule c.module) ev

/-- The write of CLSUB, its waits done (R413). -/
def startCollective (i : Iss) (ptr : Word) (s : State) : Res :=
  withWritten i s fun s => Res.orHeld s <|
  let r := readBytes s i.g ptr 64 .load false gkLoad i.pc
  match r.2 with
  | .error f => answerFault i f r.1
  | .ok bs =>
    let d := leNat bs
    let c := readColl r.1 i ptr d
    match collFault r.1 c d (r.1.thread i.g).ctx.mode with
    | some f => answerFault i f r.1
    | none => .done (acceptColl r.1 c)

/-- The precise faults of a write of CLSUB (R413): space 2 serves only where it names the own core (R13). -/
def clsubFault (s : State) (g : Nat) (ptr : Word) : Option FaultRec :=
  match s.target g ptr 64 .load with
  | .error k => some (xlate k ptr)
  | .ok (.remote _ _) => some (xlate kSpaceOp ptr)
  | .ok _ => orFault (ptr.toNat % 64 != 0) (mkFault .alignment 0 ptr) none

/-! ## mfcr and mtcr -/

/-- K read as unsigned, or the joined value (R221, R237). -/
def registerNumber (i : Iss) (o : OpI) : Nat := if i.nimm = 0 then o.k.toNat else i.imm.toNat

/-- Whether an access of the core to a slice is still on its way to it (R85). -/
def sliceAhead (s : State) (core gslice : Nat) : Bool :=
  s.agenda.any fun f => f.dst == atSlice gslice && f.src % 3 == 0 && coreOf (f.src / 3) == core

/-- mfcr (R278, R85). -/
def execMfcr (o : OpI) (s : State) : Host.Outcome State Fault Refusal :=
  finish s <| issue s { Traits.ofI o (fx o.d) (fk o.a) with narrow := true } fun i s =>
    let n := registerNumber i o
    if ¬ isRegister n then .trap illegal s
    else if (s.thread i.g).ctx.mode.code < readMode n then .trap denied s
    else if inThread n then setD i s (readOwn s i.g n)
    else if (n = 0x080 ∨ n = 0x081) ∧ sliceAhead s (coreOf i.g) (selSlice s i.g) then .wait .unit s
    else
      withRoomOut i s fun s =>
        let v := readUnit s i.g n
        let r := expect v.2 i (.regs [i.d] []) 1 false
        .done (answer r.1 (fromThread i.g) i.g r.2 (.regs [(i.d, v.1)] [] 0) none)

/-- mtcr (R278). -/
def execMtcr (o : OpI) (s : State) : Host.Outcome State Fault Refusal :=
  finish s <| issue s { Traits.ofI o (fk o.d) (fx o.a) with narrow := true } fun i s =>
    let n := registerNumber i o
    let t := s.thread i.g
    let v := if n = 0x008 then restartOf t (t.x i.a) else t.x i.a
    if ¬ isRegister n then .trap illegal s
    else if inThread n then
      let cur := readOwn s i.g n
      if deniedWrite t.ctx.mode.code n cur v then .trap denied s
      else
        let s := s.modThread i.g fun t => writeOwn t n (wouldBe n cur v)
        .done (if n = 0x005 then s.armTimer i.g else s)
    else
      let m := moduleOf (coreOf i.g)
      let cur := (readUnit s i.g n).1
      let bad := (quietOnly n && jobRuns s m i.g) || badValue s (dieOf (coreOf i.g)) n v
      precise i (orFault bad badOperand (orFault (deniedWrite t.ctx.mode.code n cur v) denied
        (if n = 0x045 then clsubFault s i.g v else none))) s fun s =>
      if !(s.thread i.g).out.isEmpty then .wait .results s
      else waitCounters i (fun _ => true) s fun s =>
        if n = 0x045 then startCollective i v s
        else if n = 0x103 ∧ (s.modu m).trBusy then .wait .trinv s
        else if n = 0x104 ∧ (s.modu m).jsBusy then .wait .jobsw s
        else .done (writeUnit s i.g n (wouldBe n cur v))

end Sys2Proof.Machine
end

