-- ==== Sys2Proof/Machine/Slots.lean ====
section
/-! DEFINITION. The slots of a core and what enters and leaves them (R154, R162 to R164, R169, R170, R181, R184, R206 to R210): the
renaming of a context that leaves its slot, the report of a share, retirement, the context packet, the conditions that end a
wait, and the abandonment of a wait. -/

namespace Sys2Proof

/-! ## A context under another number -/

def TileClient.rename (f : Nat → Nat) : TileClient → TileClient
  | .thread g id => .thread (f g) id
  | .matrix c e => .matrix c e

def TileLoad.rename (f : Nat → Nat) (l : TileLoad) : TileLoad := { l with client := l.client.rename f }

def TilePin.rename (f : Nat → Nat) (p : TilePin) : TilePin :=
  match p.pinner with
  | .matrix _ _ => p
  | .promotion g c k h pc t x => { p with pinner := .promotion (f g) c k h pc t x }

def Contrib.rename (f : Nat → Nat) (k : Contrib) : Contrib := { k with gti := f k.gti }

def LineWrite.rename (f : Nat → Nat) (w : LineWrite) : LineWrite := { w with gti := f w.gti }

/-- The thread that a step concerns, under another number. -/
def Event.rename (f : Nat → Nat) : Event → Event
  | .collectiveAllreduce c => .collectiveAllreduce { c with gti := f c.gti }
  | .collectiveBroadcast c => .collectiveBroadcast { c with gti := f c.gti }
  | .hostToDevice c => .hostToDevice { c with gti := f c.gti }
  | .deviceToHost c => .deviceToHost { c with gti := f c.gti }
  | .collectiveCompletion d => .collectiveCompletion { d with c := { d.c with gti := f d.c.gti } }
  | .faultResponse r => .faultResponse { r with gti := f r.gti }
  | .trapEntry t => .trapEntry { t with gti := f t.gti }
  | .interruptEntry q => .interruptEntry { q with gti := f q.gti }
  | .timerInterrupt t => .timerInterrupt { t with gti := f t.gti }
  | .softInterruptDelivery q => .softInterruptDelivery { q with gti := f q.gti }
  | .singleStep t => .singleStep { t with gti := f t.gti }
  | .resultReturn r => .resultReturn { r with gti := f r.gti }
  | .lineFill r => .lineFill { r with gti := f r.gti }
  | .speculativeStoreReceipt w => .speculativeStoreReceipt (w.rename f)
  | .commitInstall c => .commitInstall { c with gti := f c.gti }
  | .forwardedRead r => .forwardedRead { r with gti := f r.gti }
  | .copySliceMiss r => .copySliceMiss { r with gti := f r.gti }
  | .holderNotice n => .holderNotice { n with contrib := n.contrib.map (·.rename f) }
  | .commutativeFlush n => .commutativeFlush { n with contrib := n.contrib.map (·.rename f) }
  | .fallBackAtomicGrant a => .fallBackAtomicGrant { a with gti := f a.gti }
  | .remoteScratchpadWrite w => .remoteScratchpadWrite { w with gti := f w.gti }
  | .remoteScratchpadRead r => .remoteScratchpadRead { r with gti := f r.gti }
  | .ephemerisCreate c => .ephemerisCreate { c with gti := f c.gti }
  | .ephemerisLoad l => .ephemerisLoad (l.rename f)
  | .ephemerisRelease r => .ephemerisRelease { r with gti := f r.gti }
  | .ephemerisPin p => .ephemerisPin (p.rename f)
  | .ephemerisCommit q => .ephemerisCommit { q with gti := f q.gti }
  | .ephemerisDiscard q => .ephemerisDiscard { q with gti := f q.gti }
  | .waiterCancel w => .waiterCancel { w with client := w.client.rename f }
  | .subscriptionRecord q => .subscriptionRecord { q with gti := f q.gti }
  | .promotionCompletion p => .promotionCompletion { p with gti := f p.gti }
  | .frameAdmission q => .frameAdmission { q with gti := f q.gti }
  | .streamFillElement r => .streamFillElement { r with gti := f r.gti }
  | .streamDrainWrite r => .streamDrainWrite { r with gti := f r.gti }
  | .heliostatLineReceive h => .heliostatLineReceive { h with gti := f h.gti }
  | .msendDelivery m => .msendDelivery { m with gti := f m.gti }
  | .qputDelivery m => .qputDelivery { m with gti := f m.gti }
  | .mailboxMessageArrival m => .mailboxMessageArrival { m with gti := f m.gti }
  | .nonSpeculativeHomeWrite w => .nonSpeculativeHomeWrite { w with w := w.w.rename f }
  | e => e

end Sys2Proof

namespace Sys2Proof.Machine

/-! ## Renaming -/

def renameFlight (f : Nat → Nat) (x : Flight) : Flight := { x with ev := x.ev.rename f }

def renameTile (f : Nat → Nat) (e : TileEntry) : TileEntry :=
  { e with waiters := e.waiters.map (·.rename f), pinWait := e.pinWait.map (·.rename f) }

def renameSlice (f : Nat → Nat) (x : Slice) : Slice :=
  { x with
    spec := x.spec.map fun p => { p with gti := f p.gti }
    tiles := tmap (fun _ e => renameTile f e) x.tiles
    stalls := x.stalls.map fun y => { y with ev := y.ev.rename f, gti := f y.gti }
    seals := x.seals.map fun w => { w with gti := f w.gti }
    copies := tmap (fun _ c => { c with waiting := c.waiting.map fun r => { r with gti := f r.gti } }) x.copies }

def renameCore (f : Nat → Nat) (c : Core) : Core :=
  { c with
    deps := c.deps.map fun e => { e with gti := f e.gti }
    sequencer := c.sequencer.map fun e => { e with gti := f e.gti }
    solver := c.solver.map fun o => { o with gti := f o.gti }
    mxReads := c.mxReads.map fun r => { r with gti := f r.gti }
    comm := c.comm.map fun e => { e with contrib := e.contrib.map (·.rename f) } }

def renameModule (f : Nat → Nat) (m : Module) : Module :=
  { m with
    links := tmap (fun _ l => { l with buf := l.buf.map (fun e => (e.1, e.2.map (renameFlight f))), wait := l.wait.map (renameFlight f) }) m.links
    colls := m.colls.map fun w => { w with c := { w.c with gti := f w.c.gti } } }

/-- A context and all that names it go under another number: a save frame's (R209), that of what a thread leaves on its way
(R169, R170), or a slot's. (DESIGN CHOICE, log 28) -/
def renameGti (old new : Nat) (s : State) : State :=
  let f (g : Nat) : Nat := if g = old then new else g
  { s with
    agenda := s.agenda.map (renameFlight f)
    threads := tput (tdel s.threads old) new (s.thread old)
    slices := tmap (fun _ x => renameSlice f x) s.slices
    cores := tmap (fun _ c => renameCore f c) s.cores
    modules := tmap (fun _ m => renameModule f m) s.modules }

/-! ## Leases -/

/-- A thread gives up every accumulator lease (R332). -/
def dropLeases (s : State) (g : Nat) : State :=
  s.modCore (coreOf g) fun c => { c with acc := tmap (fun _ a => { a with holders := a.holders.filter (· != g) }) c.acc }

/-- The physical address of a save frame of a core. -/
def frameAddr (s : State) (core f : Nat) : Nat :=
  dieOf core * 2 ^ 44 + (s.die (dieOf core)).psBase.toNat * 2 ^ 26 + core % 96 * 2 ^ 19 + f * 2 ^ 13

/-- The row of a slot becomes FREE, and the loader looks for a candidate (R184). -/
def freeRow (s : State) (g : Nat) : State :=
  (s.modCore (coreOf g) fun c => { c with leases := tdel c.leases (slotOf g) }).askLoader (coreOf g)

/-- A row's occupant. (DEDUCED, log 35) -/
def setRow (s : State) (core slot : Nat) (r : Lease) : State := s.modCore core fun c => { c with leases := tput c.leases slot r }

/-! ## The parts of a launch that are left (R169, R181, R188, R190) -/

/-- Whether an entry of the table of threads stands for a context that has not retired, or for engine operations of one that
has: occupants, contexts being loaded, saved contexts, and what gone threads left. -/
def State.lives (s : State) (g : Nat) (t : Thread) : Bool :=
  if g < 2 ^ 33 then t.status != .absent || (s.lease g).state == 1
  else if g < 2 ^ 34 then true
  else t.engines != 0

/-- The contexts of a module set that live, with those of packets wherever they are. -/
def State.liveCtx (s : State) : List Ctx :=
  ((s.threads.filter fun e => s.lives e.1 e.2).map fun e => e.2.ctx) ++
  (s.cores.flatMap fun c => (c.2.runq.map (·.ctx)) ++ (c.2.quarantine.toList.map (·.ctx))) ++
  (s.agenda.filterMap fun f =>
    match f.ev with
    | .migrantPacketArrival p => some p.ctx
    | _ => none) ++
  (s.modules.flatMap fun m => m.2.links.flatMap fun l => l.2.flights.filterMap fun e =>
    match e.ev with
    | .migrantPacketArrival p => some p.ctx
    | _ => none)

/-- Whether waiting-task or work-list entries of a launch are left on any core. -/
def State.entriesLeft (s : State) (ids : Ids) : Bool :=
  s.cores.any fun c => (c.2.wt.any fun e => e.2.ids == ids) || c.2.work.any fun e => e.ids == ids

/-- Whether another core has yet to report its share of a launch. -/
def State.otherShare (s : State) (ids : Ids) (core : Nat) : Bool :=
  (s.cores.any fun c => c.1 != core && c.2.shares.any fun h => h.wake.ids == ids) ||
  s.onWay fun e =>
    match e with
    | .dandelionWake w => w.wake.ids == ids
    | .nolkaiMulticast m =>
      match m.body with
      | .wake w => w.ids == ids
      | .cancel _ => false
    | _ => false

/-- Whether a core reports its share of a launch (R181): every thread of it has started and retired with its engine operations,
and the last core to report waits for whatever else of the launch is left (R169, R188, R190). -/
def shareDone (s : State) (core : Nat) (h : Share) : Bool :=
  h.count == 0 &&
  !(s.liveCtx.any fun c => c.ids == h.wake.ids && c.origin / 16 == core) &&
  (s.otherShare h.wake.ids core ||
    (!(s.liveCtx.any fun c => c.ids == h.wake.ids) && !s.entriesLeft h.wake.ids))

def sendReport (s : State) (core : Nat) (ids : Ids) (status : Nat) : State :=
  s.send (fromThread (core * 16)) (atModule ids.home) (.launchCompletion ⟨ids, core, status⟩)

def reportCore (core : Nat) : List Share → State → State
  | [], s => s
  | h :: t, s =>
    if shareDone s core h then
      reportCore core t (sendReport (s.modCore core fun c => { c with shares := c.shares.filter (· != h) }) core h.wake.ids h.status)
    else reportCore core t s

/-- Every core reports the shares that are done (R181). -/
def reportShares : List (Nat × Core) → State → State
  | [], s => s
  | (k, c) :: t, s => reportShares t (reportCore k c.shares s)

def State.reportAll (s : State) : State := reportShares s.cores s

/-! ## Leaving a slot -/

/-- What a thread that is gone leaves on its way stays under a number of its own; a context with nothing left is removed. (DESIGN CHOICE, log 28) -/
def leaveBehind (s : State) (g : Nat) : State :=
  let s := renameGti g (orphanGti (coreOf g) (s.now * 128 + if g < 2 ^ 33 then slotOf g else 16 + (g - 2 ^ 33) % 64))
    (s.modThread g fun t => { t with status := .absent, streams := [] })
  { s with threads := s.threads.filter fun e => decide (e.1 < 2 ^ 34) || e.2.engines != 0 }

/-- A thread has retired (R169, R381): its slot is free, its engine operations run on, its share may be done. (DEDUCED, log 33) -/
def retire (s : State) (g : Nat) : State := (freeRow (leaveBehind (dropLeases s g) g) g).reportAll

/-! ## The context packet (R162, R163) -/

/-- The 384 B of a packet, with the 512 B of v0 to v3 where CARRY is set (R163): the base in bytes 0 to 127, the control block in bytes 128
to 383. -/
def Packet.image (p : Packet) : Nat :=
  let c := p.ctx
  let regs (t : Table Word) (top : Nat) : Nat :=
    (List.range 9).foldl (fun n k => n + (tget 0 t (k + 1)).toNat * 2 ^ (top - 64 * k)) 0
  let base := c.pc.toNat * 2 ^ 960 + regs c.x 896 + c.cond.toNat * 2 ^ 368 + c.origin * 2 ^ 345 + c.ids.job * 2 ^ 337 +
    c.ids.launch * 2 ^ 321 + c.ids.graph * 2 ^ 305 + c.ids.phase * 2 ^ 297 + c.mode.code * 2 ^ 295 + bitNat c.ie * 2 ^ 294 +
    c.imask.toNat * 2 ^ 290 + c.ipend.toNat * 2 ^ 286 + c.pd * 2 ^ 274 + c.px * 2 ^ 262 + c.po * 2 ^ 250 + c.tseq.toNat * 2 ^ 241 +
    p.dest * 2 ^ 222 + p.source * 2 ^ 203 + p.prio * 2 ^ 200 + bitNat p.carry * 2 ^ 199 + p.fmt % 16 * 2 ^ 195 +
    (packThflg c).toNat % 2 ^ 16 * 2 ^ 179
  let control := c.rpc.toNat * 2 ^ 1984 + regs c.rx 1920 + c.rcond.toNat * 2 ^ 1392 + (packCause c.cause).toNat * 2 ^ 1328 +
    c.epc.toNat * 2 ^ 1264 + c.addr.toNat * 2 ^ 1200 + (packInfo c.info).toNat * 2 ^ 1136 + (packCause c.mcause).toNat * 2 ^ 1072 +
    c.mepc.toNat * 2 ^ 1008 + c.svec.toNat * 2 ^ 946 + c.mvec.toNat * 2 ^ 884 + p.trem.toNat * 2 ^ 820 + c.xeq.toNat * 2 ^ 788 +
    c.hpat.toNat * 2 ^ 733 + c.sqsel.toNat * 2 ^ 729 + c.mersel.toNat * 2 ^ 725 + c.pmode.code * 2 ^ 723 + c.mpmode.code * 2 ^ 721 +
    bitNat c.pie * 2 ^ 720 + bitNat c.mpie * 2 ^ 719 + bitNat c.haz * 2 ^ 718 + bitNat c.ss * 2 ^ 717 + bitNat c.pss * 2 ^ 716 +
    bitNat c.mpss * 2 ^ 715
  base + control * 2 ^ 1024 +
    (if p.carry then (List.range 4).foldl (fun n k => n + (tget 0 p.v k).toNat * 2 ^ (3072 + 1024 * k)) 0 else 0)

/-- The packet of a thread that leaves for another core, its PC chosen. -/
def mkPacket (s : State) (g : Nat) (carry : Bool) (dest : Nat) (near : Bool) : Packet :=
  let t := s.thread g
  let c := t.ctx
  { ctx := { c with x := c.x.filter fun e => decide (e.1 ≤ 9), tcmp := 0, ipend := s.ipend g }
    carry := carry, v := if carry then t.v.filter fun e => decide (e.1 ≤ 3) else []
    trem := if c.tcmp = 0 then 0
      else if c.tcmp.toNat ≤ s.cycles (coreOf g) % 2 ^ 64 then 1 else .ofNat 64 (c.tcmp.toNat - s.cycles (coreOf g) % 2 ^ 64)
    dest := dest, source := coreOf g, prio := (s.lease g).prio, fmt := 1, near := near, corrupt := false }

/-- A table of fields by their bits, each with its value cut to its width; the bits between are zero. -/
def fieldBits (l : List (Nat × Nat × Nat)) : Nat := (l.map fun e => e.2.2 % 2 ^ (e.1 + 1 - e.2.1) * 2 ^ e.2.1).sum

/-- Nine registers, the first highest, down to bit lo. -/
def nineRegs (lo : Nat) (r : Nat → Word) : Nat := fieldBits ((List.range 9).map fun k => (lo + 575 - 64 * k, lo + 512 - 64 * k, (r (k + 1)).toNat))

/-- The 128 B base of a packet as it travels (R163). -/
def packetBase (p : Packet) : Nat :=
  let c := p.ctx
  nineRegs 384 (tget 0 c.x) + fieldBits
    [(1023, 960, c.pc.toNat), (383, 368, c.cond.toNat), (367, 345, c.origin), (344, 337, c.ids.job), (336, 321, c.ids.launch),
     (320, 305, c.ids.graph), (304, 297, c.ids.phase), (296, 295, c.mode.code), (294, 294, bitNat c.ie), (293, 290, c.imask.toNat),
     (289, 286, c.ipend.toNat), (285, 274, c.pd), (273, 262, c.px), (261, 250, c.po), (249, 241, c.tseq.toNat), (240, 222, p.dest),
     (221, 203, p.source), (202, 200, p.prio), (199, 199, bitNat p.carry), (198, 195, p.fmt), (194, 179, (packThflg c).toNat)]

/-- The 256 B control block of a packet (R163). -/
def packetControl (p : Packet) : Nat :=
  let c := p.ctx
  nineRegs 1408 (tget 0 c.rx) + fieldBits
    [(2047, 1984, c.rpc.toNat), (1407, 1392, c.rcond.toNat), (1391, 1328, (packCause c.cause).toNat), (1327, 1264, c.epc.toNat),
     (1263, 1200, c.addr.toNat), (1199, 1136, (packInfo c.info).toNat), (1135, 1072, (packCause c.mcause).toNat),
     (1071, 1008, c.mepc.toNat), (1007, 946, c.svec.toNat), (945, 884, c.mvec.toNat), (883, 820, p.trem.toNat),
     (819, 788, c.xeq.toNat), (787, 733, c.hpat.toNat), (732, 729, c.sqsel.toNat), (728, 725, c.mersel.toNat),
     (724, 723, c.pmode.code), (722, 721, c.mpmode.code), (720, 720, bitNat c.pie), (719, 719, bitNat c.mpie), (718, 718, bitNat c.haz),
     (717, 717, bitNat c.ss), (716, 716, bitNat c.pss), (715, 715, bitNat c.mpss)]

/-- The bytes of a packet on the wire, with v0 to v3 when CARRY = 1 (R163). -/
def packetBytes (p : Packet) : List Byte :=
  leBytes 128 (packetBase p) ++ leBytes 256 (packetControl p) ++
    if p.carry then (List.range 4).flatMap fun k => lineBytes (tget 0 p.v k) else []

/-- The context of a packet on the core it has reached (R154, R163). The MIGR was a step (R214), and its commit opened the task (R165). (DEDUCED, log 26) -/
def ofPacket (s : State) (core : Nat) (p : Packet) : Thread :=
  let c : Ctx := { p.ctx with tcmp := if p.trem = 0 then p.ctx.tcmp else .ofNat 64 (s.cycles core + p.trem.toNat) }
  { Thread.empty with ctx := c, v := p.v, opened := c.cause.live || c.mcause.live, stepDue := c.ss }

/-- The cluster nearest a slice of a die (R162). -/
def nearCluster (gslice : Nat) : Nat :=
  let col := gslice % 8
  let cl := min (max col 1) 6 - 1
  sliceDie gslice * 12 + if 8 ≤ gslice % 16 then cl + 6 else cl

/-- The core of a cluster with the most free run-queue entries, ties going to the lowest (R162). -/
def roomiest (s : State) (first : Nat) : Nat → Nat
  | 0 => first
  | n + 1 =>
    let c := roomiest s first n
    if (s.core (first + n + 1)).runq.length < (s.core c).runq.length then first + n + 1 else c

/-- The core that a move reaches: the one named, or the roomiest of its cluster. -/
def moveTarget (s : State) (dest : Nat) (near : Bool) : Nat := if near then roomiest s (dest / 8 * 8) 7 else dest

/-- A thread leaves its slot in a packet (R162 steps 3 and 4). (DEDUCED, log 32) -/
def sendPacket (s : State) (g : Nat) (p : Packet) : State :=
  let s := dropLeases s g
  let s := { s with threads := tdel s.threads g }
  (freeRow s g).send (fromThread g) (atCore p.dest) (.migrantPacketArrival p)

/-! ## Waits (R159, R161, R206) -/

/-- Whether every engine operation of a thread has completed and its drain streams are written (R162 step 2). -/
def enginesIdle (s : State) (g : Nat) : Bool :=
  (s.thread g).engines == 0 && !drainsOut s g (fun _ => true) &&
  !((s.core (coreOf g)).deps ++ (s.core (coreOf g)).sequencer).any (fun e => e.gti == g) &&
  !(s.core (coreOf g)).solver.any fun o => o.gti == g

/-- Whether the condition that ends a wait holds. Those of a tile wait, of a stall and of an answer come with a step that
changes the thread's status. -/
def woken (s : State) (g : Nat) (w : Wake) : Bool :=
  let t := s.thread g
  let core := coreOf g
  let c := s.core core
  let m := moduleOf core
  match w with
  | .results | .returned => t.out.isEmpty
  | .acks => t.acks == 0
  | .specs => !s.onWay (isSpecStore g)
  | .counters pd px po =>
    ctrsZero t.ctx (fun k => match k with
      | .pd => pd
      | .px => px
      | .po => po)
  | .room k => decide (t.ctx.count k < Config.maxPosted)
  | .engines => !lateEngines s g
  | .allEngines => enginesIdle s g
  | .hostWrites => !hostWrites s g
  | .barrier b phase => (s.barrier core b).passed phase
  | .queue => !c.rq.isEmpty && !queueAhead s g
  | .fill n => (t.stream n).mode != .fill || !(t.stream n).buf.isEmpty
  | .drainRoom n => (t.stream n).mode != .drain || decide ((t.stream n).buf.length < drainRoom (t.stream n).desc)
  | .drainEnd n => (t.stream n).buf.isEmpty
  | .tile _ _ _ => false
  | .arrival k thr => decide (thr ≤ (tget Arrival.zero c.arrivals k).value)
  | .completion k thr => decide (thr ≤ (s.compCtr m t.ctx.ids.job k).value)
  | .meridian ch ends => (s.meridian m ch).ends.toNat != ends
  | .stall _ _ => false
  | .tableFull k =>
    match k with
    | 0 => decide (c.wt.length < Config.waitingTasks)
    | 1 => decide (c.work.length < Config.workList)
    | _ => decide ((s.cluster (clusterOf core)).tq.length < Config.tileQueue)
  | .trinv => !(s.modu m).trBusy
  | .jobsw => !(s.modu m).jsBusy
  | .unit => true
  | .stop => false
  | .ready mask => (List.range 4).all fun i => !mask.getLsbD i || (tget Acc.zero c.acc i).pend == 0
  | .answer => false

/-- The blocking points at which a thread may be interrupted (R161, R206). -/
def blocking : Wake → Bool
  | .returned | .counters _ _ _ | .room _ | .barrier _ _ | .queue | .fill _ | .drainRoom _ | .drainEnd _ | .tile _ _ _ | .arrival _ _
  | .completion _ _ | .meridian _ _ | .stall _ _ | .tableFull _ | .trinv | .jobsw | .hostWrites => true
  | .results | .acks | .specs | .engines | .allEngines | .unit | .ready _ | .answer | .stop => false

/-- The version that a thread's stalled operation names. -/
def stalledRef (x : Slice) (g : Nat) : Option TileRef :=
  match x.stalls.find? fun y => y.gti == g with
  | some y =>
    match y.ev with
    | .ephemerisCreate c => some c.t
    | .ephemerisLoad l => some l.t
    | .subscriptionRecord q => some q.t
    | _ => none
  | none => none

/-- The operation that a waiting thread has at a home: its version and client. -/
def heldOp (s : State) (g : Nat) : Option WaiterRef :=
  let t := s.thread g
  let client : TileClient := .thread g (t.nextId - 1)
  match t.status with
  | .waiting (.tile h m false) => some ⟨tileRef m t.ctx.ids.job h, client⟩
  | .waiting (.stall gs _) => (stalledRef (s.slice gs) g).map fun r => ⟨r, client⟩
  | _ => none

/-- Whether a waiting thread's instruction can still be abandoned (R161): an operation that its home has served completes. -/
def canAbandon (s : State) (g : Nat) : Bool :=
  match (s.thread g).status with
  | .waiting w =>
    blocking w && (match w with
      | .tile _ _ false | .stall _ _ => (heldOp s g).any (opHeld s)
      | _ => true)
  | _ => false

/-- A waiting thread's instruction is abandoned without performing (R161); it is the next to issue. -/
def abandon (s : State) (g : Nat) : State :=
  let s := match heldOp s g with
    | some w => abandonOp s w
    | none => s
  s.modThread g fun t => { t with status := .ready, stage := .start, checked := false }

end Sys2Proof.Machine
end

