-- ==== Sys2Proof/Machine/Control.lean ====
section
/-! DEFINITION. Branches, hardware loops, migration, commit, trap returns, interrupt enables and sends, cancels, invalidation of
instruction lines, call entries and queries (R272 to R287, R381). -/

namespace Sys2Proof.Machine

/-! ## Branches (R272, R215, R381) -/

/-- A target that no bit of [63:57] makes non-canonical. -/
def canonical (pc : Word) : Bool := bits pc 63 57 == 0

/-- br (R272). -/
def execBr (o : OpB) (s : State) : Host.Outcome State Fault Refusal :=
  finish s <| issue s (Traits.ofB o) fun i s =>
    let t := i.pc + 4 * i.imm
    if canonical t then .jump t s else .trap (xlate kNonCanonical t) s

/-- call (R272). -/
def execCall (o : OpB) (s : State) : Host.Outcome State Fault Refusal :=
  finish s <| issue s { Traits.ofB o with more := ([31], []) } fun i s =>
    let t := i.pc + 4 * i.imm
    if canonical t then .jump t (s.modThread i.g fun h => h.setX 31 (nextPc i.pc)) else .trap (xlate kNonCanonical t) s

/-- Retirement (R381, R169, R122): a release of scope SYSTEM, the thread's engine faults (R197), and the slot is free. (DEDUCED, log 33) -/
def retireBody (i : Iss) (s : State) : Res :=
  withRelease i 6 s fun s => surfaceEngine i (fun _ => true) s fun s => .gone (retire s i.g)

/-- jmpr (R272, R215, R381). -/
def execJmpr (o : OpI) (s : State) : Host.Outcome State Fault Refusal :=
  finish s <| issue s { Traits.ofI o (fx o.d) (fx o.a) with rep := false } fun i s =>
    let t := (s.thread i.g).x i.a + 4 * i.imm
    if t = 0 then retireBody i s
    else if ¬ canonical t then .trap (xlate kNonCanonical t) s
    else if bits t 1 0 ≠ 0 then .trap (mkFault .alignment 0 t) s
    else .jump t (s.modThread i.g fun h => h.setX i.d (nextPc i.pc))

/-! ## Hardware loops (R273, R182) -/

/-- EXTk of a shape record, or 1 for a dimension not in use (R182). -/
def shapeExt (shape : Nat) (k : Nat) : Nat :=
  if k ≤ recField shape 313 312 then recField shape (447 - 32 * k) (416 - 32 * k) else 1

/-- The loop entered with its count (R273). -/
def enterLoop (i : Iss) (len n : Nat) (s : State) : Res :=
  if n = 0 then .next (i.pc + 4 + .ofNat 64 (4 * len)) s
  else
    .done (s.modThread i.g fun t =>
      (t.setX 9 (.ofNat 64 (len * 2 ^ 56 + (n - 1)))).setX 8 (.ofNat 64 (2 ^ 63) ||| (i.pc + .ofNat 64 (4 * len))))

/-- loop (R273). -/
def execLoop (o : OpI) (s : State) : Host.Outcome State Fault Refusal :=
  finish s <| issue s { Traits.ofI o (fx o.d) (fx o.a) with rep := false, narrow := true, pol := .taken, more := ([8, 9], []) } fun i s =>
    let t := s.thread i.g
    let ptr := t.x i.a
    let dim := o.k.toNat / 256
    let len := o.k.toNat % 256
    withWritten i s fun s =>
    precise i (orFault (ptr.toNat % 64 != 0) (mkFault .alignment 0 ptr) none) s fun s =>
    if !(s.thread i.g).out.isEmpty then .wait .results s
    else Res.orHeld s <|
      let r := readBytes s i.g ptr 64 .load false gkLoad i.pc
      match r.2 with
      | .error f => answerFault i f r.1
      | .ok bs =>
        let shape := leNat bs
        if recField shape 311 308 ≠ 1 ∨ recField shape 307 0 ≠ 0 then .trap badOperand r.1
        else if i.d = 0 then enterLoop i len (shapeExt shape dim) (notePolicy i [ptr] r.1)
        else if recField shape 511 448 = 0 then .trap badOperand r.1
        else
          let at_ : Word := .ofNat 64 (recField shape 511 448) + 4 * t.x i.d
          let q := readBytes (notePolicy i [ptr, at_] r.1) i.g at_ 4 .load false gkLoad i.pc
          match q.2 with
          | .error f => answerFault i f q.1
          | .ok ns => enterLoop i len (leNat ns) q.1

/-! ## Migration and commit (R276, R277, R162) -/

/-- Traits of the CTL and SYS forms: no REP may stand before them (R224). -/
def ctl (o : OpR) (d a b : Field) : Traits := { Traits.ofR o d a b with rep := false }

/-- The move of a thread to a core, or with `near` to the cluster of that core (R162). To the current core it is steps 1, 2 and 5: the thread
keeps its slot, and acquires. (DEDUCED, log 32) -/
def migrate (i : Iss) (o : OpR) (dest : Nat) (near : Bool) (s : State) : Res :=
  withRelease i 5 s fun s =>
    surfaceEngine i (fun _ => true) s fun s =>
      if ¬ enginesIdle s i.g then .wait .allEngines s
      else if moveTarget s dest near = coreOf i.g then withAcquire i s fun s => .done s
      else
        let s := s.modThread i.g fun t => t.advance (nextPc (wordAddr t.ctx.pc))
        .gone (sendPacket s i.g (mkPacket s i.g (o.d.getLsbD 0) dest near))

/-- The target of migr.a (R276): a core, and whether its cluster is meant. -/
def migrTarget (s : State) (g : Nat) (ptr : Word) : Except FaultRec (Nat × Bool) :=
  match s.resolve g ptr .migrate with
  | .error k => .error (xlate k ptr)
  | .ok (.own _) => .ok (coreOf g, false)
  | .ok (.remote c _) => .ok (c, false)
  | .ok (.linear a) =>
    match s.home (coreOf g) (s.thread g).ctx.ids.job a with
    | .error k => .error (xlate k ptr)
    | .ok gs => .ok (nearCluster gs * 8, true)

/-- migr.a (R276). -/
def execMigrA (o : OpR) (s : State) : Host.Outcome State Fault Refusal :=
  finish s <| issue s (ctl o (fk o.d) (fx o.a) (fk o.b)) fun i s =>
    match migrTarget s i.g ((s.thread i.g).x i.a) with
    | .error f => .trap f s
    | .ok (c, near) => migrate i o c near s

/-- migr.h (R276). -/
def execMigrH (o : OpR) (s : State) : Host.Outcome State Fault Refusal :=
  finish s <| issue s (ctl o (fk o.d) ⟨o.a.toNat, .h⟩ (fx o.b)) fun i s =>
    let t := s.thread i.g
    let h := t.handle i.a
    let m := if i.b = 0 ∧ i.bv.isNone then moduleOf (coreOf i.g) else (i.bval t).toNat
    if tileOperandBad s i.g m h then .trap (tileOperandFault h) s
    else migrate i o (nearCluster (tileSlice m (bits h 63 24)) * 8) true s

/-- migr.c (R276). -/
def execMigrC (o : OpR) (s : State) : Host.Outcome State Fault Refusal :=
  finish s <| issue s (ctl o (fk o.d) (fx o.a) (fk o.b)) fun i s =>
    let c := ((s.thread i.g).x i.a).toNat
    if offJob s i.g c then .trap badOperand s else migrate i o c false s

/-- tcom (R277, R128, R71). -/
def execTcom (o : OpR) (s : State) : Host.Outcome State Fault Refusal :=
  finish s <| issue s (ctl o (fk o.d) (fk o.a) (fk o.b)) fun i s =>
    let commit (s : State) : Res := withCommit i false s fun s => .done s
    if (s.thread i.g).stage = .start then checkGuard i s commit else commit s

/-! ## Trap returns (R201, R279) -/

/-- A return target: canonical, or a resume form (R226). -/
def returnOk (pc : Word) : Bool := canonical pc || bit pc 63

/-- The task that a return leaves open, if it opened while a record was live, captures its restart context (R165). -/
def captureAtReturn (t : Thread) (pc : Word) : Thread :=
  if t.opened && !t.ctx.cause.live && !t.ctx.mcause.live then { t with ctx := t.ctx.capture pc, opened := false } else t

/-- The thread after a return to a PC, its mode and records restored. -/
def returnTo (t : Thread) (pc : Word) : Thread := captureAtReturn { t with ctx := (leave t.ctx).1 } pc

/-- tret (R279). -/
def execTret (o : OpR) (s : State) : Host.Outcome State Fault Refusal :=
  finish s <| issue s (ctl o (fk o.d) (fk o.a) (fk o.b)) fun i s =>
    let t := s.thread i.g
    let pc := (leave t.ctx).2
    if t.ctx.mode = .user then .trap denied s
    else if returnOk pc then .jump pc (s.modThread i.g fun t => returnTo t pc)
    else .trap (xlate kNonCanonical pc) s

/-- x1 to x9 and the condition word take the restart values (R167). -/
def restartValues (c : Ctx) : Ctx :=
  { c with x := c.rx ++ c.x.filter fun e => decide (9 < e.1), cond := c.rcond }

/-- tret.rs (R279, R167): the open task is discarded, leases are given up (R332), and a new task opens at THRPC. -/
def execTretRs (o : OpR) (s : State) : Host.Outcome State Fault Refusal :=
  finish s <| issue s (ctl o (fk o.d) (fk o.a) (fk o.b)) fun i s =>
    let t := s.thread i.g
    let pc := t.ctx.rpc
    if t.ctx.mode = .user then .trap denied s
    else if returnOk pc then
      let s := dropLeases (discardTask s i.g) i.g
      .jump pc (s.modThread i.g fun u =>
        openTask { u with
          ctx := restartValues (leave u.ctx).1
          pend := u.pend.filter fun p => p.task != t.ctx.task } pc)
    else .trap (xlate kNonCanonical pc) s

/-- tret.dp (R213, R279): the word in THXEQ is the next to issue, as the word at the return address. -/
def execTretDp (o : OpR) (s : State) : Host.Outcome State Fault Refusal :=
  finish s <| issue s (ctl o (fk o.d) (fk o.a) (fk o.b)) fun i s0 =>
    let t := s0.thread i.g
    let pc := (leave t.ctx).2
    if t.ctx.mode = .user then .trap denied s0
    else if returnOk pc then
      .gone (s0.modThread i.g fun t =>
        { ((returnTo t pc).transfer pc).settle o.m (s0.thread i.g).ctx.ss with displaced := true })
    else .trap (xlate kNonCanonical pc) s0

/-! ## Interrupts (R280, R281) -/

/-- THST.IE written (R280). -/
def setIe (o : OpR) (b : Bool) (s : State) : State :=
  issue s (ctl o (fk o.d) (fk o.a) (fk o.b)) fun i s =>
    if (s.thread i.g).ctx.mode = .user then .trap denied s
    else .done (s.modCtx i.g fun c => { c with ie := b })

/-- ien (R280). -/
def execIen (o : OpR) (s : State) : Host.Outcome State Fault Refusal := finish s (setIe o true s)

/-- idis (R280). -/
def execIdis (o : OpR) (s : State) : Host.Outcome State Fault Refusal := finish s (setIe o false s)

/-- isend (R281). -/
def execIsend (o : OpR) (s : State) : Host.Outcome State Fault Refusal :=
  finish s <| issue s (ctl o (fx o.d) (fx o.a) (fx o.b)) fun i s =>
    let t := s.thread i.g
    let core := (t.x i.a).toNat
    let slot := (i.bval t).toNat
    if offJob s i.g core ∨ 15 < slot then .trap badOperand s
    else
      withRoomOut i s fun s =>
        let r := expect s i (.regs [i.d] []) 1 false
        .done (r.1.send (fromThread i.g) (atCore core) (.softInterruptDelivery ⟨i.g, r.2, i.d, core, slot, t.ctx.ids.job⟩))

/-! ## Cancel (R282, R170) -/

/-- Whether a cancel's level covers a piece of work. -/
def keyCovers (k : CancelKey) (c : Ids) : Bool :=
  k.ids.job == c.job &&
  match k.level with
  | 0 => k.ids.phase == c.phase && k.ids.graph == c.graph && k.ids.launch == c.launch
  | 1 => k.ids.phase == c.phase && k.ids.graph == c.graph
  | 2 => k.ids.phase == c.phase
  | _ => true

/-- The modules that a job spans, as a mask: the current one and those of its partition (R170, R409). -/
def jobMask (s : State) (m job : Nat) : BitVec 64 := s.partition m job ||| .ofNat 64 (2 ^ m)

/-- A cancel is accepted by the module's queue engine and floods the job's modules (R170, R411). -/
def floodCancel (s : State) (m : Nat) (k : CancelKey) : State :=
  s.post ⟨s.now, fromModule m, atModule m, .nolkaiMulticast ⟨m, jobMask s m k.ids.job, .cancel k⟩⟩

/-- The level that a cancel instruction names, within the thread's own (R170, R282). -/
def cancelKey (c : Ids) (level v : Nat) : CancelKey :=
  match level with
  | 0 => ⟨0, { c with launch := v }⟩
  | 1 => ⟨1, { c with graph := v }⟩
  | 2 => ⟨2, { c with phase := v }⟩
  | _ => ⟨3, { c with job := v }⟩

/-- Whether a mode may make a cancel (R156, R170, R282). -/
def cancelAllowed (mode : Mode) (c : Ids) (level v : Nat) : Bool :=
  match mode with
  | .user => (level == 0 && v == c.launch) || (level == 1 && v == c.graph)
  | .supervisor => level != 3 || v == c.job
  | .monitor => true

/-- cancel (R282). A thread that its own cancel covers waits to be stopped, and nothing else ends the wait. It retires on completion, so its
switch marker has no effect once it has performed (R263). -/
def execCancel (o : OpR) (s : State) : Host.Outcome State Fault Refusal :=
  finish s <| issue s (ctl o (fk o.d) (fx o.a) (fk o.b)) fun i s =>
    let t := s.thread i.g
    let level := o.b.toNat
    let v := (t.x i.a).toNat
    if (if level < 2 then 2 ^ 16 else 2 ^ 8) ≤ v then .trap badOperand s
    else if ¬ cancelAllowed t.ctx.mode t.ctx.ids level v then .trap denied s
    else
      let k := cancelKey t.ctx.ids level v
      let s := floodCancel s (moduleOf (coreOf i.g)) k
      if keyCovers k t.ctx.ids then .wait .stop s else .whole s

/-! ## Invalidation of an instruction line (R283, R213) -/

/-- Whether a core lies in a scope of another (R119, R283). -/
def inScope (s : State) (core job scope c : Nat) : Bool :=
  match scope with
  | 1 => c == core
  | 2 => clusterOf c == clusterOf core
  | 3 => dieOf c == dieOf core
  | 4 => moduleOf c == moduleOf core
  | _ => s.ofJob (moduleOf core) job (moduleOf c)

/-- The line that an icinv names, if its address maps to one, or its own fault (R283, R287): SPACE_OP and NON_CANONICAL alone. (DEDUCED, log 94) -/
def icinvLine (s : State) (g : Nat) (ptr : Word) : Except Nat (Option Nat) :=
  let sp := bits ptr 63 60
  if 4 ≤ sp ∨ (bits ptr 59 57 ≠ 0 ∧ sp ≠ 2) then .error kNonCanonical
  else if sp = 1 ∨ sp = 2 then .error kSpaceOp
  else
    match s.resolve g ptr .load with
    | .ok (.linear a) => .ok (some (a / 128))
    | .ok _ => .ok none
    | .error k => if sp = 0 then .error k else .ok none

/-- icinv (R283). -/
def execIcinv (o : OpR) (s : State) : Host.Outcome State Fault Refusal :=
  finish s <| issue s (ctl o (fk o.d) (fx o.a) (fk o.b)) fun i s =>
    let ptr := (s.thread i.g).x i.a
    match icinvLine s i.g ptr with
    | .error k => .trap (xlate k ptr) s
    | .ok line =>
      let scope := min 5 (scopeOf o.b.toNat)
      withRelease i scope s fun s =>
        let job := (s.thread i.g).ctx.ids.job
        .whole (match line with
          | some l => dropILine s job l (inScope s (coreOf i.g) job scope)
          | none => s)

/-! ## Call entries (R284) and queries (R285, R286) -/

/-- A call entry's fault record. -/
def callEntry (c : Cause) : FaultRec := mkFault c 0 0

/-- sysc (R284). -/
def execSysc (o : OpR) (s : State) : Host.Outcome State Fault Refusal :=
  finish s <| issue s (ctl o (fk o.d) (fk o.a) (fk o.b)) fun _ s => .call (callEntry .systemCall) s

/-- monc (R284). -/
def execMonc (o : OpR) (s : State) : Host.Outcome State Fault Refusal :=
  finish s <| issue s (ctl o (fk o.d) (fk o.a) (fk o.b)) fun i s =>
    if (s.thread i.g).ctx.mode = .user then .trap denied s else .call (callEntry .monitorCall) s

/-- brk (R284): THEPC is the address of the brk word itself. -/
def execBrk (o : OpR) (s : State) : Host.Outcome State Fault Refusal :=
  finish s <| issue s (ctl o (fk o.d) (fk o.a) (fk o.b)) fun i s => .trap { callEntry .breakpoint with pc := some i.pc } s

/-- The number of set bits of a mask, from bit n - 1 down. -/
def popMask (m : BitVec 64) : Nat → Nat
  | 0 => 0
  | n + 1 => popMask m n + bitNat (m.getLsbD n)

/-- The feature words (R285). -/
def featWord (s : State) (g n : Nat) : Nat :=
  let m := moduleOf (coreOf g)
  match n with
  | 0 => 0x4002
  | 1 => 1024
  | 2 => 0x1FF
  | 3 => (s.modu m).domModule.toNat
  | 4 => max 1 (popMask (s.partition m (s.thread g).ctx.ids.job) 64)
  | 5 => Config.coresPerModule
  | 6 => Config.slotsPerCore
  | 7 => Config.scratchBytes
  | 8 => Config.ephemeris
  | 9 => 0b110
  | 10 => 0x0101
  | _ => 0

/-- feat (R285). -/
def execFeat (o : OpR) (s : State) : Host.Outcome State Fault Refusal :=
  finish s <| issue s (ctl o (fx o.d) (fx o.a) (fk o.b)) fun i s =>
    setD i s (.ofNat 64 (featWord s i.g ((s.thread i.g).x i.a).toNat))

/-- rdcyc (R286). -/
def execRdcyc (o : OpR) (s : State) : Host.Outcome State Fault Refusal :=
  finish s <| issue s (ctl o (fx o.d) (fk o.a) (fk o.b)) fun i s => setD i s (.ofNat 64 (s.cycles (coreOf i.g)))

end Sys2Proof.Machine
end

