-- ==== Sys2Proof/Machine/ScalarFp.lean ====
section
/-! DEFINITION. The scalar floating-point instructions and fcvt (R270, R271): OP 0x0A to 0x0C. -/

namespace Sys2Proof.Machine

/-- The rounding mode: HMOD.RM, or nearest-even (R246). -/
def Iss.mode (i : Iss) : Nat := if i.rm = 0 then 1 else i.rm

/-- A two-operand form; `rounds` says whether HMOD.RM reaches it. -/
def fpOp (s : State) (o : OpF) (rounds : Bool) (f : Nat → Nat → Nat → Nat → FRes) : State :=
  issue s { Traits.ofF o (fx o.d) (fx o.a) (fx o.b) with rounds := rounds } fun i s =>
    let t := s.thread i.g
    setDF i s (f o.t.toNat i.mode (t.x i.a).toNat (i.bval t).toNat)

/-- A one-operand form, B reserved. -/
def fpUnary (s : State) (o : OpF) (rounds sets : Bool) (f : Nat → Nat → Nat → FRes) : State :=
  issue s { Traits.ofF o (fx o.d) (fx o.a) fnone with rounds := rounds, sets := sets } fun i s =>
    setDF i s (f o.t.toNat i.mode ((s.thread i.g).x i.a).toNat)

/-- A compare into c[D]: 0 equal, 1 less, 2 less or equal, 3 unordered. -/
def fpCmpOp (s : State) (o : OpF) (op : Nat) : State :=
  issue s (Traits.ofF o (fc o.d) (fx o.a) (fx o.b)) fun i s =>
    let t := s.thread i.g
    let r := fpCompare o.t.toNat op (t.x i.a).toNat (i.bval t).toNat
    doneT i s fun t => (if i.nf then t else t.orFlags r.2).setC i.d r.1

/-- fadd (R270). -/
def execFadd (o : OpF) (s : State) : Host.Outcome State Fault Refusal := finish s (fpOp s o true fpAdd)

/-- fsub (R270). -/
def execFsub (o : OpF) (s : State) : Host.Outcome State Fault Refusal := finish s (fpOp s o true fpSub)

/-- fmul (R270). -/
def execFmul (o : OpF) (s : State) : Host.Outcome State Fault Refusal := finish s (fpOp s o true fpMul)

/-- fdiv (R270). -/
def execFdiv (o : OpF) (s : State) : Host.Outcome State Fault Refusal := finish s (fpOp s o true fpDiv)

/-- fsqrt (R270). -/
def execFsqrt (o : OpF) (s : State) : Host.Outcome State Fault Refusal := finish s (fpUnary s o true true fpSqrt)

/-- fmin: minimumNumber (R244, R270). -/
def execFmin (o : OpF) (s : State) : Host.Outcome State Fault Refusal := finish s (fpOp s o false fun t _ a b => fpMinMax t false a b)

/-- fmax: maximumNumber (R244, R270). -/
def execFmax (o : OpF) (s : State) : Host.Outcome State Fault Refusal := finish s (fpOp s o false fun t _ a b => fpMinMax t true a b)

/-- fmac: x[A] × x[B] + x[D], rounded once (R270). -/
def execFmac (o : OpF) (s : State) : Host.Outcome State Fault Refusal :=
  finish s (issue s { Traits.ofF o (fx o.d) (fx o.a) (fx o.b) with rounds := true } fun i s =>
    let t := s.thread i.g
    setDF i s (fpFma o.t.toNat i.mode (t.x i.a).toNat (i.bval t).toNat (t.x i.d).toNat))

/-- fcmp.eq (R270). -/
def execFcmpEq (o : OpF) (s : State) : Host.Outcome State Fault Refusal := finish s (fpCmpOp s o 0)

/-- fcmp.lt (R270). -/
def execFcmpLt (o : OpF) (s : State) : Host.Outcome State Fault Refusal := finish s (fpCmpOp s o 1)

/-- fcmp.le (R270). -/
def execFcmpLe (o : OpF) (s : State) : Host.Outcome State Fault Refusal := finish s (fpCmpOp s o 2)

/-- fcmp.un: unordered (R270). -/
def execFcmpUn (o : OpF) (s : State) : Host.Outcome State Fault Refusal := finish s (fpCmpOp s o 3)

/-- fclass: the one-hot class word; no flag (R270). -/
def execFclass (o : OpF) (s : State) : Host.Outcome State Fault Refusal := finish s (fpUnary s o false false fun t _ a => (fpClass t a, 0))

/-- fsgn: the magnitude of x[A] with the sign of x[B] (R270). -/
def execFsgn (o : OpF) (s : State) : Host.Outcome State Fault Refusal := finish s (fpOp s o false fun t _ a b => fpSgn t a b)

/-- fneg (R270). -/
def execFneg (o : OpF) (s : State) : Host.Outcome State Fault Refusal := finish s (fpUnary s o false true fun t _ a => fpNeg t a)

/-- fabs (R270). -/
def execFabs (o : OpF) (s : State) : Host.Outcome State Fault Refusal := finish s (fpUnary s o false true fun t _ a => fpAbs t a)

/-- An integer result extended to 64 bits as its type is (R271). -/
def extendInt (c : Nat) (v : Nat) : Nat :=
  if 4 ≤ c then intBits 64 (intVal (intType c).1 (intType c).2 v) else v

/-- fcvt: the destination and source type codes are fields (R271). -/
def execFcvt (o : OpC) (s : State) : Host.Outcome State Fault Refusal :=
  finish s (issue s
    { m := o.m, guard := o.g, d := fx o.d, a := fx o.a, b := fk o.b, imm := none, immB := false,
      rounds := convertRounds o.c.toNat o.b.toNat, sets := true, sat := false, pol := .ignored, rep := true, narrow := false,
      more := ([], []) } fun i s =>
    let r := convert o.c.toNat o.b.toNat i.rm false ((s.thread i.g).x i.a).toNat
    setDF i s (extendInt o.c.toNat r.1, r.2))

end Sys2Proof.Machine
end

