-- ==== Sys2Proof/Machine/Vector.lean ====
section
/-! DEFINITION. The vector instructions on registers (R310 to R321, R325): OP 0x30 to 0x37. -/

namespace Sys2Proof.Machine

/-! ## Elements and activity (R310, R311) -/

/-- Whether each of n elements of e bytes is active under a governing predicate. -/
def actives (t : Thread) (pr : BitVec 3) (e : Nat) : List Bool :=
  (List.range (128 / e)).map fun i => pr == 0 || (t.preg pr.toNat).getLsbD (i * e)

/-- Results merged into the old elements: an inactive element keeps its value and sets no flag. -/
def mergeRes : List Bool → List FRes → List Nat → List Nat × Flags
  | true :: p, r :: rs, _ :: os =>
    let q := mergeRes p rs os
    (r.1 :: q.1, r.2 ||| q.2)
  | false :: p, _ :: rs, o :: os =>
    let q := mergeRes p rs os
    (o :: q.1, q.2)
  | _, _, os => (os, 0)

/-- Element-wise results of two and three operands. -/
def map2 {α β : Type} (f : α → α → β) : List α → List α → List β
  | a :: as, b :: bs => f a b :: map2 f as bs
  | _, _ => []

def map3 {α β : Type} (f : α → α → α → β) : List α → List α → List α → List β
  | a :: as, b :: bs, c :: cs => f a b c :: map3 f as bs cs
  | _, _, _ => []

/-- A result without flags. -/
def plain (v : Nat) : FRes := (v, 0)

/-- The elements of a result written to v[D] under a predicate, w bits an element. -/
def writeV (i : Iss) (pr : BitVec 3) (w : Nat) (rs : List FRes) (s : State) : Res :=
  let t := s.thread i.g
  let r := mergeRes (actives t pr (w / 8)) rs (lanes w (t.vreg i.d))
  doneT i s fun t => (if i.nf then t else t.orFlags r.2).setV i.d (ofLanes w r.1)

/-- The element width and signedness of T for integers (R231). -/
def intT (t : BitVec 3) : Nat × Bool := (8 * 2 ^ (t.toNat % 4), decide (t.toNat < 4))

/-! ## Shapes -/

/-- A VINT form: each element from those of v[A] and v[B]. -/
def vintOp (s : State) (o : OpV) (sets sat : Bool) (f : Nat → Bool → Bool → Nat → Nat → FRes) : State :=
  issue s { Traits.ofV o (fv o.d) (fv o.a) (fv o.b) with sets := sets, sat := sat } fun i s =>
    let t := s.thread i.g
    let w := (intT o.t).1
    writeV i o.p w (map2 (f w (intT o.t).2 i.sat) (lanes w (t.vreg i.a)) (lanes w (i.vB t w))) s

/-- A VFP form of two operands and v[D]. -/
def vfpOp (s : State) (o : OpV) (rounds : Bool) (f : Nat → Nat → Nat → Nat → Nat → FRes) : State :=
  issue s { Traits.ofV o (fv o.d) (fv o.a) (fv o.b) with sets := true, rounds := rounds } fun i s =>
    let t := s.thread i.g
    let w := (fmt o.t.toNat).w
    writeV i o.p w (map3 (f o.t.toNat i.mode) (lanes w (t.vreg i.a)) (lanes w (i.vB t w)) (lanes w (t.vreg i.d))) s

/-- A VFP or VSFN form of v[A], B reserved. -/
def vfpUnary (s : State) (o : OpV) (rounds : Bool) (f : Nat → Nat → Nat → FRes) : State :=
  issue s { Traits.ofV o (fv o.d) (fv o.a) fnone with sets := true, rounds := rounds } fun i s =>
    let w := (fmt o.t.toNat).w
    writeV i o.p w ((lanes w ((s.thread i.g).vreg i.a)).map (f o.t.toNat i.mode)) s

/-- A predicate of e bits an element (R311): inactive elements are 0. -/
def predOf (e : Nat) (p : List Bool) (b : List Bool) : Pred :=
  .ofNat 128 (lanesNat e (map2 (fun x y => if x && y then 2 ^ e - 1 else 0) p b))

/-- A predicate written to p[D], with the flags of the active elements. -/
def writeP (i : Iss) (pr : BitVec 3) (e : Nat) (rs : List (Bool × Flags)) (s : State) : Res :=
  let act := actives (s.thread i.g) pr e
  let fl := (map2 (fun (x y : Bool × Flags) => flagIf x.1 y.2) (act.map fun b => (b, (0 : Flags))) rs).foldl (· ||| ·) 0
  doneT i s fun t => (if i.nf then t else t.orFlags fl).setP i.d (predOf e act (rs.map (·.1)))

/-- An integer compare (R317). -/
def vcmpOp (s : State) (o : OpV) (f : Int → Int → Bool) : State :=
  issue s (Traits.ofV o (fp o.d) (fv o.a) (fv o.b)) fun i s =>
    let t := s.thread i.g
    let w := (intT o.t).1
    let v := intVal w (intT o.t).2
    writeP i o.p (w / 8) (map2 (fun a b => (f (v a) (v b), 0)) (lanes w (t.vreg i.a)) (lanes w (i.vB t w))) s

/-- A floating-point compare (R317). -/
def vfcmpOp (s : State) (o : OpV) (f : Nat → Nat → Nat → Bool × Flags) : State :=
  issue s { Traits.ofV o (fp o.d) (fv o.a) (fv o.b) with sets := true } fun i s =>
    let t := s.thread i.g
    let w := (fmt o.t.toNat).w
    writeP i o.p (w / 8) (map2 (f o.t.toNat) (lanes w (t.vreg i.a)) (lanes w (i.vB t w))) s

/-- A VPRED form on all 128 bits (R318). -/
def predOp (s : State) (o : OpV) (a b : Field) (f : Pred → Pred → Pred) : State :=
  issue s (Traits.ofV o (fp o.d) a b) fun i s =>
    let t := s.thread i.g
    doneT i s fun u => u.setP i.d (f (t.preg i.a) (t.preg i.b))

/-- A VPERM form whose bytes come from the bytes of two registers, merged (R319). -/
def bytesOp (s : State) (o : OpV) (a b : Field) (f : Nat → List Nat → List Nat → Nat) : State :=
  issue s (Traits.ofV o (fv o.d) a b) fun i s =>
    let t := s.thread i.g
    let va := lanes 8 (t.vreg i.a)
    let vb := lanes 8 (i.vB t 8)
    writeV i o.p 8 ((List.range 128).map fun j => plain (f j va vb)) s

/-- A slide by x[B] bytes, merged (R319). -/
def slideOp (s : State) (o : OpV) (f : Nat → Nat → List Nat → Nat) : State :=
  issue s (Traits.ofV o (fv o.d) (fv o.a) (fx o.b)) fun i s =>
    let t := s.thread i.g
    let va := lanes 8 (t.vreg i.a)
    let n := (i.bval t).toNat
    writeV i o.p 8 ((List.range 128).map fun j => plain (f j n va)) s

/-- The k-th of a list of bytes, or 0. -/
def nth (l : List Nat) (k : Nat) : Nat := l.getD k 0

/-! ## Reductions (R259, R320) -/

/-- A level of the tree: neighbours are combined, a node with one active child passes it on. -/
def treeLevel (f : Nat → Nat → FRes) : List (Option Nat) → List (Option Nat) × Flags
  | a :: b :: t =>
    let q := treeLevel f t
    match a, b with
    | some x, some y => (some (f x y).1 :: q.1, (f x y).2 ||| q.2)
    | some x, none => (some x :: q.1, q.2)
    | none, y => (y :: q.1, q.2)
  | l => (l, 0)

/-- n levels of the tree. -/
def treeGo (f : Nat → Nat → FRes) : Nat → List (Option Nat) → Flags → Option Nat × Flags
  | 0, l, fl => (l.headD none, fl)
  | n + 1, l, fl =>
    let q := treeLevel f l
    treeGo f n q.1 (fl ||| q.2)

/-- The active elements of v[A] under a predicate. -/
def activeLanes (t : Thread) (pr : BitVec 3) (w : Nat) (v : Nat) : List (Option Nat) :=
  map2 (fun (x y : Bool × Nat) => if x.1 then some y.2 else none)
    ((actives t pr (w / 8)).map fun b => (b, 0)) ((lanes w (t.vreg v)).map fun n => (false, n))

/-- A reduction of the active elements into x[D], `empty` where there is none; `ext` is what becomes of the w-bit result. -/
def vredOp (s : State) (o : OpV) (w : Nat) (fp rounds : Bool) (empty : Nat) (ext : Nat → Nat) (f : Nat → Nat → Nat → FRes) : State :=
  issue s { Traits.ofV o (fx o.d) (fv o.a) fnone with sets := fp, rounds := rounds } fun i s =>
    let r := treeGo (f i.mode) 7 (activeLanes (s.thread i.g) o.p w i.a) 0
    setDF i s (ext (r.1.getD empty), r.2)

/-- An integer reduction at T: the result extended to 64 bits as T is. -/
def vredInt (s : State) (o : OpV) (empty : Nat → Bool → Nat) (f : Nat → Bool → Nat → Nat → Nat) : State :=
  let (w, sg) := intT o.t
  vredOp s o w false false (empty w sg) (fun v => intBits 64 (intVal w sg v)) fun _ a b => plain (f w sg a b)

/-- The exact sum of the active elements (R320). -/
def sumLanes (w : Nat) (sg : Bool) : List (Option Nat) → Int
  | [] => 0
  | some v :: t => intVal w sg v + sumLanes w sg t
  | none :: t => sumLanes w sg t

/-- A floating-point reduction. -/
def vredFp (s : State) (o : OpV) (rounds : Bool) (empty : Nat → Nat) (f : Nat → Nat → Nat → Nat → FRes) : State :=
  let ty := o.t.toNat
  vredOp s o (fmt ty).w true rounds (empty ty) id (f ty)

/-! ## Element results -/

def vshAmount (w b : Nat) : Nat := b % w

def vsllEl (w : Nat) (sg sat : Bool) (a b : Nat) : FRes := fitInt w sg sat (intVal w sg a * 2 ^ vshAmount w b)

/-- |a| for a signed type, where the most negative number stays as it is (R313). -/
def vabsEl (w : Nat) (sg : Bool) (a : Nat) : FRes := plain (intBits w (if sg then (intVal w sg a).natAbs else a))

/-- The four products that vdot adds to a destination element (R314). -/
def dotGo (w : Nat) (sg : Bool) : List Nat → List Nat → List Nat → List FRes
  | d :: ds, a0 :: a1 :: a2 :: a3 :: as, b0 :: b1 :: b2 :: b3 :: bs =>
    let v := intVal w sg
    satInt (4 * w) sg (intVal (4 * w) sg d + v a0 * v b0 + v a1 * v b1 + v a2 * v b2 + v a3 * v b3) :: dotGo w sg ds as bs
  | _, _, _ => []

/-- The extreme of two elements compared by T. -/
def vminEl (w : Nat) (sg : Bool) (a b : Nat) : Nat := if intVal w sg b < intVal w sg a then b else a
def vmaxEl (w : Nat) (sg : Bool) (a b : Nat) : Nat := if intVal w sg a < intVal w sg b then b else a

/-- An encoding with its sign inverted. -/
def flipSign (t a : Nat) : Nat := a ^^^ 2 ^ ((fmt t).w - 1)

/-- The bytes that a mask selects, in order. -/
def packed : List Bool → List Nat → List Nat
  | true :: p, b :: t => b :: packed p t
  | false :: p, _ :: t => packed p t
  | _, _ => []

/-- The lowest one bit below bit n. -/
def lowestBelow (p : Pred) : Nat → Pred
  | 0 => 0
  | n + 1 =>
    let r := lowestBelow p n
    if r != 0 then r else if p.getLsbD n then .ofNat 128 (2 ^ n) else 0

def countBits (p : Pred) : Nat → Nat
  | 0 => 0
  | n + 1 => countBits p n + bitNat (p.getLsbD n)

/-! ## VINT (R313, R314) -/

/-- vadd: wrapping, or saturating under HMOD.SAT. -/
def execVadd (o : OpV) (s : State) : Host.Outcome State Fault Refusal :=
  finish s (vintOp s o true true fun w sg sat a b => fitInt w sg sat (intVal w sg a + intVal w sg b))

/-- vsub. -/
def execVsub (o : OpV) (s : State) : Host.Outcome State Fault Refusal :=
  finish s (vintOp s o true true fun w sg sat a b => fitInt w sg sat (intVal w sg a - intVal w sg b))

/-- vmul. -/
def execVmul (o : OpV) (s : State) : Host.Outcome State Fault Refusal :=
  finish s (vintOp s o true true fun w sg sat a b => fitInt w sg sat (intVal w sg a * intVal w sg b))

/-- vmulh: the upper half of the exact product. -/
def execVmulh (o : OpV) (s : State) : Host.Outcome State Fault Refusal :=
  finish s (vintOp s o false false fun w sg _ a b => plain (intBits w (intVal w sg a * intVal w sg b / 2 ^ w)))

/-- vmin. -/
def execVmin (o : OpV) (s : State) : Host.Outcome State Fault Refusal :=
  finish s (vintOp s o false false fun w sg _ a b => plain (vminEl w sg a b))

/-- vmax. -/
def execVmax (o : OpV) (s : State) : Host.Outcome State Fault Refusal :=
  finish s (vintOp s o false false fun w sg _ a b => plain (vmaxEl w sg a b))

/-- vand. -/
def execVand (o : OpV) (s : State) : Host.Outcome State Fault Refusal :=
  finish s (vintOp s o false false fun _ _ _ a b => plain (a &&& b))

/-- vor. -/
def execVor (o : OpV) (s : State) : Host.Outcome State Fault Refusal :=
  finish s (vintOp s o false false fun _ _ _ a b => plain (a ||| b))

/-- vxor. -/
def execVxor (o : OpV) (s : State) : Host.Outcome State Fault Refusal :=
  finish s (vintOp s o false false fun _ _ _ a b => plain (a ^^^ b))

/-- vsll: under HMOD.SAT the exact shifted value saturates. -/
def execVsll (o : OpV) (s : State) : Host.Outcome State Fault Refusal :=
  finish s (vintOp s o true true vsllEl)

/-- vsrl: zero fill, whatever T. -/
def execVsrl (o : OpV) (s : State) : Host.Outcome State Fault Refusal :=
  finish s (vintOp s o false false fun w _ _ a b => plain (a / 2 ^ vshAmount w b))

/-- vsra: sign fill, whatever T. -/
def execVsra (o : OpV) (s : State) : Host.Outcome State Fault Refusal :=
  finish s (vintOp s o false false fun w _ _ a b => plain (intBits w (intVal w true a / 2 ^ vshAmount w b)))

/-- vadds: always saturating. -/
def execVadds (o : OpV) (s : State) : Host.Outcome State Fault Refusal :=
  finish s (vintOp s o true false fun w sg _ a b => satInt w sg (intVal w sg a + intVal w sg b))

/-- vsubs: always saturating. -/
def execVsubs (o : OpV) (s : State) : Host.Outcome State Fault Refusal :=
  finish s (vintOp s o true false fun w sg _ a b => satInt w sg (intVal w sg a - intVal w sg b))

/-- vabs. -/
def execVabs (o : OpV) (s : State) : Host.Outcome State Fault Refusal :=
  finish s (issue s (Traits.ofV o (fv o.d) (fv o.a) fnone) fun i s =>
    let w := (intT o.t).1
    writeV i o.p w ((lanes w ((s.thread i.g).vreg i.a)).map (vabsEl w (intT o.t).2)) s)

/-- vdot (R314): the destination element is four times as wide as the source element. -/
def execVdot (o : OpV) (s : State) : Host.Outcome State Fault Refusal :=
  finish s (issue s { Traits.ofV o (fv o.d) (fv o.a) (fv o.b) with sets := true } fun i s =>
    let t := s.thread i.g
    let w := (intT o.t).1
    writeV i o.p (4 * w)
      (dotGo w (intT o.t).2 (lanes (4 * w) (t.vreg i.d)) (lanes w (t.vreg i.a)) (lanes w (i.vB t w))) s)

/-! ## VFP (R315) -/

/-- vfadd. -/
def execVfadd (o : OpV) (s : State) : Host.Outcome State Fault Refusal :=
  finish s (vfpOp s o true fun t m a b _ => fpAdd t m a b)

/-- vfsub. -/
def execVfsub (o : OpV) (s : State) : Host.Outcome State Fault Refusal :=
  finish s (vfpOp s o true fun t m a b _ => fpSub t m a b)

/-- vfmul. -/
def execVfmul (o : OpV) (s : State) : Host.Outcome State Fault Refusal :=
  finish s (vfpOp s o true fun t m a b _ => fpMul t m a b)

/-- vfdiv. -/
def execVfdiv (o : OpV) (s : State) : Host.Outcome State Fault Refusal :=
  finish s (vfpOp s o true fun t m a b _ => fpDiv t m a b)

/-- vfsqrt. -/
def execVfsqrt (o : OpV) (s : State) : Host.Outcome State Fault Refusal :=
  finish s (vfpUnary s o true fpSqrt)

/-- vfmin: minimumNumber. -/
def execVfmin (o : OpV) (s : State) : Host.Outcome State Fault Refusal :=
  finish s (vfpOp s o false fun t _ a b _ => fpMinMax t false a b)

/-- vfmax: maximumNumber. -/
def execVfmax (o : OpV) (s : State) : Host.Outcome State Fault Refusal :=
  finish s (vfpOp s o false fun t _ a b _ => fpMinMax t true a b)

/-- vfma: a × b + d, rounded once. -/
def execVfma (o : OpV) (s : State) : Host.Outcome State Fault Refusal :=
  finish s (vfpOp s o true fun t m a b d => fpFma t m a b d)

/-- vfnma: −(a × b) + d, rounded once. -/
def execVfnma (o : OpV) (s : State) : Host.Outcome State Fault Refusal :=
  finish s (vfpOp s o true fun t m a b d => fpFma t m (flipSign t a) b d)

/-- vfabs. -/
def execVfabs (o : OpV) (s : State) : Host.Outcome State Fault Refusal :=
  finish s (vfpUnary s o false fun t _ a => fpAbs t a)

/-- vfneg. -/
def execVfneg (o : OpV) (s : State) : Host.Outcome State Fault Refusal :=
  finish s (vfpUnary s o false fun t _ a => fpNeg t a)

/-! ## VSFN (R316): HMOD.RM does not apply -/

/-- vexp. -/
def execVexp (o : OpV) (s : State) : Host.Outcome State Fault Refusal :=
  finish s (vfpUnary s o false fun t _ a => specialFp 0 t a)

/-- vexp2. -/
def execVexp2 (o : OpV) (s : State) : Host.Outcome State Fault Refusal :=
  finish s (vfpUnary s o false fun t _ a => specialFp 1 t a)

/-- vlog. -/
def execVlog (o : OpV) (s : State) : Host.Outcome State Fault Refusal :=
  finish s (vfpUnary s o false fun t _ a => specialFp 2 t a)

/-- vlog2. -/
def execVlog2 (o : OpV) (s : State) : Host.Outcome State Fault Refusal :=
  finish s (vfpUnary s o false fun t _ a => specialFp 3 t a)

/-- vrcp. -/
def execVrcp (o : OpV) (s : State) : Host.Outcome State Fault Refusal :=
  finish s (vfpUnary s o false fun t _ a => specialFp 4 t a)

/-- vrsqrt. -/
def execVrsqrt (o : OpV) (s : State) : Host.Outcome State Fault Refusal :=
  finish s (vfpUnary s o false fun t _ a => specialFp 5 t a)

/-- vsin. -/
def execVsin (o : OpV) (s : State) : Host.Outcome State Fault Refusal :=
  finish s (vfpUnary s o false fun t _ a => specialFp 6 t a)

/-- vcos. -/
def execVcos (o : OpV) (s : State) : Host.Outcome State Fault Refusal :=
  finish s (vfpUnary s o false fun t _ a => specialFp 7 t a)

/-- vtanh. -/
def execVtanh (o : OpV) (s : State) : Host.Outcome State Fault Refusal :=
  finish s (vfpUnary s o false fun t _ a => specialFp 8 t a)

/-- vsigm. -/
def execVsigm (o : OpV) (s : State) : Host.Outcome State Fault Refusal :=
  finish s (vfpUnary s o false fun t _ a => specialFp 9 t a)

/-! ## VCMP (R317) -/

/-- vcmp.eq. -/
def execVcmpEq (o : OpV) (s : State) : Host.Outcome State Fault Refusal :=
  finish s (vcmpOp s o fun a b => a == b)

/-- vcmp.ne. -/
def execVcmpNe (o : OpV) (s : State) : Host.Outcome State Fault Refusal :=
  finish s (vcmpOp s o fun a b => a != b)

/-- vcmp.lt. -/
def execVcmpLt (o : OpV) (s : State) : Host.Outcome State Fault Refusal :=
  finish s (vcmpOp s o fun a b => decide (a < b))

/-- vcmp.le. -/
def execVcmpLe (o : OpV) (s : State) : Host.Outcome State Fault Refusal :=
  finish s (vcmpOp s o fun a b => decide (a ≤ b))

/-- vcmp.gt. -/
def execVcmpGt (o : OpV) (s : State) : Host.Outcome State Fault Refusal :=
  finish s (vcmpOp s o fun a b => decide (b < a))

/-- vcmp.ge. -/
def execVcmpGe (o : OpV) (s : State) : Host.Outcome State Fault Refusal :=
  finish s (vcmpOp s o fun a b => decide (b ≤ a))

/-- vwhile: x[A] + i < x[B] for each element i, the sum exact. -/
def execVwhile (o : OpV) (s : State) : Host.Outcome State Fault Refusal :=
  finish s (issue s (Traits.ofV o (fp o.d) (fx o.a) (fx o.b)) fun i s =>
    let t := s.thread i.g
    let e := (intT o.t).1 / 8
    let v (x : Word) : Int := if (intT o.t).2 then x.toInt else x.toNat
    writeP i o.p e ((List.range (128 / e)).map fun (k : Nat) => (decide (v (t.x i.a) + (k : Int) < v (i.bval t)), 0)) s)

/-- vfcmp.eq. -/
def execVfcmpEq (o : OpV) (s : State) : Host.Outcome State Fault Refusal :=
  finish s (vfcmpOp s o fun t a b => fpCompare t 0 a b)

/-- vfcmp.ne. -/
def execVfcmpNe (o : OpV) (s : State) : Host.Outcome State Fault Refusal :=
  finish s (vfcmpOp s o fun t a b => (!(fpCompare t 0 a b).1, (fpCompare t 0 a b).2))

/-- vfcmp.lt. -/
def execVfcmpLt (o : OpV) (s : State) : Host.Outcome State Fault Refusal :=
  finish s (vfcmpOp s o fun t a b => fpCompare t 1 a b)

/-- vfcmp.le. -/
def execVfcmpLe (o : OpV) (s : State) : Host.Outcome State Fault Refusal :=
  finish s (vfcmpOp s o fun t a b => fpCompare t 2 a b)

/-- vfcmp.gt. -/
def execVfcmpGt (o : OpV) (s : State) : Host.Outcome State Fault Refusal :=
  finish s (vfcmpOp s o fun t a b => fpCompare t 1 b a)

/-- vfcmp.ge. -/
def execVfcmpGe (o : OpV) (s : State) : Host.Outcome State Fault Refusal :=
  finish s (vfcmpOp s o fun t a b => fpCompare t 2 b a)

/-- vfcmp.un. -/
def execVfcmpUn (o : OpV) (s : State) : Host.Outcome State Fault Refusal :=
  finish s (vfcmpOp s o fun t a b => fpCompare t 3 a b)

/-! ## VPRED (R318) -/

/-- pand. -/
def execPand (o : OpV) (s : State) : Host.Outcome State Fault Refusal :=
  finish s (predOp s o (fp o.a) (fp o.b) fun x y => x &&& y)

/-- por. -/
def execPor (o : OpV) (s : State) : Host.Outcome State Fault Refusal :=
  finish s (predOp s o (fp o.a) (fp o.b) fun x y => x ||| y)

/-- pxor. -/
def execPxor (o : OpV) (s : State) : Host.Outcome State Fault Refusal :=
  finish s (predOp s o (fp o.a) (fp o.b) fun x y => x ^^^ y)

/-- pandn. -/
def execPandn (o : OpV) (s : State) : Host.Outcome State Fault Refusal :=
  finish s (predOp s o (fp o.a) (fp o.b) fun x y => x &&& ~~~y)

/-- pnot. -/
def execPnot (o : OpV) (s : State) : Host.Outcome State Fault Refusal :=
  finish s (predOp s o (fp o.a) fnone fun x _ => ~~~x)

/-- pall. -/
def execPall (o : OpV) (s : State) : Host.Outcome State Fault Refusal :=
  finish s (predOp s o fnone fnone fun _ _ => .ofNat 128 (2 ^ 128 - 1))

/-- pcnt. -/
def execPcnt (o : OpV) (s : State) : Host.Outcome State Fault Refusal :=
  finish s (issue s (Traits.ofV o (fx o.d) (fp o.a) fnone) fun i s => setD i s (.ofNat 64 (countBits ((s.thread i.g).preg i.a) 128)))

/-- pfirst. -/
def execPfirst (o : OpV) (s : State) : Host.Outcome State Fault Refusal :=
  finish s (predOp s o (fp o.a) fnone fun x _ => lowestBelow x 128)

/-! ## VPERM (R319) -/

/-- vperm: byte j is the byte of v[A] that byte j of v[B] names. -/
def execVperm (o : OpV) (s : State) : Host.Outcome State Fault Refusal :=
  finish s (bytesOp s o (fv o.a) (fv o.b) fun j va vb => nth va (nth vb j))

/-- vbcast: every element is x[B]. -/
def execVbcast (o : OpV) (s : State) : Host.Outcome State Fault Refusal :=
  finish s (issue s (Traits.ofV o (fv o.d) fnone (fx o.b)) fun i s =>
    let w := 8 * 2 ^ o.t.toNat
    writeV i o.p w (List.replicate (1024 / w) (plain ((i.bval (s.thread i.g)).toNat % 2 ^ w))) s)

/-- vslu: bytes slide up. -/
def execVslu (o : OpV) (s : State) : Host.Outcome State Fault Refusal :=
  finish s (slideOp s o fun j n va => if n ≤ j then nth va (j - n) else 0)

/-- vsld: bytes slide down. -/
def execVsld (o : OpV) (s : State) : Host.Outcome State Fault Refusal :=
  finish s (slideOp s o fun j n va => nth va (j + n))

/-- vzip: the low halves interleaved. -/
def execVzip (o : OpV) (s : State) : Host.Outcome State Fault Refusal :=
  finish s (bytesOp s o (fv o.a) (fv o.b) fun j va vb => if j % 2 = 0 then nth va (j / 2) else nth vb (j / 2))

/-- vunzip: every second byte of the 256. -/
def execVunzip (o : OpV) (s : State) : Host.Outcome State Fault Refusal :=
  finish s (bytesOp s o (fv o.a) (fv o.b) fun j va vb => if j < 64 then nth va (2 * j) else nth vb (2 * j - 128))

/-- vmvx: one element to x[D], zero-extended; 0 beyond the last. -/
def execVmvx (o : OpV) (s : State) : Host.Outcome State Fault Refusal :=
  finish s (issue s (Traits.ofV o (fx o.d) (fv o.a) (fx o.b)) fun i s =>
    let t := s.thread i.g
    let w := 8 * 2 ^ o.t.toNat
    let n := (i.bval t).toNat
    setD i s (.ofNat 64 (if n < 1024 / w then nth (lanes w (t.vreg i.a)) n else 0)))

/-- vmvv: x[A] to one element of v[D]; nothing beyond the last. -/
def execVmvv (o : OpV) (s : State) : Host.Outcome State Fault Refusal :=
  finish s (issue s (Traits.ofV o (fv o.d) (fx o.a) (fx o.b)) fun i s =>
    let t := s.thread i.g
    let w := 8 * 2 ^ o.t.toNat
    let n := (i.bval t).toNat
    doneT i s fun u =>
      if n < 1024 / w then u.setV i.d (ofLanes w (setAt (lanes w (t.vreg i.d)) n ((t.x i.a).toNat % 2 ^ w))) else u)

/-- vsel: the predicate selects between v[A] and v[B]. -/
def execVsel (o : OpV) (s : State) : Host.Outcome State Fault Refusal :=
  finish s (issue s (Traits.ofV o (fv o.d) (fv o.a) (fv o.b)) fun i s =>
    let t := s.thread i.g
    let m : Pred := if o.p = 0 then .ofNat 128 (2 ^ 128 - 1) else t.preg o.p.toNat
    doneT i s fun u => u.setV i.d (mergeLine m (t.vreg i.a) (i.vB t 8)))

/-- vcmpr: the selected bytes of v[A] packed from byte 0. -/
def execVcmpr (o : OpV) (s : State) : Host.Outcome State Fault Refusal :=
  finish s (issue s (Traits.ofV o (fv o.d) (fv o.a) fnone) fun i s =>
    let t := s.thread i.g
    doneT i s fun u => u.setV i.d (ofLanes 8 (packed (actives t o.p 1) (lanes 8 (t.vreg i.a)))))

/-- vmov. -/
def execVmov (o : OpV) (s : State) : Host.Outcome State Fault Refusal :=
  finish s (bytesOp s o (fv o.a) fnone fun j va _ => nth va j)

/-- vlen: 1,024 (R5). -/
def execVlen (o : OpV) (s : State) : Host.Outcome State Fault Refusal :=
  finish s (issue s (Traits.ofV o (fx o.d) fnone fnone) fun i s => setD i s 1024)

/-! ## VRED (R320) -/

/-- vredadd: the exact sum modulo 2^64. -/
def execVredadd (o : OpV) (s : State) : Host.Outcome State Fault Refusal :=
  finish s (issue s (Traits.ofV o (fx o.d) (fv o.a) fnone) fun i s =>
    let w := (intT o.t).1
    setD i s (.ofInt 64 (sumLanes w (intT o.t).2 (activeLanes (s.thread i.g) o.p w i.a))))

/-- vredmin. -/
def execVredmin (o : OpV) (s : State) : Host.Outcome State Fault Refusal :=
  finish s (vredInt s o (fun w sg => intBits w (intMax w sg)) vminEl)

/-- vredmax. -/
def execVredmax (o : OpV) (s : State) : Host.Outcome State Fault Refusal :=
  finish s (vredInt s o (fun w sg => intBits w (intMin w sg)) vmaxEl)

/-- vredand. -/
def execVredand (o : OpV) (s : State) : Host.Outcome State Fault Refusal :=
  finish s (vredInt s o (fun w _ => 2 ^ w - 1) fun _ _ a b => a &&& b)

/-- vredor. -/
def execVredor (o : OpV) (s : State) : Host.Outcome State Fault Refusal :=
  finish s (vredInt s o (fun _ _ => 0) fun _ _ a b => a ||| b)

/-- vredxor. -/
def execVredxor (o : OpV) (s : State) : Host.Outcome State Fault Refusal :=
  finish s (vredInt s o (fun _ _ => 0) fun _ _ a b => a ^^^ b)

/-- vfredadd: each node rounds in the mode in force. -/
def execVfredadd (o : OpV) (s : State) : Host.Outcome State Fault Refusal :=
  finish s (vredFp s o true (fun _ => 0) fun t m a b => fpAdd t m a b)

/-- vfredmin. -/
def execVfredmin (o : OpV) (s : State) : Host.Outcome State Fault Refusal :=
  finish s (vredFp s o false (fun t => (fmt t).inf) fun t _ a b => fpMinMax t false a b)

/-- vfredmax. -/
def execVfredmax (o : OpV) (s : State) : Host.Outcome State Fault Refusal :=
  finish s (vredFp s o false (fun t => signBits t true (fmt t).inf) fun t _ a b => fpMinMax t true a b)

/-! ## vcvt (R321) -/

/-- Source elements for nd destination elements: those that exist, then none. -/
def sourceLanes (nd : Nat) (l : List Nat) : List (Option Nat) :=
  (List.range nd).map fun k => l[k]?

/-- vcvt: the destination and source type codes are fields. -/
def execVcvt (o : OpVC) (s : State) : Host.Outcome State Fault Refusal :=
  finish s (issue s
    { m := o.m, guard := 0, d := fv o.d, a := fv o.a, b := fk o.b, imm := none, immB := false,
      rounds := convertRounds o.c.toNat o.b.toNat, sets := convertSets o.c.toNat o.b.toNat, sat := decide (4 ≤ o.c.toNat ∧ o.c.toNat < 12),
      pol := .ignored, rep := true, narrow := false, more := ([], []), power := true } fun i s =>
    let wd := 8 * typeBytes o.c.toNat
    let ws := 8 * typeBytes o.b.toNat
    writeV i o.p wd
      ((sourceLanes (1024 / wd) (lanes ws ((s.thread i.g).vreg i.a))).map fun v =>
        match v with
        | some b => convert o.c.toNat o.b.toNat i.rm i.sat b
        | none => plain 0) s)

end Sys2Proof.Machine
end

