-- ==== Sys2Proof/Machine/VectorMem.lean ====
section
/-! DEFINITION. The vector loads and stores (R322 to R324): OP 0x24 and 0x25. -/

namespace Sys2Proof.Machine

/-! ## The accesses of one instruction -/

/-- One access: its place in the register, its pointer, its length, the mask of its active bytes, how many elements it takes in, and where
it leads. -/
structure VAcc where
  off : Nat
  ptr : Word
  len : Nat
  mask : Nat
  els : Nat
  tgt : Target
  deriving DecidableEq, Repr

/-- The addresses of the elements, by kind (R322): contiguous bytes, a stride, or an index register. -/
inductive VKind where
  | contiguous | strided | indexed
  deriving DecidableEq, Repr

def elementAddr (i : Iss) (t : Thread) (k : VKind) (e n : Nat) : Word :=
  match k with
  | .contiguous => t.x i.a + .ofNat 64 n
  | .strided => t.x i.a + .ofNat 64 n * i.bval t
  | .indexed => t.x i.a + .ofNat 64 (nth (lanes (8 * e) (i.vB t (8 * e))) n)

/-- The active elements with their addresses, in ascending order. -/
def activeAddrs (i : Iss) (t : Thread) (k : VKind) (pr : BitVec 3) (e : Nat) : List (Nat × Word) :=
  ((List.range (128 / e)).filter fun n => (actives t pr e).getD n false).map fun n => (n, elementAddr i t k e n)

/-- Where each element of e bytes leads; the first failure is the access's (R65, R323). -/
def resolveAll (s : State) (g : Nat) (acc : Access) (e : Nat) : List (Nat × Word) → Except FaultRec (List (Nat × Word × Target))
  | [] => .ok []
  | (n, a) :: t =>
    match s.target g a e acc with
    | .error k => .error (xlate k a)
    | .ok tgt =>
      match resolveAll s g acc e t with
      | .error f => .error f
      | .ok r => .ok ((n, a, tgt) :: r)

/-- The first misaligned element of a strided or indexed access (R323). -/
def misaligned (vol : Bool) (e : Nat) (l : List (Nat × Word × Target)) : Option FaultRec :=
  match l.find? fun x => (x.2.2.scratch || vol) && x.2.1.toNat % e != 0 with
  | some x => some (mkFault .alignment 0 x.2.1)
  | none => none

/-- The alignment of the base of a contiguous access (R323). -/
def baseMisaligned (s : State) (g : Nat) (acc : Access) (vol : Bool) (base : Word) (any : Bool) : Option FaultRec :=
  let scratch := match s.resolve g base acc with
    | .ok t => t.scratch
    | .error _ => false
  if any && (scratch || vol) && base.toNat % 8 != 0 then some (mkFault .alignment 0 base) else none

/-- Which bytes of a contiguous access go together: those of a line of linear memory, those of an aligned 8-byte word of a
scratchpad or of a volatile access (R323). -/
def groupOf (vol : Bool) : Target → Nat
  | .linear a => if vol then a / 8 else a / 128
  | .own off => 2 ^ 60 + off / 8
  | .remote _ off => 2 ^ 61 + off / 8

/-- Bytes joined into accesses: each takes in the bytes of its group that follow it. -/
def joinBytes (vol : Bool) : List (Nat × Word × Target) → List VAcc
  | [] => []
  | (n, a, tgt) :: t =>
    match joinBytes vol t with
    | [] => [⟨n, a, 1, 1, 1, tgt⟩]
    | x :: rest =>
      if groupOf vol tgt = groupOf vol x.tgt then
        ⟨n, a, x.off + x.len - n, 1 + x.mask * 2 ^ (x.off - n), x.els + 1, tgt⟩ :: rest
      else ⟨n, a, 1, 1, 1, tgt⟩ :: x :: rest

/-- The accesses of an instruction. -/
def accesses (vol : Bool) (k : VKind) (e : Nat) (l : List (Nat × Word × Target)) : List VAcc :=
  match k with
  | .contiguous => joinBytes vol l
  | _ => l.map fun x => ⟨x.1 * e, x.2.1, e, 2 ^ e - 1, 1, x.2.2⟩

/-- Whether an access leads to the own scratchpad. -/
def VAcc.own (x : VAcc) : Bool :=
  match x.tgt with
  | .own _ => true
  | _ => false

/-- The bytes of the register that the accesses cover. -/
def coverMask (l : List VAcc) : Pred := .ofNat 128 (l.foldl (fun m x => m ||| x.mask * 2 ^ x.off) 0)

/-- The linear pieces of an access with their place in the register; the first fault is the access's (R29). -/
def accPieces (s : State) (g : Nat) (x : VAcc) : Except FaultRec (List Piece) :=
  match x.tgt with
  | .linear a =>
    match place s g a x.len with
    | .error k => .error (xlate k x.ptr)
    | .ok ps => .ok (ps.map fun p => { p with off := x.off + p.off })
  | _ => .ok []

def placeAll (s : State) (g : Nat) : List VAcc → Except FaultRec (List (VAcc × List Piece))
  | [] => .ok []
  | x :: t =>
    match accPieces s g x with
    | .error f => .error f
    | .ok ps =>
      match placeAll s g t with
      | .error f => .error f
      | .ok r => .ok ((x, ps) :: r)

def allPieces (l : List (VAcc × List Piece)) : List Piece := (l.map (·.2)).flatten

/-! ## Loads -/

/-- The bytes of an access of the own scratchpad: zeros where it meets a guard granule, which is noted (R70); a poisoned word is its
fault (R290, R429). -/
def ownRead (s : State) (i : Iss) (x : VAcc) (off : Nat) : State × Except FaultRec (List Byte) :=
  let c := s.core (coreOf i.g)
  if guarded c off x.len then (noteGuard s i.g gkLoad x.ptr i.pc, .ok (List.replicate x.len 0))
  else if scratchPoisoned c off x.len then (scratchError s (coreOf i.g) x.ptr, .error (mkFault .poison 2 x.ptr))
  else (s, .ok (scratchBytes s (coreOf i.g) off x.len))

/-- Bytes into a table from an offset up. -/
def putBytes (t : Table Byte) (off : Nat) : List Byte → Table Byte
  | [] => t
  | b :: bs => putBytes (tput t off b) (off + 1) bs

/-- The bytes of a table that a mask selects, merged into a register. -/
def mergeTable (m : Pred) (t : Table Byte) (old : Line) : Line :=
  mergeLine m (lineOf ((List.range 128).map fun k => tget 0 t k)) old

/-- What the accesses to the own scratchpad have read so far, and the first fault among them with its place. -/
structure OwnPart where
  buf : Table Byte
  fault : Option (Nat × FaultRec)
  deriving DecidableEq, Repr

/-- The accesses to the own scratchpad, read at once in their order; with `stop` none after one that failed (R323, R324). -/
def ownReads (i : Iss) (stop : Bool) : List VAcc → State × OwnPart → State × OwnPart
  | [], r => r
  | x :: t, r =>
    match x.tgt with
    | .own off =>
      if stop && r.2.fault.isSome then r
      else
        let q := ownRead r.1 i x off
        ownReads i stop t (q.1, match q.2 with
          | .ok bs => { r.2 with buf := putBytes r.2.buf x.off bs }
          | .error f => { r.2 with fault := r.2.fault.or (some (x.off, f)) })
    | _ => ownReads i stop t r

/-- A load from the own scratchpad alone: short class, and its fault is precise (R312, R323). -/
def ownLoad (i : Iss) (vol : Bool) (l : List VAcc) (s : State) : Res :=
  let r := ownReads i vol l (s, ⟨[], none⟩)
  match r.2.fault with
  | some f => .trap f.2 r.1
  | none => doneT i r.1 fun t => t.setV i.d (mergeTable (coverMask l) r.2.buf (t.vreg i.d))

/-- One access that is not to the own scratchpad leaves the core; its parts come back at their places. -/
def sendLoad (i : Iss) (vol : Bool) (id : Nat) (x : VAcc × List Piece) (s : State) : State :=
  match x.1.tgt with
  | .own _ => s
  | .remote c off => s.send (fromThread i.g) (atCore c) (.remoteScratchpadRead ⟨i.g, id, x.1.off, c, off, x.1.len, i.rpc, i.pc, x.1.ptr⟩)
  | .linear _ =>
    let s := notePieces (coreOf i.g) (s.thread i.g).ctx.ids.job x.2 s
    loadPieces i (if vol then .volatile else .plain) (if vol then 0 else i.pol) id x.1.ptr x.2 s

def sendLoads (i : Iss) (id : Nat) : List (VAcc × List Piece) → State → State
  | [], s => s
  | x :: t, s => sendLoads i id t (sendLoad i false id x s)

/-- The parts that an access comes back in. -/
def partsOf (x : VAcc × List Piece) : Nat :=
  match x.1.tgt with
  | .own _ => 0
  | .remote _ _ => 1
  | .linear _ => x.2.length

/-- The pointer of the first access, by which a result that is lost is reported (R200). -/
def headPtr : List (VAcc × List Piece) → Word
  | [] => 0
  | x :: _ => x.1.ptr

/-- A plain load. One that also reads other memory joins what the own scratchpad gives, bytes or fault, with what returns. -/
def vecLoad (i : Iss) (l : List (VAcc × List Piece)) (s : State) : Res :=
  let own := l.map (·.1)
  if own.all VAcc.own then ownLoad i false own s
  else
    withRoomOut i s fun s =>
      let r := ownReads i false own (s, ⟨[], none⟩)
      let q := expect r.1 i (.v i.d (coverMask own)) ((l.map partsOf).foldl (· + ·) 0) false (headPtr l)
      let fault := r.2.fault.map fun f => (f.1, { f.2 with pc := some i.rpc, task := (s.thread i.g).ctx.task })
      let s := q.1.modThread i.g fun t =>
        { t with out := t.out.map fun o => if o.id = q.2 then { o with buf := r.2.buf, fault := fault } else o }
      .done (sendLoads i q.2 l s)

/-- The n-th access of a volatile load leaves once those before it have returned; none after one that failed (R324, R125). -/
def volLoadNext (i : Iss) (l : List (VAcc × List Piece)) (n : Nat) (s : State) : Res :=
  let t := s.thread i.g
  match t.out.find? fun o => o.id + 1 == t.nextId with
  | none => .wait .unit s
  | some o =>
    if o.parts ≠ l.length - n then .wait .unit s
    else
      match o.fault, l[n]? with
      | some f, _ => .done (addPend (s.modThread i.g fun t => { t with out := t.out.filter fun x => x.id != o.id }) i f.2)
      | none, none => .done s
      | none, some x =>
        let s := match x.1.tgt with
          | .own off =>
            let q := ownRead s i x.1 off
            match q.2 with
            | .ok bs => answer q.1 (fromThread i.g) i.g o.id (.bytes x.1.off bs) none
            | .error f => refuse q.1 (fromThread i.g) i.g (some o.id) none x.1.off { f with pc := some i.rpc, task := t.ctx.task }
          | _ => sendLoad i true o.id x s
        if l.length ≤ n + 1 then .done s else .again (s.stage i.g (.answered (.ofNat 64 (n + 1))))

/-- A volatile load: its accesses one by one. -/
def vecLoadVol (i : Iss) (l : List (VAcc × List Piece)) (s : State) : Res :=
  let own := l.map (·.1)
  match (s.thread i.g).stage with
  | .answered n => volLoadNext i l n.toNat s
  | _ =>
    let go (s : State) : Res :=
      withVolatile i true s fun s =>
        if own.all VAcc.own then ownLoad i true own s
        else withRoomOut i s fun s =>
          volLoadNext i l 0 (expect s i (.v i.d (coverMask own)) l.length true (headPtr l)).1
    if (s.thread i.g).stage ≠ .start ∨ (allPieces l).any (ownSpec s i.g) then withCommit i false s go else go s

/-! ## Stores -/

/-- The active bytes of an access: each byte, or none. -/
def maskedBytes (mask : Nat) : List Byte → List (Option Byte)
  | [] => []
  | b :: t => (if mask % 2 = 1 then some b else none) :: maskedBytes (mask / 2) t

/-- The register's bytes under an access. -/
def accBytes (t : Thread) (i : Iss) (x : VAcc) : List Byte := lineSlice (t.vreg i.d) x.off x.len

/-- A piece of an access as its message: the active bytes of the piece. -/
def vecWrite (s : State) (i : Iss) (pol : Nat) (x : VAcc) (p : Piece) : LineWrite :=
  let part := lineSlice ((s.thread i.g).vreg i.d) p.off p.len
  let w := mkWrite s i pol x.ptr { p with off := 0 } part
  { w with
    mask := .ofNat 128 (x.mask / 2 ^ (p.off - x.off) % 2 ^ p.len * 2 ^ (p.addr % 128))
    off := p.off }

/-- The speculative pieces of an access leave the core (R90). -/
def vecStorePieces (i : Iss) (x : VAcc) : List Piece → State → State
  | [], s => s
  | p :: t, s =>
    let w := vecWrite s i i.pol x p
    let s := storeL1 s i.g i.pol w.job p w.mask w.data
    let s := countPost s i.g w.ctr
    vecStorePieces i x t (s.send (fromThread i.g) (atSlice p.gslice) (.speculativeStoreReceipt w))

/-- The volatile pieces of an access leave the core (R125). -/
def vecHomePieces (i : Iss) (x : VAcc) : List Piece → State → State
  | [], s => s
  | p :: t, s =>
    let w := vecWrite s i 0 x p
    let s := dropStale s w.core w.job w.line
    let s := countPost s i.g w.ctr
    let s := s.modThread i.g fun t => { t with volatiles := t.volatiles + 1 }
    vecHomePieces i x t (s.send (fromThread i.g) (atSlice p.gslice) (.nonSpeculativeHomeWrite ⟨w, none, true⟩))

/-- One access is stored. -/
def storeAcc (i : Iss) (vol : Bool) (x : VAcc × List Piece) (s : State) : State :=
  let bs := maskedBytes x.1.mask (accBytes (s.thread i.g) i x.1)
  match x.1.tgt with
  | .own off =>
    if guarded (s.core (coreOf i.g)) off x.1.len then noteGuard s i.g gkStore x.1.ptr i.pc
    else
      s.modCore (coreOf i.g) fun c =>
        { c with
          scratch := scratchPut c.scratch off bs
          scratchBad := if bs.all Option.isSome then c.scratchBad.filter fun w => !decide (off ≤ w * 8 ∧ w * 8 + 8 ≤ off + x.1.len)
            else c.scratchBad }
  | .remote c off =>
    let s := countPosts s i.g .pd x.1.els
    let s := if vol then s.modThread i.g fun t => { t with volatiles := t.volatiles + 1 } else s
    s.send (fromThread i.g) (atCore c) (.remoteScratchpadWrite ⟨i.g, c, off, bs, i.pc, x.1.ptr, vol, x.1.els⟩)
  | .linear _ =>
    let s := notePieces (coreOf i.g) (s.thread i.g).ctx.ids.job x.2 s
    if vol then vecHomePieces i x.1 x.2 s else vecStorePieces i x.1 x.2 s

def storeAccs (i : Iss) (vol : Bool) : List (VAcc × List Piece) → State → State
  | [], s => s
  | x :: t, s => storeAccs i vol t (storeAcc i vol x s)

/-- What the writes of an access count, by counter (R126): one for each element in another core's scratchpad (R324). -/
def countsOf (core : Nat) (c : PostCtr) (x : VAcc × List Piece) : Nat :=
  match x.1.tgt with
  | .own _ => 0
  | .remote _ _ => if c = .pd then x.1.els else 0
  | .linear _ => (x.2.filter fun p => postClass core p.gslice == c).length

/-- Room in the counters for some accesses (R126). -/
def withVecRoom (i : Iss) (l : List (VAcc × List Piece)) (s : State) (k : State → Res) : Res :=
  match [PostCtr.pd, .px, .po].find? fun c =>
      decide (Config.maxPosted < (s.thread i.g).ctx.count c + ((l.map (countsOf (coreOf i.g) c)).foldl (· + ·) 0)) with
  | none => k s
  | some c => .wait (.room c) (flushWaited s i.g fun x => x == c)

/-- A plain store. -/
def vecStore (i : Iss) (l : List (VAcc × List Piece)) (s : State) : Res :=
  let ls := pieceLines (allPieces l)
  withUnits i ls 0 s fun s => withVecRoom i l s fun s => .done (storeAccs i false l (addUnits s i.g ls))

/-- The faults of posted stores of an instruction's word that the thread holds. -/
def heldFaults (t : Thread) (pc : Word) : Nat := (t.stf.filter fun e => e.fault.info.opc == opcField pc).length

/-- The progress of a volatile store, as its stage holds it: the next access, and the faults of its word held when it began. -/
def storeStage (n held : Nat) : Stage := .answered (.ofNat 64 (n + 2 ^ 32 * held))

/-- The n-th access of a volatile store, once those before it have been performed; none after one that failed (R324, R125). -/
def volStoreNext (i : Iss) (l : List (VAcc × List Piece)) (n held : Nat) (s : State) : Res :=
  withVolatile i true s fun s =>
    if decide (held < heldFaults (s.thread i.g) i.pc) then .done s
    else
      match l[n]? with
      | none => .done s
      | some x =>
        withLoads i x.2 s fun s => withVecRoom i [x] s fun s =>
          let s := storeAcc i true x s
          if l.length ≤ n + 1 then .done s else .again (s.stage i.g (storeStage (n + 1) held))

def vecStoreVol (i : Iss) (l : List (VAcc × List Piece)) (s : State) : Res :=
  match (s.thread i.g).stage with
  | .answered n => volStoreNext i l (n.toNat % 2 ^ 32) (n.toNat / 2 ^ 32) s
  | _ =>
    let go (s : State) : Res := withVolatile i true s fun s => volStoreNext i l 0 (heldFaults (s.thread i.g) i.pc) s
    if (s.thread i.g).stage ≠ .start ∨ (allPieces l).any (ownSpec s i.g) then withCommit i false s go else go s

/-! ## The instructions (R323) -/

/-- What precedes the accesses: the wait field, resolution, alignment, homes; then the accesses that are made. -/
def vecAccess (i : Iss) (o : OpVM) (store : Bool) (k : VKind) (s : State) (body : List (VAcc × List Piece) → State → Res) : Res :=
  let acc : Access := if store then .store else .load
  waitField i o.w.toNat s fun s =>
    let t := s.thread i.g
    let e := if k = .contiguous then 1 else 2 ^ o.e.toNat
    let els := activeAddrs i t k o.p e
    match resolveAll s i.g acc e els with
    | .error f => .trap f s
    | .ok rs =>
      let bad := if k = .contiguous then baseMisaligned s i.g acc o.v (t.x i.a) (!els.isEmpty) else misaligned o.v e rs
      match bad with
      | some f => .trap f s
      | none =>
        match placeAll s i.g (accesses o.v k e rs) with
        | .error f => .trap f s
        | .ok l =>
          fieldGuard i o.w.toNat s fun s =>
            -- R235: a VOLATILE access ignores POL, and so does one that makes no linear access
            let s := noteFallback i (decide (i.pol ≠ 0) && (o.v || rs.all fun x => x.2.2.scratch)) s
            if l.isEmpty then .done s else body l s

/-- A vector load of a kind. -/
def vldOp (s : State) (o : OpVM) (k : VKind) (b : Field) : State :=
  issue s (Traits.ofVM o (fv o.d) (fx o.a) b) fun i s =>
    vecAccess i o false k s fun l s => if o.v then vecLoadVol i l s else vecLoad i l s

/-- A vector store of a kind. -/
def vstOp (s : State) (o : OpVM) (k : VKind) (b : Field) : State :=
  issue s (Traits.ofVM o (fv o.d) (fx o.a) b) fun i s =>
    vecAccess i o true k s fun l s => if o.v then vecStoreVol i l s else vecStore i l s

/-- vld. -/
def execVld (o : OpVM) (s : State) : Host.Outcome State Fault Refusal := finish s (vldOp s o .contiguous fnone)

/-- vlds. -/
def execVlds (o : OpVM) (s : State) : Host.Outcome State Fault Refusal := finish s (vldOp s o .strided (fx o.b))

/-- vldx. -/
def execVldx (o : OpVM) (s : State) : Host.Outcome State Fault Refusal := finish s (vldOp s o .indexed (fv o.b))

/-- vst. -/
def execVst (o : OpVM) (s : State) : Host.Outcome State Fault Refusal := finish s (vstOp s o .contiguous fnone)

/-- vsts. -/
def execVsts (o : OpVM) (s : State) : Host.Outcome State Fault Refusal := finish s (vstOp s o .strided (fx o.b))

/-- vstx. -/
def execVstx (o : OpVM) (s : State) : Host.Outcome State Fault Refusal := finish s (vstOp s o .indexed (fv o.b))

end Sys2Proof.Machine
end

