-- ==== Sys2Proof/Machine/Returns.lean ====
section
/-! DEFINITION. What reaches a thread from outside its own issue: results, fault responses, messages and interrupt sends (R30, R159,
R160, R281, R296, R297); and the events that its issue takes in place of a word (R160, R161, R198, R199, R214). -/

namespace Sys2Proof.Machine

/-! ## Results (R159) -/

/-- A saved context counts a fault that reaches it as its wake condition occurring (R30, R209): it may be resumed. -/
def savedReady (s : State) (g : Nat) : State :=
  if 2 ^ 33 ≤ g ∧ g < 2 ^ 34 then
    (s.modCore (coreOf g) fun c =>
      { c with saved := tmap (fun k x => if k = (g - 2 ^ 33) % 64 then { x with wake := .unit } else x) c.saved }).askLoader (coreOf g)
  else s

/-- One part of a result joins the others: bytes at their place. A tile load's bytes go to scratchpad as they come; one that meets a guard
granule leaves a record of a load (R71). (DESIGN CHOICE, log 96) -/
def takePart (s : State) (g : Nat) (o : Outst) (v : ResultVal) : State × Outst :=
  match v, o.dest with
  | .bytes off bs, .scratch pos =>
    if guarded (s.core (coreOf g)) (pos + off) bs.length then (remoteGuard s g gkLoad (.ofNat 64 (2 ^ 60 + pos)) o.pc, o)
    else (scratchWrite s (coreOf g) (pos + off) bs, o)
  | .bytes off bs, _ => (s, { o with buf := putBytes o.buf off bs })
  | _, _ => (s, o)

/-- The first n bytes that have come. -/
def Outst.bytes (o : Outst) (n : Nat) : List Byte := (List.range n).map fun k => tget 0 o.buf k

/-- The registers that a complete result writes. -/
def landRegs (o : Outst) (v : ResultVal) (t : Thread) : Thread :=
  match v with
  | .regs xs vs flags =>
    (vs.foldl (fun t e => t.setV e.1 e.2) (xs.foldl (fun t e => t.setX e.1 e.2) t)).orFlags flags
  | _ =>
    match o.dest with
    | .x d n signed => t.setX d (.ofInt 64 (intVal (8 * n) signed (leNat (o.bytes n))))
    | .v d mask => t.setV d (mergeTable mask o.buf (t.vreg d))
    | _ => t

/-- The registers of each file that a complete result writes. -/
def landed (o : Outst) (v : ResultVal) : List Nat × List Nat :=
  match v with
  | .regs xs vs _ => (xs.map (·.1), vs.map (·.1))
  | _ =>
    match o.dest with
    | .x d _ _ => ([d], [])
    | .v d _ => ([], [d])
    | _ => ([], [])

/-- A result that returns to a saved context enters its frame (R209, R210). (DEDUCED, log 23) -/
def frameLand (s : State) (g : Nat) (o : Outst) (v : ResultVal) : State :=
  if g < 2 ^ 33 then s
  else
    let t := s.thread g
    let a := frameAddr s (coreOf g) ((g - 2 ^ 33) % 64)
    let r := landed o v
    let s := r.1.foldl (fun s n => s.pokes (a + 0x080 + 8 * n) (bytesOf 8 (t.x n))) s
    let s := r.2.foldl (fun s n => s.pokes (a + 0xA00 + 128 * n) (lineBytes (t.vreg n))) s
    s.pokes (a + 0x046) (leBytes 2 (bits (packThflg t.ctx) 15 0))

/-- The value that an instruction waiting for its answer sees. -/
def answerValue (v : ResultVal) : Word :=
  match v with
  | .regs (x :: _) _ _ => x.2
  | _ => 0

/-- The instruction that waits for this answer goes on. -/
def wakeAnswered (id : Nat) (v : Word) (t : Thread) : Thread :=
  if id + 1 = t.nextId then
    match t.status with
    | .waiting .answer | .waiting (.tile _ _ _) | .waiting (.stall _ _) => { t with status := .ready, stage := .answered v }
    | _ => t
  else t

/-- An outstanding result with one part less: replaced, or gone when it was the last. -/
def countPart (t : Thread) (o : Outst) : Thread :=
  { t with out := if o.parts ≤ 1 then t.out.filter fun x => x.id != o.id
                  else t.out.map fun x => if x.id = o.id then { o with parts := o.parts - 1 } else x }

/-- A late fault of a task that has been discarded only counts, in the record that names the task while there is one (R198). -/
def countLate (s : State) (g : Nat) (f : FaultRec) : State :=
  let c := (s.thread g).ctx
  let more (r : CauseRec) : CauseRec := { r with more := if r.more = 255 then 255 else r.more + 1 }
  if c.cause.disc ∧ c.cause.task = f.task then s.modCtx g fun c => { c with cause := more c.cause }
  else if c.mcause.disc ∧ c.mcause.task = f.task then s.modCtx g fun c => { c with mcause := more c.mcause }
  else s

/-- Whether a fault is of a task of the thread that has been discarded. -/
def late (s : State) (g : Nat) (f : FaultRec) : Bool := f.task != (s.thread g).ctx.task && (s.thread g).gone.contains f.task

/-- A fault that a thread takes at its next issue (R30); one of a discarded task only counts (R198). -/
def pendFault (s : State) (g : Nat) (f : FaultRec) : State :=
  if late s g f then countLate s g f
  else savedReady (s.modThread g fun t => { t with pend := t.pend ++ [f] }) g

/-- The result is complete: registers written, or its fault pends. -/
def finishResult (s : State) (g : Nat) (o : Outst) (v : ResultVal) : State :=
  match o.fault with
  | some f => pendFault s g f.2
  | none => frameLand (s.modThread g fun t => wakeAnswered o.id (answerValue v) (landRegs o v t)) g o v

/-- A part of a thread's result has come (R159). -/
def takeResult (s : State) (g id : Nat) (v : ResultVal) : State :=
  match if s.hasThread g then (s.thread g).out.find? fun o => o.id == id else none with
  | none => s
  | some o =>
    let r := takePart s g o v
    let s := r.1.modThread g fun t => countPart t r.2
    if o.parts ≤ 1 then finishResult s g r.2 v else s

/-- RESULT_RETURN (R77, R94, R159). -/
def execResultReturn (r : ResultRet) (s : State) : Host.Outcome State Fault Refusal :=
  finish s <|
    takeResult (match r.fill with
      | some f => installL1 s f
      | none => s) r.gti r.id r.val

/-! ## Fault responses (R30, R198) -/

/-- The fault of a posted store stands before those of higher places of the same instruction (R323). -/
def insertPosted (e : StFault) : List StFault → List StFault
  | [] => [e]
  | h :: t =>
    if h.fault.info.opc = e.fault.info.opc ∧ h.fault.task = e.fault.task ∧ e.off < h.off then e :: h :: t
    else h :: insertPosted e t

/-- The fault of a posted store waits for the instruction that observes it; one of a discarded task only counts. -/
def postFault (s : State) (g : Nat) (e : StFault) : State :=
  if late s g e.fault then countLate s g e.fault
  else savedReady (s.modThread g fun t => { t with stf := insertPosted e t.stf }) g

/-- The part of a result that failed: of several, the lowest gives the fault. -/
def failPart (o : Outst) (off : Nat) (f : FaultRec) : Outst :=
  { o with fault := match o.fault with
      | some e => if e.1 ≤ off then some e else some (off, f)
      | none => some (off, f) }

/-- A fault in place of a part of a result. -/
def failResult (s : State) (g id off : Nat) (f : FaultRec) : State :=
  match (s.thread g).out.find? fun o => o.id == id with
  | none => pendFault s g f
  | some o =>
    let o := failPart o off { f with task := o.task }
    let s := s.modThread g fun t => countPart t o
    if o.parts ≤ 1 then finishResult s g o .ack else s

/-- FAULT_RESPONSE (R30). -/
def execFaultResponse (r : FaultResp) (s : State) : Host.Outcome State Fault Refusal :=
  finish s <|
    if s.hasThread r.gti then
      match r.ctr, r.id with
      | some c, _ => postFault (ackPost s r.gti c) r.gti ⟨c, r.off, r.fault⟩
      | none, some id => failResult s r.gti id r.off r.fault
      | none, none => pendFault s r.gti r.fault
    else s

/-! ## Events taken at an issue (R198, R199, R214) -/

/-- The fault leaves the place in which it waited. -/
def dropFault (t : Thread) (f : FaultRec) : Thread :=
  if t.pend.contains f then { t with pend := t.pend.erase f }
  else match t.stf.find? fun e => ({ e.fault with pc := f.pc } : FaultRec) == f with
    | some e => { t with stf := t.stf.erase e }
    | none => match t.eng.find? fun e => ({ e.fault with pc := f.pc } : FaultRec) == f with
      | some e => { t with eng := t.eng.erase e }
      | none => t

/-- TRAP_ENTRY (R199). -/
def execTrapEntry (o : TrapReq) (s : State) : Host.Outcome State Fault Refusal :=
  finish s <| enter (s.modThread o.gti fun t => dropFault t o.fault) o.gti o.fault

/-- An interrupt's bit is cleared as it is taken, but TIMER's (R160). -/
def clearIrq (c : Ctx) (b : BitVec 4) : Ctx := if b = 1 then c else { c with ipend := c.ipend &&& ~~~(1#4 <<< b.toNat) }

/-- INTERRUPT_ENTRY (R160, R161). -/
def execInterruptEntry (o : IrqRef) (s : State) : Host.Outcome State Fault Refusal :=
  finish s <|
    let s := if canAbandon s o.gti then abandon s o.gti else s
    enter (s.modCtx o.gti fun c => clearIrq c o.bit) o.gti (mkFault .interrupt o.bit.toNat 0)

/-- SINGLE_STEP (R214). -/
def execSingleStep (o : ThreadRef) (s : State) : Host.Outcome State Fault Refusal :=
  finish s <| enter s o.gti (callEntry .singleStep)

/-! ## Interrupts that become pending (R160, R281) -/

/-- TIMER_INTERRUPT (R160): TIMER is a level; a saved context may be resumed by it (R209). -/
def execTimerInterrupt (o : ThreadRef) (s : State) : Host.Outcome State Fault Refusal :=
  finish s <|
    if s.hasThread o.gti then
      let s := s.modCtx o.gti fun c => { c with ipend := s.ipend o.gti }
      if 2 ^ 33 ≤ o.gti then s.askLoader (coreOf o.gti) else s
    else s

/-- SOFT_INTERRUPT_DELIVERY (R281). -/
def execSoftInterruptDelivery (o : SoftIrq) (s : State) : Host.Outcome State Fault Refusal :=
  finish s <|
    let g := o.core * 16 + o.slot
    let t := s.thread g
    let here := t.status != .absent && t.ctx.ids.job == o.job
    let s := if here then s.modCtx g fun c => { c with ipend := c.ipend ||| 1 } else s
    answer s (fromThread (o.core * 16)) o.gti o.id (.regs [(o.d, if here then 0 else 1)] [] 0) none

/-! ## Messages (R296, R297) -/

/-- MSEND_DELIVERY (R187, R296): the owner is checked first, then the guard granule. -/
def execMsendDelivery (o : Msg) (s : State) : Host.Outcome State Fault Refusal :=
  finish s <|
    let k := tget Arrival.zero (s.core o.core).arrivals o.ctr
    let s :=
      if k.owner ≠ o.job then bump s o.core o.ctr o.job
      else if guarded (s.core o.core) o.pos 8 then remoteGuard s o.gti gkStore (scratchPtr o.core o.pos) o.pc
      else bump (scratchWrite s o.core o.pos (bytesOf 8 o.payload)) o.core o.ctr o.job
    ackPost s o.gti o.post

/-- QPUT_DELIVERY (R297): a full queue of the job holds the message in the network, and it comes again. -/
def execQputDelivery (o : Msg) (s : State) : Host.Outcome State Fault Refusal :=
  finish s <|
    let c := s.core o.core
    if c.rqOwner ≠ o.job then
      ackPost ((s.modCore o.core fun c => { c with acrej := c.acrej + 1 }).report
        (ownerReport o.core o.job c.rqOwner 0 1 o.payload)) o.gti o.post
    else if Config.recvQueue ≤ c.rq.length then s.urge ⟨s.now, fromThread o.gti, atCore o.core, .qputDelivery o⟩
    else
      let s := s.modCore o.core fun c => { c with rq := c.rq ++ [o.payload] }
      let s := if (s.core o.core).saved.isEmpty then s else s.askLoader o.core
      ackPost s o.gti o.post

end Sys2Proof.Machine
end

