-- ==== Sys2Proof/Machine/Loader.lean ====
section
/-! DEFINITION. The cores' tables of work (R157, R162 to R164, R170, R180 to R192, R206 to R212): wakes and shares, the loader and the
start of threads, work lists, migrant packets, cancels and re-ranking, and the saving and resuming of contexts. -/

namespace Sys2Proof.Machine

/-! ## Reads of records for a job (R176, R182) -/

/-- Bytes of linear memory read for a job, line by line, their homes given by a function; a fault names its line. -/
def readVia (place : Nat → Except Nat Nat) (m job : Nat) (user : Bool) : List (Nat × Nat × Nat) → State → State × Except FaultRec (List Byte)
  | [], s => (s, .ok [])
  | (a, _, n) :: t, s =>
    let ptr : Word := .ofNat 64 a
    match place a with
    | .error k => (s, .error (xlate k ptr))
    | .ok g =>
      if linkDown s m (sliceModule g) then (s, .error (mkFault .poison 0 ptr))
      else
        let r := readLineFor false (s.overLinks m (sliceModule g)) g job (a / 128) (wordSpan (a % 128) n) user false
        match r.2 with
        | .error e => (r.1, .error (mkFault e.1 e.2 ptr))
        | .ok (l, _) =>
          let q := readVia place m job user t r.1
          match q.2 with
          | .error f => (q.1, .error f)
          | .ok bs => (q.1, .ok (lineSlice l (a % 128) n ++ bs))

/-- A 64 B record at a space-0 pointer; user mode has no upper half (R13). -/
def readRecord (place : Nat → Except Nat Nat) (m job : Nat) (user : Bool) (ptr : Word) (s : State) : State × Except FaultRec Nat :=
  if bits ptr 63 57 ≠ 0 ∨ (user ∧ bit ptr 56) then (s, .error (xlate kNonCanonical ptr))
  else if ptr.toNat % 64 ≠ 0 then (s, .error (mkFault .alignment 0 ptr))
  else
    let r := readVia place m job user [(ptr.toNat, 0, 64)] s
    (r.1, r.2.map leNat)

/-! ## Wakes and shares (R180 to R183) -/

/-- Whether a shape record is one that rejects a launch (R182, R183). -/
def shapeBad (d : Nat) : Bool :=
  let slots := recField d 319 315
  slots == 0 || decide (16 < slots) || recField d 311 308 != 1 || recField d 307 0 != 0 ||
  decide (2 ^ 32 < shapeExt d 0 * shapeExt d 1 * shapeExt d 2 * shapeExt d 3)

/-- The share of a core (R183): the first thread index, how many, and the step between them. -/
def shareOf (d i count : Nat) : Nat × Nat × Nat :=
  let t := shapeExt d 0 * shapeExt d 1 * shapeExt d 2 * shapeExt d 3
  if recField d 314 314 = 0 then
    let q := t / count
    let m := t % count
    (i * q + min i m, q + (if i < m then 1 else 0), 1)
  else (i, if i < t then (t - i + count - 1) / count else 0, count)

/-- Whether a cancel that has reached the cores of a module covers a piece of work (R170). -/
def cancelledAt (s : State) (m : Nat) (ids : Ids) : Bool :=
  s.cores.any fun c => moduleOf c.1 == m && c.2.cancels.any fun k => keyCovers k ids

/-- A share enters its core's table; one of no threads is reported once nothing else of the launch waits for it (R181, R188, R190). -/
def queueShare (s : State) (core : Nat) (h : Share) : State :=
  let s := s.modCore core fun c => { c with shares := c.shares ++ [h] }
  if h.count = 0 then s.reportAll else s.askLoader core

/-- The share of a wake that starts no thread, with what it reports. -/
def noShare (w : Dandelion) (status : Nat) : Share := ⟨w, 0, 0, 1, 0, [], status⟩

/-- A wake at a core of its range: the shape record is read, the share computed and queued. (DEDUCED, log 76) -/
def takeWake (s : State) (core : Nat) (w : Dandelion) : State :=
  if cancelledAt s (moduleOf core) w.ids then queueShare s core (noShare w 1)
  else
    let r := readRecord (s.home core w.ids.job) (moduleOf core) w.ids.job (w.mode == .user) w.shape s
    match r.2 with
    | .error _ => queueShare r.1 core (noShare w 2)
    | .ok d =>
      let s := r.1.noteEntries core w.ids.job w.shape.toNat
      if shapeBad d then queueShare s core (noShare w 2)
      else
        let h := shareOf d (core - w.first) w.count
        queueShare s core
          { wake := w, next := h.1, count := h.2.1, step := h.2.2, slots := recField d 319 315
            ext := [shapeExt d 0, shapeExt d 1, shapeExt d 2, shapeExt d 3], status := 0 }

/-- Whether a core has no room for a share (R181). -/
def sharesFull (c : Core) : Bool := decide (Config.shareQueue ≤ (c.shares.filter fun h => h.count != 0).length)

/-- Whether a wake lies in its range at a core. -/
def wakeInRange (o : WakeAt) : Bool := decide (o.wake.first ≤ o.core ∧ o.core < o.wake.first + o.wake.count)

/-- A wake that waits at its core's interface (R181): a share queue without room, and no cancel that ends the wait (R170). (DEDUCED, log 76) -/
def wakeHeld (s : State) (o : WakeAt) : Bool :=
  wakeInRange o && sharesFull (s.core o.core) && !cancelledAt s (moduleOf o.core) o.wake.ids

/-- DANDELION_WAKE (R180, R181): a core outside the range discards the wake; one without room lets it wait. -/
def execDandelionWake (o : WakeAt) (s : State) : Host.Outcome State Fault Refusal :=
  finish s <|
    if !wakeInRange o then s
    else if wakeHeld s o then s.urge ⟨s.now, fromModule (moduleOf o.core), atCore o.core, .dandelionWake o⟩
    else orHeld (s.later 64 (fromModule (moduleOf o.core)) (atCore o.core) (.dandelionWake o)) (takeWake s o.core o.wake)

/-! ## New contexts (R157, R183, R189, R191) -/

/-- A context that starts in a slot: its ids, mode and first registers; every other register is zero, HPAT among them (R183). -/
def newThread (core slot : Nat) (ids : Ids) (mode : Mode) (pc : Word) (xs : List (Nat × Word)) : Thread :=
  let t : Thread := { Thread.empty with ctx := { Ctx.zero with pc := pc, mode := mode, origin := core * 16 + slot, ids := ids, hpat := 0 } }
  xs.foldl (fun t e => t.setX e.1 e.2) t

/-- x1 to x7 of the thread of an index (R183). -/
def indexRegs (h : Share) : List (Nat × Word) :=
  let t := h.next
  let e (k : Nat) : Nat := h.ext.getD k 1
  [(1, .ofNat 64 t), (2, .ofNat 64 (t % e 0)), (3, .ofNat 64 (t / e 0 % e 1)), (4, .ofNat 64 (t / (e 0 * e 1) % e 2)),
   (5, .ofNat 64 (t / (e 0 * e 1 * e 2))), (6, h.wake.arg), (7, h.wake.shape)]

/-- The entry vectors from the module's tables, as they stand (R157). -/
def vectors (s : State) (core : Nat) (c : Ctx) : Ctx :=
  let m := s.modu (moduleOf core)
  let e := s.peekNat (m.xvtbase.toNat / 4096 * 4096 + 8 * c.ids.job) 8
  { c with svec := .ofNat 62 (e / 4), mvec := .ofNat 62 (m.mvecbase.toNat / 4) }

/-! ## Save frames (R210) -/

/-- The wake kind of a frame, the row of R206 counted from 0, and its two operands. (DESIGN CHOICE, log 24) -/
def wakeCode : Wake → Nat × Nat × Nat
  | .barrier b phase => (0, b, phase)
  | .queue => (1, 0, 0)
  | .fill n => (2, n, 0)
  | .drainRoom n | .drainEnd n => (3, n, 0)
  | .tile h m _ => (4, h.toNat, m)
  | .arrival c thr => (5, c, thr)
  | .completion c thr => (5, 2 ^ 32 + c, thr)
  | .counters pd px po => (6, bitNat pd + 2 * bitNat px + 4 * bitNat po, 0)
  | .returned => (6, 0, 0)
  | .room c => (6, match c with
      | .pd => 8
      | .px => 16
      | .po => 32, 0)
  | .hostWrites => (6, 64, 0)
  | .meridian ch e => (7, ch, e)
  | .stall g u => (8, g, u)
  | .tableFull k => (9, k, 0)
  | .trinv => (10, 0, 0)
  | .jobsw => (10, 1, 0)
  | _ => (0, 0, 0)

/-- The guard record of a frame: present, kind, later accesses; pointer; PC. (DESIGN CHOICE, log 24) -/
def guardBytes (r : Option GuardRec) : List Byte :=
  match r with
  | none => leBytes 32 0
  | some g => leBytes 8 (1 + g.gkind.toNat * 2 ^ 8 + g.more.toNat * 2 ^ 16) ++ bytesOf 8 g.ptr ++ bytesOf 8 g.pc ++ leBytes 8 0

def words (f : Nat → Word) (n : Nat) : List Byte := (List.range n).flatMap fun k => bytesOf 8 (f k)

/-- xa as the frame holds it (R260). -/
def packXa (x : Xa) : Nat :=
  x.val.toNat + bitNat x.ovf * 2 ^ 4220 + bitNat x.ninf * 2 ^ 4221 + bitNat x.pinf * 2 ^ 4222 + bitNat x.nan * 2 ^ 4223

def unpackXa (n : Nat) : Xa :=
  ⟨n / 2 ^ 4223 % 2 == 1, n / 2 ^ 4222 % 2 == 1, n / 2 ^ 4221 % 2 == 1, n / 2 ^ 4220 % 2 == 1, .ofNat 4220 n⟩

/-- The 8 KiB of a frame (R210). -/
def frameBytes (t : Thread) (core slot : Nat) (ipend : BitVec 4) (w : Wake) (rank prio : Nat) : List Byte :=
  let c := t.ctx
  let k := wakeCode w
  bytesOf 8 c.pc ++
  bytesOf 8 (packThst c ipend) ++ leBytes 8 (c.svec.toNat * 4) ++ bytesOf 8 c.tcmp ++ bytesOf 8 (packThid c core slot) ++
  bytesOf 8 (packThlvl c) ++ leBytes 8 c.task.toNat ++ bytesOf 8 c.rpc ++
  bytesOf 8 (pack [(bits (packThflg c) 15 0, 48), (c.pd, 24), (c.px, 12), (c.po, 0)]) ++
  leBytes 8 (k.1 + rank * 2 ^ 8 + prio * 2 ^ 11) ++ leBytes 8 k.2.1 ++ leBytes 8 k.2.2 ++
  bytesOf 8 (packCause c.cause) ++ bytesOf 8 c.epc ++ bytesOf 8 c.addr ++ bytesOf 8 (packInfo c.info) ++
  words t.x 32 ++ ((List.range 8).flatMap fun n => leBytes 16 (t.preg n).toNat) ++ words t.handle 16 ++
  words (fun n => tget 0 c.rx (n + 1)) 9 ++ leBytes 8 c.rcond.toNat ++ guardBytes t.guardRec ++
  bytesOf 8 (packThdbg c) ++ leBytes 8 c.xeq.toNat ++ leBytes 528 (packXa t.xa) ++ leBytes 8 c.hpat.toNat ++
  leBytes 8 (c.sqsel.toNat + c.mersel.toNat * 16) ++ leBytes 224 0 ++
  ((List.range 8).flatMap fun n => leBytes 64 (t.stream n).desc.toNat ++ leBytes 8 (t.stream n).next ++ leBytes 56 0) ++
  ((List.range 32).flatMap fun n => lineBytes (t.vreg n)) ++
  bytesOf 8 (packCause c.mcause) ++ bytesOf 8 c.mepc ++ leBytes 8 (c.mvec.toNat * 4) ++ leBytes 1512 0

/-- n bytes of a frame from an offset, as a number. -/
def frameField (bs : List Byte) (off n : Nat) : Nat := leNat ((bs.drop off).take n)
def frameWord (bs : List Byte) (off : Nat) : Word := .ofNat 64 (frameField bs off 8)

/-- A table of the entries that differ from zero, for indexes 0 to n - 1. -/
def tableFrom {w : Nat} (f : Nat → BitVec w) : Nat → Table (BitVec w)
  | 0 => []
  | n + 1 => tset 0 (tableFrom f n) n (f n)

/-- A context as its frame stands (R209, R210). What the core keeps outside the frame stays: the open task and its units, the
posting counters and IPEND of the wake table, the condition word, the streams' modes. (DEDUCED, log 25) -/
def fromFrame (t : Thread) (bs : List Byte) : Thread :=
  let st := frameWord bs 0x008
  let id := frameWord bs 0x020
  let lv := frameWord bs 0x028
  let fl := frameField bs 0x046 2
  let sel := frameWord bs 0x518
  let dbg := frameWord bs 0x2F0
  let g := frameWord bs 0x2D0
  { t with
    ctx := { t.ctx with
      pc := frameWord bs 0, imask := .ofNat 4 (bits st 15 12), haz := bit st 11, ie := bit st 10, pmode := Mode.of (bits st 9 8)
      mpmode := Mode.of (bits st 7 6), mode := Mode.of (bits st 5 4), pie := bit st 3, mpie := bit st 2
      svec := .ofNat 62 (frameField bs 0x010 8 / 4), tcmp := frameWord bs 0x018, origin := bits id 63 41
      ids := { t.ctx.ids with job := bits id 7 0, launch := bits lv 63 48, graph := bits lv 47 32, phase := bits lv 31 24 }
      tseq := .ofNat 9 (frameField bs 0x030 4 / 2 ^ 23), rpc := frameWord bs 0x038
      modfb := fl / 2 ^ 15 % 2 == 1, arith := .ofNat 8 fl
      cause := unpackCause (frameWord bs 0x060), epc := frameWord bs 0x068, addr := frameWord bs 0x070
      info := unpackInfo (frameWord bs 0x078), x := tableFrom (fun n => if n = 0 then 0#64 else frameWord bs (0x080 + 8 * n)) 32
      rx := tableFrom (fun n => if n = 0 then 0#64 else frameWord bs (0x278 + 8 * n)) 10, rcond := .ofNat 16 (frameField bs 0x2C8 2)
      mpss := bit dbg 2, pss := bit dbg 1, ss := bit dbg 0, xeq := .ofNat 32 (frameField bs 0x2F8 4)
      hpat := .ofNat 55 (frameField bs 0x510 8), sqsel := .ofNat 4 (bits sel 3 0), mersel := .ofNat 4 (bits sel 7 4)
      mcause := unpackCause (frameWord bs 0x1A00), mepc := frameWord bs 0x1A08, mvec := .ofNat 62 (frameField bs 0x1A10 8 / 4) }
    p := tableFrom (fun n => .ofNat 128 (frameField bs (0x180 + 16 * n) 16)) 8
    h := tableFrom (fun n => frameWord bs (0x200 + 8 * n)) 16
    guardRec := if bit g 0 then some ⟨.ofNat 2 (bits g 9 8), frameWord bs 0x2D8, frameWord bs 0x2E0, .ofNat 8 (bits g 23 16)⟩ else none
    xa := unpackXa (frameField bs 0x300 528)
    streams := tmap (fun n x => { x with
      desc := .ofNat 512 (frameField bs (0x600 + 128 * n) 64), next := frameField bs (0x640 + 128 * n) 8 }) t.streams
    v := tableFrom (fun n => .ofNat 1024 (frameField bs (0xA00 + 128 * n) 128)) 32
    rgsel := 0 }

/-! ## Candidates (R184, R209, R211) -/

/-- Where a slot's next context comes from, with the priority that it carries. -/
inductive Source where
  | resume (frame : Nat)
  | packet (n : Nat)
  | fired (n : Nat)
  | work (n : Nat)
  | share (n : Nat)
  deriving DecidableEq, Repr

structure Candidate where
  prio : Nat
  src : Source
  deriving DecidableEq, Repr

/-- Whether a saved context's wake condition has occurred (R206, R209): it holds, a fault is pending, or an interrupt is takeable. -/
def savedWoken (s : State) (core f : Nat) (x : Saved) : Bool :=
  let g := savedGti core f
  let t := s.thread g
  !t.pend.isEmpty || !t.stf.isEmpty || (takeable g).isSome ||
  match x.wake with
  | .tile _ _ _ => t.status == .ready
  | w => woken s g w
where
  takeable (g : Nat) : Option (BitVec 4) :=
    let c := (s.thread g).ctx
    let w := s.ipend g &&& c.imask
    if c.ie && c.mode != .monitor && !c.cause.live && w != 0 then some w else none

/-- Saved contexts in the order in which they were saved. -/
def insertSaved (e : Nat × Saved) : List (Nat × Saved) → List (Nat × Saved)
  | [] => [e]
  | h :: t => if e.2.order < h.2.order then e :: h :: t else h :: insertSaved e t

/-- Fired entries in the order in which they fired, then by index. -/
def insertFired (e : Nat × WtEntry) : List (Nat × WtEntry) → List (Nat × WtEntry)
  | [] => [e]
  | h :: t => if e.2.order < h.2.order then e :: h :: t else h :: insertFired e t

/-- The rows that a launch holds on a core. -/
def rowsOf (s : State) (core : Nat) (ids : Ids) : Nat :=
  ((s.core core).leases.filter fun r => r.2.state != 0 && r.2.ids == ids).length

def firstIdx {α : Type} (p : α → Bool) : List α → Nat → Option (Nat × α)
  | [], _ => none
  | x :: t, n => if p x then some (n, x) else firstIdx p t (n + 1)

/-- The places of the elements that a predicate selects, from n up. -/
def allIdx {α : Type} (p : α → Bool) : List α → Nat → List (Nat × α)
  | [], _ => []
  | x :: t, n => if p x then (n, x) :: allIdx p t (n + 1) else allIdx p t (n + 1)

/-- Every candidate of a core, in the order of preference among equal priorities. A suspended job has none. -/
def candidates (s : State) (core : Nat) : List Candidate :=
  let c := s.core core
  let ok (job : Nat) : Bool := !(s.modu (moduleOf core)).suspended.contains job
  let saved := (c.saved.filter fun e => savedWoken s core e.1 e.2 && ok (s.thread (savedGti core e.1)).ctx.ids.job).foldl
    (fun l e => insertSaved e l) []
  let fired := (c.wt.filter fun e => e.2.fired && e.2.into.isNone && ok e.2.ids.job).foldl (fun l e => insertFired e l) []
  saved.map (fun e => ⟨e.2.prio, .resume e.1⟩) ++
  (allIdx (fun p => ok p.ctx.ids.job) c.runq 0).map (fun e => ⟨e.2.prio, .packet e.1⟩) ++
  fired.map (fun e => ⟨e.2.prio, .fired e.1⟩) ++
  ((firstIdx (fun w => ok w.ids.job) c.work 0).toList.map fun e => ⟨e.2.prio, .work e.1⟩) ++
  (allIdx (fun h => h.count != 0 && ok h.wake.ids.job && decide (rowsOf s core h.wake.ids < h.slots)) c.shares 0).map
    fun e => ⟨e.2.wake.prio, .share e.1⟩

/-- The first of the highest priority. -/
def best : List Candidate → Option Candidate
  | [] => none
  | c :: t =>
    match best t with
    | none => some c
    | some d => if c.prio < d.prio then some d else some c

/-- The lowest free row of a core: R184 does not say which a candidate takes. (DESIGN CHOICE, log 110) -/
def freeSlot (s : State) (core : Nat) : Option Nat :=
  (List.range Config.slotsPerCore).find? fun k => (tget Lease.free (s.core core).leases k).state == 0

/-! ## The loader (R184) -/

/-- The row that a candidate takes. -/
def loadingRow (t : Thread) (prio source : Nat) : Lease := ⟨1, prio, prio, t.ctx.ids, source⟩

/-- A context enters a slot that is LOADING; it starts after some cycles. (DEDUCED, log 35) -/
def loadInto (s : State) (core slot : Nat) (t : Thread) (prio source delay : Nat) : State :=
  let s := s.setThread (core * 16 + slot) { t with status := .absent }
  let s := setRow s core slot (loadingRow t prio source)
  s.later delay (fromThread (core * 16 + slot)) (atCore core) (.threadStart ⟨core, slot⟩)

/-- A saved context goes back to a slot, as its frame stands. -/
def loadSaved (s : State) (core slot f : Nat) (x : Saved) : State :=
  let bs := s.peeks (frameAddr s core f) 8192
  let s := renameGti (savedGti core f) (core * 16 + slot) s
  let t := fromFrame (s.thread (core * 16 + slot)) bs
  let s := loadInto (s.modCore core fun c => { c with saved := tdel c.saved f }) core slot t x.prio 4 72
  setRow s core slot { loadingRow t x.prio 4 with rank := x.rank }

/-- The chosen candidate makes the row LOADING. -/
def load (s : State) (core slot : Nat) (c : Candidate) : State :=
  let k := s.core core
  match c.src with
  | .resume f =>
    match tfind k.saved f with
    | some x => loadSaved s core slot f x
    | none => s
  | .packet n =>
    match k.runq[n]? with
    | some p => loadInto (s.modCore core fun k => { k with runq := dropAt k.runq n }) core slot (ofPacket s core p) c.prio 3 8
    | none => s
  | .fired n =>
    match tfind k.wt n with
    | some e =>
      loadInto (s.modCore core fun k => { k with wt := tput k.wt n { e with into := some slot } }) core slot
        (newThread core slot e.ids e.mode e.pc [(1, e.arg), (2, .ofNat 64 e.ctr), (3, .ofNat 64 e.value)]) c.prio 1 8
    | none => s
  | .work n =>
    match k.work[n]? with
    | some e =>
      loadInto (s.modCore core fun k => { k with work := dropAt k.work n }) core slot
        (newThread core slot e.ids e.mode e.pc [(1, e.arg), (2, .ofNat 64 e.tag.toNat)]) c.prio 2 8
    | none => s
  | .share n =>
    match k.shares[n]? with
    | some h =>
      loadInto (s.modCore core fun k => { k with shares := setAt k.shares n { h with next := h.next + h.step, count := h.count - 1 } })
        core slot (newThread core slot h.wake.ids h.wake.mode h.wake.pc (indexRegs h)) c.prio 0 8
    | none => s

/-- Whether the loader of a core can fill a row. -/
def loaderDue (s : State) (core : Nat) : Bool := (freeSlot s core).isSome && !(candidates s core).isEmpty

/-- LOADER_CHOICE (R184): shares that are done are reported; a free row takes the best candidate. -/
def execLoaderChoice (o : CoreRef) (s : State) : Host.Outcome State Fault Refusal :=
  finish s <|
    let s := s.reportAll
    match freeSlot s o.core, best (candidates s o.core) with
    | some slot, some c => load s o.core slot c
    | _, _ => s

/-- A slot's fired entry becomes FREE as its thread starts (R189). -/
def freeFired (slot : Nat) (c : Core) : Core := { c with wt := c.wt.filter fun e => e.2.into != some slot }

/-- The thread of a slot that was LOADING: a new one opens its first task (R165). (DEDUCED, log 26) (DEDUCED, log 34) -/
def startedThread (s : State) (core slot source : Nat) : Thread :=
  let t := s.thread (core * 16 + slot)
  let t : Thread := { t with status := .ready, stage := .start, since := s.now }
  if source ≤ 2 then
    let t := { t with ctx := vectors s core t.ctx }
    openTask t t.ctx.pc
  else if source = 4 then
    -- the acquire of a resume waits for the results of the loads before it (R121, R135)
    if t.out.isEmpty then { t with bypass := true } else { t with bypass := true, solverJoin := true, status := .waiting .results, parkPc := t.ctx.pc }
  else t

/-- A fill stream of a resumed context fetches again. -/
def kickStreams (g : Nat) : Nat → State → State
  | 0, s => s
  | n + 1, s => kickStream (kickStreams g n s) g n

/-- THREAD_START (R165, R183, R184, R209): the start of a thread is an acquire. -/
def execThreadStart (o : SlotRef) (s : State) : Host.Outcome State Fault Refusal :=
  finish s <|
    let g := o.core * 16 + o.slot
    let r := s.lease g
    if r.state ≠ 1 then s
    else
      let s := (s.setThread g (startedThread s o.core o.slot r.source)).modCore o.core (freeFired o.slot)
      let s := setRow s o.core o.slot { r with state := 2 }
      let s := acquireCore s o.core
      kickStreams g 8 (s.armTimer g)

/-! ## Work lists and Sextant (R190 to R192) -/

/-- The neighbours of a core (R3, R192): its cluster's others, and the cores of its index in the clusters beside, above or below. (DEDUCED, log 78) -/
def neighbours (core : Nat) : List Nat :=
  let die := core / 96 * 96
  let cl := core % 96 / 8
  let k := core % 8
  let mine := ((List.range 8).filter fun j => j != k).map fun j => die + cl * 8 + j
  let row := cl / 6
  let col := cl % 6
  let beside := (if 0 < col then [cl - 1] else []) ++ (if col < 5 then [cl + 1] else []) ++ [if row = 0 then cl + 6 else cl - 6]
  mine ++ beside.map fun c => die + c * 8 + k

def occupancy (s : State) (core : Nat) : Nat := (s.core core).work.length

/-- The neighbour with the lowest occupancy, ties going to the lowest global core. -/
def lowest (s : State) : List Nat → Option Nat
  | [] => none
  | c :: t =>
    match lowest s t with
    | none => some c
    | some d =>
      if occupancy s c < occupancy s d ∨ (occupancy s c = occupancy s d ∧ c < d) then some c else some d

/-- SEXTANT_BALANCE (R192). -/
def execSextantBalance (o : CoreRef) (s : State) : Host.Outcome State Fault Refusal :=
  finish s <|
    let n := occupancy s o.core
    let least := (s.die (dieOf o.core)).sxMin.toNat
    let s := if n = 0 then s else s.askSextant o.core
    match lowest s (neighbours o.core) with
    | none => s
    | some d =>
      let diff := n - occupancy s d
      if least = 0 ∨ diff < least then s
      else
        let k := min (diff / 2) 64
        s.post ⟨s.now, fromThread (o.core * 16), atCore d, .workListShipment ⟨o.core, d, (s.core o.core).work.drop (n - k)⟩⟩

/-- The entries of a shipment that its sender still holds, in their order. -/
def stillHeld : List WorkEntry → List WorkEntry → List WorkEntry
  | [], _ => []
  | e :: t, w => if w.contains e then e :: stillHeld t (w.erase e) else stillHeld t w

/-- The cancels that have been flooded to the cores of a module and that a core has neither recorded nor on its way: they reach it too (R170). -/
def floodLate (s : State) (core : Nat) : State :=
  let here (c : Nat) : Bool := moduleOf c == moduleOf core
  let sent := s.agenda.filterMap fun f =>
    match f.ev with
    | .cancelFlood c => if here c.core then some c else none
    | _ => none
  let ks := ((s.cores.filter fun c => here c.1).flatMap fun c => c.2.cancels) ++ sent.map (·.key)
  (ks.eraseDups.filter fun k => !(s.core core).cancels.contains k && !sent.contains ⟨core, k⟩).foldl
    (fun s k => s.post ⟨s.now, fromModule (moduleOf core), atCore core, .cancelFlood ⟨core, k⟩⟩) s

/-- WORK_LIST_SHIPMENT (R192): the sender holds its entries until the receiver takes those that it has room for; the rest stays. -/
def execWorkListShipment (o : Shipment) (s : State) : Host.Outcome State Fault Refusal :=
  finish s <|
    let es := (stillHeld o.entries (s.core o.source).work).take (Config.workList - occupancy s o.target)
    let s := s.modCore o.source fun c => { c with work := (es.foldl List.erase c.work.reverse).reverse }
    let s := floodLate (s.modCore o.target fun c => { c with work := c.work ++ es }) o.target
    ((s.askLoader o.target).askSextant o.target).reportAll

/-! ## Migrant packets (R162 to R164, R212) -/

/-- The core that a packet reaches. -/
def packetCore (s : State) (p : Packet) : Nat := moveTarget s p.dest p.near

/-- Run-queue order: PRIO, highest first, then arrival. -/
def insertPacket (p : Packet) : List Packet → List Packet
  | [] => [p]
  | q :: t => if q.prio < p.prio then p :: q :: t else q :: insertPacket p t

/-- The slot that an arriving packet takes (R164): a free one, unless its job is suspended (R211). -/
def packetSlot (s : State) (p : Packet) : Option Nat :=
  if (s.modu (moduleOf p.dest)).suspended.contains p.ctx.ids.job then none else freeSlot s (packetCore s p)

/-- Whether a packet is not started where it arrives (R163, R212). -/
def unfit (p : Packet) : Bool := p.corrupt || p.fmt != 1

/-- Whether a core refuses a packet, which then stays in the network (R164, R212). -/
def packetHeld (s : State) (p : Packet) : Bool :=
  let c := s.core (packetCore s p)
  !cancelledAt s (moduleOf p.dest) p.ctx.ids &&
    (c.quarantine.isSome || (!unfit p && (packetSlot s p).isNone && decide (Config.runQueue ≤ c.runq.length)))

/-- The report of a quarantined packet (R212, R431). -/
def quarantineReport (core : Nat) (p : Packet) : Report :=
  ⟨moduleOf core, 7, if p.corrupt then none else some p.ctx.ids.job, dieOf core % 64, 0, core % 96, 0,
   .ofNat 79 ((if p.corrupt then 0 else 1) + p.fmt % 16 * 2 + p.source * 2 ^ 5 + p.dest * 2 ^ 24)⟩

/-- MIGRANT_PACKET_ARRIVAL (R163, R164, R170, R212). -/
def execMigrantPacketArrival (p : Packet) (s : State) : Host.Outcome State Fault Refusal :=
  finish s <|
    let core := packetCore s p
    if cancelledAt s (moduleOf core) p.ctx.ids then s.reportAll
    else if packetHeld s p then s.urge ⟨s.now, fromThread (p.source * 16), atCore p.dest, .migrantPacketArrival p⟩
    else if unfit p then (s.modCore core fun c => { c with quarantine := some p }).report (quarantineReport core p)
    else
      let cmp : Word := if p.trem = 0 then 0 else .ofNat 64 (s.cycles core + p.trem.toNat)
      let q := { p with ctx := { p.ctx with tcmp := cmp }, trem := 0 }
      match packetSlot s p with
      | some slot => loadInto s core slot (ofPacket s core q) p.prio 3 8
      | none => (s.modCore core fun c => { c with runq := insertPacket q c.runq }).askLoader core

/-! ## Re-ranking (R186) -/

/-- RERANK_NOTICE (R186), at every core of a module. -/
def execRerankNotice (o : Rerank) (s : State) : Host.Outcome State Fault Refusal :=
  finish s <|
    { s with cores := tmap (fun k c =>
        if moduleOf k = o.module then
          { c with
            leases := tmap (fun _ r => if r.state ≠ 0 ∧ r.ids = o.ids then { r with rank := o.rank } else r) c.leases
            saved := tmap (fun f x => if (s.thread (savedGti k f)).ctx.ids = o.ids then { x with rank := o.rank } else x) c.saved }
        else c) s.cores }

/-! ## Cancels (R170, R171) -/

/-- Whether a commit of the thread has reached R128 step 4 and has not been acknowledged everywhere: it completes before a cancel stops the
thread (R171). -/
def committing (t : Thread) : Bool :=
  (t.stage == .installing && (t.acks != 0 || !t.creates.isEmpty)) || (t.stage == .publishing && t.acks != 0)

/-- Nothing of a task whose commit is complete is left to discard. -/
def committedTask (t : Thread) : Thread :=
  if t.stage = .installing ∨ t.stage = .publishing then { t with units := [], creates := [] } else t

/-- The cancel that a core has recorded for a slot's thread, which stops it before its next instruction (R170, R171, R282). -/
def doomedBy (s : State) (g : Nat) : Option CancelKey :=
  let t := s.thread g
  if 2 ^ 33 ≤ g ∨ t.status = .absent ∨ committing t then none
  else (s.core (coreOf g)).cancels.find? fun k => keyCovers k t.ctx.ids

/-- A thread is stopped (R170): its wait is withdrawn, its task discarded, and no handler runs. -/
def stopThread (s : State) (g : Nat) : State :=
  let s := s.modThread g committedTask
  let s := match heldOp s g with
    | some w => abandonOp s w
    | none => s
  leaveBehind (dropLeases (discardTask s g) g) g

/-- The occupant of a slot is stopped, or its loading is. -/
def stopSlot (s : State) (g : Nat) : State :=
  let s := stopThread s g
  let s := { s with agenda := s.agenda.filter fun f =>
      match f.ev with
      | .threadStart q => q.core * 16 + q.slot != g
      | _ => true }
  freeRow s g

def stopSlots (core : Nat) : List Nat → State → State
  | [], s => s
  | k :: t, s => stopSlots core t (stopSlot s (core * 16 + k))

def stopSaved (core : Nat) : List Nat → State → State
  | [], s => s
  | f :: t, s => stopSaved core t ((stopThread s (savedGti core f)).modCore core fun c => { c with saved := tdel c.saved f })

/-- The tables of a core without what a cancel covers: nothing of it starts any more. -/
def purgeCore (k : CancelKey) (c : Core) : Core :=
  { c with
    cancels := if c.cancels.contains k then c.cancels else c.cancels ++ [k]
    wt := c.wt.filter fun e => !keyCovers k e.2.ids
    work := c.work.filter fun e => !keyCovers k e.ids
    runq := c.runq.filter fun p => !keyCovers k p.ctx.ids
    quarantine := c.quarantine.filter fun p => !keyCovers k p.ctx.ids
    shares := c.shares.map fun h => if keyCovers k h.wake.ids then { h with count := 0, status := max h.status 1 } else h }

/-- A cancel at one core. A thread whose commit is under way is stopped when the commit is done: the record stays. -/
def cancelCore (s : State) (core : Nat) (k : CancelKey) : State :=
  let s := s.modCore core (purgeCore k)
  let here := (s.core core).leases.filter fun r => r.2.state != 0 && keyCovers k (s.thread (core * 16 + r.1)).ctx.ids
  let s := stopSlots core ((here.map (·.1)).filter fun n => !committing (s.thread (core * 16 + n))) s
  let s := stopSaved core (((s.core core).saved.filter fun e => keyCovers k (s.thread (savedGti core e.1)).ctx.ids).map (·.1)) s
  let s := flushWhere s core fun e => k.level == 3 && e.key.job == k.ids.job
  (s.askLoader core).reportAll

/-- Whether any work of a level is left: launches admitted or waiting at a queue's head, graphs, contexts, shares, entries, wakes. -/
def levelLive (s : State) (k : CancelKey) : Bool :=
  (s.modules.any fun m =>
    (m.2.launches.any fun l => keyCovers k l.ids) || (m.2.heads.any fun h => keyCovers k h.2.ids) ||
    m.2.graphs.any fun g => keyCovers k g.ids || g.todo.any fun n => keyCovers k { g.ids with launch := (g.ids.launch + n.1) % 2 ^ 16 }) ||
  (s.liveCtx.any fun c => keyCovers k c.ids) ||
  (s.cores.any fun c => (c.2.shares.any fun h => keyCovers k h.wake.ids) || (c.2.wt.any fun e => keyCovers k e.2.ids) ||
    c.2.work.any fun e => keyCovers k e.ids) ||
  s.onWay fun e =>
    match e with
    | .dandelionWake w => keyCovers k w.wake.ids
    | .nolkaiMulticast m =>
      match m.body with
      | .wake w => keyCovers k w.ids
      | .cancel _ => false
    | _ => false

/-- A core keeps a cancel record until its level completes (R170). -/
def tidyCancels (s : State) : State :=
  if s.cores.all fun c => c.2.cancels.isEmpty then s
  else { s with cores := tmap (fun _ c => { c with cancels := c.cancels.filter fun k => levelLive s k }) s.cores }

/-- CANCEL_FLOOD (R170, R171): a cancel of a level that has completed does nothing. -/
def execCancelFlood (o : CancelAt) (s : State) : Host.Outcome State Fault Refusal :=
  finish s (if levelLive s o.key then tidyCancels (cancelCore s o.core o.key) else s)

/-! ## Pre-emption (R185, R206 to R211) -/

/-- The version whose waiter a save replaces by a one-shot record (R207). -/
def tileWait (s : State) (g : Nat) : Option TileRef :=
  match (s.thread g).status with
  | .waiting (.tile _ _ false) => (heldOp s g).map (·.t)
  | _ => none

/-- Whether a thread waits at a point where it can be saved (R206): at a drain stream once the queued elements are written, and a tile wait
needs a subscription record. (DEDUCED, log 23) -/
def savable (s : State) (g : Nat) : Bool :=
  let t := s.thread g
  canAbandon s g &&
  (match t.status with
   | .waiting (.drainRoom n) | .waiting (.drainEnd n) => (t.stream n).buf.isEmpty
   | .waiting w => !woken s g w
   | _ => false) &&
  match tileWait s g with
  | some r => match oneShot s r (coreOf g) false with
    | .ok _ => true
    | .error _ => false
  | none => true

/-- The free save frame of a core, if the die lets it pre-empt and it saves no other context (R208, R210). -/
def freeFrame (s : State) (core : Nat) : Option Nat :=
  let busy := s.agenda.any fun f => match f.ev with
    | .contextSaveDone q => q.core == core
    | _ => false
  if !(s.die (dieOf core)).psV || busy then none
  else (List.range 64).find? fun f => (tfind (s.core core).saved f).isNone

/-- The better victim: the lowest RANK, then the longest wait, then the lowest slot. -/
def worse (s : State) (core a b : Nat) : Bool :=
  let ra := (s.lease (core * 16 + a)).rank
  let rb := (s.lease (core * 16 + b)).rank
  let ta := (s.thread (core * 16 + a)).since
  let tb := (s.thread (core * 16 + b)).since
  decide (ra < rb ∨ (ra = rb ∧ (ta < tb ∨ (ta = tb ∧ a ≤ b))))

def pickVictim (s : State) (core : Nat) : List Nat → Option Nat
  | [] => none
  | a :: t =>
    match pickVictim s core t with
    | none => some a
    | some b => if worse s core a b then some a else some b

/-- The slot to save (R208, R211): of a suspended job whatever its RANK, else one whose RANK is below the best candidate's PRIO when no
row is free. -/
def victim (s : State) (core : Nat) : Option Nat :=
  let rows := ((s.core core).leases.filter fun r => r.2.state == 2 && savable s (core * 16 + r.1)).map (·.1)
  let held := rows.filter fun k => (s.modu (moduleOf core)).suspended.contains (s.thread (core * 16 + k)).ctx.ids.job
  match pickVictim s core held with
  | some k => some k
  | none =>
    if (freeSlot s core).isSome then none
    else match best (candidates s core) with
      | none => none
      | some c => pickVictim s core (rows.filter fun k => decide ((s.lease (core * 16 + k)).rank < c.prio))

/-- Whether a core saves a context now. -/
def preemptDue (s : State) (core : Nat) : Bool := (freeFrame s core).isSome && (victim s core).isSome

/-- The blocking instruction abandoned, with the wake condition that is saved (R206, R207). -/
def withdraw (s : State) (g f : Nat) : State × Wake :=
  let core := coreOf g
  match (s.thread g).status with
  | .waiting (.tile h m own) =>
    match tileWait s g, heldOp s g with
    | some r, some w =>
      let s := abandonOp (awake s r.gslice) w
      (match oneShot s r core false with
       | .ok s => s
       | .error _ => s, .tile h m true)
    | _, _ => (s, .tile h m own)
  | .waiting (.stall gs u) =>
    let s := match heldOp s g with
      | some w => abandonOp s w
      | none => s
    (s.later (thresh s gs) (fromSlice gs) (atCore core) (.sliceStallWake ⟨core, f⟩), .stall gs u)
  | .waiting (.fill _) | .waiting (.drainRoom _) | .waiting (.drainEnd _) => (s, .unit)
  | .waiting w => (s, w)
  | _ => (s, .unit)

/-- Fill streams keep no element fetched ahead (R74, R206), and their engines stop. -/
def dropFills (s : State) (g : Nat) : State :=
  let s := s.modThread g fun t => { t with streams := tmap (fun _ x => if x.drains then x else { x with buf := [], engine := x.next }) t.streams }
  { s with agenda := s.agenda.filter fun e =>
      match e.ev with
      | .streamFillElement r => r.gti != g
      | _ => true }

/-- A context is saved (R208): its instruction abandoned, which a displaced word stays (R209), its contributions flushed, its leases given up, its SPEC words INVALID, its
frame written, its wake condition kept. -/
def saveContext (s : State) (core slot f : Nat) : State :=
  let g := core * 16 + slot
  let row := s.lease g
  let kind := (s.thread g).status
  let r := withdraw s g f
  let s := dropFills (dropLeases (flushMine r.1 g) g) g
  let s := s.modCore core fun c => { c with l1d := tmap (fun _ l => dropSpec slot l) c.l1d }
  let s := s.modThread g fun t =>
    { t with status := .waiting r.2, stage := .start, checked := false, seq := none, ctx := { t.ctx with pc := t.reportPc } }
  let w := match kind with
    | .waiting w => w
    | _ => r.2
  let s := s.pokes (frameAddr s core f) (frameBytes (s.thread g) core slot (s.ipend g) w row.rank row.prio)
  let s := renameGti g (savedGti core f) s
  let s := s.modCore core fun c => { c with saved := tput c.saved f ⟨r.2, s.now, row.prio, row.rank⟩ }
  s.later 64 (fromThread (core * 16)) (atCore core) (.contextSaveDone ⟨core, slot⟩)

/-- PREEMPTION (R208, R211). -/
def execPreemption (o : CoreRef) (s : State) : Host.Outcome State Fault Refusal :=
  finish s <|
    match freeFrame s o.core, victim s o.core with
    | some f, some slot => saveContext s o.core slot f
    | _, _ => s

/-- CONTEXT_SAVE_DONE (R208): the row becomes FREE. -/
def execContextSaveDone (o : SlotRef) (s : State) : Host.Outcome State Fault Refusal :=
  finish s (freeRow s (o.core * 16 + o.slot))

/-- SLICE_STALL_WAKE (R206): a context saved at a slice stall may be resumed. -/
def execSliceStallWake (o : FrameRef) (s : State) : Host.Outcome State Fault Refusal :=
  finish s <|
    (s.modCore o.core fun c =>
      { c with saved := tmap (fun f x => if f = o.frame then (match x.wake with
          | .stall _ _ => { x with wake := .unit }
          | _ => x) else x) c.saved }).askLoader o.core

end Sys2Proof.Machine
end

