-- ==== Sys2Proof/Machine/Queues.lean ====
section
/-! DEFINITION. The queue engine of a module (R174 to R181, R186, R401 to R404, R411): host queues and their entries, admission into
the launch table, the multicast of wakes and cancels, completion. -/

namespace Sys2Proof.Machine

/-! ## Queues and host memory (R174, R401) -/

def State.queue (s : State) (m q : Nat) : Queue := tget Queue.closed (s.modu m).queues q

def State.modQueue (s : State) (m q : Nat) (f : Queue → Queue) : State :=
  s.modModu m fun x => { x with queues := tput x.queues q (f (tget Queue.closed x.queues q)) }

/-- The port that owns a queue, and the queue's index within it (R401, R421). -/
def queuePort (x : Module) (q : Nat) : Nat × Nat :=
  let n := 512 * x.qsplit.toNat
  if q < n then (0, q) else (1, q - n)

/-- The memory behind a function of a port, by I/O virtual address (R398). (DESIGN CHOICE, log 59) -/
def hostKey (m port func a : Nat) : Nat := ((m * 2 + port) * 128 + func) * 2 ^ 64 + a % 2 ^ 64

def hostBytes (s : State) (m port func a n : Nat) : List Byte := Memory.read s.hostMem (hostKey m port func a) n

def hostStore (s : State) (m port func a : Nat) (bs : List Byte) : State :=
  { s with hostMem := Memory.write s.hostMem (hostKey m port func a) bs }

/-- Entry n of a queue, as it stands in host memory (R401). -/
def entryAt (s : State) (m q n : Nat) : Nat :=
  let k := s.queue m q
  leNat (hostBytes s m (queuePort (s.modu m) q).1 k.func.toNat (k.qbase.toNat + 64 * (n % 2 ^ k.log.toNat)) 64)

/-! ## Completion records (R403) -/

/-- The record at CTAIL is written, and its interrupt sent. -/
def writeRecord (s : State) (m q : Nat) (r : Word × Nat × Nat) : State :=
  let k := s.queue m q
  let p := queuePort (s.modu m) q
  let n := 2 ^ k.log.toNat
  let w := r.1.toNat * 2 ^ 64 + r.2.1 * 2 ^ 56 + bitNat k.pass * 2 ^ 55 + r.2.2 % 2 ^ 16
  let s := hostStore s m p.1 k.func.toNat (k.cbase.toNat + 16 * (k.ctail.toNat % n)) (leBytes 16 w)
  let s := s.modQueue m q fun k => { k with ctail := k.ctail + 1, pass := k.pass != (((k.ctail + 1).toNat % n) == 0) }
  s.modModu m fun x => { x with msix := x.msix ++ [(p.1, k.func.toNat, k.vec.toNat)] }

/-- Held records are written while the ring has room, in completion order. -/
def writeRecords (m q : Nat) : List (Word × Nat × Nat) → State → State
  | [], s => s.modQueue m q fun k => { k with held := [] }
  | r :: t, s =>
    let k := s.queue m q
    if (k.ctail - k.chead).toNat < 2 ^ k.log.toNat then writeRecords m q t (writeRecord s m q r)
    else s.modQueue m q fun k => { k with held := r :: t }

/-- An entry completes (R403): 0 DONE, 1 CANCELLED, 2 BAD_ENTRY. (DEDUCED, log 51) -/
def complRecord (s : State) (m q entry : Nat) (cookie : Word) (status : Nat) : State :=
  writeRecords m q ((s.queue m q).held ++ [(cookie, status, entry)]) s

/-! ## The entry at the head (R174, R402, R404) -/

/-- A step of the queue engine for an entry of a queue. -/
def entryStep (m q : Nat) : Event → Bool
  | .nopEntry o | .launchEntry o | .graphEntry o | .cancelEntry o | .priorityEntry o | .signalEntry o => o.module == m && o.queue == q
  | _ => false

/-- Whether the queue engine may read the next entry of a queue: the doorbell covers it, every earlier entry has been admitted or
rejected (R178), and fewer than 64 records are held (R403). -/
def mayRead (s : State) (m q : Nat) : Bool :=
  let k := s.queue m q
  let x := s.modu m
  k.v && k.head != k.tail && decide (k.held.length < 64) && (tfind x.heads q).isNone &&
  !(x.graphs.any fun g => g.queue == q && !g.todo.isEmpty) && !s.agenda.any fun f => entryStep m q f.ev

/-- The step of an entry's KIND; what is no kind is refused by the step of a NOP. -/
def entryEvent (s : State) (m q : Nat) : Event :=
  match recField (entryAt s m q (s.queue m q).head.toNat) 19 16 with
  | 1 => .launchEntry ⟨m, q⟩
  | 2 => .graphEntry ⟨m, q⟩
  | 3 => .cancelEntry ⟨m, q⟩
  | 4 => .priorityEntry ⟨m, q⟩
  | 5 => .signalEntry ⟨m, q⟩
  | _ => .nopEntry ⟨m, q⟩

/-- The queue engine reads the next entry, if it may. -/
def nextEntry (s : State) (m q : Nat) : State :=
  if mayRead s m q then s.post ⟨s.now, fromModule m, atModule m, entryEvent s m q⟩ else s

/-- The highest format that the host writes (R401). -/
def Queue.format (k : Queue) : Nat := if k.fmt = 2 then 2 else 1

/-- What makes an entry BAD_ENTRY by itself (R402). (DEDUCED, log 55) -/
def entryBad (k : Queue) (e : Nat) : Bool :=
  let fmt := recField e 7 0
  let kind := recField e 19 16
  fmt == 0 || decide (k.format < fmt) || decide (5 < kind) || (kind == 5 && fmt == 1) ||
  recField e 511 256 != 0 || recField e 15 8 != 0 || (kind == 3 && decide (3 < recField e 23 20))

def entryCookie (e : Nat) : Word := .ofNat 64 (recField e 191 128)

/-- The ids that an entry of a queue names. -/
def entryIds (m : Nat) (k : Queue) (e : Nat) : Ids :=
  { home := m, job := k.job.toNat, phase := recField e 63 56, graph := recField e 55 40, launch := recField e 39 24 }

/-- The engine is done with the entry at the head of a queue. (DEDUCED, log 51) -/
def passHead (s : State) (m q : Nat) : State := nextEntry (s.modQueue m q fun k => { k with head := k.head + 1, busy := false }) m q

/-- The entry at the head completes. -/
def endHead (s : State) (m q e status : Nat) : State :=
  let n := (s.queue m q).head.toNat
  passHead (complRecord s m q n (entryCookie e) status) m q

/-- One step of the queue engine for the entry at the head of a queue: a body for an entry that is well formed. (DEDUCED, log 57) -/
def runEntry (o : QueueRef) (ev : Event) (s : State) (body : Nat → State) : State :=
  let k := s.queue o.module o.queue
  let e := entryAt s o.module o.queue k.head.toNat
  if ¬ k.v ∨ k.head = k.tail then s
  else if entryEvent s o.module o.queue ≠ ev then nextEntry s o.module o.queue
  else if entryBad k e then endHead s o.module o.queue e 2
  else body e

/-! ## Completion counters (R175) -/

/-- The key of a whole job. -/
def jobKey (job : Nat) : CancelKey := ⟨3, ⟨0, job, 0, 0, 0⟩⟩

/-- The modules that a job spans, as one of them sees it (R170, R409). -/
def jobModules (s : State) (m job : Nat) : List Nat := dieList (jobMask s m job) 64

/-- Whether a job runs: a queue is open for it on one of its modules, or some of its work is left. (DEDUCED, log 97) -/
def jobOpen (s : State) (m job : Nat) : Bool :=
  ((jobModules s m job).any fun k => (s.modu k).queues.any fun q => q.2.v && q.2.job.toNat == job) || levelLive s (jobKey job)

/-- A job starts on a module: all its completion counters are zero (R175). (DEDUCED, log 97) -/
def startJob (s : State) (m job : Nat) : State :=
  s.modModu m fun x => { x with
    comp := x.comp.filter fun e => e.1 / 4096 != job
    levels := x.levels.filter fun e => e.1 / 512 != job }

/-! ## Completion of phases and jobs (R169) -/

/-- The keys of a phase and of a whole job in Module.levels. -/
def phaseAt (job phase : Nat) : Nat := job * 512 + phase
def jobAt (job : Nat) : Nat := job * 512 + 256

/-- What a level's counter becomes: some part of it ended CANCELLED, or the level completed, DONE or CANCELLED by its CANC. (DEDUCED, log 104) -/
def noteLevel (s : State) (m key : Nat) (canc done : Bool) : State :=
  s.modModu m fun x =>
    let k := tget CompCtr.zero x.levels key
    { x with levels := tput x.levels key ⟨min 0xFFFFFFFF (k.value + bitNat done), k.canc || canc⟩ }

/-- A job ends on a module, completed or cancelled: what its cores have buffered is merged (R111), its subscription records end (R57), and its
tile-queue descriptors are free (R326). What stalled for want of a record goes on. (DEDUCED, log 97) -/
def endJob (s : State) (m job : Nat) : State :=
  let s := flushCores (fun _ e => e.key.job == job) ((s.cores.map (·.1)).filter fun c => moduleOf c == m) s
  let mine := (s.slices.filter fun e => sliceModule e.1 == m && e.2.subs.any fun u => u.job == job).map (·.1)
  let s := { s with
    slices := tmap (fun g x => if sliceModule g = m then { x with subs := x.subs.filter fun u => u.job != job } else x) s.slices
    clusters := tmap (fun c x => if c / 768 = m then { x with tq := x.tq.filter fun d => d.2.job != job } else x) s.clusters }
  mine.foldl (fun s g => s.post ⟨s.now, fromSlice g, atSlice g, .stallResume ⟨g⟩⟩) s

def endJobOn (job : Nat) : List Nat → State → State
  | [], s => s
  | m :: t, s => endJobOn job t (endJob s m job)

/-- A job ends, on every module that it spans, once nothing of it is left and no queue is open for it. -/
def tidyJob (s : State) (m job : Nat) : State :=
  if jobOpen s m job then s else noteLevel (endJobOn job (jobModules s m job) s) m (jobAt job) false true

/-- A launch of a phase has completed (R169): the phase completes with the last work of it, DONE or CANCELLED. -/
def endPhase (s : State) (m : Nat) (ids : Ids) (status : Nat) : State :=
  let s := noteLevel s m (jobAt ids.job) (status != 0) false
  noteLevel s m (phaseAt ids.job ids.phase) (status != 0) (!levelLive s ⟨2, ids⟩)

/-- A launch or graph increments its counter as it completes. -/
def bumpComp (s : State) (m job c : Nat) (canc : Bool) : State :=
  s.modModu m fun x =>
    let k := tget CompCtr.zero x.comp (job * 4096 + c)
    { x with comp := tput x.comp (job * 4096 + c) ⟨min 0xFFFFFFFF (k.value + 1), k.canc || canc⟩ }

/-- The queue engine of a module looks for a head to admit. -/
def askAdmission (s : State) (m : Nat) : State :=
  if s.agenda.any fun f => f.ev == .entryAdmission ⟨m⟩ then s
  else s.post ⟨s.now, fromModule m, atModule m, .entryAdmission ⟨m⟩⟩

/-- The status of a graph whose nodes have all completed (R177). -/
def Graph.status (g : Graph) : Nat := if g.bad then 2 else if g.cancelled then 1 else 0

/-- A graph completes when no node is left. -/
def endGraph (s : State) (m : Nat) (g : Graph) : State :=
  if g.todo.isEmpty ∧ g.running = 0 then
    let s := s.modModu m fun x => { x with graphs := x.graphs.filter fun h => !(h.queue == g.queue && h.entry == g.entry) }
    complRecord (bumpComp s m g.ids.job g.gcc (g.status != 0)) m g.queue g.entry g.cookie g.status
  else
    s.modModu m fun x => { x with graphs := x.graphs.map fun h => if h.queue = g.queue ∧ h.entry = g.entry then g else h }

def findGraph (s : State) (m q entry : Nat) : Option Graph :=
  (s.modu m).graphs.find? fun g => g.queue == q && g.entry == entry

/-- The completion of a launch (R169, R175, R177), wherever it stood: its counter, then its entry's record or its graph. -/
def endLaunch (s : State) (m : Nat) (ids : Ids) (cc q entry : Nat) (cookie : Word) (inGraph : Bool) (ran : Nat) (status : Nat) : State :=
  let s := bumpComp s m ids.job cc (status != 0)
  let s :=
    if inGraph then
      match findGraph s m q entry with
      | some g => endGraph s m { g with
          running := g.running - ran
          bad := g.bad || status == 2
          cancelled := g.cancelled || status == 1 }
      | none => s
    else complRecord s m q entry cookie status
  nextEntry (askAdmission (tidyJob (endPhase (tidyCancels s) m ids status) m ids.job) m) m q

/-- A launch of the table completes: its row is free. -/
def endRow (s : State) (m : Nat) (r : Launch) (status : Nat) : State :=
  let s := s.modModu m fun x => { x with launches := x.launches.erase r }
  endLaunch s m r.ids r.recd.cc r.queue r.entry r.cookie r.inGraph 1 status

/-! ## Launch records (R176) -/

/-- The modules that a range of cores touches. -/
def rangeModules (first count : Nat) : List Nat :=
  (List.range ((first + count - 1) / 6144 - first / 6144 + 1)).map fun k => first / 6144 + k

/-- Whether a module lies outside the domain or the job's partition (R176, R409). -/
def outsideJob (s : State) (m job k : Nat) : Bool :=
  decide (64 ≤ k) || !(s.partition m job).getLsbD k || ((s.modu m).domV && decide ((s.modu m).domSize.toNat ≤ k))

/-- A launch record, or none where R176 rejects it. (DEDUCED, log 52) -/
def launchRecord (s : State) (m : Nat) (k : Queue) (fmt d : Nat) : Option LaunchRec :=
  let first := recField d 326 308
  let count := recField d 307 288
  let mode := recField d 287 286
  if recField d 183 0 ≠ 0 ∨ 2 ≤ mode ∨ (mode = 1 ∧ ¬ k.sup) ∨ count = 0 ∨ 393216 < count then none
  else if (rangeModules first count).any (outsideJob s m k.job.toNat) then none
  else some
    { pc := .ofNat 64 (recField d 511 455), shape := .ofNat 64 (recField d 454 391), arg := .ofNat 64 (recField d 390 327)
      first := first, count := count, mode := Mode.of mode, cc := recField d 285 274
      depa := if recField d 273 273 = 1 then some (recField d 272 261, recField d 260 229) else none
      depb := if recField d 228 228 = 1 ∧ fmt = 2 then some (recField d 227 216, recField d 215 184) else none }

/-- The home that the queue engine reads at: LOCAL addresses on die 0 of its module (R176). (DEDUCED, log 53) -/
def engineHome (s : State) (m job addr : Nat) : Except Nat Nat :=
  let e := s.jobEntryAt m job
  match s.homeDie m (m * 64) e (s.regionAt e) addr with
  | .error k => .error k
  | .ok (d, _) => if s.reachable m job (dieModule d) then .ok (d * 16 + sliceOf addr) else .error kRegionInvalid

/-- A 64 B record of the queue's job. (DEDUCED, log 53) -/
def engineRecord (s : State) (m job : Nat) (ptr : Word) : State × Except FaultRec Nat :=
  readRecord (engineHome s m job) m job false ptr s

/-- Whether threads of a job may not be started (R157). (DEDUCED, log 34) -/
def jobStopped (s : State) (m job : Nat) : Bool :=
  let e := s.peekNat ((s.modu m).xvtbase.toNat / 4096 * 4096 + 8 * job) 8
  e % 2 == 0 || e / 2 % 2 == 1 || e / 2 ^ 57 != 0

/-! ## The entries (R176, R177, R186, R402) -/

/-- NOP_ENTRY (R402), and an entry that is refused for what it holds. -/
def execNopEntry (o : QueueRef) (s : State) : Host.Outcome State Fault Refusal :=
  finish s <| runEntry o (.nopEntry o) s fun e => endHead s o.module o.queue e 0

/-- A step of the queue engine whose record lies behind a link that takes no flit now is made later (R410). -/
def entryHeld (o : QueueRef) (ev : Event) (s t : State) : State := orHeld (s.later 64 (fromModule o.module) (atModule o.module) ev) t

/-- A LAUNCH entry waits at the head for admission. Its record is read here for the dependences that it waits for, and again as it is
admitted (R176). (DEDUCED, log 52) (DEDUCED, log 57) -/
def launchHead (s : State) (m q e : Nat) : State :=
  let k := s.queue m q
  if jobStopped s m k.job.toNat then endHead s m q e 2
  else
    let r := engineRecord s m k.job.toNat (.ofNat 64 (recField e 127 64))
    match r.2.toOption.bind (launchRecord r.1 m k (recField e 7 0)) with
    | none => endHead r.1 m q e 2
    | some d =>
      let h : Head := ⟨entryIds m k e, k.head.toNat, entryCookie e, d, false, .ofNat 64 (recField e 127 64), recField e 7 0⟩
      askAdmission (passHead (r.1.modModu m fun x => { x with heads := tput x.heads q h }) m q) m

/-- LAUNCH_ENTRY (R176). -/
def execLaunchEntry (o : QueueRef) (s : State) : Host.Outcome State Fault Refusal :=
  finish s <| entryHeld o (.launchEntry o) s (runEntry o (.launchEntry o) s (launchHead s o.module o.queue))

/-- The records of a graph's nodes (R177), n of them from number i up; none where one is rejected. -/
def readNodes (m : Nat) (k : Queue) (fmt : Nat) (ref : Word) : Nat → Nat → State → State × Option (List (Nat × LaunchRec))
  | _, 0, s => (s, some [])
  | i, n + 1, s =>
    let r := engineRecord s m k.job.toNat (ref + 64 + 64 * .ofNat 64 i)
    match r.2.toOption.bind (launchRecord r.1 m k fmt) with
    | none => (r.1, none)
    | some d =>
      let q := readNodes m k fmt ref (i + 1) n r.1
      (q.1, q.2.map fun t => (i, d) :: t)

/-- Whether a graph header is refused (R177). -/
def headerBad (d : Nat) : Bool :=
  recField d 511 28 != 0 || recField d 15 9 != 0 || recField d 8 0 == 0 || decide (256 < recField d 8 0)

/-- A graph's header and records are read and checked; its nodes wait for admission. -/
def graphHead (s : State) (m q e : Nat) : State :=
  let k := s.queue m q
  let ref : Word := .ofNat 64 (recField e 127 64)
  if jobStopped s m k.job.toNat then endHead s m q e 2
  else
    let h := engineRecord s m k.job.toNat ref
    match h.2.toOption.filter fun d => !headerBad d with
    | none => endHead h.1 m q e 2
    | some d =>
      let r := readNodes m k (recField e 7 0) ref 0 (recField d 8 0) h.1
      match r.2 with
      | none => endHead r.1 m q e 2
      | some ns =>
        let g : Graph := ⟨entryIds m k e, q, k.head.toNat, entryCookie e, recField d 27 16, ns, 0, false, false, false⟩
        askAdmission (passHead (r.1.modModu m fun x => { x with graphs := x.graphs ++ [g] }) m q) m

/-- GRAPH_ENTRY (R177). -/
def execGraphEntry (o : QueueRef) (s : State) : Host.Outcome State Fault Refusal :=
  finish s <| entryHeld o (.graphEntry o) s (runEntry o (.graphEntry o) s (graphHead s o.module o.queue))

/-- The level that a CANCEL entry names (R170, R402). (DEDUCED, log 54) -/
def entryKey (m : Nat) (k : Queue) (e : Nat) : CancelKey :=
  let i := entryIds m k e
  match recField e 23 20 with
  | 0 => ⟨0, { i with launch := recField e 79 64 }⟩
  | 1 => ⟨1, { i with graph := recField e 79 64 }⟩
  | 2 => ⟨2, { i with phase := recField e 71 64 }⟩
  | _ => ⟨3, { i with job := recField e 71 64 }⟩

/-- CANCEL_ENTRY (R170, R402, R403): the cancel floods the job's modules; the entry completes once it has been applied everywhere. (DEDUCED, log 58) -/
def execCancelEntry (o : QueueRef) (s : State) : Host.Outcome State Fault Refusal :=
  finish s <| runEntry o (.cancelEntry o) s fun e =>
    let k := s.queue o.module o.queue
    if k.busy then endHead s o.module o.queue e 0
    else
      let s := floodCancel s o.module (entryKey o.module k e)
      (s.modQueue o.module o.queue fun k => { k with busy := true }).post
        ⟨s.now, fromModule o.module, atModule o.module, .cancelEntry o⟩

/-- Re-rank notices of a launch to the modules of its range (R186). -/
def sendRerank (m rank : Nat) (r : Launch) : List Nat → State → State
  | [], s => s
  | k :: t, s => sendRerank m rank r t (s.send (fromModule m) (atModule k) (.rerankNotice ⟨k, r.ids, rank⟩))

def rerankAll (m rank : Nat) : List Launch → State → State
  | [], s => s
  | r :: t, s => rerankAll m rank t (sendRerank m rank r (rangeModules r.recd.first r.recd.count) s)

/-- PRIORITY_ENTRY (R186, R402, R403): the queue's priority changes, its launches are re-ranked, and the entry completes once the
notices have been applied. (DEDUCED, log 58) -/
def execPriorityEntry (o : QueueRef) (s : State) : Host.Outcome State Fault Refusal :=
  finish s <| runEntry o (.priorityEntry o) s fun e =>
    let k := s.queue o.module o.queue
    if k.busy then endHead s o.module o.queue e 0
    else
      let rank := recField e 194 192
      let s := rerankAll o.module rank ((s.modu o.module).launches.filter fun r => r.queue == o.queue) s
      (s.modQueue o.module o.queue fun k => { k with busy := true, prio := .ofNat 3 rank }).post
        ⟨s.now, fromModule o.module, atModule o.module, .priorityEntry o⟩

/-- Whether an interrupt can be raised for an entry of the table of threads: an occupant of a slot, or a saved context (R160, R209). -/
def reachesIrq (g : Nat) (t : Thread) : Bool := decide (g < 2 ^ 34) && t.status != .absent

/-- A bit of IPEND is set in every context that a predicate selects. -/
def raise (s : State) (b : BitVec 4) (p : Nat → Ctx → Bool) : State :=
  { s with threads := tmap (fun g t =>
      if reachesIrq g t && p g t.ctx then { t with ctx := { t.ctx with ipend := t.ctx.ipend ||| b } } else t) s.threads }

/-- SIGNAL_ENTRY (R160, R402): HOST is set in the threads of the named launch. (DEDUCED, log 54) -/
def execSignalEntry (o : QueueRef) (s : State) : Host.Outcome State Fault Refusal :=
  finish s <| runEntry o (.signalEntry o) s fun e =>
    let ids := { entryIds o.module (s.queue o.module o.queue) e with launch := recField e 207 192 }
    endHead (raise s 4 fun _ c => keyCovers ⟨0, ids⟩ c.ids) o.module o.queue e 0

/-! ## Admission (R178, R179) -/

/-- Whether a cancel that has reached a module covers a launch that it has not admitted (R170): such a one is never distributed. -/
def coveredAt (s : State) (m : Nat) (ids : Ids) : Bool :=
  cancelledAt s m ids || s.onWay fun e =>
    match e with
    | .cancelFlood c => moduleOf c.core == m && keyCovers c.key ids
    | _ => false

/-- How a launch's dependences stand (R175): none while one is unmet; else whether one is CANC. -/
def dependence (s : State) (m job : Nat) (r : LaunchRec) : Option Bool :=
  let ds := r.depa.toList ++ r.depb.toList
  if ds.any fun d => (s.compCtr m job d.1).canc then some true
  else if ds.all fun d => decide (d.2 ≤ (s.compCtr m job d.1).value) then some false
  else none

/-- A launch that may be admitted: its queue, its record, the node of a graph that it is, whether it completes CANCELLED at once, whether
its stall has been counted. -/
structure Admit where
  queue : Nat
  ids : Ids
  entry : Nat
  cookie : Word
  recd : LaunchRec
  node : Option Nat
  canc : Bool
  counted : Bool
  deriving DecidableEq, Repr

/-- Whether a head is to be dealt with, and whether as a cancelled one (R170, R175). -/
def headDue (s : State) (m : Nat) (ids : Ids) (r : LaunchRec) : Option Bool :=
  if coveredAt s m ids then some true else dependence s m ids.job r

/-- Whether the engine admits of a queue: its job is not suspended (R211), and it holds fewer than 64 records (R403). -/
def admits (s : State) (m q : Nat) : Bool :=
  !(s.modu m).suspended.contains (s.queue m q).job.toNat && decide ((s.queue m q).held.length < 64)

/-- The eligible heads of a module, in queue order. -/
def eligibleHeads (s : State) (m : Nat) : List Admit :=
  ((s.modu m).heads.filterMap fun e =>
    (headDue s m e.2.ids e.2.recd).map fun c => ⟨e.1, e.2.ids, e.2.entry, e.2.cookie, e.2.recd, none, c, e.2.counted⟩) ++
  ((s.modu m).graphs.flatMap fun g => g.todo.filterMap fun n =>
    let ids := { g.ids with launch := (g.ids.launch + n.1) % 2 ^ 16 }
    (headDue s m ids n.2).map fun c => ⟨g.queue, ids, g.entry, g.cookie, n.2, some n.1, c, g.counted⟩)

/-- The place of a queue in the round-robin order after the one served last. -/
def turnOf (last q : Nat) : Nat := if last < q then q - last else q + 16384 - last

/-- The head that is served first: the highest priority, then the round-robin order, which each priority has for itself. -/
def bestHead (s : State) (m : Nat) : List Admit → Option Admit
  | [] => none
  | a :: t =>
    match bestHead s m t with
    | none => some a
    | some b =>
      let pa := (s.queue m a.queue).prio.toNat
      let pb := (s.queue m b.queue).prio.toNat
      let last := tget 0 (s.modu m).rr pa
      if pa < pb ∨ (pa = pb ∧ turnOf last b.queue < turnOf last a.queue) then some b else some a

/-- A head leaves its place: a LAUNCH entry's, or a node's of its graph. -/
def leaveHead (s : State) (m : Nat) (a : Admit) (running : Nat) : State :=
  match a.node with
  | none => s.modModu m fun x => { x with heads := tdel x.heads a.queue }
  | some n => s.modModu m fun x => { x with graphs := x.graphs.map fun g =>
      if g.queue = a.queue ∧ g.entry = a.entry then
        { g with todo := g.todo.filter (fun e => e.1 != n), running := g.running + running, counted := false }
      else g }

/-- A head that is never distributed completes CANCELLED (R170, R175). -/
def cancelHead (s : State) (m : Nat) (a : Admit) : State :=
  endLaunch (leaveHead s m a 0) m a.ids a.recd.cc a.queue a.entry a.cookie a.node.isSome 0 1

/-- The wake of an admitted launch (R180), or BAD_ENTRY where a module of its range has no route (R411). -/
def distribute (s : State) (m : Nat) (r : Launch) : State :=
  let ms := rangeModules r.recd.first r.recd.count
  if ms.any fun k => k != m && (s.route m k).isNone then endRow s m r 2
  else
    let w : Dandelion :=
      { ids := r.ids, pc := r.recd.pc, shape := r.recd.shape, arg := r.recd.arg, first := r.recd.first, count := r.recd.count
        mode := r.recd.mode, prio := r.prio }
    let mask : BitVec 64 := .ofNat 64 (ms.foldl (fun n k => n + 2 ^ k) 0)
    let s := s.modModu m fun x => { x with launches := x.launches.map fun l => if l = r then { l with waked := true } else l }
    s.post ⟨s.now, fromModule m, atModule m, .nolkaiMulticast ⟨m, mask, .wake w⟩⟩

/-- A head enters the launch table. -/
def admitHead (s : State) (m : Nat) (a : Admit) : State :=
  let r : Launch :=
    { ids := a.ids, recd := a.recd, prio := (s.queue m a.queue).prio.toNat, queue := a.queue, entry := a.entry, cookie := a.cookie
      inGraph := a.node.isSome, waked := false, reports := 0, rejected := false, cancelled := false }
  let s := (leaveHead s m a 1).modModu m fun x => { x with launches := x.launches ++ [r], rr := tput x.rr r.prio a.queue }
  nextEntry (askAdmission (distribute s m r) m) m a.queue

/-- The launch record of a LAUNCH entry as it is read at its admission (R176): none where it is now rejected. A graph's records were read at
the head (R177). -/
def admitRecord (s : State) (m : Nat) (a : Admit) : State × Option LaunchRec :=
  match a.node, tfind (s.modu m).heads a.queue with
  | none, some h =>
    let r := engineRecord s m a.ids.job h.ref
    (r.1, r.2.toOption.bind (launchRecord r.1 m (s.queue m a.queue) h.fmt))
  | _, _ => (s, some a.recd)

/-- A LAUNCH entry whose record is rejected at its admission completes BAD_ENTRY and increments no counter (R175, R176). -/
def rejectHead (s : State) (m : Nat) (a : Admit) : State :=
  nextEntry (askAdmission (complRecord (leaveHead s m a 0) m a.queue a.entry a.cookie 2) m) m a.queue

/-- A head whose turn has come: its record is read, and it is admitted if its dependences are met as that has them; else it waits with them, and
the engine looks for another head. -/
def admitRead (s : State) (m : Nat) (a : Admit) : State :=
  let r := admitRecord s m a
  match r.2 with
  | none => rejectHead r.1 m a
  | some d =>
    let a := { a with recd := d }
    match dependence r.1 m a.ids.job d with
    | some false => admitHead r.1 m a
    | some true => cancelHead r.1 m a
    | none =>
      askAdmission (r.1.modModu m fun x => { x with heads := tmap (fun q h => if q = a.queue then { h with recd := d } else h) x.heads }) m

/-- A stalled admission is counted once (R179). -/
def countStall (s : State) (m : Nat) (a : Admit) : State :=
  if a.counted then s
  else
    s.modModu m fun x =>
      { x with
        schstall := x.schstall + 1
        heads := if a.node.isNone then tmap (fun q h => if q = a.queue then { h with counted := true } else h) x.heads else x.heads
        graphs := x.graphs.map fun g => if a.node.isSome ∧ g.queue = a.queue ∧ g.entry = a.entry then { g with counted := true } else g }

/-- ENTRY_ADMISSION (R178, R179). -/
def execEntryAdmission (o : ModRef) (s : State) : Host.Outcome State Fault Refusal :=
  finish s <|
    let l := (eligibleHeads s o.module).filter fun a => admits s o.module a.queue
    match l.find? fun a => a.canc, bestHead s o.module l with
    | some a, _ => cancelHead s o.module a
    | none, none => s
    | none, some a =>
      if Config.launchTable ≤ (s.modu o.module).launches.length then countStall s o.module a
      else orHeld (s.later 64 (fromModule o.module) (atModule o.module) (.entryAdmission o)) (admitRead s o.module a)

/-! ## Wakes and cancels over the modules (R170, R180, R411) -/

/-- A wake floods a module: every core of its range there receives it (R180). -/
def wakeCores (s : State) (m : Nat) (w : Dandelion) : Nat → State
  | 0 => s
  | n + 1 =>
    let c := max w.first (m * 6144) + n
    (wakeCores s m w n).post ⟨s.now, fromModule m, atCore c, .dandelionWake ⟨c, w⟩⟩

/-- The cores of a range that lie on a module. -/
def coresHere (m : Nat) (w : Dandelion) : Nat := min (w.first + w.count) ((m + 1) * 6144) - max w.first (m * 6144)

/-- The heads and graph nodes of a module that a cancel covers: they are never distributed. -/
def cancelHeads (m : Nat) : List Admit → State → State
  | [], s => s
  | a :: t, s => cancelHeads m t (cancelHead s m a)

def coveredHeads (s : State) (m : Nat) (k : CancelKey) : List Admit :=
  ((s.modu m).heads.filterMap fun e =>
    if keyCovers k e.2.ids then some ⟨e.1, e.2.ids, e.2.entry, e.2.cookie, e.2.recd, none, true, e.2.counted⟩ else none) ++
  ((s.modu m).graphs.flatMap fun g => g.todo.filterMap fun n =>
    let i := { g.ids with launch := (g.ids.launch + n.1) % 2 ^ 16 }
    if keyCovers k i then some ⟨g.queue, i, g.entry, g.cookie, n.2, some n.1, true, g.counted⟩ else none)

/-- A cancel to each core of a module that the state lists, and to its first core, which keeps the record for the others. -/
def floodCores (m : Nat) (k : CancelKey) : List Nat → State → State
  | [], s => s
  | c :: t, s => floodCores m k t (s.post ⟨s.now, fromModule m, atCore c, .cancelFlood ⟨c, k⟩⟩)

/-- A cancel reaches a module: its launches of the level are cancelled, and every core is told. -/
def cancelModule (s : State) (m : Nat) (k : CancelKey) : State :=
  if levelLive s k then
    let s := s.modModu m fun x =>
      { x with launches := x.launches.map fun l => if keyCovers k l.ids then { l with cancelled := true } else l }
    let s := floodCores m k (m * 6144 :: ((s.cores.map (·.1)).filter fun c => moduleOf c == m && c != m * 6144)) s
    let s := cancelHeads m (coveredHeads s m k) s
    if k.level = 3 then endJob s m k.ids.job else s
  else s

def deliverCast (s : State) (m : Nat) : CastBody → State
  | .wake w => wakeCores s m w (coresHere m w)
  | .cancel k => cancelModule s m k

/-- The modules of a mask whose route's first link is l. -/
def castBits (s : State) (m l : Nat) (mask : BitVec 64) : List Nat :=
  (dieList mask 64).filter fun k => s.route m k == some l

/-- Unicast copies over a link of version 1. -/
def castUnicast (m l : Nat) (b : CastBody) : List Nat → State → State
  | [], s => s
  | k :: t, s => castUnicast m l b t (s.transmit m l ⟨s.now, fromModule m, atModule k, .nolkaiMulticast ⟨k, .ofNat 64 (2 ^ k), b⟩⟩)

/-- The copies of a multicast that go over link l. -/
def castLink (s : State) (m l : Nat) (mask : BitVec 64) (b : CastBody) : State :=
  let ks := castBits s m l mask
  let sub : BitVec 64 := .ofNat 64 (ks.foldl (fun n k => n + 2 ^ k) 0)
  let k := s.link m l
  if ks.isEmpty then s
  else if k.state = .failed then s.undelivered m l k.partner k.ver (.nolkaiMulticast ⟨k.partner, sub, b⟩)
  else if k.ver = 1 then castUnicast m l b ks s
  else s.transmit m l ⟨s.now, fromModule m, atModule k.partner, .nolkaiMulticast ⟨k.partner, sub, b⟩⟩

def castLinks (m : Nat) (mask : BitVec 64) (b : CastBody) : Nat → State → State
  | 0, s => s
  | n + 1, s => castLink (castLinks m mask b n s) m n mask b

/-- Bits that no route serves are reported (R411). -/
def castUnrouted (s : State) (m : Nat) (mask : BitVec 64) : State :=
  let ks := (dieList mask 64).filter fun k => (s.route m k).isNone
  if ks.isEmpty then s else s.report (linkReport m 0 6 0 0 (.ofNat 64 (ks.foldl (fun n k => n + 2 ^ k) 0)))

/-- NOLKAI_MULTICAST (R411). -/
def execNolkaiMulticast (o : Multicast) (s : State) : Host.Outcome State Fault Refusal :=
  finish s <|
    let s := if o.mask.getLsbD o.module then deliverCast s o.module o.body else s
    let rest := o.mask &&& ~~~(.ofNat 64 (2 ^ o.module))
    castUnrouted (castLinks o.module rest o.body 32 s) o.module rest

/-! ## Completion of a launch (R169, R175, R181) -/

/-- LAUNCH_COMPLETION (R169, R181): a core's report; the last of COUNT completes the launch. -/
def execLaunchCompletion (o : ShareReport) (s : State) : Host.Outcome State Fault Refusal :=
  finish s <|
    let m := o.ids.home
    match (s.modu m).launches.find? fun l => l.waked && l.ids == o.ids with
    | none => s
    | some l =>
      let r : Launch := { l with reports := l.reports + 1, rejected := l.rejected || o.status == 2, cancelled := l.cancelled || o.status == 1 }
      let s := s.modModu m fun x => { x with launches := x.launches.map fun y => if y = l then r else y }
      if r.reports < r.recd.count then s
      else endRow s m r (if r.rejected then 2 else if r.cancelled then 1 else 0)

/-! ## Doorbells (R401, R404) -/

/-- The report of a bad doorbell (R404, R431). (DEDUCED, log 56) -/
def doorbellReport (s : State) (m q : Nat) (v : Word) : Report :=
  let k := s.queue m q
  let p := queuePort (s.modu m) q
  ⟨m, 6, if k.v then some k.job.toNat else none, 0, 9, p.1, v, .ofNat 79 (2 + k.func.toNat * 4 + p.1 * 2 ^ 9 + p.2 * 2 ^ 10)⟩

/-- QDB_DOORBELL (R401, R403, R404): CHEAD moves, held records are written, and entries become ready. (DEDUCED, log 56) -/
def execQdbDoorbell (o : Doorbell) (s : State) : Host.Outcome State Fault Refusal :=
  finish s <|
    let k := s.queue o.module o.queue
    let tail : BitVec 16 := .ofNat 16 (bits o.value 15 0)
    let chead : BitVec 16 := .ofNat 16 (bits o.value 47 32)
    let ahead := (tail - k.head).toNat
    let bad := decide (tail ≠ k.tail ∧ (ahead < (k.tail - k.head).toNat ∨ 2 ^ k.log.toNat < ahead))
    let s := s.modQueue o.module o.queue fun k => { k with chead := chead, tail := if bad then k.tail else tail }
    let s := if bad then s.report (doorbellReport s o.module o.queue o.value) else s
    let s := writeRecords o.module o.queue (s.queue o.module o.queue).held s
    askAdmission (nextEntry s o.module o.queue) o.module

end Sys2Proof.Machine
end

