-- ==== Sys2Proof/Machine/Links.lean ====
section
/-! DEFINITION. The Nolkai links and the die edges (R406 to R412): training, flits and their acknowledgement, replays, the failure of
a link, and a die-link flit's check. -/

namespace Sys2Proof.Machine

/-! ## Sending (R408) -/

/-- Whether a step is the receipt of a flit of a link. -/
def receiptOf (m l : Nat) : Event → Bool
  | .nolkaiFlitReceipt o => o.module == m && o.link == l && !o.xon
  | _ => false

/-- The 16 bytes of a flit's header (R408), for the message that it is of: its number, its virtual channel, its kind, the module it comes from
and the one it goes to, which is zero in a multicast flit (R411), and the job. The spec gives the kinds no codes. (DESIGN CHOICE, log 98) -/
def flitHeader (ver : BitVec 4) (seq kind job : Nat) (f : Flight) : Nat :=
  let dest := match f.ev with
    | .nolkaiMulticast _ => if ver = 2 then 0 else placeModule f.dst
    | _ => placeModule f.dst
  fieldBits [(11, 0, seq), (13, 12, chan f.ev), (19, 14, kind), (25, 20, srcModule f.src), (31, 26, dest), (39, 32, job)]

/-- Flits of a link that are on the wire are on it no more. -/
def dropReceipts (s : State) (m l : Nat) : State := { s with agenda := s.agenda.filter fun f => !receiptOf m l f.ev }

/-- Flits are on the wire again, in the order of their numbers. -/
def resend (m l : Nat) (fs : List (Nat × Option Flight)) (s : State) : State := s.putFlits m l (s.link m l).partner fs

def transmitAll (m l : Nat) : List Flight → State → State
  | [], s => s
  | f :: t, s => transmitAll m l t (s.transmit m l f)

/-- A message as a link of a version carries it: over version 1 a multicast goes as one unicast for each module (R411). -/
def carried (ver : BitVec 4) (f : Flight) : List Flight :=
  match f.ev with
  | .nolkaiMulticast c =>
    if ver = 1 then (dieList c.mask 64).map fun k => { f with dst := atModule k, ev := .nolkaiMulticast ⟨k, .ofNat 64 (2 ^ k), c.body⟩ }
    else [f]
  | _ => [f]

/-- Messages that wait for a link are sent as far as it takes them. -/
def pump (s : State) (m l : Nat) : State :=
  let k := s.link m l
  transmitAll m l (k.wait.flatMap (carried k.ver)) (s.modLink m l fun k => { k with wait := [] })

/-! ## Failure (R412) -/

/-- A message that was on a link as it failed: a request is answered, a response becomes that fault, a notice is lost and counted. -/
def lostFlight (s : State) (m l : Nat) (f : Flight) : State :=
  let t := s.undelivered m l (placeModule f.dst) (s.link m l).ver f.ev
  if (s.lost f.ev).isSome then t else t.modLink m l fun k => { k with lost := k.lost + 1 }

def lostFlights (m l : Nat) : List Flight → State → State
  | [], s => s
  | f :: t, s => lostFlights m l t (lostFlight s m l f)

/-- One end of a link enters FAILED; its numbers begin anew. (DEDUCED, log 64) -/
def failEnd (s : State) (m l event : Nat) : State :=
  let k := s.link m l
  if k.state = .failed then s
  else
    let s := dropReceipts s m l
    let s := s.modLink m l fun k => { k with state := .failed, buf := [], wait := [], tries := 0, xoff := [], sendSeq := 0, recvSeq := 0 }
    lostFlights m l k.flights (s.report (linkReport m l event k.partner k.ver 0))

/-- A link enters FAILED at both its ends. -/
def failLink (s : State) (m l event : Nat) : State :=
  let k := s.link m l
  let s := failEnd s m l event
  let p := s.link k.partner k.peer
  if p.partner = m ∧ p.peer = l ∧ p.state = .up then failEnd s k.partner k.peer event else s

/-! ## Training (R407) -/

/-- NLKST_START (R407): the link leaves what it was for TRAINING. -/
def execNlkstStart (o : LinkRef) (s : State) : Host.Outcome State Fault Refusal :=
  finish s <| (dropReceipts s o.module o.link).modLink o.module o.link fun k => { k with state := .training }

/-- The timers of collectives that wait look again (R417), a link having come up. -/
def retryColls (ms : List (Nat × Module)) (s : State) : State :=
  (ms.flatMap fun m => m.2.colls.map fun w => (m.1, w.c)).foldl (fun s e =>
    s.post ⟨s.now, fromModule e.1, atModule e.1, .collectiveTimeout ⟨e.1, e.2.job, e.2.tag⟩⟩) s

/-- Unacknowledged messages sent anew from the first number that is not acknowledged (R411): a multicast that a version-1 link does not carry goes as
unicasts now. -/
def sendAnew (m l : Nat) (buf : List (Nat × Option Flight)) (s : State) : State :=
  s.modLink m l fun k => { k with buf := [], sendSeq := (buf.head?.map (·.1)).getD k.sendSeq, wait := buf.filterMap (·.2) ++ k.wait }

/-- Whether a link of version 1 has multicast flits to send again. -/
def castsLeft (k : Link) : Bool := k.ver == 1 && k.buf.any fun e =>
  match e.2 with
  | some f => (carried 1 f) != [f]
  | none => false

/-- LINK_TRAINING (R407): the highest protocol version that both ends support, and notice format 1, or FAILED. -/
def execLinkTraining (o : Training) (s : State) : Host.Outcome State Fault Refusal :=
  finish s <|
    let k := s.link o.module o.link
    if k.state = .up ∨ k.state = .failed then s
    else
      let s := s.modLink o.module o.link fun k => { k with partner := o.partner, peer := o.peer, ver := if o.v2 then 2 else if o.v1 then 1 else 0 }
      if (¬ o.v1 ∧ ¬ o.v2) ∨ ¬ o.notice1 then failEnd s o.module o.link 1
      else
        let s := s.modLink o.module o.link fun k => { k with state := .up, tries := 0, xoff := [] }
        let s := if castsLeft (s.link o.module o.link) then sendAnew o.module o.link k.buf s else resend o.module o.link k.buf s
        retryColls s.modules (pump s o.module o.link)

/-! ## Flits (R408, R410) -/

/-- A message that has crossed a link: it acts on this module, or goes on over the next link of its route. -/
def deliverFlight (s : State) (m : Nat) (f : Flight) : State :=
  let f : Flight := { f with due := s.now }
  if placeModule f.dst = m then s.post f else s.cross m (placeModule f.dst) f

/-- A flit that is not accepted is answered with a NAK. (DEDUCED, log 64) -/
def nak (s : State) (o : FlitIn) : State :=
  let k := s.link o.module o.link
  s.post ⟨s.now, fromModule k.partner, atModule o.module, .nolkaiNak ⟨o.module, o.link, k.recvSeq⟩⟩

/-- A flit that holds its number and its CRC: it is acknowledged, and the last of a message delivers it; a receiver without room sends XOFF
for its channel. (DESIGN CHOICE, log 63) -/
def acceptFlit (s : State) (o : FlitIn) (f : Option Flight) : State :=
  let k := s.link o.module o.link
  let s := s.modLink o.module o.link fun k =>
    { k with
      recvSeq := (o.seq + 1) % 4096
      buf := k.buf.filter fun e => e.1 != o.seq
      tries := 0 }
  match f with
  | none => s
  | some f =>
    let s := if o.room then s
      else
        (s.modLink o.module o.link fun k => { k with xoff := if k.xoff.contains (chan f.ev) then k.xoff else chan f.ev :: k.xoff }).later 64
          (fromModule k.partner) (atModule o.module) (.nolkaiFlitReceipt ⟨o.module, o.link, 0, true, true, true⟩)
    pump (deliverFlight s k.partner f) o.module o.link

/-- NOLKAI_FLIT_RECEIPT (R408): the check of a flit, in its order; or the end of an XOFF. (DESIGN CHOICE, log 63) -/
def execNolkaiFlitReceipt (o : FlitIn) (s : State) : Host.Outcome State Fault Refusal :=
  finish s <|
    let k := s.link o.module o.link
    if o.xon then pump (s.modLink o.module o.link fun k => { k with xoff := [] }) o.module o.link
    else if k.state ≠ .up then s
    else match k.buf.find? fun e => e.1 == o.seq with
      | none => s
      | some e =>
        if ¬ o.crc then nak (s.countCorrected (k.partner * 64) 8 k.peer 0) o
        else if o.seq ≠ k.recvSeq then nak s o
        else acceptFlit s o e.2

/-- NOLKAI_NAK (R408, R412): the sender replays from the flagged flit; after 8 replays of one flit the link fails. -/
def execNolkaiNak (o : Nak) (s : State) : Host.Outcome State Fault Refusal :=
  finish s <|
    let k := s.link o.module o.link
    let again := k.buf.dropWhile fun e => e.1 != o.seq
    if k.state ≠ .up ∨ again.isEmpty then s
    else if 8 ≤ k.tries then failLink s o.module o.link 0
    else
      let s := (dropReceipts s o.module o.link).modLink o.module o.link fun k =>
        { k with tries := k.tries + 1, replays := k.replays + .ofNat 32 again.length }
      resend o.module o.link again s

/-! ## Die edges (R406) -/

/-- The die that a message leaves, and the one where it acts. -/
def srcDie (p : Nat) : Option Nat :=
  match p % 3 with
  | 0 => some (dieOf (coreOf (p / 3)))
  | 1 => some (sliceDie (p / 3))
  | _ => none

def placeDie (p : Nat) : Option Nat :=
  match p % 4 with
  | 0 => some (sliceDie (p / 4))
  | 1 => some (dieOf (p / 4))
  | 3 => some (p / 4)
  | _ => none

/-- Whether a flit from die a to die b of one module, first in X and then in Y (R81), enters die d by its edge e. -/
def entersBy (a b d e : Nat) : Bool :=
  match e with
  | 0 => decide (a % 64 / 8 = d % 64 / 8 ∧ b % 8 ≤ d % 8 ∧ d % 8 < a % 8)
  | 1 => decide (a % 64 / 8 = d % 64 / 8 ∧ a % 8 < d % 8 ∧ d % 8 ≤ b % 8)
  | 2 => decide (d % 8 = b % 8 ∧ b % 64 / 8 ≤ d % 64 / 8 ∧ d % 64 / 8 < a % 64 / 8)
  | 3 => decide (d % 8 = b % 8 ∧ a % 64 / 8 < d % 64 / 8 ∧ d % 64 / 8 ≤ b % 64 / 8)
  | _ => false

/-- Whether a message crosses an edge of a die. One that comes from another module or goes to one may: the spec places no I/O die in the
grid. (DEDUCED, log 64) -/
def crossesEdge (f : Flight) (d e : Nat) : Bool :=
  match srcDie f.src, placeDie f.dst with
  | some a, some b =>
    if dieModule a = dieModule d ∧ dieModule b = dieModule d then entersBy a b d e
    else dieModule a == dieModule d || dieModule b == dieModule d
  | some a, none | none, some a => dieModule a == dieModule d
  | none, none => false

/-- What a message that nobody asked for is where it arrives poisoned (R406): a context packet corrupt (R212), a notice nothing, and any other as it
is. (DESIGN CHOICE, log 106) -/
def poisoned (f : Flight) : Option Flight :=
  match f.ev with
  | .migrantPacketArrival p => some { f with ev := .migrantPacketArrival { p with corrupt := true } }
  | .arrivalNotice _ | .rerankNotice _ | .launchCompletion _ => none
  | _ => some f

/-- The message of a flit that stays uncorrectable: its requester receives POISON kind 0. -/
def poisonFlit (s : State) (o : DieFlit) : State :=
  match s.agenda[o.n]? with
  | none => s
  | some f =>
    if !crossesEdge f o.gdie o.edge then s
    else match ({ s with agenda := dropAt s.agenda o.n } : State).lost f.ev with
      | some s => s
      | none => { s with agenda := s.agenda.take o.n ++ (poisoned f).toList ++ s.agenda.drop (o.n + 1) }

/-- UCIE_FLIT_RECEIPT (R2, R406, R428): a flit that fails its check is replayed within the edge, at most 8 times; no flit comes over an edge
that joins no neighbour. (DEDUCED, log 64) -/
def execUcieFlitReceipt (o : DieFlit) (s : State) : Host.Outcome State Fault Refusal :=
  finish s <|
    let n := tget 0 (s.die o.gdie).edgeTries o.edge
    if !edgeExists o.gdie o.edge then s
    else if o.good then s.modDie o.gdie fun d => { d with edgeTries := tdel d.edgeTries o.edge }
    else if 8 ≤ n then
      poisonFlit ((s.modDie o.gdie fun d => { d with edgeTries := tdel d.edgeTries o.edge }).countBad o.gdie 4 o.edge) o
    else (s.modDie o.gdie fun d => { d with edgeTries := tput d.edgeTries o.edge (n + 1) }).countCorrected o.gdie 4 o.edge 0

end Sys2Proof.Machine
end

