-- ==== Sys2Proof/Machine/Collectives.lean ====
section
/-! DEFINITION. The collective engine (R413 to R418): allreduce, broadcast, copies between device and host memory, completion, cancel
notices and timeouts. -/

namespace Sys2Proof.Machine

/-! ## Members (R415) -/

/-- The modules that take part. -/
def collMembers (c : Coll) : List Nat := dieList (if c.kind = 1 then c.mask ||| .ofNat 64 (2 ^ c.root) else c.mask) 64

/-- What waits on a module under a job and TAG. -/
def collWaitAt (s : State) (job tag m : Nat) : Option CollWait := (s.modu m).colls.find? fun w => w.c.job == job && w.c.tag == tag

/-- What waits anywhere under a job and TAG. (DEDUCED, log 67) -/
def collWaits (s : State) (job tag : Nat) : List CollWait :=
  s.modules.flatMap fun m => m.2.colls.filter fun w => w.c.job == job && w.c.tag == tag

/-- The members of a collective, if every one has joined. (DEDUCED, log 67) -/
def collJoined (s : State) (c : Coll) : Option (List CollWait) := (collMembers c).mapM (collWaitAt s c.job c.tag)

/-- Whether the headers agree (R415). -/
def sameHeader (a b : Coll) : Bool :=
  a.kind == b.kind && a.op == b.op && a.type == b.type && a.bytes == b.bytes && a.mask == b.mask && a.root == b.root

/-- Whether no transfer between members stalls on a link that is not UP, or for want of a route. -/
def collLinks (s : State) (c : Coll) : Bool :=
  (collMembers c).all fun a => (collMembers c).all fun b => s.way a b == .clear

/-- A member's operation ends: what waited is taken off, and its completion is a step of its own. -/
def endColl (s : State) (c : Coll) (code flags written : Nat) (fault : Option FaultRec) : State :=
  (s.modModu c.module fun m => { m with colls := m.colls.filter fun w => w.c != c }).post
    ⟨s.now, fromModule c.module, atModule c.module, .collectiveCompletion ⟨c, code, flags, written, fault⟩⟩

def endColls (code : Nat) : List CollWait → State → State
  | [], s => s
  | w :: t, s => endColls code t (endColl s w.c code 0 0 none)

/-! ## Data (R130, R303, R415) -/

/-- A fault of the engine as its issuer observes it. -/
def collFaultRec (c : Coll) (f : FaultRec) : FaultRec := { f with engine := 7, task := c.task, info := { f.info with opc := opcField c.pc } }

/-- A member's SRC. -/
def collRead (s : State) (c : Coll) : State × Except FaultRec (List Byte) :=
  underMode s c.gti c.user fun s => readBytes s c.gti c.src c.bytes .load true gkLoad c.pc

/-- A member's DST, piece by piece: the bytes written, and the fault that ended the writing. -/
def collPieces (c : Coll) (bs : List Byte) : List (Nat × Nat × Nat) → Nat → State → State × Nat × Option FaultRec
  | [], n, s => (s, n, none)
  | (_, off, len) :: t, n, s =>
    let r := underMode s c.gti c.user fun s => writeBytes s c.gti (c.dst + .ofNat 64 off) ((bs.drop off).take len) .store gkStore
    match r.2 with
    | .error f => (r.1, n, some (collFaultRec c f))
    | .ok _ => collPieces c bs t (n + len) r.1

def collWrite (s : State) (c : Coll) (bs : List Byte) : State × Nat × Option FaultRec :=
  collPieces c bs (splitLines (c.dst.toNat % 128) bs.length) 0 s

/-- A member receives its data and completes: DONE, or ABORTED where its own access faulted. -/
def collReceive (s : State) (c : Coll) (bs : List Byte) (flags : Nat) : State :=
  let r := collWrite s c bs
  endColl r.1 c (if r.2.2.isSome then 2 else 1) flags r.2.1 r.2.2

def collReceives (bs : List Byte) (flags : Nat) : List CollWait → State → State
  | [], s => s
  | w :: t, s => collReceives bs flags t (collReceive s w.c bs flags)

/-- A member whose SRC cannot be read ends with its fault; the others are ABORTED. -/
def collAbort (bad : Coll) (f : FaultRec) : List CollWait → State → State
  | [], s => s
  | w :: t, s => collAbort bad f t (endColl s w.c 2 0 0 (if w.c = bad then some (collFaultRec bad f) else none))

/-! ## Reduction (R259, R415) -/

/-- One node of the tree. -/
def collNode (op type : Nat) (a b : Nat) : FRes :=
  if type < 4 then (if op = 0 then fpAdd type 0 a b else fpMinMax type (op == 2) a b)
  else
    let i := intType type
    if op = 0 then (intBits i.1 (intVal i.1 i.2 a + intVal i.1 i.2 b), 0)
    else if op = 1 then (vminEl i.1 i.2 a b, 0) else (vmaxEl i.1 i.2 a b, 0)

/-- Element j of the members' sources at the 64 leaves, one for each module. -/
def collLeaves (size j : Nat) (srcs : Table (List Byte)) : List (Option Nat) :=
  (List.range 64).map fun m => (tfind srcs m).map fun bs => leNat ((bs.drop (j * size)).take size)

/-- The reduced elements, n from element j up, and the flags of every node. -/
def collReduce (c : Coll) (srcs : Table (List Byte)) (j : Nat) : Nat → List Byte × Flags
  | 0 => ([], 0)
  | n + 1 =>
    let size := collBytes c.type
    let r := treeGo (collNode c.op c.type) 6 (collLeaves size j srcs) 0
    let q := collReduce c srcs (j + 1) n
    (leBytes size (r.1.getD 0) ++ q.1, r.2 ||| q.2)

/-- NV, OF, UF and NX as STATUS holds them (R416). -/
def collFlags (f : Flags) : Nat :=
  (if f &&& fNV = 0 then 0 else 8) + (if f &&& fOF = 0 then 0 else 4) + (if f &&& fUF = 0 then 0 else 2) + (if f &&& fNX = 0 then 0 else 1)

/-- Every member's SRC, by module; or the member whose SRC faults. -/
def collSources : List CollWait → State → State × Except (Coll × FaultRec) (Table (List Byte))
  | [], s => (s, .ok [])
  | w :: t, s =>
    let r := collRead s w.c
    match r.2 with
    | .error f => (r.1, .error (w.c, f))
    | .ok bs =>
      let q := collSources t r.1
      (q.1, q.2.map fun x => tput x w.c.module bs)

/-- All members have joined, with one header: the transfer, and every member's completion. -/
def runCollective (s : State) (c : Coll) (ws : List CollWait) : State :=
  if c.kind = 0 then
    let r := collSources ws s
    match r.2 with
    | .error e => collAbort e.1 e.2 ws r.1
    | .ok srcs =>
      let q := collReduce c srcs 0 (c.bytes / collBytes c.type)
      collReceives q.1 (collFlags q.2) ws r.1
  else
    match ws.find? fun w => w.c.module == c.root with
    | none => s
    | some root =>
      let r := collRead s root.c
      match r.2 with
      | .error f => collAbort root.c f ws r.1
      | .ok bs =>
        let s := collReceives bs 0 (ws.filter fun w => c.mask.getLsbD w.c.module) r.1
        if c.mask.getLsbD c.root then s else endColl s root.c 1 0 0 none

/-- A collective goes ahead once all that it names have joined. -/
def tryCollective (s : State) : List CollWait → State
  | [] => s
  | w :: t =>
    match collJoined s w.c with
    | none => tryCollective s t
    | some ws =>
      if ws.any fun x => !sameHeader x.c w.c then endColls 4 ws s
      else if collLinks s w.c then runCollective s w.c ws
      else s

/-- The timeout of a module in cycles (R417). -/
def collTimeout (s : State) (m : Nat) : Nat := 2 ^ max 16 (s.modu m).clTmo.toNat

/-- The timer of a member that has waited since a time, at CLCFG.TMO as it is now. -/
def armCollective (s : State) (c : Coll) (since : Nat) : State :=
  s.later (since + collTimeout s c.module - s.now) (fromModule c.module) (atModule c.module) (.collectiveTimeout ⟨c.module, c.job, c.tag⟩)

/-- A member joins. -/
def joinCollective (s : State) (c : Coll) : State :=
  let s := s.modModu c.module fun m => { m with colls := m.colls ++ [⟨c, s.now⟩] }
  tryCollective (armCollective s c s.now) (collWaits s c.job c.tag)

/-- A step of the engine that meets a link that takes no flit now is made later (R410). (DEDUCED, log 107) -/
def collHeld (c : Coll) (ev : Event) (s t : State) : State := orHeld (s.later 64 (fromModule c.module) (atModule c.module) ev) t

/-- COLLECTIVE_ALLREDUCE (R415). -/
def execCollectiveAllreduce (c : Coll) (s : State) : Host.Outcome State Fault Refusal :=
  finish s (collHeld c (.collectiveAllreduce c) s (joinCollective s c))

/-- COLLECTIVE_BROADCAST (R415). -/
def execCollectiveBroadcast (c : Coll) (s : State) : Host.Outcome State Fault Refusal :=
  finish s (collHeld c (.collectiveBroadcast c) s (joinCollective s c))

/-! ## Copies between device and host memory (R414) -/

/-- FUNC of a descriptor: the port and the function (R413). -/
def collPort (c : Coll) : Nat := c.func / 128 % 2
def collFunc (c : Coll) : Nat := c.func % 128

/-- HOST_TO_DEVICE (R414). -/
def execHostToDevice (c : Coll) (s : State) : Host.Outcome State Fault Refusal :=
  finish s <| collHeld c (.hostToDevice c) s <| collReceive s c (hostBytes s c.module (collPort c) (collFunc c) c.src.toNat c.bytes) 0

/-- DEVICE_TO_HOST (R414). -/
def execDeviceToHost (c : Coll) (s : State) : Host.Outcome State Fault Refusal :=
  finish s <| collHeld c (.deviceToHost c) s <|
    let r := collRead s c
    match r.2 with
    | .error f => endColl r.1 c 2 0 0 (some (collFaultRec c f))
    | .ok bs => endColl (hostStore r.1 c.module (collPort c) (collFunc c) c.dst.toNat bs) c 1 0 c.bytes none

/-! ## Completion (R415, R416, R417) -/

/-- STATUS (R416). -/
def collStatus (o : CollDone) : Word := pack [(o.code, 60), (o.flags, 56), (o.written % 2 ^ 24, 0)]

/-- STATUS is written to the descriptor; of a discarded task, only where it lies in the own scratchpad (R13), which a discard leaves (R130). -/
def writeStatus (s : State) (o : CollDone) : State × Option FaultRec :=
  let bs := bytesOf 8 (collStatus o)
  if o.code = 6 then
    (if bits o.c.desc 63 60 = 1 ∨ (bits o.c.desc 63 60 = 2 ∧ bits o.c.desc 59 57 = o.c.core % 8) then scratchWrite s o.c.core (bits o.c.desc 18 0) bs else s, none)
  else
    let r := underMode s o.c.gti o.c.user fun s => writeBytes s o.c.gti o.c.desc bs .store gkStore
    match r.2 with
    | .ok _ => (r.1, none)
    | .error f => (r.1, some (collFaultRec o.c f))

/-- The thread has one operation less under way, and its fault to observe. -/
def endCollOp (s : State) (c : Coll) (f : Option FaultRec) : State :=
  let s := if (tfind s.threads c.gti).isNone then s else s.modThread c.gti fun t =>
    { t with
      engines := t.engines - 1
      eng := match f with
        | none => t.eng
        | some x => t.eng ++ [⟨some c.ctr, 0, x⟩] }
  if 2 ^ 34 ≤ c.gti then s.post ⟨s.now, fromThread (c.core * 16), atCore c.core, .loaderChoice ⟨c.core⟩⟩ else s

/-- A cancel notice to the other members (R417). -/
def noticeMembers (c : Coll) : List Nat → State → State
  | [], s => s
  | m :: t, s =>
    noticeMembers c t (if m = c.module then s
      else s.send (fromModule c.module) (atModule m) (.collectiveCancelNotice ⟨m, c.job, c.tag⟩))

/-- COLLECTIVE_COMPLETION (R414 to R417): STATUS, then the counter. -/
def execCollectiveCompletion (o : CollDone) (s : State) : Host.Outcome State Fault Refusal :=
  finish s <| collHeld o.c (.collectiveCompletion o) s <|
    let w := writeStatus s o
    let s := w.1
    let s := if o.code = 5 then s.modCore o.c.core fun c => { c with clEmpty := true } else s
    let s := if o.code = 6 ∧ o.c.kind ≤ 1 then noticeMembers o.c (collMembers o.c) s else s
    let s := endCollOp s o.c (if o.code = 6 then none else o.fault.or w.2)
    bump s o.c.core o.c.ctr o.c.job

/-- COLLECTIVE_CANCEL_NOTICE (R417): the local part completes ABORTED. -/
def execCollectiveCancelNotice (o : CollRef) (s : State) : Host.Outcome State Fault Refusal :=
  finish s <|
    match collWaitAt s o.job o.tag o.module with
    | some w => endColl s w.c 2 0 0 none
    | none => s

/-- The report of a timeout (R417, R431). -/
def timeoutReport (c : Coll) : Report :=
  ⟨c.module, 10, some c.job, 0, 10, 0, c.desc, .ofNat 79 (3 + c.tag * 16 + c.mask.toNat * 2 ^ 12)⟩

/-- A member that goes on waiting has its timer, which a new CLCFG.TMO or a link that comes up has run before its time. -/
def rearmCollective (s : State) (o : CollRef) : State :=
  match collWaitAt s o.job o.tag o.module with
  | some w => armCollective s w.c w.since
  | none => s

/-- COLLECTIVE_TIMEOUT (R417): every member that waits completes TIMEOUT; before its time, a collective that stalled on a link tries again. -/
def execCollectiveTimeout (o : CollRef) (s : State) : Host.Outcome State Fault Refusal :=
  finish s <|
    match collWaitAt s o.job o.tag o.module with
    | some w =>
      if w.since + collTimeout s o.module ≤ s.now then
        endColls 3 ((collMembers w.c).filterMap (collWaitAt s o.job o.tag)) (s.report (timeoutReport w.c))
      else collHeld w.c (.collectiveTimeout o) s (rearmCollective (tryCollective s (collWaits s o.job o.tag)) o)
    | none => s

end Sys2Proof.Machine
end

