-- ==== Sys2Proof/Machine/HostPort.lean ====
section
/-! DEFINITION. Host accesses through the BARs (R103, R104, R399 to R401, R405, R422): the device memory window, the queue and
aperture registers, NEGCAP and the mailbox. -/

namespace Sys2Proof.Machine

/-! ## Failures (R405) -/

/-- FAIL and the translation kind of a failed access (R431). -/
def failTranslation (k : Nat) : Nat × Nat := (0, k)
def failAperture : Nat × Nat := (1, 0)
def failPoison : Nat × Nat := (2, 0)
def failModule : Nat × Nat := (3, 0)

/-- The index within its port of the queue whose block an access of BAR0 falls in (R401); none for another access. -/
def accessBlock (o : HostAccess) : Option Nat := if o.bar = 0 ∧ o.off < 0xF0000 then some (o.off / 32) else none

/-- The report of a failed access (R405, R431). (DEDUCED, log 62) -/
def hostReport (o : HostAccess) (write : Bool) (job : Option Nat) (f : Nat × Nat) : Report :=
  ⟨o.module, 6, job, 0, 9, o.port, .ofNat 64 o.off,
   .ofNat 79 (bitNat write + o.func * 4 + o.port * 2 ^ 9 + (accessBlock o).getD 0 % 2 ^ 14 * 2 ^ 10 + f.1 * 2 ^ 24 + f.2 * 2 ^ 26)⟩

def answerHost (s : State) (o : HostAccess) (status : Nat) (bs : List Byte) : State :=
  s.modModu o.module fun x => { x with answers := x.answers ++ [⟨o.port, o.func, status, bs⟩] }

/-- A failed read is answered and reported; a failed write is only reported. -/
def refuseHost (s : State) (o : HostAccess) (write : Bool) (job : Option Nat) (f : Nat × Nat) : State :=
  let s := s.report (hostReport o write job f)
  if write then s else answerHost s o (if f.1 = 2 then 2 else 1) []

/-! ## Apertures (R400) -/

/-- Fields of an aperture control. -/
def apcValid (w : Word) : Bool := bit w 63
def apcBase (w : Word) : Nat := bits w 62 38
def apcDie (w : Word) : Nat := bits w 37 32
def apcJob (w : Word) : Nat := bits w 31 24
def apcFunc (w : Word) : Nat := bits w 6 0

/-- The number of APCn of a port (R400). -/
def apcKey (port n : Nat) : Nat := port * 16 + n

/-- The control of the aperture that an access of BAR2 falls in; no aperture beyond the sixteenth. -/
def hostAperture (s : State) (o : HostAccess) : Word :=
  if o.off / 2 ^ 32 < 16 then tget 0 (s.modu o.module).apc (apcKey o.port (o.off / 2 ^ 32)) else 0

/-- The home of an address of an aperture (R400). (DEDUCED, log 61) -/
def apertureHome (s : State) (m : Nat) (w : Word) (addr : Nat) : Except (Nat × Nat) Nat :=
  let e := s.jobEntryAt m (apcJob w)
  match s.homeDie m (m * 64 + apcDie w) e (s.regionAt e) addr with
  | .error k => .error (failTranslation k)
  | .ok (d, _) => if dieModule d = m then .ok (d * 16 + sliceOf addr) else .error failModule

/-- What a home answers as a cause and kind. -/
def hostFault (e : Cause × Nat) : Nat × Nat := if e.1 = .poison then failPoison else failTranslation e.2

/-- Lines of a port's read buffer (R104): 2 MiB. -/
def bufferLines : Nat := 16384

/-- A line enters a port's read buffer; a full one loses an older line. -/
def keepLine (port : Nat) (key : Nat) (l : Line) (b : Table Line) : Table Line :=
  let mine := b.filter fun e => e.1 % 2 == port
  let b := if bufferLines ≤ mine.length then
      match mine with
      | e :: _ => tdel b e.1
      | [] => b
    else b
  tput b key l

/-- A line read for a port (R103, R104): from its buffer, or at the home, where the port becomes a sharer. -/
def hostLine (s : State) (o : HostAccess) (w : Word) (addr : Nat) : State × Except (Nat × Nat) Line :=
  let job := apcJob w
  match apertureHome s o.module w addr with
  | .error f => (s, .error f)
  | .ok g =>
    let key := bufKey o.port job (sliceDie g) (addr / 128)
    match tfind (s.modu o.module).readBuf key with
    | some l => (s, .ok l)
    | none =>
      let r := readLineFor false s g job (addr / 128) allWords false false
      match r.2 with
      | .error e => (r.1, .error (hostFault e))
      | .ok (l, _) =>
        let q := addSharer r.1 g job (addr / 128) (.host o.port)
        let s := doInvalidates q.2 q.1
        (s.modModu o.module fun x => { x with readBuf := keepLine o.port key l x.readBuf }, .ok l)

def hostLines (o : HostAccess) (w : Word) : List (Nat × Nat × Nat) → State → State × Except (Nat × Nat) (List Byte)
  | [], s => (s, .ok [])
  | (a, _, n) :: t, s =>
    let r := hostLine s o w a
    match r.2 with
    | .error f => (r.1, .error f)
    | .ok l =>
      let q := hostLines o w t r.1
      (q.1, q.2.map fun bs => lineSlice l (a % 128) n ++ bs)

/-- Whether a function may use an aperture. -/
def ownsAperture (o : HostAccess) (w : Word) : Bool := apcValid w && apcFunc w == o.func

/-- The address that an access to the window names. -/
def windowAddr (o : HostAccess) (w : Word) : Nat := apcBase w * 2 ^ 32 + o.off % 2 ^ 32

def apertureJob (w : Word) : Option Nat := if apcValid w then some (apcJob w) else none

/-- A read of the device memory window. (DEDUCED, log 61) -/
def windowRead (s : State) (o : HostAccess) : State :=
  let w := hostAperture s o
  if ¬ ownsAperture o w then refuseHost s o false (apertureJob w) failAperture
  else
    let r := hostLines o w (splitLines (windowAddr o w) o.size) s
    match r.2 with
    | .ok bs => answerHost r.1 o 0 bs
    | .error f => refuseHost r.1 o false (apertureJob w) f

/-- Pieces of a write, line by line: the port's own copy of a line goes first (R104), then the home write (R92, R103). -/
def windowPieces (o : HostAccess) (w : Word) : List (Nat × Nat × Nat) → State → State × Option (Nat × Nat)
  | [], s => (s, none)
  | (a, off, n) :: t, s =>
    match apertureHome s o.module w a with
    | .error f => (s, some f)
    | .ok g =>
      let job := apcJob w
      let s := s.modModu o.module fun x => { x with readBuf := tdel x.readBuf (bufKey o.port job (sliceDie g) (a / 128)) }
      let bs := (o.data.drop off).take n
      let r := homeWrite s g job (a / 128) false (maskFrom (a % 128) n) (lineAt (a % 128) bs)
      match r.2 with
      | .error e => (r.1, some (hostFault e))
      | .ok _ => windowPieces o w t r.1

/-- Why a piece of a write cannot be performed (R405): its home, its translation, or the poison of a line that it covers in part. -/
def pieceFails (s : State) (o : HostAccess) (w : Word) (p : Nat × Nat × Nat) : Option (Nat × Nat) :=
  match apertureHome s o.module w p.1 with
  | .error f => some f
  | .ok g =>
    match homeFill s g (apcJob w) (p.1 / 128) (fun q => permOk q false true false) false with
    | .error k => some (failTranslation k)
    | .ok (_, h) => if p.2.2 < 128 ∧ s.badLine h.frame then some failPoison else none

/-- A write of the device memory window: one that fails in any line is not performed (R405). -/
def windowWrite (s : State) (o : HostAccess) : State :=
  let w := hostAperture s o
  if ¬ ownsAperture o w then refuseHost s o true (apertureJob w) failAperture
  else if let some f := (splitLines (windowAddr o w) o.size).findSome? (pieceFails s o w) then refuseHost s o true (apertureJob w) f
  else
    let r := windowPieces o w (splitLines (windowAddr o w) o.size) s
    match r.2 with
    | none => r.1
    | some f => refuseHost r.1 o true (apertureJob w) f

/-! ## Registers in BAR0 (R399 to R401) -/

/-- NEGCAP (R399, R422): queue-entry formats 1 and 2, Nolkai versions 1 and 2, notice format 1, mailbox version 1. -/
def negcap : Word := 0x02020606

/-- The queue whose block holds an offset of a port's BAR0 (R401). (DESIGN CHOICE, log 60) -/
def blockQueue (x : Module) (port i : Nat) : Option Nat :=
  let n := 512 * x.qsplit.toNat
  if port = 0 then (if i < n then some i else none) else if n + i < 16384 then some (n + i) else none

/-- Whether a function may use a queue's registers: the owner, or the PF where `pf` says so. -/
def mayUse (k : Queue) (func : Nat) (pf : Bool) : Bool := k.func.toNat == func || (pf && func == 0)

/-- QCFG as it reads. -/
def packQcfg (k : Queue) : Word :=
  pack [(bitNat k.v, 63), (bitNat k.sup, 62), (k.prio.toNat, 59), (k.fmt.toNat, 56), (k.job.toNat, 48), (k.log.toNat, 44),
        (k.func.toNat, 32), (k.vec.toNat, 20)]

def packQdb (k : Queue) : Word := pack [(k.head.toNat, 48), (k.chead.toNat, 32), (k.ctail.toNat, 16), (k.tail.toNat, 0)]

/-- A register of a queue's block, in the order of R401's table. (DESIGN CHOICE, log 60) -/
def queueReg (k : Queue) (r : Nat) : Word :=
  match r with
  | 0 => k.qbase
  | 1 => k.cbase
  | 2 => packQcfg k
  | _ => packQdb k

/-- QCFG written (R401): the PF writes every field, the owner FMT, LOG and VEC; LOG outside 4 to 15 keeps V at 0. -/
def writeQcfg (k : Queue) (pf : Bool) (v : Word) : Queue :=
  let log := bits v 47 44
  let k := { k with fmt := .ofNat 3 (bits v 58 56), log := .ofNat 4 log, vec := .ofNat 12 (bits v 31 20) }
  let k := if pf then { k with
      v := bit v 63, sup := bit v 62, prio := .ofNat 3 (bits v 61 59), job := .ofNat 8 (bits v 55 48), func := .ofNat 7 (bits v 38 32) }
    else k
  { k with v := k.v && decide (4 ≤ log) }

/-- A write of a register of a queue's block. -/
def writeQueueReg (s : State) (m q r : Nat) (pf : Bool) (v : Word) : State :=
  match r with
  | 0 => s.modQueue m q fun k => { k with qbase := .ofNat 64 (v.toNat / 64 * 64) }
  | 1 => s.modQueue m q fun k => { k with cbase := .ofNat 64 (v.toNat / 16 * 16) }
  | 2 =>
    let old := s.queue m q
    let new := writeQcfg old pf v
    -- a queue that opens for a job that does not run starts it; one that closes may end it
    let s := if new.v ∧ ¬ jobOpen s m new.job.toNat then startJob s m new.job.toNat else s
    let s := s.modQueue m q fun _ => new
    nextEntry (if old.v then tidyJob s m old.job.toNat else s) m q
  | _ => s.post ⟨s.now, fromModule m, atModule m, .qdbDoorbell ⟨m, q, v⟩⟩

/-- A register of BAR0 as a function reads it; none where it may not. -/
def bar0Read (s : State) (o : HostAccess) : Option Word :=
  let x := s.modu o.module
  if o.size ≠ 8 ∨ o.off % 8 ≠ 0 then none
  else if o.off = 0xFFF00 then some negcap
  else if 0xF0000 ≤ o.off then
    if o.off < 0xF0080 then
      let w := tget 0 x.apc (apcKey o.port ((o.off - 0xF0000) / 8))
      if o.func = 0 ∨ apcFunc w = o.func then some w else none
    else some 0
  else
    (blockQueue x o.port (o.off / 32)).bind fun q =>
      if mayUse (s.queue o.module q) o.func true then some (queueReg (s.queue o.module q) (o.off % 32 / 8)) else none

/-- The bits of an aperture control that are kept. -/
def apcMask (v : Word) : Word := pack [(bits v 63 24, 24), (bits v 6 0, 0)]

/-- A write of BAR0; none where the function may not make it. A VF's write of an aperture control is ignored. (DEDUCED, log 62) -/
def bar0Write (s : State) (o : HostAccess) : Option State :=
  let v := wordOf o.data
  if o.data.length ≠ 8 ∨ o.off % 8 ≠ 0 then none
  else if 0xF0000 ≤ o.off then
    if o.off < 0xF0080 ∧ o.func = 0 then
      some (s.modModu o.module fun x => { x with apc := tset 0 x.apc (apcKey o.port ((o.off - 0xF0000) / 8)) (apcMask v) })
    else some s
  else
    (blockQueue (s.modu o.module) o.port (o.off / 32)).bind fun q =>
      if mayUse (s.queue o.module q) o.func (o.off % 32 / 8 != 3) then some (writeQueueReg s o.module q (o.off % 32 / 8) (o.func == 0) v)
      else none

/-- The job of the queue or aperture that a failed access of BAR0 names, if that is valid (R431). (DEDUCED, log 62) -/
def bar0Job (s : State) (o : HostAccess) : Option Nat :=
  match accessBlock o with
  | some i => (blockQueue (s.modu o.module) o.port i).bind fun q =>
      if (s.queue o.module q).v then some (s.queue o.module q).job.toNat else none
  | none =>
    if o.off < 0xF0080 then apertureJob (tget 0 (s.modu o.module).apc (apcKey o.port ((o.off - 0xF0000) / 8))) else none

/-! ## The mailbox in BAR4 (R422) -/

/-- Byte i of the mailbox. -/
def mboxByte (b : Mailbox) (i : Nat) : Byte :=
  let h : Word := pack [(b.ver.toNat, 0), (b.cmd.toNat, 8), (b.status.toNat, 16), (b.len.toNat, 32), (bitNat b.go, 63)]
  if i < 8 then (bytesOf 8 h).getD i 0 else if i < 0x100 then 0 else tget 0 b.data i

/-- n bytes of the data from an offset within it. -/
def mboxData (b : Mailbox) (off n : Nat) : List Byte := (List.range n).map fun i => tget 0 b.data (0x100 + off + i)

/-- The image that the data of a MONITOR command names: key digest, signature, version, entry, base, and the body up to LEN.
(DESIGN CHOICE, log 17) -/
def mboxImage (b : Mailbox) : Image :=
  { key := .ofNat 384 (leNat (mboxData b 0 48))
    sig := .ofNat 768 (leNat (mboxData b 48 96))
    version := .ofNat 32 (leNat (mboxData b 144 4))
    entry := .ofNat 62 (leNat (mboxData b 148 8) / 4)
    base := .ofNat 64 (leNat (mboxData b 156 8))
    body := mboxData b 164 (b.len.toNat - 164) }

/-- The command that GO starts; none where the module does not accept it. -/
def mboxEvent (m : Nat) (b : Mailbox) : Option Event :=
  let c : MboxCmd := ⟨m, b.ver, .ofNat 768 (leNat (mboxData b 0 96))⟩
  if b.ver ≠ 1 then none
  else match b.cmd.toNat with
    | 1 => some (.query c)
    | 2 => some (.attest c)
    | 3 => some (.events c)
    | 4 => some (.config c)
    | 5 => some (.monitor ⟨m, b.ver, mboxImage b⟩)
    | 6 => some (.fuseRevoke c)
    | 7 => some (.linkclr c)
    | _ => none

/-- The header once bytes have been written over it from an offset on. -/
def mboxMerged (b : Mailbox) (off : Nat) (bs : List Byte) : Word :=
  wordOf ((List.range 8).map fun i => if off ≤ i ∧ i < off + bs.length then bs.getD (i - off) 0 else mboxByte b i)

/-- The header written: STATUS is the module's, and GO starts the command. -/
def mboxHeader (s : State) (m : Nat) (v : Word) : State :=
  let b := { (s.modu m).mbox with ver := .ofNat 8 (bits v 7 0), cmd := .ofNat 8 (bits v 15 8), len := .ofNat 16 (bits v 47 32), go := bit v 63 }
  if ¬ b.go then s.modModu m fun x => { x with mbox := b }
  else match mboxEvent m b with
    | some e => (s.modModu m fun x => { x with mbox := b }).post ⟨s.now, fromModule m, atModule m, e⟩
    | none => s.modModu m fun x => { x with mbox := { b with go := false, status := 2 } }

/-- Bytes written to the data. -/
def mboxPut (b : Mailbox) (off : Nat) : List Byte → Mailbox
  | [] => b
  | x :: t => mboxPut (if 0x100 ≤ off ∧ off < 0x10000 then { b with data := tset 0 b.data off x } else b) (off + 1) t

/-- A write of the mailbox: its data, and its header if it covers bytes of that. While GO is set the module has it. (DESIGN CHOICE, log 99) -/
def bar4Write (s : State) (o : HostAccess) : State :=
  if (s.modu o.module).mbox.go then s
  else
    let s := s.modModu o.module fun x => { x with mbox := mboxPut x.mbox o.off o.data }
    if o.off < 8 ∧ ¬ o.data.isEmpty then mboxHeader s o.module (mboxMerged (s.modu o.module).mbox o.off o.data) else s

/-! ## The steps -/

/-- Whether an access reaches a module (R419): step 4 of bring-up exposes the BARs, and of one whose bring-up has failed before it the
mailbox can be read. (DEDUCED, log 73) -/
def exposed (x : Module) (o : HostAccess) (read : Bool) : Bool := decide (4 ≤ x.step) || (x.stuck && read && o.bar == 4)

/-- HOST_READ (R103, R104, R399 to R401, R405). -/
def execHostRead (o : HostAccess) (s : State) : Host.Outcome State Fault Refusal :=
  finish s <|
    if ¬ exposed (s.modu o.module) o true then s
    else if o.bar = 2 then windowRead s o
    else if o.bar = 4 then answerHost s o 0 ((List.range o.size).map fun i => mboxByte (s.modu o.module).mbox (o.off + i))
    else match bar0Read s o with
      | some v => answerHost s o 0 (bytesOf 8 v)
      | none => refuseHost s o false (bar0Job s o) failAperture

/-- HOST_WRITE (R103, R104, R399 to R401, R405). -/
def execHostWrite (o : HostAccess) (s : State) : Host.Outcome State Fault Refusal :=
  finish s <|
    if ¬ exposed (s.modu o.module) o false then s
    else if o.bar = 2 then windowWrite s o
    else if o.bar = 4 then bar4Write s o
    else match bar0Write s o with
      | some t => t
      | none => refuseHost s o true (bar0Job s o) failAperture

end Sys2Proof.Machine
end

