-- ==== Sys2Proof/Machine/Firmware.lean ====
section
/-! DEFINITION. The package event arbiter and its ring (R427, R431), the mailbox commands (R421 to R423), bring-up (R419, R420) and
reset. -/

namespace Sys2Proof.Machine

/-! ## Event records (R427) -/

/-- The most events that the ring holds, and the most that one EVENTS returns. -/
def eventsReturned : Nat := 256

/-- The 32 bytes of an event record. -/
def EvRec.bytes (e : EvRec) : List Byte :=
  leBytes 32 (e.seq % 2 ^ 64 * 2 ^ 192 + e.addr.toNat * 2 ^ 128 + (e.job.getD 0) % 2 ^ 8 * 2 ^ 120 + e.count % 2 ^ 16 * 2 ^ 104 +
    bitNat e.job.isSome * 2 ^ 103 + e.kind % 2 ^ 7 * 2 ^ 96 + e.die % 2 ^ 6 * 2 ^ 90 + e.cls % 2 ^ 4 * 2 ^ 86 +
    e.index % 2 ^ 7 * 2 ^ 79 + e.detail.toNat)

def EvRec.ofReport (r : Report) : EvRec := ⟨0, r.addr, r.job, 0, r.kind, r.die, r.cls, r.index, r.detail⟩

/-- Whether two reports fold: the same KIND and UNIT. -/
def EvRec.folds (a b : EvRec) : Bool := a.kind == b.kind && a.die == b.die && a.cls == b.cls && a.index == b.index

/-- A report passes the arbiter: it is numbered and written, vector 0 of the PF goes out on both ports, and EVENT is raised in every thread of
its job on the module (R160). (DEDUCED, log 71) -/
def recordEvent (s : State) (m : Nat) (e : EvRec) : State :=
  let s := s.modModu m fun x =>
    { x with
      ring := x.ring ++ [{ e with seq := x.evSeq }]
      evSeq := x.evSeq + 1
      msix := x.msix ++ [(0, 0, 0), (1, 0, 0)] }
  match e.job with
  | none => s
  | some j => raise s 8 fun g c => c.ids.job == j && moduleOf (coreOf g) == m

/-- A source holds a report while the ring is full, and folds like reports into its COUNT. (DEDUCED, log 71) -/
def holdEvent (e : EvRec) : List EvRec → List EvRec
  | [] => [e]
  | h :: t => if EvRec.folds h e then { h with count := min 0xFFFF (h.count + 1) } :: t else h :: holdEvent e t

/-- EVENT_REPORT (R427). -/
def execEventReport (r : Report) (s : State) : Host.Outcome State Fault Refusal :=
  finish s <|
    if (s.modu r.module).ring.length < Config.eventRing then recordEvent s r.module (EvRec.ofReport r)
    else s.modModu r.module fun x => { x with heldEv := holdEvent (EvRec.ofReport r) x.heldEv }

/-- Held reports enter the ring while it has room. -/
def admitEvents (m : Nat) : List EvRec → State → State
  | [], s => s.modModu m fun x => { x with heldEv := [] }
  | e :: t, s =>
    if (s.modu m).ring.length < Config.eventRing then admitEvents m t (recordEvent s m e)
    else s.modModu m fun x => { x with heldEv := e :: t }

/-! ## Mailbox commands (R422) -/

/-- A command ends: STATUS is final, GO clears, and the data is written. (DESIGN CHOICE, log 16) -/
def endCommand (s : State) (m : Nat) (status : BitVec 8) (data : List Byte) : State :=
  s.modModu m fun x =>
    { x with mbox := mboxPut { x.mbox with status := status, len := .ofNat 16 data.length, go := false } 0x100 data }

/-- A command runs if the module accepts its version. (DESIGN CHOICE, log 16) -/
def command (s : State) (o : MboxCmd) (body : State) : State := if o.ver = 1 then body else endCommand s o.module 2 []

/-- A 384-bit digest, a word, a version as the mailbox shows them. -/
def digestBytes (d : BitVec 384) : List Byte := leBytes 48 d.toNat
def versionBytes (v : BitVec 32) : List Byte := leBytes 4 v.toNat

/-- The identity certificate (R422), as far as the data area holds it. (DESIGN CHOICE, log 14) -/
def certificate (m : Nat) : List Byte :=
  (List.range (Config.certificateLength m % 2 ^ 15)).map fun i => Config.certificateByte m i

/-- QUERY (R422): versions, fused key digests, security versions, identity certificate. (DESIGN CHOICE, log 17) -/
def execQuery (o : MboxCmd) (s : State) : Host.Outcome State Fault Refusal :=
  finish s <| command s o <|
    let x := s.modu o.module
    endCommand s o.module Config.statusDone
      (bytesOf 8 negcap ++ digestBytes (Config.fusedKey o.module 0) ++ digestBytes (Config.fusedKey o.module 1) ++
        versionBytes (Config.fusedMinVersion o.module) ++ versionBytes x.fwVersion ++ versionBytes x.monVersion ++ certificate o.module)

/-- The counts of corrected and of uncorrectable errors of a module's units since reset (R428). -/
def errTotals (s : State) (m : Nat) : Nat × Nat :=
  let es := (s.dies.filter fun d => dieModule d.1 == m).flatMap fun d => d.2.errs.map fun e => e.2.toNat
  (es.foldl (fun n e => n + e / 2 ^ 32) 0, es.foldl (fun n e => n + e % 2 ^ 32) 0)

/-- RSTCFG as it reads (R421). -/
def rstcfg (x : Module) : Word := .ofNat 64 x.qsplitNext.toNat

/-- What an image's signature covers: its header and its body. (DESIGN CHOICE, log 14) -/
def imageBytes (i : Image) : List Byte :=
  leBytes 4 i.version.toNat ++ leBytes 8 (i.entry.toNat * 4) ++ leBytes 8 i.base.toNat ++ i.body

/-- The SHA-384 digest of an image (R420). -/
def imageDigest (i : Image) : BitVec 384 := Config.sha384 (imageBytes i)

/-- The measurements of a quote (R423). -/
def measurements (s : State) (m : Nat) : List Byte :=
  let x := s.modu m
  digestBytes x.firmware ++ digestBytes x.monitor ++ bytesOf 8 (rstcfg x) ++ leBytes 8 (errTotals s m).1 ++ leBytes 8 (errTotals s m).2

/-- The signature of a quote (R423): by the module's identity key, over the quote's SHA-384 digest. (DESIGN CHOICE, log 14) -/
def quoteSignature (m n : Nat) (quote : List Byte) : List Byte :=
  leBytes 96 (Config.ecdsaSign (Config.identityKey (Config.fusedSeed m)) (Config.sha384 quote) n).toNat

/-- ATTEST (R422, R423): the nonce, the measurements and their signature. (DESIGN CHOICE, log 17) -/
def execAttest (o : MboxCmd) (s : State) : Host.Outcome State Fault Refusal :=
  finish s <| command s o <|
    let quote := leBytes 48 o.arg.toNat ++ measurements s o.module
    endCommand { s with fresh := s.fresh + 1 } o.module Config.statusDone (quote ++ quoteSignature o.module s.fresh quote)

/-- EVENTS (R422, R427): up to 256 records leave the ring, and held reports enter it. -/
def execEvents (o : MboxCmd) (s : State) : Host.Outcome State Fault Refusal :=
  finish s <| command s o <|
    let out := (s.modu o.module).ring.take eventsReturned
    let s := s.modModu o.module fun x => { x with ring := x.ring.drop eventsReturned }
    endCommand (admitEvents o.module (s.modu o.module).heldEv s) o.module Config.statusDone (out.flatMap EvRec.bytes)

/-- CONFIG (R421, R422): RSTCFG is written. (DEDUCED, log 74) -/
def execConfig (o : MboxCmd) (s : State) : Host.Outcome State Fault Refusal :=
  finish s <| command s o <|
    endCommand (s.modModu o.module fun x => { x with qsplitNext := .ofNat 6 o.arg.toNat }) o.module Config.statusDone []

/-- Step 5 of bring-up is due: the BARs are exposed, a monitor image is named, and no step has failed (R419). -/
def monitorDue (x : Module) : Bool := x.step == 4 && !x.stuck && x.monImage.isSome

/-- Step 5 is performed next if it is due. -/
def postMonitor (s : State) (m : Nat) : State :=
  if monitorDue (s.modu m) then s.post ⟨s.now, fromModule m, atModule m, .bringUp ⟨m, none⟩⟩ else s

/-- MONITOR (R422): the monitor image of step 5 is named. -/
def execMonitor (o : MonitorCmd) (s : State) : Host.Outcome State Fault Refusal :=
  finish s <|
    if o.ver = 1 then
      postMonitor (endCommand (s.modModu o.module fun x => { x with monImage := some o.image }) o.module Config.statusDone []) o.module
    else endCommand s o.module 2 []

/-- FUSE_REVOKE (R420, R422): a slot's fuse burns only when the other slot holds a key. (DESIGN CHOICE, log 72) -/
def execFuseRevoke (o : MboxCmd) (s : State) : Host.Outcome State Fault Refusal :=
  finish s <| command s o <|
    let k := o.arg.toNat % 256
    if k < 2 ∧ Config.keyFused o.module (1 - k) then
      endCommand (s.modModu o.module fun x => { x with revoked := x.revoked ||| .ofNat 2 (2 ^ k) }) o.module Config.statusDone []
    else endCommand s o.module Config.statusRefused []

/-- LINKCLR (R412, R422): the routes over a FAILED link are cleared. (DESIGN CHOICE, log 72) -/
def execLinkclr (o : MboxCmd) (s : State) : Host.Outcome State Fault Refusal :=
  finish s <| command s o <|
    let l := o.arg.toNat % 32
    if (s.link o.module l).state = .failed then
      endCommand (s.modModu o.module fun x => { x with routes := x.routes.filter fun e => e.2.link != l }) o.module Config.statusDone []
    else endCommand s o.module Config.statusRefused []

/-! ## Bring-up (R419 to R421) -/

/-- Whether an image is accepted (R420): its key is fused in a slot that is not revoked, its signature verifies, its security version is not
below the fused minimum. (DESIGN CHOICE, log 14) -/
def authentic (m : Nat) (x : Module) (i : Image) : Bool :=
  ([0, 1].any fun k => Config.keyFused m k && !x.revoked.getLsbD k && Config.fusedKey m k == i.key) &&
  Config.ecdsaVerifies (imageDigest i) i.key i.sig && decide (Config.fusedMinVersion m ≤ i.version)

/-- A step fails: STATUS is its number, and the module stays there. (DEDUCED, log 73) -/
def failStep (s : State) (m n : Nat) : State :=
  s.modModu m fun x => { x with stuck := true, mbox := { x.mbox with status := .ofNat 8 n } }

/-- An edge that cannot train is reported (R406, R431). -/
def reportEdges (m : Nat) : List (Nat × Nat) → State → State
  | [], s => s
  | (d, e) :: t, s => reportEdges m t (s.report ⟨m, 4, none, d, 4, e, 0, 2⟩)

/-- The bounds that step 2 checks (R53, R210). -/
def boundsOk (s : State) (m : Nat) : Bool :=
  s.dies.all fun d => dieModule d.1 != m ||
    (decide (d.2.alBase.toNat + d.2.alSize.toNat ≤ 48) &&
      (!d.2.psV || decide (d.2.psBase.toNat * 2 ^ 26 + 48 * 2 ^ 20 ≤ Config.dieBytes)))

/-- The module of a physical address. -/
def frameModule (a : Nat) : Nat := a / 2 ^ 50

/-- Every byte of a module's HBM4 that is listed becomes zero. -/
def zeroCells (m : Nat) : List Host.Cell → State → State
  | [], s => s
  | e :: t, s => zeroCells m t (if frameModule e.1 = m then s.poke e.1 0 else s)

/-- Step 3: every SRAM word and every HBM4 line of the module is zero, with valid check bits. -/
def clearMemory (s : State) (m : Nat) : State :=
  zeroCells m s.hbm { s with
    hbmBad := s.hbmBad.filter fun l => frameModule (l * 128) != m
    cores := tmap (fun n c => if moduleOf n = m then { c with scratch := [], scratchBad := [] } else c) s.cores
    slices := tmap (fun g x => if sliceModule g = m then { x with bad := [] } else x) s.slices }

/-- The body of the monitor image enters HBM4 from its base on. -/
def loadBody (m : Nat) : List Byte → Nat → State → State
  | [], _, s => s
  | b :: t, a, s => loadBody m t (a + 1) (if frameModule a = m then s.poke a b else s)

/-- The monitor starts in monitor mode on slot 0 of core 0 of the module. -/
def startMonitor (s : State) (m : Nat) (entry : BitVec 62) : State :=
  let core := m * 6144
  let t := newThread core 0 ⟨m, 0, 0, 0, 0⟩ .monitor (.ofNat 64 (entry.toNat * 4)) []
  let t : Thread := { t with status := .ready, since := s.now, ctx := vectors s core { t.ctx with hpat := Ctx.zero.hpat } }
  setRow (s.setThread (core * 16) (openTask t t.ctx.pc)) core 0 ⟨2, 0, 0, ⟨m, 0, 0, 0, 0⟩, 0⟩

/-- Step 5: the image that the host has named is authenticated, loaded and started. -/
def bringMonitor (s : State) (m : Nat) : State :=
  match (s.modu m).monImage with
  | none => s
  | some i =>
    if authentic m (s.modu m) i then
      startMonitor ((loadBody m i.body i.base.toNat s).modModu m fun x =>
        { x with present := true, step := 5, monitor := imageDigest i, monVersion := i.version }) m i.entry
    else failStep s m 5

/-- A step of bring-up has succeeded. -/
def passStep (s : State) (m n : Nat) : State := s.modModu m fun x => { x with step := n }

/-- Steps 1 to 4. -/
def bringFirmware (s : State) (m : Nat) (o : Found) : State :=
  if ¬ authentic m (s.modu m) o.firmware then failStep s m 1
  else
    let s := passStep (s.modModu m fun x => { x with firmware := imageDigest o.firmware, fwVersion := o.firmware.version }) m 1
    let bad := o.badEdges.filter fun e => edgeExists e.1 e.2
    if ¬ bad.isEmpty ∨ ¬ o.stacksOk ∨ ¬ boundsOk s m then failStep (reportEdges m bad s) m 2
    else
      let s := passStep (clearMemory s m) m 3
      if ¬ o.pcie then failStep s m 4 else postMonitor (passStep s m 4) m

/-- BRING_UP (R419): the steps in order; the first that fails stops the sequence until the next reset. (DEDUCED, log 73) -/
def execBringUp (o : BringUp) (s : State) : Host.Outcome State Fault Refusal :=
  finish s <|
    let x := s.modu o.module
    match o.found with
    | some f => if x.step = 0 ∧ ¬ x.stuck then bringFirmware s o.module f else s
    | none => if monitorDue x then bringMonitor s o.module else s

/-! ## Reset (R419, R421) -/

/-- The queue split that RSTCFG brings (R421). (DEDUCED, log 74) -/
def splitOf (q : BitVec 6) : BitVec 6 := if 32 < q.toNat then 16 else q

/-- The registers of a module after reset: what the fuses, RSTCFG and the hosts hold stays. (DEDUCED, log 75) -/
def resetModule (now : Nat) (x : Module) : Module :=
  { Module.empty with
    resetAt := now
    qsplit := splitOf x.qsplitNext
    qsplitNext := x.qsplitNext
    revoked := x.revoked
    msix := x.msix
    answers := x.answers }

/-- A link of another module to the one that resets goes down. -/
def loseLink (m : Nat) (k : Link) : Link := if k.partner = m ∧ k.state = .up then { k with state := .down } else k

/-- Whether a message comes from a module or acts on it. -/
def concerns (m : Nat) (f : Flight) : Bool := srcModule f.src == m || placeModule f.dst == m

/-- RESET (R419, R421): every register, table and cache of the module is as reset leaves it; HBM4 is cleared at bring-up's step 3. (DEDUCED, log 75) -/
def execReset (o : ModRef) (s : State) : Host.Outcome State Fault Refusal :=
  finish s <|
    let m := o.module
    { s with
      agenda := s.agenda.filter fun f => !concerns m f
      threads := s.threads.filter fun e => moduleOf (coreOf e.1) != m
      cores := s.cores.filter fun e => moduleOf e.1 != m
      clusters := s.clusters.filter fun e => e.1 / 768 != m
      slices := s.slices.filter fun e => sliceModule e.1 != m
      ctrls := s.ctrls.filter fun e => e.1 / 256 != m
      dies := s.dies.filter fun e => dieModule e.1 != m
      modules := tput (tmap (fun _ x => { x with links := tmap (fun _ k => loseLink m k) x.links }) s.modules) m (resetModule s.now (s.modu m)) }

end Sys2Proof.Machine
end

