-- ==== Sys2Proof/Machine/Gauss.lean ====
section
/-! DEFINITION. The Gaussian block solver of each core and its mailbox slots (R367 to R379): OP 0x39, SOLVER_OPERATION_COMPLETION
and MAILBOX_MESSAGE_ARRIVAL. -/

namespace Sys2Proof.Machine

/-! ## Mailbox slots (R367, R368) -/

/-- A slot: η[0..7] then the upper triangle of Λ by rows, the words of its header, and its other control words. -/
structure GSlot where
  vals : List Nat
  sgti : Nat
  fmt : Nat
  d : Nat
  v : Bool
  flags : Nat
  damp : Nat
  aseq : Nat
  deriving DecidableEq, Repr

/-- The place of η[i], and of Λ(i, j). -/
def lamAt (i j : Nat) : Nat := 8 + (min i j * (15 - min i j) / 2 + max i j)

def GSlot.eta (m : GSlot) (i : Nat) : Nat := m.vals.getD i 0
def GSlot.lam (m : GSlot) (i j : Nat) : Nat := m.vals.getD (lamAt i j) 0

/-- The pairs (i, j), i ≤ j, of the triangle below n, by rows. -/
def triangle (n : Nat) : List (Nat × Nat) := (List.range n).flatMap fun i => (List.range' i (n - i)).map fun j => (i, j)

/-- The 44 entries made from functions of the indices. -/
def gvals (eta : Nat → Nat) (lam : Nat → Nat → Nat) : List Nat := (List.range 8).map eta ++ (triangle 8).map fun p => lam p.1 p.2

/-- Entries at or above a dimension as +0. -/
def gtrim (d : Nat) (vs : List Nat) : List Nat :=
  gvals (fun i => if i < d then vs.getD i 0 else 0) (fun i j => if j < d then vs.getD (lamAt i j) 0 else 0)

/-- A slot from its 384 bytes. -/
def gslot (bs : List Byte) : GSlot :=
  let h := leNat ((bs.drop 0x160).take 16)
  { vals := lanesGo 64 (leNat (bs.take 0x160)) 44
    sgti := h / 2 ^ 105 % 2 ^ 23, fmt := h / 2 ^ 60 % 16, d := h / 2 ^ 56 % 16, v := h / 2 ^ 55 % 2 == 1, flags := h / 2 ^ 51 % 16
    damp := leNat ((bs.drop 0x170).take 8), aseq := leNat ((bs.drop 0x178).take 8) }

/-- The 384 bytes of a slot. -/
def GSlot.bytes (m : GSlot) : List Byte :=
  leBytes 352 (lanesNat 64 (gtrim m.d m.vals)) ++
  leBytes 16 (m.sgti * 2 ^ 105 + m.fmt * 2 ^ 60 + m.d * 2 ^ 56 + bitNat m.v * 2 ^ 55 + m.flags * 2 ^ 51) ++
  leBytes 8 m.damp ++ leBytes 8 m.aseq

/-- Whether a use of the slot is refused (R368). -/
def GSlot.bad (m : GSlot) : Bool := m.fmt != 1 || m.d == 0 || decide (8 < m.d)

/-- What a source slot reads as: entries beyond its dimension, and all of them with V = 0, are +0. -/
def GSlot.source (m : GSlot) : GSlot := { m with vals := gtrim (if m.v then m.d else 0) m.vals }

/-- Flags as a slot keeps them (R368): NV, OF, UF, NX. -/
def slotFlags (f : Flags) : Nat :=
  bitNat (f.getLsbD 4) * 8 + bitNat (f.getLsbD 2) * 4 + bitNat (f.getLsbD 1) * 2 + bitNat (f.getLsbD 0)

/-! ## Arithmetic (R372 to R376) -/

/-- A list of results with the flags of all. -/
def joinFlags (rs : List FRes) : List Nat × Flags := (rs.map (·.1), rs.foldl (fun f r => f ||| r.2) 0)

/-- gmadd's sum: entries of the source at OFF on (R372). -/
def gaddVals (neg : Bool) (off : Nat) (dst src : GSlot) : List Nat × Flags :=
  let add (x y : Nat) : FRes := if neg && src.v then fpSub 0 1 x y else fpAdd 0 1 x y
  let on (i : Nat) : Bool := decide (off ≤ i ∧ i < off + src.d)
  joinFlags
    (((List.range 8).map fun i => if on i then add (dst.eta i) (src.eta (i - off)) else (dst.eta i, 0)) ++
     (triangle 8).map fun p =>
       if on p.1 && on p.2 then add (dst.lam p.1 p.2) (src.lam (p.1 - off) (p.2 - off)) else (dst.lam p.1 p.2, 0))

/-- The largest |Λ(i, i)| below d, NaN left out (R373). -/
def gdiag (d : Nat) (vs : List Nat) : Nat :=
  (List.range d).foldl (fun a i =>
    let x := vs.getD (lamAt i i) 0 % 2 ^ 63
    if (fpVal 0 x).isNan then a else if fvLe (fpVal 0 x) (fpVal 0 a) then a else x) 0

/-- One rank-one update: v - l × u, rounded once. -/
def gstep (l u v : Nat) : FRes := fpFma 0 1 (l % 2 ^ 63 + (1 - l / 2 ^ 63) * 2 ^ 63) u v

/-- The elimination of index e among the indices that are left (R373). -/
def geliminate (e : Nat) (left : List Nat) (vs : List Nat) : List Nat × Flags :=
  let pv := vs.getD (lamAt e e) 0
  let l (i : Nat) : FRes := fpDiv 0 1 (vs.getD (lamAt i e) 0) pv
  let on (i : Nat) : Bool := i != e && left.contains i
  let r := joinFlags
    (((List.range 8).map fun i => if on i then gstep (l i).1 (vs.getD e 0) (vs.getD i 0) else (vs.getD i 0, 0)) ++
     (triangle 8).map fun p =>
       if on p.1 && on p.2 then gstep (l p.1).1 (vs.getD (lamAt e p.2) 0) (vs.getD (lamAt p.1 p.2) 0)
       else (vs.getD (lamAt p.1 p.2) 0, 0))
  (r.1, (left.filter on).foldl (fun f i => f ||| (l i).2) r.2)

/-- Indices eliminated in turn, until one's pivot stops it: the entries, the flags, the pivots met, and the index that stopped. -/
def gsweep (stop : Nat → Bool) : List Nat → List Nat → List Nat → Flags → List Nat → List Nat × Flags × List Nat × Option Nat
  | [], _, vs, f, ps => (vs, f, ps, none)
  | e :: t, left, vs, f, ps =>
    let pv := vs.getD (lamAt e e) 0
    if stop pv then (vs, f, ps ++ [pv], some e)
    else
      let r := geliminate e left vs
      gsweep stop t (left.filter (· != e)) r.1 (f ||| r.2) (ps ++ [pv])

/-- Whether a pivot is NaN or not above zero. -/
def pivotLow (pv : Nat) : Bool := (fpVal 0 pv).isNan || fvLe (fpVal 0 pv) (.fin false 0 0)

/-- Whether a pivot is at or below 2^(te - 127) × md, formed exactly (R373). -/
def pivotSmall (te md pv : Nat) : Bool :=
  te != 0 && fvLe (fpVal 0 pv) (match fpVal 0 md with
    | .fin n m e => .fin n m (e + (te : Int) - 127)
    | x => x)

/-- An entry damped (R374): β × old + (1 - β) × computed, rounded once. -/
def gmix (beta old new : Nat) : FRes :=
  let r := sumProducts [(.fin false beta (-8), fpVal 0 old), (.fin false (256 - beta) (-8), fpVal 0 new)]
  match r.1 with
  | .nan _ => (canon 0, r.2)
  | x => let q := roundFv 0 1 x
         (q.1, r.2 ||| q.2)

/-- gres (R376). -/
def gresidual (a b : GSlot) : Nat :=
  let d := a.d
  let xs := (List.range d).map (fun i => (a.eta i, b.eta i)) ++ (triangle d).map fun p => (a.lam p.1 p.2, b.lam p.1 p.2)
  xs.foldl (fun r p =>
    let z := (fpSub 0 1 p.1 p.2).1 % 2 ^ 63
    if (fmt 0).inf < r ∨ (fmt 0).inf < z then canon 0 else max r z) 0

/-- gpiv (R376). -/
def gpivot (m : GSlot) : Nat :=
  let md := gdiag m.d m.vals
  if md = 0 then canon 0
  else
    let r := gsweep pivotLow (List.range m.d) (List.range m.d) m.vals 0 []
    let low := r.2.2.1.foldl (fun (a : Option Nat) p => match a with
      | none => some p
      | some q => if (fpVal 0 p).isNan || fvLe (fpVal 0 p) (fpVal 0 q) then some p else some q) none
    (fpDiv 0 1 (low.getD 0) md).1

/-! ## The solver (R370) -/

/-- The pointer of an own scratchpad offset. -/
def ownPtr (off : Nat) : Word := .ofNat 64 (2 ^ 60 + off)

/-- What an operation does with what it has read or cannot. -/
abbrev GRes := State × Except FaultRec (Option Nat)

/-- A slot read by an operation (R70). -/
def withSlot (s : State) (o : GOp) (off : Nat) (k : State → GSlot → GRes) : GRes :=
  let r := readBytes s o.gti (ownPtr off) 384 .load true gkLoad o.pc
  match r.2 with
  | .error f => (r.1, .error f)
  | .ok bs => k r.1 (gslot bs)

/-- A slot read for a use that its header must allow. -/
def withUse (s : State) (o : GOp) (off : Nat) (k : State → GSlot → GRes) : GRes :=
  withSlot s o off fun s m => if m.bad then (s, .error badOperand) else k s m

/-- A slot's bytes written. -/
def putSlot (s : State) (o : GOp) (off : Nat) (bs : List Byte) (k : State → GRes) : GRes :=
  let r := writeBytes s o.gti (ownPtr off) bs .store gkStore
  match r.2 with
  | .error f => (r.1, .error f)
  | .ok _ => k r.1

def gdone (s : State) : GRes := (s, .ok none)

/-- gmadd at the solver (R372). -/
def solveAdd (s : State) (o : GOp) : GRes :=
  withUse s o o.d fun s dst => withUse s o o.a fun s src =>
    let off := bits o.control 2 0
    if dst.d < off + src.d then (s, .error badOperand)
    else
      let r := gaddVals (bit o.control 3) off dst src.source
      putSlot s o o.d { dst with vals := r.1, v := true, flags := dst.flags ||| src.flags ||| slotFlags r.2 }.bytes gdone

/-- gsch at the solver (R373). -/
def solveSchur (s : State) (o : GOp) : GRes :=
  withUse s o o.a fun s src =>
    let koff := bits o.control 2 0
    let kn := bits o.control 6 3
    let te := bits o.control 15 8
    let m := src.source
    if kn = 0 ∨ m.d < koff + kn then (s, .error badOperand)
    else
      let es := (List.range m.d).filter fun i => !decide (koff ≤ i ∧ i < koff + kn)
      let md := gdiag m.d m.vals
      let r := gsweep (fun pv => pivotLow pv || pivotSmall te md pv) es (List.range m.d) m.vals 0 []
      match r.2.2.2 with
      | some e =>
        (s, .error { mkFault .gaussian 0 (.ofNat 64 (bits o.control 23 16)) with info := ⟨0, .ofNat 3 e, 0, 0⟩ })
      | none =>
        withSlot s o o.d fun s out =>
          let vs := gvals (fun i => r.1.getD (koff + i) 0) (fun i j => r.1.getD (lamAt (koff + i) (koff + j)) 0)
          putSlot s o o.d { out with vals := vs, d := kn, v := true, fmt := 1, flags := src.flags ||| slotFlags r.2.1 }.bytes gdone

/-- gdmp at the solver (R374). -/
def solveDamp (s : State) (o : GOp) : GRes :=
  withUse s o o.d fun s new => withUse s o o.a fun s old =>
    if old.v ∧ old.d ≠ new.d then (s, .error badOperand)
    else
      let c := new.source
      let r : List Nat × Flags :=
        if old.v then joinFlags ((old.source.vals.zip c.vals).map fun p => gmix (old.damp % 256) p.1 p.2) else (c.vals, 0)
      let fl := new.flags ||| old.flags ||| slotFlags r.2
      let put (m : GSlot) : List Byte := { m with vals := r.1, d := new.d, v := true, flags := fl }.bytes
      putSlot s o o.d (put new) fun s => putSlot s o o.a (put old) gdone

/-- gmsend at the solver (R375): the message leaves. -/
def solveSend (s : State) (o : GOp) : GRes :=
  let core := coreOf o.gti
  let r := readBytes s o.gti (ownPtr o.a) 384 .load true gkLoad o.pc
  match r.2 with
  | .error f => (r.1, .error f)
  | .ok bs =>
    if (gslot bs).bad then (r.1, .error badOperand)
    else
      let h := leNat ((bs.drop 0x160).take 16)
      let data := bs.take 0x160 ++ leBytes 16 (h % 2 ^ 105 + o.who % 2 ^ 23 * 2 ^ 105)
      let m : MailSend := ⟨o.gti, (s.thread o.gti).ctx.ids.job, o.target, bits o.control 24 19, bits o.control 18 0, byteTable 0 data,
        coreClass core o.target, o.pc,
        (s.thread o.gti).ctx.task⟩
      gdone (r.1.send (fromThread o.gti) (atCore o.target) (.mailboxMessageArrival m))

/-- gmld at the solver (R371), with the mode of its issue. -/
def solveLoad (s : State) (o : GOp) : GRes :=
  let mode := (s.thread o.gti).ctx.mode
  let issued : Mode := if o.user then .user else if mode = .user then .supervisor else mode
  let r := readBytes (s.modCtx o.gti fun c => { c with mode := issued }) o.gti o.src 384 .load true gkLoad o.pc
  let s := r.1.modCtx o.gti fun c => { c with mode := mode }
  match r.2 with
  | .error f => (s, .error f)
  | .ok bs => putSlot s o o.d bs gdone

/-- gres and gpiv at the solver (R376). -/
def solveResidual (s : State) (o : GOp) : GRes :=
  withSlot s o o.a fun s a => withSlot s o o.b fun s b =>
    if ¬ a.v ∨ ¬ b.v then (s, .ok (some (fmt 0).inf))
    else if a.bad ∨ b.bad ∨ a.d ≠ b.d then (s, .error badOperand)
    else (s, .ok (some (gresidual a b)))

def solvePivot (s : State) (o : GOp) : GRes := withUse s o o.a fun s m => (s, .ok (some (gpivot m.source)))

/-- gmclr at the solver (R371). -/
def solveClear (s : State) (o : GOp) : GRes :=
  putSlot s o o.a { vals := [], sgti := 0, fmt := 1, d := bits o.control 3 0, v := false, flags := 0, damp := bits o.control 15 8,
                    aseq := 0 : GSlot }.bytes gdone

/-- An operation of the solver by its form (R369). -/
def solve (s : State) (o : GOp) : GRes :=
  match o.op with
  | 0 => solveAdd s o
  | 1 => solveSchur s o
  | 2 => solveDamp s o
  | 3 => solveSend s o
  | 4 => solveLoad s o
  | 5 => solveResidual s o
  | 6 => solvePivot s o
  | _ => solveClear s o

/-- A fault that the solver found (R197, R370): ENGINE 6, OPC. (DEDUCED, log 27) -/
def solverFault (s : State) (o : GOp) (f : FaultRec) : FaultRec :=
  { f with engine := 6, task := (s.thread o.gti).ctx.task, info := { f.info with opc := opcField o.pc } }

/-- The oldest operation of a core's solver is performed and returns its result, whose join is the end of the park that waits for it; after a
fault every later one of its thread completes DISCARDED (R370). (DEDUCED, log 27) -/
def solveNext (s : State) (core : Nat) : State :=
  match (s.core core).solver with
  | [] => s
  | o :: rest =>
    if (s.thread o.gti).solverDead then dropSolver core [o] s
    else
      let r := solve (s.modCore core fun c => { c with solver := rest }) o
      let s := r.1.modThread o.gti fun t => { t with solverJoin := true }
      match r.2 with
      | .ok v =>
        answer s (fromThread o.gti) o.gti o.id (match v with
          | some w => .regs [(o.d, .ofNat 64 w)] [] 0
          | none => .ack) none
      | .error f =>
        let f := solverFault s o f
        let s := s.modThread o.gti fun t =>
          { t with eng := t.eng ++ [⟨none, 0, f⟩]
                   solverDead := true
                   ctx := if o.op = 3 then t.ctx.setCount (coreClass core o.target) (t.ctx.count (coreClass core o.target) - 1) else t.ctx }
        answer s (fromThread o.gti) o.gti o.id .ack none

/-- SOLVER_OPERATION_COMPLETION (R370, R373). -/
def execSolverOperationCompletion (o : CoreRef) (s : State) : Host.Outcome State Fault Refusal :=
  finish s (engineHeld (o.core * 16) (.solverOperationCompletion o) s (solveNext s o.core))

/-- MAILBOX_MESSAGE_ARRIVAL (R375): the owner's check, the slot as one access, the counter, and the acknowledgement with a guard record if
there is one (R70). (DEDUCED, log 50) -/
def execMailboxMessageArrival (o : MailSend) (s : State) : Host.Outcome State Fault Refusal :=
  finish s <|
    let k := tget Arrival.zero (s.core o.core).arrivals o.ctr
    let s :=
      if k.owner ≠ o.job then bump s o.core o.ctr o.job
      else if guarded (s.core o.core) o.pos 384 then remoteGuard s o.gti gkStore (scratchPtr o.core o.pos) o.pc
      else
        let s := scratchWrite s o.core o.pos (tableBytes o.data 0 0x170)
        let n := leNat (scratchBytes s o.core (o.pos + 0x178) 8)
        bump (scratchWrite s o.core (o.pos + 0x178) (leBytes 8 (n + 1))) o.core o.ctr o.job
    ackPost s o.gti o.post

/-! ## The forms (R369, R370) -/

/-- A slot pointer of a form as its scratchpad offset (R370): one that does not resolve to the own scratchpad is SPACE_OP, and no other
translation fault is a slot pointer's (R379). A slot that would pass the scratchpad's end is taken as one that does not. (DEDUCED, log 100) -/
def slotPtr (s : State) (g : Nat) (p : Word) : Except FaultRec Nat :=
  match s.resolve g p .load with
  | .ok (.own off) => if Config.scratchBytes < off + 384 then .error (xlate kSpaceOp p) else .ok off
  | _ => .error (xlate kSpaceOp p)

/-- The translation faults of slot pointers, then their alignment (R198, R370). -/
def slotFault (s : State) (g : Nat) : List Word → Option FaultRec
  | ps =>
    match ps.findSome? fun p => match slotPtr s g p with
      | .error f => some f
      | .ok _ => none with
    | some f => some f
    | none => (ps.find? fun p => p.toNat % 128 != 0).map fun p => mkFault .alignment 0 p

/-- The offset that a checked slot pointer names. -/
def slotOff (p : Word) : Nat := bits p 18 0

/-- The operation enters the solver's queue, as an outstanding result (R370). -/
def forkSolver (i : Iss) (dest : Dest) (mk : Nat → GOp) (s : State) (k : State → Res) : Res :=
  withRoomOut i s fun s =>
    if Config.solverQueue ≤ (s.core (coreOf i.g)).solver.length then .wait .unit s
    else
      let q := expect s i dest 1 false
      let s := q.1.modCore (coreOf i.g) fun c => { c with solver := c.solver ++ [mk q.2] }
      k (s.post ⟨s.now, fromThread i.g, atCore (coreOf i.g), .solverOperationCompletion ⟨coreOf i.g⟩⟩)

/-- An operation of a form as its thread issues it. -/
def mkOp (s : State) (i : Iss) (op d a b : Nat) (control src : Word) (id : Nat) : GOp :=
  ⟨i.g, id, op, d, a, b, control, src, (s.thread i.g).ctx.mode == .user, i.pc, i.g⟩

/-- gmadd (R372). -/
def execGmadd (o : OpR) (s : State) : Host.Outcome State Fault Refusal :=
  finish s <| issue s (Traits.ofR o (fx o.d) (fx o.a) (fx o.b)) fun i s =>
    let t := s.thread i.g
    let c := i.bval t
    precise i (orFault (bits c 63 4 != 0) badOperand (slotFault s i.g [t.x i.d, t.x i.a])) s fun s =>
    forkSolver i .none (mkOp s i 0 (slotOff (t.x i.d)) (slotOff (t.x i.a)) 0 c 0) s fun s => .done s

/-- gsch (R373). -/
def execGsch (o : OpR) (s : State) : Host.Outcome State Fault Refusal :=
  finish s <| issue s (Traits.ofR o (fx o.d) (fx o.a) (fx o.b)) fun i s =>
    let t := s.thread i.g
    let c := i.bval t
    precise i (orFault (bits c 63 24 != 0 || bit c 7) badOperand (slotFault s i.g [t.x i.d, t.x i.a])) s fun s =>
    forkSolver i .none (mkOp s i 1 (slotOff (t.x i.d)) (slotOff (t.x i.a)) 0 c 0) s fun s => .done s

/-- gdmp (R374). -/
def execGdmp (o : OpR) (s : State) : Host.Outcome State Fault Refusal :=
  finish s <| issue s (Traits.ofR o (fx o.d) (fx o.a) (fk o.b)) fun i s =>
    let t := s.thread i.g
    precise i (slotFault s i.g [t.x i.d, t.x i.a]) s fun s =>
    forkSolver i .none (mkOp s i 2 (slotOff (t.x i.d)) (slotOff (t.x i.a)) 0 0 0) s fun s => .done s

/-- gmsend (R375). -/
def execGmsend (o : OpR) (s : State) : Host.Outcome State Fault Refusal :=
  finish s <| issue s (Traits.ofR o (fk o.d) (fx o.a) (fx o.b)) fun i s =>
    let t := s.thread i.g
    let c := i.bval t
    let target := bits c 43 25
    let off := bits c 18 0
    precise i (orFault (bits c 63 44 != 0 || offJob s i.g target) badOperand
      (match slotPtr s i.g (t.x i.a) with
       | .error f => some f
       | .ok _ => orFault (decide (0x7FE80 < off)) (xlate kWindowBound (scratchPtr target off))
          (orFault ((t.x i.a).toNat % 128 != 0) (mkFault .alignment 0 (t.x i.a))
            (orFault (off % 128 != 0) (mkFault .alignment 0 (scratchPtr target off)) none)))) s fun s =>
    withRelease i (reachScope (coreOf i.g) target) s fun s =>
      let k := coreClass (coreOf i.g) target
      withRoom i k s fun s =>
        forkSolver i .none (mkOp s i 3 0 (slotOff (t.x i.a)) 0 c 0) s fun s => .done (countPost s i.g k)

/-- gmld (R371): a fault of the source is one of the operation, at its join. -/
def execGmld (o : OpR) (s : State) : Host.Outcome State Fault Refusal :=
  finish s <| issue s { Traits.ofR o (fx o.d) (fx o.a) (fk o.b) with pol := .taken } fun i s =>
    let t := s.thread i.g
    let p := t.x i.a
    precise i ((slotFault s i.g [t.x i.d]).or (orFault (p.toNat % 128 != 0) (mkFault .alignment 0 p) none)) s fun s =>
    forkSolver i .none (mkOp s i 4 (slotOff (t.x i.d)) 0 0 0 p) (notePolicy i [p] s) fun s => .done s

/-- gres (R376). -/
def execGres (o : OpR) (s : State) : Host.Outcome State Fault Refusal :=
  finish s <| issue s { Traits.ofR o (fx o.d) (fx o.a) (fx o.b) with imm := none } fun i s =>
    let t := s.thread i.g
    precise i (slotFault s i.g [t.x i.a, t.x i.b]) s fun s =>
    forkSolver i (.regs [i.d] []) (mkOp s i 5 i.d (slotOff (t.x i.a)) (slotOff (t.x i.b)) 0 0) s fun s => .done s

/-- gpiv (R376). -/
def execGpiv (o : OpR) (s : State) : Host.Outcome State Fault Refusal :=
  finish s <| issue s (Traits.ofR o (fx o.d) (fx o.a) (fk o.b)) fun i s =>
    let t := s.thread i.g
    precise i (slotFault s i.g [t.x i.a]) s fun s =>
    forkSolver i (.regs [i.d] []) (mkOp s i 6 i.d (slotOff (t.x i.a)) 0 0 0) s fun s => .done s

/-- gmclr (R371). -/
def execGmclr (o : OpR) (s : State) : Host.Outcome State Fault Refusal :=
  finish s <| issue s (Traits.ofR o (fk o.d) (fx o.a) (fx o.b)) fun i s =>
    let t := s.thread i.g
    let c := i.bval t
    precise i (orFault (bits c 63 16 != 0 || bits c 7 4 != 0 || bits c 3 0 == 0 || decide (8 < bits c 3 0)) badOperand
      (slotFault s i.g [t.x i.a])) s fun s =>
    forkSolver i .none (mkOp s i 7 0 (slotOff (t.x i.a)) 0 c 0) s fun s => .done s

end Sys2Proof.Machine
end

