-- ==== Sys2Proof/Machine/Maintenance.lean ====
section
/-! DEFINITION. The steps of a module's own upkeep (R27, R28, R84, R194, R195, R211, R424, R425): invalidation of translations,
suspending a job, Meridian's samples, the step governor and the power cap. -/

namespace Sys2Proof.Machine

/-! ## Invalidation of translations (R27, R28) -/

/-- What an invalidation covers: a range of a job, a job, everything. -/
inductive TrScope where
  | range | job | all
  deriving DecidableEq, Repr

def trJob (o : TrInv) (k : TrScope) (job : Nat) : Bool := k == .all || job == o.job

/-- Whether a 64 KiB page of a job is covered. -/
def trPage (o : TrInv) (k : TrScope) (job page : Nat) : Bool :=
  trJob o k job && (k != .range || decide (o.start ≤ page ∧ page < o.start + o.pages))

def trLine (o : TrInv) (k : TrScope) (job line : Nat) : Bool := trPage o k job (line / 512)

/-- Cached leaves, job entries and region entries of the module are dropped. (DEDUCED, log 68) -/
def dropTranslations (s : State) (o : TrInv) (k : TrScope) : State :=
  { s with
    ctrls := tmap (fun n c => if n / 256 = o.module then
        { c with leaves := c.leaves.filter fun e => !trPage o k (e.1 / 2 ^ 41) (e.1 % 2 ^ 41) } else c) s.ctrls
    cores := tmap (fun n c => if moduleOf n = o.module then
        { c with
          jobCache := c.jobCache.filter fun e => !trJob o k e.1
          regionCache := c.regionCache.filter fun e => !trJob o k (e.1 / 128) } else c) s.cores }

/-- Lines that a controller's synonym filter names leave every cache; the filter is inclusive of what is held anywhere (R26). -/
def purgeNames (gdie : Nat) : List (Nat × Nat × Nat) → State → State
  | [], s => s
  | e :: t, s => purgeNames gdie t (purgeLine s (gdie * 16 + sliceOf (e.2.2 * 128)) e.2.1 e.2.2)

def purgeCtrls (o : TrInv) (k : TrScope) : List (Nat × Ctrl) → State → State
  | [], s => s
  | (n, c) :: t, s =>
    purgeCtrls o k t (if n / 256 = o.module then purgeNames (n / 4) (c.syn.filter fun e => trLine o k e.2.1 e.2.2) s else s)

/-- Registered words that cores of the module hold for homes elsewhere are written back there. -/
def recallLines : List (Nat × L1Line) → State → State
  | [], s => s
  | (_, l) :: t, s => recallLines t (recallLine s l.home l.job l.line)

def recallCores (o : TrInv) (k : TrScope) : List (Nat × Core) → State → State
  | [], s => s
  | (n, c) :: t, s =>
    recallCores o k t (if moduleOf n = o.module then recallLines (c.l1d.filter fun e => trLine o k e.2.job e.2.line) s else s)

/-- DATA = 1: every cached copy is written back and dropped, with its permissions and its entry of the synonym filter, and no fill under
way installs a line that is covered (R28). -/
def dropData (s : State) (o : TrInv) (k : TrScope) : State :=
  let s := recallCores o k s.cores (purgeCtrls o k s.ctrls s)
  let mine (n : Nat) : Bool := moduleOf n == o.module
  stopFills (fun n j l => mine n && trLine o k j l)
    (dropL1 (fun n l => mine n && trLine o k l.job l.line) (fun n l => mine n && trLine o k l.job l.line) s)

/-- An invalidation runs; BUSY clears in a step of its own. (DEDUCED, log 68) -/
def invalidate (s : State) (o : TrInv) (k : TrScope) : State :=
  let s := dropTranslations s o k
  let s := if o.data then dropData s o k else s
  s.post ⟨s.now, fromModule o.module, atModule o.module, .trinvDone ⟨o.module⟩⟩

/-- TRINV_RANGE (R27). -/
def execTrinvRange (o : TrInv) (s : State) : Host.Outcome State Fault Refusal := finish s (invalidate s o .range)

/-- TRINV_JOB (R27). -/
def execTrinvJob (o : TrInv) (s : State) : Host.Outcome State Fault Refusal := finish s (invalidate s o .job)

/-- TRINV_ALL (R27). -/
def execTrinvAll (o : TrInv) (s : State) : Host.Outcome State Fault Refusal := finish s (invalidate s o .all)

/-- TRINV_DONE (R28). -/
def execTrinvDone (o : ModRef) (s : State) : Host.Outcome State Fault Refusal :=
  finish s (s.modModu o.module fun x => { x with trBusy := false })

/-! ## Suspending a job (R211) -/

/-- JOBSW_SUSPEND (R211): the job's work is held; BUSY clears once no slot is held. (DEDUCED, log 69) -/
def execJobswSuspend (o : JobRef) (s : State) : Host.Outcome State Fault Refusal :=
  finish s <|
    s.modModu o.module fun x =>
      { x with
        suspended := if x.suspended.contains o.job then x.suspended else x.suspended ++ [o.job]
        jsBusy := heldSlots s o.module o.job != 0 }

/-- JOBSW_RESUME (R211): every restriction is lifted at once. -/
def execJobswResume (o : JobRef) (s : State) : Host.Outcome State Fault Refusal :=
  finish s <|
    askAdmission (s.modModu o.module fun x => { x with suspended := x.suspended.filter (· != o.job), jsBusy := false }) o.module

/-! ## Slice counters (R84) -/

/-- SQSTAT_CLEAR (R84). -/
def execSqstatClear (o : SliceRef) (s : State) : Host.Outcome State Fault Refusal :=
  finish s (s.modSlice o.gslice fun x => { x with maxo := 0 })

/-! ## Meridian (R195) -/

/-- The job of a message in a router's buffers. -/
def flitJob (s : State) : Event → Option Nat
  | .collectiveAllreduce c | .collectiveBroadcast c | .hostToDevice c | .deviceToHost c => some c.job
  | .collectiveCompletion d => some d.c.job
  | .collectiveCancelNotice r => some r.job
  | .dandelionWake w => some w.wake.ids.job
  | .nolkaiMulticast m =>
    match m.body with
    | .wake w => some w.ids.job
    | .cancel k => some k.ids.job
  | .rerankNotice r => some r.ids.job
  | .launchCompletion r => some r.ids.job
  | .workListShipment w => (w.entries.head?).map (·.ids.job)
  | .cancelFlood c => some c.key.ids.job
  | .migrantPacketArrival p => some p.ctx.ids.job
  | .faultResponse r => some (s.thread r.gti).ctx.ids.job
  | .softInterruptDelivery r => some r.job
  | .resultReturn r => some (s.thread r.gti).ctx.ids.job
  | .lineFill r | .forwardedRead r | .copySliceMiss r => some r.job
  | .speculativeStoreReceipt w => some w.job
  | .commitInstall c => some c.job
  | .revoke r => some r.job
  | .deregistration d => some d.job
  | .copyFillArrival c => some c.job
  | .copyInvalidation c => some c.job
  | .holderNotice n | .commutativeFlush n => some n.key.job
  | .collection r => some r.job
  | .fallBackAtomicGrant a => some a.job
  | .remoteScratchpadWrite w => some (s.thread w.gti).ctx.ids.job
  | .remoteScratchpadRead r => some (s.thread r.gti).ctx.ids.job
  | .ephemerisCreate c => some c.t.job
  | .ephemerisLoad l => some l.t.job
  | .ephemerisRelease r => some r.t.job
  | .ephemerisPin p => some p.t.job
  | .ephemerisUnpin t => some t.job
  | .ephemerisCommit q | .ephemerisDiscard q => some q.t.job
  | .waiterCancel w => some w.t.job
  | .subscriptionRecord q => some q.t.job
  | .arrivalNotice n => some n.job
  | .promotionCompletion p => some p.t.job
  | .frameAdmission q => some q.job
  | .streamFillElement r | .streamDrainWrite r => some (s.thread r.gti).ctx.ids.job
  | .heliostatLineReceive h => some h.job
  | .msendDelivery m | .qputDelivery m => some m.job
  | .mailboxMessageArrival m => some m.job
  | .nonSpeculativeHomeWrite w => some w.w.job
  | _ => none

/-- A thread of the job that is running, parked or halted (R195, R173), or being loaded; one whose wait has ended is runnable again (R158).
(DEDUCED, log 70) -/
def busyThread (s : State) (m job : Nat) (g : Nat) (t : Thread) : Bool :=
  decide (g < 2 ^ 33) && moduleOf (coreOf g) == m && t.ctx.ids.job == job &&
  match t.status with
  | .absent => (s.lease g).state == 1
  | .ready | .halted => true
  | .waiting w => !blocking w || woken s g w

/-- A core that is not idle for a job through its run queue, fired entries or work list. (DEDUCED, log 70) -/
def busyCore (job : Nat) (c : Core) : Bool :=
  (c.runq.any fun p => p.ctx.ids.job == job) || (c.wt.any fun e => e.2.fired && e.2.ids.job == job) ||
  c.work.any fun e => e.ids.job == job

/-- A slice whose queue holds a stalled operation or a seal of a job. -/
def busySlice (job : Nat) (x : Slice) : Bool := (x.stalls.any fun y => y.job == job) || x.seals.any fun w => w.job == job

/-- An I/O die that holds an undistributed wake, a flit on a link or a collective of a job. -/
def busyModule (s : State) (job : Nat) (x : Module) : Bool :=
  (x.launches.any fun l => !l.waked && l.ids.job == job) || (x.colls.any fun w => w.c.job == job) ||
  x.links.any fun l => l.2.flights.any fun f => flitJob s f.ev == some job

/-- Whether every party of a module drives its idle wire for a job (R195). -/
def jobIdle (s : State) (job m : Nat) : Bool :=
  !(s.threads.any fun e => busyThread s m job e.1 e.2) &&
  !(s.cores.any fun c => moduleOf c.1 == m && busyCore job c.2) &&
  !(s.slices.any fun x => sliceModule x.1 == m && busySlice job x.2) &&
  !(busyModule s job (s.modu m)) &&
  !(s.agenda.any fun f => (placeModule f.dst == m || srcModule f.src == m) && flitJob s f.ev == some job)

/-- The modules that a channel observes. -/
def merModules (s : State) (m : Nat) (k : MerCh) : List Nat := if k.dom then dieList (s.partition m k.job.toNat) 64 else [m]

/-- A channel after a sample. -/
def MerCh.sampled (k : MerCh) (idle : Bool) : MerCh :=
  if ¬ idle then { k with idle := 0, counted := false }
  else if k.idle = 0 then { k with idle := 1 }
  else if k.counted then { k with idle := 2 }
  else { k with idle := 2, counted := true, ends := k.ends + 1 }

/-- MERIDIAN_SAMPLE (R195): two idle samples in a row are a termination; the next sample comes at the next multiple of the gap. -/
def execMeridianSample (o : MerRef) (s : State) : Host.Outcome State Fault Refusal :=
  finish s <|
    let k := tget MerCh.off (s.modu o.module).mer o.ch
    if ¬ k.v then s
    else
      let k := MerCh.sampled k ((merModules s o.module k).all (jobIdle s k.job.toNat))
      (s.modModu o.module fun x => { x with mer := tput x.mer o.ch k }).later (MerCh.gap k - s.now % MerCh.gap k) (fromModule o.module) (atModule o.module)
        (.meridianSample o)

/-! ## Power (R424, R425) -/

/-- The sequencers of a die whose command waits for a grant look again. -/
def kickSequencers (gdie : Nat) : List (Nat × Core) → State → State
  | [], s => s
  | (n, c) :: t, s =>
    kickSequencers gdie t (if dieOf n = gdie ∧ ¬ c.sequencer.isEmpty then
      s.post ⟨s.now, fromThread (n * 16), atCore n, .matrixDispatch ⟨n⟩⟩ else s)

/-- The governor of a die ends a wait: STEPDLY has counted its cycles, and what waits asks again. (DESIGN CHOICE, log 66) -/
def grantDie (s : State) (gdie : Nat) : State := kickSequencers gdie s.cores (s.modDie gdie fun d => d.served s.now)

def grantDies (m : Nat) : List (Nat × Die) → State → State
  | [], s => s
  | (n, _) :: t, s => grantDies m t (if dieModule n = m then grantDie s n else s)

/-- GOVERNOR_GRANT (R425). -/
def execGovernorGrant (o : DieRef) (s : State) : Host.Outcome State Fault Refusal := finish s (grantDie s o.gdie)

/-- The report of capping that starts or ends (R431). -/
def powerReport (s : State) (m watts : Nat) (start : Bool) : Report :=
  ⟨m, 5, none, 0, 10, 0, 0, .ofNat 79 (bitNat start + (s.modu m).pwrcap.toNat * 2 + watts % 2 ^ 14 * 2 ^ 15)⟩

/-- POWER_CAP_START (R425): package power passes PWRCAP, or 8,000 W (R424). -/
def execPowerCapStart (o : PowerEvent) (s : State) : Host.Outcome State Fault Refusal :=
  finish s <|
    let x := s.modu o.module
    let s := s.modModu o.module fun x => { x with watts := o.watts }
    if x.capping ∨ o.watts ≤ powerLimit x then s
    else (s.modModu o.module fun x => { x with capping := true }).report (powerReport s o.module o.watts true)

/-- POWER_CAP_END (R425): package power is within the limit again, and what waited for a grant goes on. -/
def execPowerCapEnd (o : PowerEvent) (s : State) : Host.Outcome State Fault Refusal :=
  finish s <|
    let x := s.modu o.module
    let s := s.modModu o.module fun x => { x with watts := o.watts }
    if ¬ x.capping ∨ powerLimit x < o.watts then s
    else
      let s := s.modModu o.module fun x => { x with capping := false }
      (grantDies o.module s.dies s).report (powerReport s o.module o.watts false)

end Sys2Proof.Machine
end

