-- ==== Sys2Proof/Machine/Modifiers.lean ====
section
/-! DEFINITION. The modifier words of a sequence and the scheduling hints (R220 to R226, R235), and words without a meaning (R233,
R234). -/

namespace Sys2Proof.Machine

/-! ## Scheduling hints (R223) -/

/-- A hint word: it stands alone, so inside a sequence, or under a resume form, it is illegal; else it does what `f` makes of its
address and is done. It is a modifier word, and so ends no loop (R274). A displaced one is a step (R214). -/
def hint (s : State) (f : Nat → State → State) : State :=
  let g := s.cur
  let t := s.thread g
  if t.seq.isSome then enter s g illegal
  else if bit t.ctx.pc 63 then enter s g { illegal with pc := some (wordAddr t.ctx.pc) }
  else
    (f g s).modThread g fun t =>
      { t.clearWord.settle false (t.displaced && t.ctx.ss) with
        parkPc := t.reportPc
        ctx := { t.ctx with pc := nextPc t.ctx.pc } }

/-- The linear address of a hint and its home slice; none: the fetch is dropped, as it is where a link on its way is not UP. (DEDUCED, log 43) -/
def hintHome (s : State) (g : Nat) (ptr : Word) (acc : Access) : Option (Nat × Nat) :=
  match s.resolve g ptr acc with
  | .ok (.linear a) =>
    match s.home (coreOf g) (s.thread g).ctx.ids.job a with
    | .ok h => if s.way (moduleOf (coreOf g)) (sliceModule h) = .clear then some (a, h) else none
    | .error _ => none
  | _ => none

/-- x[A] + K. -/
def hintPtr (s : State) (g : Nat) (o : OpHsch) : Word := (s.thread g).x o.a.toNat + .ofInt 64 (intVal 17 true o.k.toNat)

/-- The line at a pointer enters L1 with policy NORMAL, unless the task has written it. (DEDUCED, log 43) -/
def prefetchL1 (s : State) (g : Nat) (ptr : Word) : State :=
  match hintHome s g ptr .load with
  | none => s
  | some (a, h) =>
    let t := s.thread g
    let job := t.ctx.ids.job
    let s' := s.noteEntries (coreOf g) job a
    let r := readLineFor false (s'.overLinks (moduleOf (coreOf g)) (sliceModule h)) h job (a / 128) allWords (t.ctx.mode == .user) false
    orHeld s <| match r.2 with
    | .error _ => r.1
    | .ok (l, hl) =>
      if t.units.contains (h, a / 128) || t.filter.contains (lineKey job (a / 128)) then r.1
      else installL1 r.1 ⟨coreOf g, job, a / 128, h, l, hl.perms, false⟩

/-- The line at a pointer is filled at its home slice, which accepts the request in any case (R84). -/
def prefetchSlice (s : State) (g : Nat) (ptr : Word) : State :=
  match hintHome s g ptr .load with
  | none => s
  | some (a, h) =>
    let t := s.thread g
    let job := t.ctx.ids.job
    let back := s
    let s := ((s.overLinks (moduleOf (coreOf g)) (sliceModule h)).noteEntries (coreOf g) job a).serve h
    orHeld back <| match homeFill s h job (a / 128) (fun p => permOk p (t.ctx.mode == .user) false false) false with
    | .error _ => s
    | .ok (s', hl) => if s'.badLine hl.frame then s else s'

/-- The instruction line at a pointer enters the instruction cache if its fetch would not fault. -/
def prefetchInstr (s : State) (g : Nat) (ptr : Word) : State :=
  match hintHome s g ptr .fetch with
  | none => s
  | some (a, _) =>
    let t := s.thread g
    let job := t.ctx.ids.job
    match l1iFind (s.core (coreOf g)) job (a / 128) with
    | some _ => s
    | none =>
      let r := instructionLine s (coreOf g) job (a / 128) (t.ctx.mode == .user)
      orHeld s <| match r.2 with
      | .error _ => s
      | .ok (d, p) => l1iInstall r.1 (coreOf g) ⟨job, a / 128, p, d, none, false, s.now⟩

/-- hnop. -/
def execHnop (_ : OpHsch) (s : State) : Host.Outcome State Fault Refusal := finish s <| hint s fun _ s => s

/-- pfl1. -/
def execPfl1 (o : OpHsch) (s : State) : Host.Outcome State Fault Refusal :=
  finish s <| hint s fun g s => prefetchL1 s g (hintPtr s g o)

/-- pfsl. -/
def execPfsl (o : OpHsch) (s : State) : Host.Outcome State Fault Refusal :=
  finish s <| hint s fun g s => prefetchSlice s g (hintPtr s g o)

/-- pfi. -/
def execPfi (o : OpHsch) (s : State) : Host.Outcome State Fault Refusal :=
  finish s <| hint s fun g s => prefetchInstr s g ((s.thread g).ctx.pc + 4 * .ofInt 64 (intVal 17 true o.k.toNat))

/-- The hints of KIND 4 to 7: no effect but MODFB (R235). -/
def execHschKind47 (_ : OpHschK) (s : State) : Host.Outcome State Fault Refusal :=
  finish s <| hint s fun g s => s.modCtx g fun c => { c with modfb := true }

/-! ## The words of a sequence (R221, R222, R224, R225, R226) -/

/-- A word of a sequence has issued; the next word follows. -/
def seqNext (s : State) (g : Nat) (q : SeqSt) : State :=
  s.modThread g fun t =>
    { t with
      status := .ready
      seq := some q
      displaced := false
      ctx := { t.ctx with pc := nextPc (wordAddr t.ctx.pc) } }

/-- A word other than a REP under a resume form is illegal at the named address (R226). -/
def inSequence (s : State) (f : SeqSt → State) : State :=
  let g := s.cur
  let t := s.thread g
  if t.seq.isNone && bit t.ctx.pc 63 then enter s g { illegal with pc := some (wordAddr t.ctx.pc) }
  else f (t.seq.getD (SeqSt.plain (wordAddr t.ctx.pc)))

/-- A rare-modifier word (R222): of two the later applies, and a third is illegal. -/
def execHmod (o : OpHmod) (s : State) : Host.Outcome State Fault Refusal :=
  finish s <| inSequence s fun q =>
    if 2 ≤ q.nmod then enter s s.cur illegal
    else
      seqNext (if q.nmod = 0 then s else s.modCtx s.cur fun c => { c with modfb := true }) s.cur
        { q with
          hmod := some o
          nmod := q.nmod + 1 }

/-- A wide-immediate word (R221): a fourth is illegal. -/
def execHimm (o : OpHimm) (s : State) : Host.Outcome State Fault Refusal :=
  finish s <| inSequence s fun q =>
    if 3 ≤ q.nimm then enter s s.cur illegal
    else
      seqNext s s.cur
        { q with
          himm := q.himm * 2 ^ 25 + o.h.toNat
          nimm := q.nimm + 1 }

/-- A repeat prefix (R224): it stands first; under a resume form the sequence goes on at repetition k (R226). -/
def execRep (o : OpRep) (s : State) : Host.Outcome State Fault Refusal :=
  finish s <|
    let g := s.cur
    let t := s.thread g
    let k := if bit t.ctx.pc 63 then bits t.ctx.pc 62 57 else 0
    if t.seq.isSome then enter s g illegal
    else if o.n.toNat < k then enter s g { illegal with pc := some (wordAddr t.ctx.pc) }
    else
      seqNext s g { SeqSt.plain (wordAddr t.ctx.pc) with
        rep := some o
        k := k }

/-! ## Words without a meaning (R233, R234) -/

/-- ILLEGAL_INSTRUCTION at the PC of R225; under a resume form at the named address (R226). (DEDUCED, log 80) (DEDUCED, log 81) -/
def execIllegalEncoding (_ : BadWord) (s : State) : Host.Outcome State Fault Refusal :=
  finish s <|
    let t := s.thread s.cur
    enter s s.cur
      (if t.seq.isNone && bit t.ctx.pc 63 then { illegal with pc := some (wordAddr t.ctx.pc) } else illegal)

end Sys2Proof.Machine
end

