-- ==== Sys2Proof/Machine/Scalar.lean ====
section
/-! DEFINITION. The scalar integer, bit-field and condition-bit instructions (R264 to R269): OP 0x01 to 0x09. -/

namespace Sys2Proof.Machine

/-! ## Shapes -/

/-- An INT form with a plain result of x[A] and x[B]. -/
def intOp (s : State) (o : OpR) (f : Word → Word → Word) : State :=
  issue s (Traits.ofR o (fx o.d) (fx o.a) (fx o.b)) fun i s =>
    let t := s.thread i.g
    setD i s (f (t.x i.a) (i.bval t))

/-- An INT form whose result may saturate or set a flag (R264 to R266). -/
def intFlagOp (s : State) (o : OpR) (sat : Bool) (f : Bool → Word → Word → FRes) : State :=
  issue s { Traits.ofR o (fx o.d) (fx o.a) (fx o.b) with sets := true, sat := sat } fun i s =>
    let t := s.thread i.g
    setDF i s (f i.sat (t.x i.a) (i.bval t))

/-- An INT form of x[A] alone, B reserved. -/
def intUnary (s : State) (o : OpR) (f : Word → Word) : State :=
  issue s (Traits.ofR o (fx o.d) (fx o.a) fnone) fun i s => setD i s (f ((s.thread i.g).x i.a))

/-- An I-format arithmetic form (R267). -/
def immOp (s : State) (o : OpI) (f : Word → Word → Word) : State :=
  issue s (Traits.ofI o (fx o.d) (fx o.a)) fun i s => setD i s (f ((s.thread i.g).x i.a) i.imm)

/-- A SHI form (R267): x[A] shifted or rotated by K[5:0]. -/
def shiftOp (s : State) (o : OpSh) (form : Nat) (f : Word → Nat → Word) : State :=
  issue s (Traits.ofSh o form (fx o.d) (fx o.a)) fun i s => setD i s (f ((s.thread i.g).x i.a) o.k.toNat)

/-- A compare of x registers into c[D] (R269). -/
def cmpOp (s : State) (o : OpR) (f : Word → Word → Bool) : State :=
  issue s (Traits.ofR o (fc o.d) (fx o.a) (fx o.b)) fun i s =>
    let t := s.thread i.g
    let v := f (t.x i.a) (i.bval t)
    doneT i s fun t => t.setC i.d v

/-- An operation on condition bits (R269). -/
def condOp (s : State) (o : OpR) (f : Bool → Bool → Bool) : State :=
  issue s (Traits.ofR o (fc o.d) (fc o.a) (fc o.b)) fun i s =>
    let t := s.thread i.g
    let v := f (t.creg i.a) (t.creg i.b)
    doneT i s fun t => t.setC i.d v

/-! ## Results -/

/-- The amount of a shift or rotate: x[B][5:0] (R264). -/
def amount (b : Word) : Nat := b.toNat % 64

/-- Signed order. -/
def sLess (a b : Word) : Bool := decide (a.toInt < b.toInt)
def uLess (a b : Word) : Bool := decide (a.toNat < b.toNat)

def addRes (sat : Bool) (a b : Word) : FRes := if sat then satInt 64 true (a.toInt + b.toInt) else ((a + b).toNat, 0)
def subRes (sat : Bool) (a b : Word) : FRes := if sat then satInt 64 true (a.toInt - b.toInt) else ((a - b).toNat, 0)
def mulRes (sat : Bool) (a b : Word) : FRes := if sat then satInt 64 true (a.toInt * b.toInt) else ((a * b).toNat, 0)

/-- Quotients truncated toward zero, and remainders whose sign follows x[A] (R264, R265). -/
def divS (_ : Bool) (a b : Word) : FRes := if b = 0 then (0, fDZ) else (intBits 64 (a.toInt.tdiv b.toInt), 0)
def divU (_ : Bool) (a b : Word) : FRes := if b = 0 then (0, fDZ) else (a.toNat / b.toNat, 0)
def remS (_ : Bool) (a b : Word) : FRes := if b = 0 then (a.toNat, fDZ) else (intBits 64 (a.toInt.tmod b.toInt), 0)
def remU (_ : Bool) (a b : Word) : FRes := if b = 0 then (a.toNat, fDZ) else (a.toNat % b.toNat, 0)

/-- Bits [127:64] of the exact product (R264). -/
def mulhS (a b : Word) : Word := .ofInt 64 (a.toInt * b.toInt / 2 ^ 64)
def mulhU (a b : Word) : Word := .ofNat 64 (a.toNat * b.toNat / 2 ^ 64)

def rotL (a : Word) (n : Nat) : Word := a.rotateLeft n
def rotR (a : Word) (n : Nat) : Word := a.rotateRight n

/-- The count of leading zeros; 64 for 0. -/
def clzVal (a : Word) : Word := if a = 0 then 64 else .ofNat 64 (63 - Nat.log2 a.toNat)

/-- The count of trailing zeros below bit n. -/
def ctzGo (v : Nat) : Nat → Nat
  | 0 => 0
  | n + 1 => if v % 2 = 1 then 0 else 1 + ctzGo (v / 2) n

def ctzVal (a : Word) : Word := .ofNat 64 (ctzGo a.toNat 64)

/-- The count of one bits below bit n. -/
def popGo (v : Nat) : Nat → Nat
  | 0 => 0
  | n + 1 => v % 2 + popGo (v / 2) n

def popVal (a : Word) : Word := .ofNat 64 (popGo a.toNat 64)

/-- The n low bits in reverse order. -/
def revGo (v : Nat) : Nat → Nat
  | 0 => 0
  | n + 1 => v % 2 * 2 ^ n + revGo (v / 2) n

def brevVal (a : Word) : Word := .ofNat 64 (revGo a.toNat 64)
def bswapVal (a : Word) : Word := wordOf (bytesOf 8 a).reverse

/-- sext from bit x[B][5:0] (R264). -/
def sextVal (a b : Word) : Word := .ofInt 64 (intVal (amount b + 1) true a.toNat)

def absVal (a : Word) : Word := if sLess a 0 then 0 - a else a

/-- The width of a field cut at bit 63 (R268). -/
def fieldWidth (off wid : Nat) : Nat := min wid (64 - off)

def bfxU (a b : Word) : Word :=
  let off := bits b 15 8
  let wid := bits b 7 0
  if wid = 0 ∨ 64 ≤ off then 0 else .ofNat 64 (a.toNat / 2 ^ off % 2 ^ fieldWidth off wid)

def bfxS (a b : Word) : Word :=
  let off := bits b 15 8
  let wid := bits b 7 0
  if wid = 0 ∨ 64 ≤ off then 0 else .ofInt 64 (intVal (fieldWidth off wid) true (a.toNat / 2 ^ off))

/-- bfi of a field of x[A] into d (R268). -/
def bfiVal (d a b : Word) : Word :=
  let off := bits b 15 8
  let wid := bits b 7 0
  if wid = 0 ∨ 64 ≤ off then d
  else
    let mask : Word := .ofNat 64 ((2 ^ fieldWidth off wid - 1) * 2 ^ off)
    (d &&& ~~~mask) ||| ((a <<< off) &&& mask)

/-! ## INT (R264 to R266) -/

/-- add: wrapping, or saturating under HMOD.SAT (R264, R266). -/
def execAdd (o : OpR) (s : State) : Host.Outcome State Fault Refusal := finish s (intFlagOp s o true addRes)

/-- sub (R264, R266). -/
def execSub (o : OpR) (s : State) : Host.Outcome State Fault Refusal := finish s (intFlagOp s o true subRes)

/-- mul: the low 64 bits (R264, R266). -/
def execMul (o : OpR) (s : State) : Host.Outcome State Fault Refusal := finish s (intFlagOp s o true mulRes)

/-- mulh.s64 (R264). -/
def execMulhS64 (o : OpR) (s : State) : Host.Outcome State Fault Refusal := finish s (intOp s o mulhS)

/-- mulh.n64 (R264). -/
def execMulhN64 (o : OpR) (s : State) : Host.Outcome State Fault Refusal := finish s (intOp s o mulhU)

/-- div.s64 (R264, R265). -/
def execDivS64 (o : OpR) (s : State) : Host.Outcome State Fault Refusal := finish s (intFlagOp s o false divS)

/-- div.n64 (R264, R265). -/
def execDivN64 (o : OpR) (s : State) : Host.Outcome State Fault Refusal := finish s (intFlagOp s o false divU)

/-- rem.s64 (R264, R265). -/
def execRemS64 (o : OpR) (s : State) : Host.Outcome State Fault Refusal := finish s (intFlagOp s o false remS)

/-- rem.n64 (R264, R265). -/
def execRemN64 (o : OpR) (s : State) : Host.Outcome State Fault Refusal := finish s (intFlagOp s o false remU)

/-- and (R264). -/
def execAnd (o : OpR) (s : State) : Host.Outcome State Fault Refusal := finish s (intOp s o fun a b => a &&& b)

/-- or (R264). -/
def execOr (o : OpR) (s : State) : Host.Outcome State Fault Refusal := finish s (intOp s o fun a b => a ||| b)

/-- xor (R264). -/
def execXor (o : OpR) (s : State) : Host.Outcome State Fault Refusal := finish s (intOp s o fun a b => a ^^^ b)

/-- andn (R264). -/
def execAndn (o : OpR) (s : State) : Host.Outcome State Fault Refusal := finish s (intOp s o fun a b => a &&& ~~~b)

/-- orn (R264). -/
def execOrn (o : OpR) (s : State) : Host.Outcome State Fault Refusal := finish s (intOp s o fun a b => a ||| ~~~b)

/-- xnor (R264). -/
def execXnor (o : OpR) (s : State) : Host.Outcome State Fault Refusal := finish s (intOp s o fun a b => ~~~(a ^^^ b))

/-- sll (R264). -/
def execSll (o : OpR) (s : State) : Host.Outcome State Fault Refusal := finish s (intOp s o fun a b => a <<< amount b)

/-- srl (R264). -/
def execSrl (o : OpR) (s : State) : Host.Outcome State Fault Refusal := finish s (intOp s o fun a b => a >>> amount b)

/-- sra (R264). -/
def execSra (o : OpR) (s : State) : Host.Outcome State Fault Refusal := finish s (intOp s o fun a b => a.sshiftRight (amount b))

/-- rol (R264). -/
def execRol (o : OpR) (s : State) : Host.Outcome State Fault Refusal := finish s (intOp s o fun a b => rotL a (amount b))

/-- ror (R264). -/
def execRor (o : OpR) (s : State) : Host.Outcome State Fault Refusal := finish s (intOp s o fun a b => rotR a (amount b))

/-- min.s64 (R264). -/
def execMinS64 (o : OpR) (s : State) : Host.Outcome State Fault Refusal := finish s (intOp s o fun a b => if sLess b a then b else a)

/-- max.s64 (R264). -/
def execMaxS64 (o : OpR) (s : State) : Host.Outcome State Fault Refusal := finish s (intOp s o fun a b => if sLess a b then b else a)

/-- min.n64 (R264). -/
def execMinN64 (o : OpR) (s : State) : Host.Outcome State Fault Refusal := finish s (intOp s o fun a b => if uLess b a then b else a)

/-- max.n64 (R264). -/
def execMaxN64 (o : OpR) (s : State) : Host.Outcome State Fault Refusal := finish s (intOp s o fun a b => if uLess a b then b else a)

/-- clz (R264). -/
def execClz (o : OpR) (s : State) : Host.Outcome State Fault Refusal := finish s (intUnary s o clzVal)

/-- ctz (R264). -/
def execCtz (o : OpR) (s : State) : Host.Outcome State Fault Refusal := finish s (intUnary s o ctzVal)

/-- popc (R264). -/
def execPopc (o : OpR) (s : State) : Host.Outcome State Fault Refusal := finish s (intUnary s o popVal)

/-- brev (R264). -/
def execBrev (o : OpR) (s : State) : Host.Outcome State Fault Refusal := finish s (intUnary s o brevVal)

/-- bswap (R264). -/
def execBswap (o : OpR) (s : State) : Host.Outcome State Fault Refusal := finish s (intUnary s o bswapVal)

/-- sext from bit x[B][5:0] (R264). -/
def execSext (o : OpR) (s : State) : Host.Outcome State Fault Refusal := finish s (intOp s o sextVal)

/-- abs; −2^63 stays (R264). -/
def execAbs (o : OpR) (s : State) : Host.Outcome State Fault Refusal := finish s (intUnary s o absVal)

/-! ## I format (R267) -/

/-- addi (R267). -/
def execAddi (o : OpI) (s : State) : Host.Outcome State Fault Refusal := finish s (immOp s o fun a k => a + k)

/-- andi (R267). -/
def execAndi (o : OpI) (s : State) : Host.Outcome State Fault Refusal := finish s (immOp s o fun a k => a &&& k)

/-- ori (R267). -/
def execOri (o : OpI) (s : State) : Host.Outcome State Fault Refusal := finish s (immOp s o fun a k => a ||| k)

/-- xori (R267). -/
def execXori (o : OpI) (s : State) : Host.Outcome State Fault Refusal := finish s (immOp s o fun a k => a ^^^ k)

/-- slli (R267). -/
def execSlli (o : OpSh) (s : State) : Host.Outcome State Fault Refusal := finish s (shiftOp s o 0 fun a k => a <<< k)

/-- srli (R267). -/
def execSrli (o : OpSh) (s : State) : Host.Outcome State Fault Refusal := finish s (shiftOp s o 1 fun a k => a >>> k)

/-- srai (R267). -/
def execSrai (o : OpSh) (s : State) : Host.Outcome State Fault Refusal := finish s (shiftOp s o 2 fun a k => a.sshiftRight k)

/-- rori (R267). -/
def execRori (o : OpSh) (s : State) : Host.Outcome State Fault Refusal := finish s (shiftOp s o 3 fun a k => rotR a k)

/-- lea: PC + 4 × K, with A reserved (R267). -/
def execLea (o : OpI) (s : State) : Host.Outcome State Fault Refusal :=
  finish s (issue s (Traits.ofI o (fx o.d) fnone) fun i s => setD i s (i.pc + 4 * i.imm))

/-! ## BITF (R268) -/

/-- bfx.n64 (R268). -/
def execBfxN64 (o : OpR) (s : State) : Host.Outcome State Fault Refusal := finish s (intOp s o bfxU)

/-- bfx.s64 (R268). -/
def execBfxS64 (o : OpR) (s : State) : Host.Outcome State Fault Refusal := finish s (intOp s o bfxS)

/-- bfi: x[D] is read and written (R268). -/
def execBfi (o : OpR) (s : State) : Host.Outcome State Fault Refusal :=
  finish s (issue s (Traits.ofR o (fx o.d) (fx o.a) (fx o.b)) fun i s =>
    let t := s.thread i.g
    setD i s (bfiVal (t.x i.d) (t.x i.a) (i.bval t)))

/-! ## CMP (R269) -/

/-- cmp.eq: c[D] := x[A] = x[B] (R269). -/
def execCmpEq (o : OpR) (s : State) : Host.Outcome State Fault Refusal := finish s (cmpOp s o fun a b => a == b)

/-- cmp.ne (R269). -/
def execCmpNe (o : OpR) (s : State) : Host.Outcome State Fault Refusal := finish s (cmpOp s o fun a b => a != b)

/-- cmp.lt.s64 (R269). -/
def execCmpLtS64 (o : OpR) (s : State) : Host.Outcome State Fault Refusal := finish s (cmpOp s o fun a b => sLess a b)

/-- cmp.ge.s64 (R269). -/
def execCmpGeS64 (o : OpR) (s : State) : Host.Outcome State Fault Refusal := finish s (cmpOp s o fun a b => !sLess a b)

/-- cmp.lt.n64 (R269). -/
def execCmpLtN64 (o : OpR) (s : State) : Host.Outcome State Fault Refusal := finish s (cmpOp s o fun a b => uLess a b)

/-- cmp.ge.n64 (R269). -/
def execCmpGeN64 (o : OpR) (s : State) : Host.Outcome State Fault Refusal := finish s (cmpOp s o fun a b => !uLess a b)

/-- cmp.tst: whether a common bit is set (R269). -/
def execCmpTst (o : OpR) (s : State) : Host.Outcome State Fault Refusal := finish s (cmpOp s o fun a b => a &&& b != 0)

/-- cmp.tstz: whether no common bit is set (R269). -/
def execCmpTstz (o : OpR) (s : State) : Host.Outcome State Fault Refusal := finish s (cmpOp s o fun a b => a &&& b == 0)

/-- cand (R269). -/
def execCand (o : OpR) (s : State) : Host.Outcome State Fault Refusal := finish s (condOp s o fun a b => a && b)

/-- cor (R269). -/
def execCor (o : OpR) (s : State) : Host.Outcome State Fault Refusal := finish s (condOp s o fun a b => a || b)

/-- cxor (R269). -/
def execCxor (o : OpR) (s : State) : Host.Outcome State Fault Refusal := finish s (condOp s o fun a b => a != b)

/-- candn (R269). -/
def execCandn (o : OpR) (s : State) : Host.Outcome State Fault Refusal := finish s (condOp s o fun a b => a && !b)

/-- mfcw: the condition word (R269). -/
def execMfcw (o : OpR) (s : State) : Host.Outcome State Fault Refusal :=
  finish s (issue s (Traits.ofR o (fx o.d) fnone fnone) fun i s => setD i s ((s.thread i.g).ctx.cond.setWidth 64))

/-- mtcw: the condition word := x[A][15:0] (R269). -/
def execMtcw (o : OpR) (s : State) : Host.Outcome State Fault Refusal :=
  finish s (issue s (Traits.ofR o fnone (fx o.a) fnone) fun i s =>
    let v := ((s.thread i.g).x i.a).setWidth 16
    doneT i s fun t => { t with ctx := { t.ctx with cond := v } })

end Sys2Proof.Machine
end

