-- ==== Sys2Proof/Machine/Select.lean ====
section
/-! DEFINITION. Which step comes next (R117, R158 to R161, R173, R198): an input of the outside, a message or step of the agenda, a
thread's next word or the event that its issue takes instead, or a tick of the clock. -/

namespace Sys2Proof.Machine

/-! ## What a thread's issue takes (R198) -/

/-- A takeable interrupt (R160): the lowest bit of IPEND and IMASK. -/
def lowestBit (n : BitVec 4) : BitVec 4 :=
  if n.getLsbD 0 then 0 else if n.getLsbD 1 then 1 else if n.getLsbD 2 then 2 else 3

def takeable (s : State) (g : Nat) : Option (BitVec 4) :=
  let c := (s.thread g).ctx
  let w := s.ipend g &&& c.imask
  if c.ie && c.mode != .monitor && !c.cause.live && w != 0 then some (lowestBit w) else none

/-- Whether the thread's request of this issue is still out: it holds off what would end a wait for its answer. -/
def answerDue (t : Thread) : Bool := t.out.any fun o => o.id + 1 == t.nextId

/-- The wait at which a parked thread looks for a solver fault (R370): results. -/
def parkFault (t : Thread) : Option FaultRec :=
  match t.status with
  | .waiting .results =>
    (t.eng.find? fun e => e.fault.engine == 6).map fun e => { e.fault with pc := some (e.fault.pc.getD t.parkPc) }
  | _ => none

/-- A fault that the thread's issue takes now (R30, R198): that of an earlier instruction; a solver's at the end of a park; at a
blocking point a posted store's, which no thread waits with. -/
def faultDue (s : State) (g : Nat) : Option FaultRec :=
  let t := s.thread g
  match t.status with
  | .absent | .halted => none
  | .ready => if t.stage ≠ .start then none else t.pend.head?
  | .waiting w =>
    if blocking w then
      match t.pend.head? with
      | some f => some f
      | none => (t.stf.head?).map fun e => { e.fault with pc := some t.reportPc }
    else
      match w with
      | .answer => if answerDue t then none else t.pend.head?
      | .stop => none
      | .unit => if t.att.isSome then none else t.pend.head?
      | .ready _ => t.pend.head?
      | _ =>
        -- a commit past its fill check is completed (R168)
        if woken s g w ∧ t.stage ≠ .installing ∧ t.stage ≠ .publishing then
          match t.pend.head? with
          | some f => some f
          | none => parkFault t
        else none

/-- Whether the thread stands where an interrupt, a single step or a pre-emption may come (R225, R226): outside a sequence, or
between two repetitions. -/
def outside (t : Thread) : Bool :=
  match t.seq with
  | none => true
  | some q => q.point

/-- Whether the thread takes an interrupt now. -/
def irqDue (s : State) (g : Nat) : Option (BitVec 4) :=
  let t := s.thread g
  match t.status with
  | .ready => if t.stage = .start ∧ outside t then takeable s g else none
  | .waiting .results => if t.stage = .start ∧ outside t ∧ woken s g .results then takeable s g else none
  | .waiting .unit => if t.stage = .start ∧ outside t then takeable s g else none
  | .waiting _ => if canAbandon s g then takeable s g else none
  | _ => none

/-- Whether a single step is due (R214): the results of the step have returned. -/
def stepDue (s : State) (g : Nat) : Bool :=
  let t := s.thread g
  t.stepDue && t.stage == .start && !t.displaced && outside t &&
  match t.status with
  | .ready => t.out.isEmpty
  | .waiting .results => t.out.isEmpty
  | _ => false

/-- Whether a slot's thread can issue, or take an event in place of its issue. -/
def issuable (s : State) (g : Nat) (t : Thread) : Bool :=
  decide (g < 2 ^ 33) &&
  match t.status with
  | .absent | .halted => false
  | .ready => true
  | .waiting w => woken s g w || (faultDue s g).isSome || (irqDue s g).isSome || (doomedBy s g).isSome

/-- What is performed next. -/
inductive Turn where
  | word (w : BitVec 32)
  | event (e : Event)
  | idle
  deriving DecidableEq, Repr

/-- The end of a park that waited for operations of the solver: their join, an acquire (R370). -/
def endPark (s : State) (g : Nat) : State :=
  let t := s.thread g
  if t.solverJoin ∧ (t.status = .waiting .results ∨ t.status = .waiting .returned) ∧ t.out.isEmpty then
    acquireCore (s.modThread g fun t => { t with solverJoin := false }) (coreOf g)
  else s

/-- The issue of a thread (R198): an abandoned tile operation first leaves its home (R161). A word that no link can bring now is fetched later (R410). -/
def threadTurn (s : State) (g : Nat) : State × Turn :=
  let s := endPark { s with cur := g } g
  let leaving := match heldOp s g with
    | some w => if opHeld s w then some w else none
    | none => none
  match doomedBy s g, faultDue s g, stepDue s g, irqDue s g with
  | some k, _, _, _ => (s, .event (.cancelFlood ⟨coreOf g, k⟩))
  | none, some f, _, _ =>
    match leaving with
    | some w => (s, .event (.waiterCancel w))
    | none => (s, .event (.trapEntry ⟨g, f⟩))
  | none, none, true, _ => (s, .event (.singleStep ⟨g⟩))
  | none, none, false, some b =>
    match leaving with
    | some w => (s, .event (.waiterCancel w))
    | none => (s, .event (.interruptEntry ⟨g, b⟩))
  | none, none, false, none =>
    let r := fetch s g
    if r.1.linkHeld && !s.linkHeld then (s, .idle)
    else match r.2 with
      | .ok w => (r.1, .word w)
      | .error f => (r.1, .event (.trapEntry ⟨g, f⟩))

/-! ## The agenda -/

/-- Whether a message is an access of a thread that has to be performed, where an engine of the thread may read or write (R127, R130): what the
thread did before the fork comes first. -/
def isAccess (g : Nat) : Event → Bool
  | .speculativeStoreReceipt w => w.gti == g
  | .lineFill r | .forwardedRead r | .copySliceMiss r => r.gti == g
  | .remoteScratchpadRead r => r.gti == g
  | ev => isDirectWrite g ev

/-- Whether an access of a thread has still to be performed: on its way, or a load that waits for a copy's fill. -/
def accessOut (s : State) (g : Nat) : Bool :=
  s.onWay (isAccess g) || s.slices.any fun x => x.2.copies.any fun c => c.2.waiting.any fun r => r.gti == g

/-- The thread for which an engine's step works. -/
def engineThread : Event → Option Nat
  | .streamFillElement r => some r.gti
  | .streamDrainWrite r => some r.gti
  | .heliostatLineReceive h => some h.gti
  | .collectiveAllreduce c | .collectiveBroadcast c | .hostToDevice c | .deviceToHost c => some c.gti
  | _ => none

/-- The frames of a sequence that came before one (R149). -/
def frameAhead (s : State) (q : FrameReq) : Bool :=
  (s.agenda.takeWhile fun f => f.ev != .frameAdmission q).any fun f =>
    match f.ev with
    | .frameAdmission p => p.gslice == q.gslice && p.job == q.job && p.desc == q.desc
    | _ => false

/-- Whether registered words of a line are on their way home from a core (R94): what would register them anew comes after. -/
def deregOut (s : State) (core job line : Nat) : Bool :=
  s.onWay fun e =>
    match e with
    | .deregistration d => d.core == core && d.job == job && d.line == line
    | _ => false

/-- The level that the CANCEL entry at the head of a queue names. -/
def headKey (s : State) (o : QueueRef) : CancelKey :=
  let k := s.queue o.module o.queue
  entryKey o.module k (entryAt s o.module o.queue k.head.toNat)

/-- Whether a step spreads the cancel of a level. -/
def spreads (k : CancelKey) : Event → Bool
  | .cancelFlood c => c.key == k
  | .nolkaiMulticast m => m.body == .cancel k
  | _ => false

/-- Whether a step re-ranks a launch whose home is a module. -/
def reranks (m : Nat) : Event → Bool
  | .rerankNotice r => r.ids.home == m
  | _ => false

/-- Whether a step installs at a home of a module what a commit past its fill check brings: that mapping stays in force for it (R28). -/
def installsOn (m : Nat) : Event → Bool
  | .commitInstall c => sliceModule c.gslice == m
  | _ => false

/-- Whether stalled operations of a create's die are about to be tried again (R51): they come before it. A seal's create that has had its turn is
one of them. -/
def resumeAhead (s : State) (c : TileCreate) : Bool :=
  c.gti != noThread + 1 && s.agenda.any fun f =>
    match f.ev with
    | .stallResume o => sliceDie o.gslice == sliceDie c.t.gslice
    | _ => false

/-- A step that waits where it is: a queue write to a full queue of its job (R297), a frame behind its sequence's work, its queue or an
earlier frame (R149), a seal's create while its version still lives (R143), a create behind those that stalled before it on its die (R51),
an engine's step behind its thread's accesses, a registration behind a deregistration of the same line, a write or a commit behind the
invalidations of its line (R99), an invalidation of translations behind a commit that has passed its fill check (R28), a collection behind the flushes of its words (R110), a wake before a full
share queue (R181), a packet before a full run queue (R164, R212), and a CANCEL or
PRIORITY entry that has not been applied everywhere (R403). -/
def heldMessage (s : State) : Event → Bool
  | .commitInstall c => deregOut s c.core c.job c.line || s.onWay (invalidates c.gslice c.job c.line)
  | .nonSpeculativeHomeWrite w => s.onWay (invalidates w.w.gslice w.w.job w.w.line)
  | .fallBackAtomicGrant a => deregOut s a.core a.job (a.addr / 128) || s.onWay (invalidates a.gslice a.job (a.addr / 128))
  | .qputDelivery m => (s.core m.core).rqOwner == m.job && decide (Config.recvQueue ≤ (s.core m.core).rq.length)
  | .frameAdmission q => frameWaits s q || frameAhead s q
  | .ephemerisCreate c => (c.task.isNone && ((s.tile c.t).map (·.stored)).getD false) || resumeAhead s c
  | .matrixDispatch c => (s.core c.core).deps.any fun e => accessOut s e.gti
  | .trinvRange o | .trinvJob o | .trinvAll o => s.onWay (installsOn o.module)
  | .collection l => s.onWay (bringsTo l.unit l.job l.line l.words)
  | .dandelionWake w => wakeHeld s w
  | .migrantPacketArrival p => packetHeld s p
  | .cancelEntry o => (s.queue o.module o.queue).busy && s.onWay (spreads (headKey s o))
  | .priorityEntry o => (s.queue o.module o.queue).busy && s.onWay (reranks o.module)
  | .solverOperationCompletion c =>
    match (s.core c.core).solver with
    | o :: _ => accessOut s o.gti
    | [] => false
  | ev =>
    match engineThread ev with
    | some g => accessOut s g
    | none => false

/-- Whether a message that its slice has already begun to serve comes again, after what it needed first. -/
def comesAgain : Event → Bool
  | .forwardedRead _ => true
  | _ => false

/-- The slice whose queue a request enters (R84), whoever sent it: what travels as a request to a slice. A slice's own steps enter none, nor
does a response or a notice. (DESIGN CHOICE, log 91) -/
def queueOf (f : Flight) : Option Nat :=
  if f.dst % 4 = 0 ∧ chan f.ev = 0 ∧ f.src ≠ fromSlice (f.dst / 4) ∧ ¬ comesAgain f.ev then some (f.dst / 4) else none

/-- Whether a request finds its slice's queue full: the network holds it (R82, R84). -/
def queueFull (s : State) (f : Flight) : Bool :=
  match queueOf f with
  | some g => decide (Config.sliceQueue ≤ s.held g)
  | none => false

/-- Whether a message has come to where it acts, and nothing there holds it but perhaps a full queue. -/
def arrived (s : State) (f : Flight) : Bool := decide (f.due ≤ s.now) && !heldMessage s f.ev

def eligible (s : State) (f : Flight) : Bool := arrived s f && !queueFull s f

/-- Whether a message is an access that waits at its home for what goes first: the thread's later accesses there come after it (R127). Words on
their way home, for which it may wait, do not. -/
def heldAccess (s : State) (e f : Flight) : Bool :=
  e.src == f.src && e.dst == f.dst && (match e.ev, f.ev with
    | _, .deregistration _ => false
    | .fallBackAtomicGrant _, _ | .nonSpeculativeHomeWrite _, _ | .commitInstall _, _ => heldMessage s e.ev
    | _, _ => false)

/-- Whether an earlier message keeps a later one from acting (R81, R117): of one virtual channel, from the same sender to the same target or on
the same path, one that could act or that a full queue holds in the network; or a held access. -/
def keepsBack (s : State) (e f : Flight) : Bool :=
  (arrived s e && chan e.ev == chan f.ev && (e.src == f.src && e.dst == f.dst || samePath e f)) || heldAccess s e f

/-- Whether the n-th entry may act now. -/
def mayDeliver (s : State) (n : Nat) : Bool :=
  match s.agenda[n]? with
  | some f => eligible s f && !((s.agenda.take n).any fun e => keepsBack s e f)
  | none => false

/-- The first entry that may act: its position, of those from n up. -/
def firstEligible (s : State) : List Flight → Nat → Option Nat
  | [], _ => none
  | _ :: t, n => if mayDeliver s n then some n else firstEligible s t (n + 1)

def deliverTurn (s : State) (n : Nat) : State × Turn :=
  match s.agenda[n]? with
  | some f => ({ s with agenda := dropAt s.agenda n }, .event f.ev)
  | none => (s, .idle)

/-! ## The next step -/

/-- The next thread after the current one that can issue. -/
def firstIssuable (s : State) (p : Nat → Bool) : List (Nat × Thread) → Option Nat
  | [] => none
  | (g, t) :: l => if p g && issuable s g t then some g else firstIssuable s p l

def nextThread (s : State) : Option Nat :=
  match firstIssuable s (fun g => decide (s.cur < g)) s.threads with
  | some g => some g
  | none => firstIssuable s (fun g => decide (g ≤ s.cur)) s.threads

/-- The earliest time at which something on the agenda or a waiting thread's timer comes due. -/
def earlier (a : Option Nat) (n : Nat) : Option Nat :=
  match a with
  | none => some n
  | some m => some (min m n)

def nextDue (s : State) : Option Nat :=
  let a := s.agenda.foldl (fun a f => if s.now < f.due then earlier a f.due else a) none
  s.threads.foldl (fun a e =>
    let t := e.2.ctx.tcmp.toNat
    let n := s.cycles (coreOf e.1) % 2 ^ 64
    if n < t then earlier a (s.now + (t - n)) else a) a

/-- What a core does of itself: saving a context (R208, R211), loading one (R184). -/
def coreStep (s : State) : List (Nat × Core) → Option Event
  | [] => none
  | (n, _) :: t =>
    if preemptDue s n then some (.preemption ⟨n⟩) else if loaderDue s n then some (.loaderChoice ⟨n⟩) else coreStep s t

/-- What a slice does of itself: sleeping (R426), merging region entries (R100). -/
def sliceStep (s : State) : List (Nat × Slice) → Option Event
  | [] => none
  | (n, _) :: t =>
    if sleepDue s n then some (.sliceRetentionSleep ⟨n⟩)
    else if (mergedRegions s n).2 ≠ 0 then some (.regionMerge ⟨n⟩)
    else sliceStep s t

/-- What a module does of itself: the end of a suspension (R211). (DEDUCED, log 69) -/
def moduleStep (s : State) : List (Nat × Module) → Option Event
  | [] => none
  | (n, x) :: t =>
    if x.jsBusy ∧ x.jsOp = 1 ∧ x.suspended.contains x.jsJob.toNat ∧ heldSlots s n x.jsJob.toNat = 0 then some (.jobswSuspend ⟨n, x.jsJob.toNat⟩) else moduleStep s t

def ownStep (s : State) : Option Event :=
  match coreStep s s.cores with
  | some e => some e
  | none =>
    match sliceStep s s.slices with
    | some e => some e
    | none => moduleStep s s.modules

/-- The model's own order where nothing is chosen: inputs, what a unit does of itself, the oldest message that may act, the next thread in
turn; else the clock goes on to the next time at which something is due. (DESIGN CHOICE, log 1) -/
def defaultTurn (s : State) : State × Turn :=
  match s.inputs with
  | e :: t => ({ s with inputs := t }, .event e)
  | [] =>
    match ownStep s with
    | some e => (s, .event e)
    | none =>
      match firstEligible s s.agenda 0 with
      | some n => deliverTurn s n
      | none =>
        match nextThread s with
        | some g => threadTurn s g
        | none =>
          match nextDue s with
          | some n => ({ s with now := n }, .idle)
          | none => (s, .idle)

/-- Errors that arise in storage (R428, R429). (DESIGN CHOICE, log 38) -/
def befall (s : State) : Chance → State
  | .line n => if s.hbmBad.contains n then s else { s with hbmBad := n :: s.hbmBad }
  | .word c n => s.modCore c fun k => if k.scratchBad.contains n ∨ 0x10000 ≤ n then k else { k with scratchBad := n :: k.scratchBad }
  | .tile g n => s.modSlice g fun x => if x.bad.contains n then x else { x with bad := n :: x.bad }
  | .soft d cls idx addr => if idx < classSize cls then s.countCorrected d cls idx addr else s

/-- What is performed next: what an oracle chooses, if it can be, else the model's own order. (DESIGN CHOICE, log 1) -/
def select (s : State) : State × Turn :=
  match s.choice with
  | [] => defaultTurn s
  | p :: rest =>
    let s := { s with choice := rest }
    match p with
    | .deliver n => if mayDeliver s n then deliverTurn s n else defaultTurn s
    | .issue g => if issuable s g (s.thread g) then threadTurn s g else defaultTurn s
    | .input =>
      match s.inputs with
      | e :: t => ({ s with inputs := t }, .event e)
      | [] => defaultTurn s
    | .chance c => (befall s c, .idle)

end Sys2Proof.Machine
end

