-- ==== Sys2Proof/Machine/Dispatch.lean ====
section
/-! DEFINITION. The meaning of each instruction and of each step of the machine: one arm for each row of the opcode table. -/

namespace Sys2Proof.Machine

/-- What an instruction or a step of the machine does. -/
def exec (i : Instr) (s : State) : Host.Outcome State Fault Refusal :=
  match i with
  | .add o => Sys2Proof.Machine.execAdd o s
  | .sub o => Sys2Proof.Machine.execSub o s
  | .mul o => Sys2Proof.Machine.execMul o s
  | .mulhS64 o => Sys2Proof.Machine.execMulhS64 o s
  | .mulhN64 o => Sys2Proof.Machine.execMulhN64 o s
  | .divS64 o => Sys2Proof.Machine.execDivS64 o s
  | .divN64 o => Sys2Proof.Machine.execDivN64 o s
  | .remS64 o => Sys2Proof.Machine.execRemS64 o s
  | .remN64 o => Sys2Proof.Machine.execRemN64 o s
  | .and o => Sys2Proof.Machine.execAnd o s
  | .or o => Sys2Proof.Machine.execOr o s
  | .xor o => Sys2Proof.Machine.execXor o s
  | .andn o => Sys2Proof.Machine.execAndn o s
  | .orn o => Sys2Proof.Machine.execOrn o s
  | .xnor o => Sys2Proof.Machine.execXnor o s
  | .sll o => Sys2Proof.Machine.execSll o s
  | .srl o => Sys2Proof.Machine.execSrl o s
  | .sra o => Sys2Proof.Machine.execSra o s
  | .rol o => Sys2Proof.Machine.execRol o s
  | .ror o => Sys2Proof.Machine.execRor o s
  | .minS64 o => Sys2Proof.Machine.execMinS64 o s
  | .maxS64 o => Sys2Proof.Machine.execMaxS64 o s
  | .minN64 o => Sys2Proof.Machine.execMinN64 o s
  | .maxN64 o => Sys2Proof.Machine.execMaxN64 o s
  | .clz o => Sys2Proof.Machine.execClz o s
  | .ctz o => Sys2Proof.Machine.execCtz o s
  | .popc o => Sys2Proof.Machine.execPopc o s
  | .brev o => Sys2Proof.Machine.execBrev o s
  | .bswap o => Sys2Proof.Machine.execBswap o s
  | .sext o => Sys2Proof.Machine.execSext o s
  | .abs o => Sys2Proof.Machine.execAbs o s
  | .addi o => Sys2Proof.Machine.execAddi o s
  | .andi o => Sys2Proof.Machine.execAndi o s
  | .ori o => Sys2Proof.Machine.execOri o s
  | .xori o => Sys2Proof.Machine.execXori o s
  | .slli o => Sys2Proof.Machine.execSlli o s
  | .srli o => Sys2Proof.Machine.execSrli o s
  | .srai o => Sys2Proof.Machine.execSrai o s
  | .rori o => Sys2Proof.Machine.execRori o s
  | .lea o => Sys2Proof.Machine.execLea o s
  | .bfxN64 o => Sys2Proof.Machine.execBfxN64 o s
  | .bfxS64 o => Sys2Proof.Machine.execBfxS64 o s
  | .bfi o => Sys2Proof.Machine.execBfi o s
  | .cmpEq o => Sys2Proof.Machine.execCmpEq o s
  | .cmpNe o => Sys2Proof.Machine.execCmpNe o s
  | .cmpLtS64 o => Sys2Proof.Machine.execCmpLtS64 o s
  | .cmpGeS64 o => Sys2Proof.Machine.execCmpGeS64 o s
  | .cmpLtN64 o => Sys2Proof.Machine.execCmpLtN64 o s
  | .cmpGeN64 o => Sys2Proof.Machine.execCmpGeN64 o s
  | .cmpTst o => Sys2Proof.Machine.execCmpTst o s
  | .cmpTstz o => Sys2Proof.Machine.execCmpTstz o s
  | .cand o => Sys2Proof.Machine.execCand o s
  | .cor o => Sys2Proof.Machine.execCor o s
  | .cxor o => Sys2Proof.Machine.execCxor o s
  | .candn o => Sys2Proof.Machine.execCandn o s
  | .mfcw o => Sys2Proof.Machine.execMfcw o s
  | .mtcw o => Sys2Proof.Machine.execMtcw o s
  | .fadd o => Sys2Proof.Machine.execFadd o s
  | .fsub o => Sys2Proof.Machine.execFsub o s
  | .fmul o => Sys2Proof.Machine.execFmul o s
  | .fdiv o => Sys2Proof.Machine.execFdiv o s
  | .fsqrt o => Sys2Proof.Machine.execFsqrt o s
  | .fmin o => Sys2Proof.Machine.execFmin o s
  | .fmax o => Sys2Proof.Machine.execFmax o s
  | .fmac o => Sys2Proof.Machine.execFmac o s
  | .fcmpEq o => Sys2Proof.Machine.execFcmpEq o s
  | .fcmpLt o => Sys2Proof.Machine.execFcmpLt o s
  | .fcmpLe o => Sys2Proof.Machine.execFcmpLe o s
  | .fcmpUn o => Sys2Proof.Machine.execFcmpUn o s
  | .fclass o => Sys2Proof.Machine.execFclass o s
  | .fsgn o => Sys2Proof.Machine.execFsgn o s
  | .fneg o => Sys2Proof.Machine.execFneg o s
  | .fabs o => Sys2Proof.Machine.execFabs o s
  | .fcvt o => Sys2Proof.Machine.execFcvt o s
  | .br o => Sys2Proof.Machine.execBr o s
  | .call o => Sys2Proof.Machine.execCall o s
  | .jmpr o => Sys2Proof.Machine.execJmpr o s
  | .loop o => Sys2Proof.Machine.execLoop o s
  | .migrA o => Sys2Proof.Machine.execMigrA o s
  | .migrH o => Sys2Proof.Machine.execMigrH o s
  | .migrC o => Sys2Proof.Machine.execMigrC o s
  | .tcom o => Sys2Proof.Machine.execTcom o s
  | .tret o => Sys2Proof.Machine.execTret o s
  | .tretRs o => Sys2Proof.Machine.execTretRs o s
  | .tretDp o => Sys2Proof.Machine.execTretDp o s
  | .sysc o => Sys2Proof.Machine.execSysc o s
  | .monc o => Sys2Proof.Machine.execMonc o s
  | .brk o => Sys2Proof.Machine.execBrk o s
  | .mfcr o => Sys2Proof.Machine.execMfcr o s
  | .mtcr o => Sys2Proof.Machine.execMtcr o s
  | .feat o => Sys2Proof.Machine.execFeat o s
  | .icinv o => Sys2Proof.Machine.execIcinv o s
  | .isend o => Sys2Proof.Machine.execIsend o s
  | .cancel o => Sys2Proof.Machine.execCancel o s
  | .ien o => Sys2Proof.Machine.execIen o s
  | .idis o => Sys2Proof.Machine.execIdis o s
  | .rdcyc o => Sys2Proof.Machine.execRdcyc o s
  | .ldN8 o => Sys2Proof.Machine.execLdN8 o s
  | .ldN16 o => Sys2Proof.Machine.execLdN16 o s
  | .ldN32 o => Sys2Proof.Machine.execLdN32 o s
  | .ldN64 o => Sys2Proof.Machine.execLdN64 o s
  | .ldS8 o => Sys2Proof.Machine.execLdS8 o s
  | .ldS16 o => Sys2Proof.Machine.execLdS16 o s
  | .ldS32 o => Sys2Proof.Machine.execLdS32 o s
  | .stN8 o => Sys2Proof.Machine.execStN8 o s
  | .stN16 o => Sys2Proof.Machine.execStN16 o s
  | .stN32 o => Sys2Proof.Machine.execStN32 o s
  | .stN64 o => Sys2Proof.Machine.execStN64 o s
  | .vld o => Sys2Proof.Machine.execVld o s
  | .vlds o => Sys2Proof.Machine.execVlds o s
  | .vldx o => Sys2Proof.Machine.execVldx o s
  | .vst o => Sys2Proof.Machine.execVst o s
  | .vsts o => Sys2Proof.Machine.execVsts o s
  | .vstx o => Sys2Proof.Machine.execVstx o s
  | .aadd o => Sys2Proof.Machine.execAadd o s
  | .aand o => Sys2Proof.Machine.execAand o s
  | .aor o => Sys2Proof.Machine.execAor o s
  | .axor o => Sys2Proof.Machine.execAxor o s
  | .aminS o => Sys2Proof.Machine.execAminS o s
  | .amaxS o => Sys2Proof.Machine.execAmaxS o s
  | .aminN o => Sys2Proof.Machine.execAminN o s
  | .amaxN o => Sys2Proof.Machine.execAmaxN o s
  | .afadd o => Sys2Proof.Machine.execAfadd o s
  | .aswp o => Sys2Proof.Machine.execAswp o s
  | .acas o => Sys2Proof.Machine.execAcas o s
  | .afor o => Sys2Proof.Machine.execAfor o s
  | .afxor o => Sys2Proof.Machine.execAfxor o s
  | .afminS o => Sys2Proof.Machine.execAfminS o s
  | .afmaxS o => Sys2Proof.Machine.execAfmaxS o s
  | .affadd o => Sys2Proof.Machine.execAffadd o s
  | .tst o => Sys2Proof.Machine.execTst o s
  | .tld o => Sys2Proof.Machine.execTld o s
  | .tldc o => Sys2Proof.Machine.execTldc o s
  | .trel o => Sys2Proof.Machine.execTrel o s
  | .tqry o => Sys2Proof.Machine.execTqry o s
  | .tsub o => Sys2Proof.Machine.execTsub o s
  | .tunsub o => Sys2Proof.Machine.execTunsub o s
  | .tmov o => Sys2Proof.Machine.execTmov o s
  | .halloc o => Sys2Proof.Machine.execHalloc o s
  | .hfree o => Sys2Proof.Machine.execHfree o s
  | .fence o => Sys2Proof.Machine.execFence o s
  | .wpc o => Sys2Proof.Machine.execWpc o s
  | .barArr o => Sys2Proof.Machine.execBarArr o s
  | .barWait o => Sys2Proof.Machine.execBarWait o s
  | .msend o => Sys2Proof.Machine.execMsend o s
  | .qput o => Sys2Proof.Machine.execQput o s
  | .qget o => Sys2Proof.Machine.execQget o s
  | .cwait o => Sys2Proof.Machine.execCwait o s
  | .ccwait o => Sys2Proof.Machine.execCcwait o s
  | .cctl o => Sys2Proof.Machine.execCctl o s
  | .wtarm o => Sys2Proof.Machine.execWtarm o s
  | .wlpush o => Sys2Proof.Machine.execWlpush o s
  | .mwait o => Sys2Proof.Machine.execMwait o s
  | .tqset o => Sys2Proof.Machine.execTqset o s
  | .ftile o => Sys2Proof.Machine.execFtile o s
  | .tqfree o => Sys2Proof.Machine.execTqfree o s
  | .sbind o => Sys2Proof.Machine.execSbind o s
  | .sunbind o => Sys2Proof.Machine.execSunbind o s
  | .swait o => Sys2Proof.Machine.execSwait o s
  | .sget o => Sys2Proof.Machine.execSget o s
  | .sput o => Sys2Proof.Machine.execSput o s
  | .vsget o => Sys2Proof.Machine.execVsget o s
  | .vsput o => Sys2Proof.Machine.execVsput o s
  | .hxfer o => Sys2Proof.Machine.execHxfer o s
  | .vadd o => Sys2Proof.Machine.execVadd o s
  | .vsub o => Sys2Proof.Machine.execVsub o s
  | .vmul o => Sys2Proof.Machine.execVmul o s
  | .vmulh o => Sys2Proof.Machine.execVmulh o s
  | .vmin o => Sys2Proof.Machine.execVmin o s
  | .vmax o => Sys2Proof.Machine.execVmax o s
  | .vand o => Sys2Proof.Machine.execVand o s
  | .vor o => Sys2Proof.Machine.execVor o s
  | .vxor o => Sys2Proof.Machine.execVxor o s
  | .vsll o => Sys2Proof.Machine.execVsll o s
  | .vsrl o => Sys2Proof.Machine.execVsrl o s
  | .vsra o => Sys2Proof.Machine.execVsra o s
  | .vadds o => Sys2Proof.Machine.execVadds o s
  | .vsubs o => Sys2Proof.Machine.execVsubs o s
  | .vabs o => Sys2Proof.Machine.execVabs o s
  | .vdot o => Sys2Proof.Machine.execVdot o s
  | .vfadd o => Sys2Proof.Machine.execVfadd o s
  | .vfsub o => Sys2Proof.Machine.execVfsub o s
  | .vfmul o => Sys2Proof.Machine.execVfmul o s
  | .vfdiv o => Sys2Proof.Machine.execVfdiv o s
  | .vfsqrt o => Sys2Proof.Machine.execVfsqrt o s
  | .vfmin o => Sys2Proof.Machine.execVfmin o s
  | .vfmax o => Sys2Proof.Machine.execVfmax o s
  | .vfma o => Sys2Proof.Machine.execVfma o s
  | .vfnma o => Sys2Proof.Machine.execVfnma o s
  | .vfabs o => Sys2Proof.Machine.execVfabs o s
  | .vfneg o => Sys2Proof.Machine.execVfneg o s
  | .vexp o => Sys2Proof.Machine.execVexp o s
  | .vexp2 o => Sys2Proof.Machine.execVexp2 o s
  | .vlog o => Sys2Proof.Machine.execVlog o s
  | .vlog2 o => Sys2Proof.Machine.execVlog2 o s
  | .vrcp o => Sys2Proof.Machine.execVrcp o s
  | .vrsqrt o => Sys2Proof.Machine.execVrsqrt o s
  | .vsin o => Sys2Proof.Machine.execVsin o s
  | .vcos o => Sys2Proof.Machine.execVcos o s
  | .vtanh o => Sys2Proof.Machine.execVtanh o s
  | .vsigm o => Sys2Proof.Machine.execVsigm o s
  | .vcmpEq o => Sys2Proof.Machine.execVcmpEq o s
  | .vcmpNe o => Sys2Proof.Machine.execVcmpNe o s
  | .vcmpLt o => Sys2Proof.Machine.execVcmpLt o s
  | .vcmpLe o => Sys2Proof.Machine.execVcmpLe o s
  | .vcmpGt o => Sys2Proof.Machine.execVcmpGt o s
  | .vcmpGe o => Sys2Proof.Machine.execVcmpGe o s
  | .vwhile o => Sys2Proof.Machine.execVwhile o s
  | .vfcmpEq o => Sys2Proof.Machine.execVfcmpEq o s
  | .vfcmpNe o => Sys2Proof.Machine.execVfcmpNe o s
  | .vfcmpLt o => Sys2Proof.Machine.execVfcmpLt o s
  | .vfcmpLe o => Sys2Proof.Machine.execVfcmpLe o s
  | .vfcmpGt o => Sys2Proof.Machine.execVfcmpGt o s
  | .vfcmpGe o => Sys2Proof.Machine.execVfcmpGe o s
  | .vfcmpUn o => Sys2Proof.Machine.execVfcmpUn o s
  | .pand o => Sys2Proof.Machine.execPand o s
  | .por o => Sys2Proof.Machine.execPor o s
  | .pxor o => Sys2Proof.Machine.execPxor o s
  | .pandn o => Sys2Proof.Machine.execPandn o s
  | .pnot o => Sys2Proof.Machine.execPnot o s
  | .pall o => Sys2Proof.Machine.execPall o s
  | .pcnt o => Sys2Proof.Machine.execPcnt o s
  | .pfirst o => Sys2Proof.Machine.execPfirst o s
  | .vperm o => Sys2Proof.Machine.execVperm o s
  | .vbcast o => Sys2Proof.Machine.execVbcast o s
  | .vslu o => Sys2Proof.Machine.execVslu o s
  | .vsld o => Sys2Proof.Machine.execVsld o s
  | .vzip o => Sys2Proof.Machine.execVzip o s
  | .vunzip o => Sys2Proof.Machine.execVunzip o s
  | .vmvx o => Sys2Proof.Machine.execVmvx o s
  | .vmvv o => Sys2Proof.Machine.execVmvv o s
  | .vsel o => Sys2Proof.Machine.execVsel o s
  | .vcmpr o => Sys2Proof.Machine.execVcmpr o s
  | .vmov o => Sys2Proof.Machine.execVmov o s
  | .vlen o => Sys2Proof.Machine.execVlen o s
  | .vredadd o => Sys2Proof.Machine.execVredadd o s
  | .vredmin o => Sys2Proof.Machine.execVredmin o s
  | .vredmax o => Sys2Proof.Machine.execVredmax o s
  | .vredand o => Sys2Proof.Machine.execVredand o s
  | .vredor o => Sys2Proof.Machine.execVredor o s
  | .vredxor o => Sys2Proof.Machine.execVredxor o s
  | .vfredadd o => Sys2Proof.Machine.execVfredadd o s
  | .vfredmin o => Sys2Proof.Machine.execVfredmin o s
  | .vfredmax o => Sys2Proof.Machine.execVfredmax o s
  | .vcvt o => Sys2Proof.Machine.execVcvt o s
  | .gmadd o => Sys2Proof.Machine.execGmadd o s
  | .gsch o => Sys2Proof.Machine.execGsch o s
  | .gdmp o => Sys2Proof.Machine.execGdmp o s
  | .gmsend o => Sys2Proof.Machine.execGmsend o s
  | .gmld o => Sys2Proof.Machine.execGmld o s
  | .gres o => Sys2Proof.Machine.execGres o s
  | .gpiv o => Sys2Proof.Machine.execGpiv o s
  | .gmclr o => Sys2Proof.Machine.execGmclr o s
  | .mxc o => Sys2Proof.Machine.execMxc o s
  | .mxz o => Sys2Proof.Machine.execMxz o s
  | .mxld o => Sys2Proof.Machine.execMxld o s
  | .mxst o => Sys2Proof.Machine.execMxst o s
  | .mxmv o => Sys2Proof.Machine.execMxmv o s
  | .mxwl o => Sys2Proof.Machine.execMxwl o s
  | .mxls o => Sys2Proof.Machine.execMxls o s
  | .mxlr o => Sys2Proof.Machine.execMxlr o s
  | .mxstat o => Sys2Proof.Machine.execMxstat o s
  | .qnt o => Sys2Proof.Machine.execQnt o s
  | .xaz o => Sys2Proof.Machine.execXaz o s
  | .xafm o => Sys2Proof.Machine.execXafm o s
  | .xaadd o => Sys2Proof.Machine.execXaadd o s
  | .xarnd o => Sys2Proof.Machine.execXarnd o s
  | .xasgn o => Sys2Proof.Machine.execXasgn o s
  | .sqslot o => Sys2Proof.Machine.execSqslot o s
  | .sqrot o => Sys2Proof.Machine.execSqrot o s
  | .atts o => Sys2Proof.Machine.execAtts o s
  | .sqsamp o => Sys2Proof.Machine.execSqsamp o s
  | .sqplay o => Sys2Proof.Machine.execSqplay o s
  | .sqtrunc o => Sys2Proof.Machine.execSqtrunc o s
  | .sqframe o => Sys2Proof.Machine.execSqframe o s
  | .sqcur o => Sys2Proof.Machine.execSqcur o s
  | .hnop o => Sys2Proof.Machine.execHnop o s
  | .pfl1 o => Sys2Proof.Machine.execPfl1 o s
  | .pfsl o => Sys2Proof.Machine.execPfsl o s
  | .pfi o => Sys2Proof.Machine.execPfi o s
  | .hmod o => Sys2Proof.Machine.execHmod o s
  | .himm o => Sys2Proof.Machine.execHimm o s
  | .rep o => Sys2Proof.Machine.execRep o s
  | .trinvRange o => Sys2Proof.Machine.execTrinvRange o s
  | .trinvJob o => Sys2Proof.Machine.execTrinvJob o s
  | .trinvAll o => Sys2Proof.Machine.execTrinvAll o s
  | .trinvDone o => Sys2Proof.Machine.execTrinvDone o s
  | .jobswSuspend o => Sys2Proof.Machine.execJobswSuspend o s
  | .jobswResume o => Sys2Proof.Machine.execJobswResume o s
  | .sqstatClear o => Sys2Proof.Machine.execSqstatClear o s
  | .nlkstStart o => Sys2Proof.Machine.execNlkstStart o s
  | .collectiveAllreduce o => Sys2Proof.Machine.execCollectiveAllreduce o s
  | .collectiveBroadcast o => Sys2Proof.Machine.execCollectiveBroadcast o s
  | .hostToDevice o => Sys2Proof.Machine.execHostToDevice o s
  | .deviceToHost o => Sys2Proof.Machine.execDeviceToHost o s
  | .collectiveCompletion o => Sys2Proof.Machine.execCollectiveCompletion o s
  | .collectiveCancelNotice o => Sys2Proof.Machine.execCollectiveCancelNotice o s
  | .collectiveTimeout o => Sys2Proof.Machine.execCollectiveTimeout o s
  | .bringUp o => Sys2Proof.Machine.execBringUp o s
  | .query o => Sys2Proof.Machine.execQuery o s
  | .attest o => Sys2Proof.Machine.execAttest o s
  | .events o => Sys2Proof.Machine.execEvents o s
  | .config o => Sys2Proof.Machine.execConfig o s
  | .monitor o => Sys2Proof.Machine.execMonitor o s
  | .fuseRevoke o => Sys2Proof.Machine.execFuseRevoke o s
  | .linkclr o => Sys2Proof.Machine.execLinkclr o s
  | .qdbDoorbell o => Sys2Proof.Machine.execQdbDoorbell o s
  | .nopEntry o => Sys2Proof.Machine.execNopEntry o s
  | .launchEntry o => Sys2Proof.Machine.execLaunchEntry o s
  | .graphEntry o => Sys2Proof.Machine.execGraphEntry o s
  | .cancelEntry o => Sys2Proof.Machine.execCancelEntry o s
  | .priorityEntry o => Sys2Proof.Machine.execPriorityEntry o s
  | .signalEntry o => Sys2Proof.Machine.execSignalEntry o s
  | .entryAdmission o => Sys2Proof.Machine.execEntryAdmission o s
  | .dandelionWake o => Sys2Proof.Machine.execDandelionWake o s
  | .nolkaiMulticast o => Sys2Proof.Machine.execNolkaiMulticast o s
  | .rerankNotice o => Sys2Proof.Machine.execRerankNotice o s
  | .launchCompletion o => Sys2Proof.Machine.execLaunchCompletion o s
  | .hostRead o => Sys2Proof.Machine.execHostRead o s
  | .hostWrite o => Sys2Proof.Machine.execHostWrite o s
  | .loaderChoice o => Sys2Proof.Machine.execLoaderChoice o s
  | .threadStart o => Sys2Proof.Machine.execThreadStart o s
  | .sextantBalance o => Sys2Proof.Machine.execSextantBalance o s
  | .workListShipment o => Sys2Proof.Machine.execWorkListShipment o s
  | .meridianSample o => Sys2Proof.Machine.execMeridianSample o s
  | .cancelFlood o => Sys2Proof.Machine.execCancelFlood o s
  | .migrantPacketArrival o => Sys2Proof.Machine.execMigrantPacketArrival o s
  | .faultResponse o => Sys2Proof.Machine.execFaultResponse o s
  | .trapEntry o => Sys2Proof.Machine.execTrapEntry o s
  | .interruptEntry o => Sys2Proof.Machine.execInterruptEntry o s
  | .timerInterrupt o => Sys2Proof.Machine.execTimerInterrupt o s
  | .softInterruptDelivery o => Sys2Proof.Machine.execSoftInterruptDelivery o s
  | .singleStep o => Sys2Proof.Machine.execSingleStep o s
  | .preemption o => Sys2Proof.Machine.execPreemption o s
  | .contextSaveDone o => Sys2Proof.Machine.execContextSaveDone o s
  | .resultReturn o => Sys2Proof.Machine.execResultReturn o s
  | .lineFill o => Sys2Proof.Machine.execLineFill o s
  | .speculativeStoreReceipt o => Sys2Proof.Machine.execSpeculativeStoreReceipt o s
  | .commitInstall o => Sys2Proof.Machine.execCommitInstall o s
  | .regionMerge o => Sys2Proof.Machine.execRegionMerge o s
  | .revoke o => Sys2Proof.Machine.execRevoke o s
  | .deregistration o => Sys2Proof.Machine.execDeregistration o s
  | .forwardedRead o => Sys2Proof.Machine.execForwardedRead o s
  | .copySliceMiss o => Sys2Proof.Machine.execCopySliceMiss o s
  | .copyFillArrival o => Sys2Proof.Machine.execCopyFillArrival o s
  | .copyInvalidation o => Sys2Proof.Machine.execCopyInvalidation o s
  | .holderNotice o => Sys2Proof.Machine.execHolderNotice o s
  | .commutativeFlush o => Sys2Proof.Machine.execCommutativeFlush o s
  | .collection o => Sys2Proof.Machine.execCollection o s
  | .fallBackAtomicGrant o => Sys2Proof.Machine.execFallBackAtomicGrant o s
  | .remoteScratchpadWrite o => Sys2Proof.Machine.execRemoteScratchpadWrite o s
  | .remoteScratchpadRead o => Sys2Proof.Machine.execRemoteScratchpadRead o s
  | .sliceRetentionSleep o => Sys2Proof.Machine.execSliceRetentionSleep o s
  | .sliceWake o => Sys2Proof.Machine.execSliceWake o s
  | .ephemerisCreate o => Sys2Proof.Machine.execEphemerisCreate o s
  | .ephemerisLoad o => Sys2Proof.Machine.execEphemerisLoad o s
  | .ephemerisRelease o => Sys2Proof.Machine.execEphemerisRelease o s
  | .ephemerisPin o => Sys2Proof.Machine.execEphemerisPin o s
  | .ephemerisUnpin o => Sys2Proof.Machine.execEphemerisUnpin o s
  | .ephemerisCommit o => Sys2Proof.Machine.execEphemerisCommit o s
  | .ephemerisDiscard o => Sys2Proof.Machine.execEphemerisDiscard o s
  | .waiterCancel o => Sys2Proof.Machine.execWaiterCancel o s
  | .subscriptionRecord o => Sys2Proof.Machine.execSubscriptionRecord o s
  | .arrivalNotice o => Sys2Proof.Machine.execArrivalNotice o s
  | .stallResume o => Sys2Proof.Machine.execStallResume o s
  | .pressureReport o => Sys2Proof.Machine.execPressureReport o s
  | .promotionCompletion o => Sys2Proof.Machine.execPromotionCompletion o s
  | .frameAdmission o => Sys2Proof.Machine.execFrameAdmission o s
  | .streamFillElement o => Sys2Proof.Machine.execStreamFillElement o s
  | .streamDrainWrite o => Sys2Proof.Machine.execStreamDrainWrite o s
  | .heliostatLineReceive o => Sys2Proof.Machine.execHeliostatLineReceive o s
  | .matrixDispatch o => Sys2Proof.Machine.execMatrixDispatch o s
  | .matrixCommandCompletion o => Sys2Proof.Machine.execMatrixCommandCompletion o s
  | .solverOperationCompletion o => Sys2Proof.Machine.execSolverOperationCompletion o s
  | .msendDelivery o => Sys2Proof.Machine.execMsendDelivery o s
  | .qputDelivery o => Sys2Proof.Machine.execQputDelivery o s
  | .mailboxMessageArrival o => Sys2Proof.Machine.execMailboxMessageArrival o s
  | .linkTraining o => Sys2Proof.Machine.execLinkTraining o s
  | .nolkaiFlitReceipt o => Sys2Proof.Machine.execNolkaiFlitReceipt o s
  | .nolkaiNak o => Sys2Proof.Machine.execNolkaiNak o s
  | .ucieFlitReceipt o => Sys2Proof.Machine.execUcieFlitReceipt o s
  | .governorGrant o => Sys2Proof.Machine.execGovernorGrant o s
  | .powerCapStart o => Sys2Proof.Machine.execPowerCapStart o s
  | .powerCapEnd o => Sys2Proof.Machine.execPowerCapEnd o s
  | .eventReport o => Sys2Proof.Machine.execEventReport o s
  | .nonSpeculativeHomeWrite o => Sys2Proof.Machine.execNonSpeculativeHomeWrite o s
  | .sliceStallWake o => Sys2Proof.Machine.execSliceStallWake o s
  | .hschKind47 o => Sys2Proof.Machine.execHschKind47 o s
  | .illegalEncoding o => Sys2Proof.Machine.execIllegalEncoding o s
  | .reset o => Sys2Proof.Machine.execReset o s

end Sys2Proof.Machine
end

