-- ==== Sys2Proof/Machine/Step.lean ====
section
/-! DEFINITION. One step of the machine: what Machine/Select.lean names next is performed. -/

namespace Sys2Proof.Machine

/-- The instruction that a fetched word decodes to, or the trap that it raises (R233, R234). -/
noncomputable def execWord (w : BitVec 32) (s : State) : Host.Outcome State Fault Refusal :=
  match decode w with
  | .ok i => exec i s
  | .error _ => exec (.illegalEncoding ⟨w⟩) s

/-- ONE STEP: what comes next is selected, and performed by exec. -/
noncomputable def step (s : State) : Host.Outcome State Fault Refusal :=
  match select s with
  | (s, .word w) => execWord w s
  | (s, .event e) => exec e.instr s
  | (s, .idle) => finish s s

/-! ## The runnable twin of step: Lean's runtime builds no constructor beyond the 245th of a type -/

/-- exec of the row that a word decodes to, by direct calls. -/
def runRow (w : Nat) (s : State) : Opcode → Host.Outcome State Fault Refusal
  | .add => execAdd (unpackR w) s
  | .sub => execSub (unpackR w) s
  | .mul => execMul (unpackR w) s
  | .mulhS64 => execMulhS64 (unpackR w) s
  | .mulhN64 => execMulhN64 (unpackR w) s
  | .divS64 => execDivS64 (unpackR w) s
  | .divN64 => execDivN64 (unpackR w) s
  | .remS64 => execRemS64 (unpackR w) s
  | .remN64 => execRemN64 (unpackR w) s
  | .and => execAnd (unpackR w) s
  | .or => execOr (unpackR w) s
  | .xor => execXor (unpackR w) s
  | .andn => execAndn (unpackR w) s
  | .orn => execOrn (unpackR w) s
  | .xnor => execXnor (unpackR w) s
  | .sll => execSll (unpackR w) s
  | .srl => execSrl (unpackR w) s
  | .sra => execSra (unpackR w) s
  | .rol => execRol (unpackR w) s
  | .ror => execRor (unpackR w) s
  | .minS64 => execMinS64 (unpackR w) s
  | .maxS64 => execMaxS64 (unpackR w) s
  | .minN64 => execMinN64 (unpackR w) s
  | .maxN64 => execMaxN64 (unpackR w) s
  | .clz => execClz (unpackR w) s
  | .ctz => execCtz (unpackR w) s
  | .popc => execPopc (unpackR w) s
  | .brev => execBrev (unpackR w) s
  | .bswap => execBswap (unpackR w) s
  | .sext => execSext (unpackR w) s
  | .abs => execAbs (unpackR w) s
  | .addi => execAddi (unpackI w) s
  | .andi => execAndi (unpackI w) s
  | .ori => execOri (unpackI w) s
  | .xori => execXori (unpackI w) s
  | .slli => execSlli (unpackSh w) s
  | .srli => execSrli (unpackSh w) s
  | .srai => execSrai (unpackSh w) s
  | .rori => execRori (unpackSh w) s
  | .lea => execLea (unpackI w) s
  | .bfxN64 => execBfxN64 (unpackR w) s
  | .bfxS64 => execBfxS64 (unpackR w) s
  | .bfi => execBfi (unpackR w) s
  | .cmpEq => execCmpEq (unpackR w) s
  | .cmpNe => execCmpNe (unpackR w) s
  | .cmpLtS64 => execCmpLtS64 (unpackR w) s
  | .cmpGeS64 => execCmpGeS64 (unpackR w) s
  | .cmpLtN64 => execCmpLtN64 (unpackR w) s
  | .cmpGeN64 => execCmpGeN64 (unpackR w) s
  | .cmpTst => execCmpTst (unpackR w) s
  | .cmpTstz => execCmpTstz (unpackR w) s
  | .cand => execCand (unpackR w) s
  | .cor => execCor (unpackR w) s
  | .cxor => execCxor (unpackR w) s
  | .candn => execCandn (unpackR w) s
  | .mfcw => execMfcw (unpackR w) s
  | .mtcw => execMtcw (unpackR w) s
  | .fadd => execFadd (unpackF w) s
  | .fsub => execFsub (unpackF w) s
  | .fmul => execFmul (unpackF w) s
  | .fdiv => execFdiv (unpackF w) s
  | .fsqrt => execFsqrt (unpackF w) s
  | .fmin => execFmin (unpackF w) s
  | .fmax => execFmax (unpackF w) s
  | .fmac => execFmac (unpackF w) s
  | .fcmpEq => execFcmpEq (unpackF w) s
  | .fcmpLt => execFcmpLt (unpackF w) s
  | .fcmpLe => execFcmpLe (unpackF w) s
  | .fcmpUn => execFcmpUn (unpackF w) s
  | .fclass => execFclass (unpackF w) s
  | .fsgn => execFsgn (unpackF w) s
  | .fneg => execFneg (unpackF w) s
  | .fabs => execFabs (unpackF w) s
  | .fcvt => execFcvt (unpackC w) s
  | .br => execBr (unpackB w) s
  | .call => execCall (unpackB w) s
  | .jmpr => execJmpr (unpackI w) s
  | .loop => execLoop (unpackI w) s
  | .migrA => execMigrA (unpackR w) s
  | .migrH => execMigrH (unpackR w) s
  | .migrC => execMigrC (unpackR w) s
  | .tcom => execTcom (unpackR w) s
  | .tret => execTret (unpackR w) s
  | .tretRs => execTretRs (unpackR w) s
  | .tretDp => execTretDp (unpackR w) s
  | .sysc => execSysc (unpackR w) s
  | .monc => execMonc (unpackR w) s
  | .brk => execBrk (unpackR w) s
  | .mfcr => execMfcr (unpackI w) s
  | .mtcr => execMtcr (unpackI w) s
  | .feat => execFeat (unpackR w) s
  | .icinv => execIcinv (unpackR w) s
  | .isend => execIsend (unpackR w) s
  | .cancel => execCancel (unpackR w) s
  | .ien => execIen (unpackR w) s
  | .idis => execIdis (unpackR w) s
  | .rdcyc => execRdcyc (unpackR w) s
  | .ldN8 => execLdN8 (unpackM w) s
  | .ldN16 => execLdN16 (unpackM w) s
  | .ldN32 => execLdN32 (unpackM w) s
  | .ldN64 => execLdN64 (unpackM w) s
  | .ldS8 => execLdS8 (unpackM w) s
  | .ldS16 => execLdS16 (unpackM w) s
  | .ldS32 => execLdS32 (unpackM w) s
  | .stN8 => execStN8 (unpackM w) s
  | .stN16 => execStN16 (unpackM w) s
  | .stN32 => execStN32 (unpackM w) s
  | .stN64 => execStN64 (unpackM w) s
  | .vld => execVld (unpackVM w) s
  | .vlds => execVlds (unpackVM w) s
  | .vldx => execVldx (unpackVM w) s
  | .vst => execVst (unpackVM w) s
  | .vsts => execVsts (unpackVM w) s
  | .vstx => execVstx (unpackVM w) s
  | .aadd => execAadd (unpackA w) s
  | .aand => execAand (unpackA w) s
  | .aor => execAor (unpackA w) s
  | .axor => execAxor (unpackA w) s
  | .aminS => execAminS (unpackA w) s
  | .amaxS => execAmaxS (unpackA w) s
  | .aminN => execAminN (unpackA w) s
  | .amaxN => execAmaxN (unpackA w) s
  | .afadd => execAfadd (unpackA w) s
  | .aswp => execAswp (unpackA w) s
  | .acas => execAcas (unpackA w) s
  | .afor => execAfor (unpackA w) s
  | .afxor => execAfxor (unpackA w) s
  | .afminS => execAfminS (unpackA w) s
  | .afmaxS => execAfmaxS (unpackA w) s
  | .affadd => execAffadd (unpackA w) s
  | .tst => execTst (unpackT w) s
  | .tld => execTld (unpackT w) s
  | .tldc => execTldc (unpackT w) s
  | .trel => execTrel (unpackT w) s
  | .tqry => execTqry (unpackT w) s
  | .tsub => execTsub (unpackT w) s
  | .tunsub => execTunsub (unpackT w) s
  | .tmov => execTmov (unpackT w) s
  | .halloc => execHalloc (unpackR w) s
  | .hfree => execHfree (unpackR w) s
  | .fence => execFence (unpackR w) s
  | .wpc => execWpc (unpackR w) s
  | .barArr => execBarArr (unpackR w) s
  | .barWait => execBarWait (unpackR w) s
  | .msend => execMsend (unpackR w) s
  | .qput => execQput (unpackR w) s
  | .qget => execQget (unpackR w) s
  | .cwait => execCwait (unpackR w) s
  | .ccwait => execCcwait (unpackR w) s
  | .cctl => execCctl (unpackR w) s
  | .wtarm => execWtarm (unpackR w) s
  | .wlpush => execWlpush (unpackR w) s
  | .mwait => execMwait (unpackR w) s
  | .tqset => execTqset (unpackR w) s
  | .ftile => execFtile (unpackR w) s
  | .tqfree => execTqfree (unpackR w) s
  | .sbind => execSbind (unpackR w) s
  | .sunbind => execSunbind (unpackR w) s
  | .swait => execSwait (unpackR w) s
  | .sget => execSget (unpackR w) s
  | .sput => execSput (unpackR w) s
  | .vsget => execVsget (unpackR w) s
  | .vsput => execVsput (unpackR w) s
  | .hxfer => execHxfer (unpackR w) s
  | .vadd => execVadd (unpackV w) s
  | .vsub => execVsub (unpackV w) s
  | .vmul => execVmul (unpackV w) s
  | .vmulh => execVmulh (unpackV w) s
  | .vmin => execVmin (unpackV w) s
  | .vmax => execVmax (unpackV w) s
  | .vand => execVand (unpackV w) s
  | .vor => execVor (unpackV w) s
  | .vxor => execVxor (unpackV w) s
  | .vsll => execVsll (unpackV w) s
  | .vsrl => execVsrl (unpackV w) s
  | .vsra => execVsra (unpackV w) s
  | .vadds => execVadds (unpackV w) s
  | .vsubs => execVsubs (unpackV w) s
  | .vabs => execVabs (unpackV w) s
  | .vdot => execVdot (unpackV w) s
  | .vfadd => execVfadd (unpackV w) s
  | .vfsub => execVfsub (unpackV w) s
  | .vfmul => execVfmul (unpackV w) s
  | .vfdiv => execVfdiv (unpackV w) s
  | .vfsqrt => execVfsqrt (unpackV w) s
  | .vfmin => execVfmin (unpackV w) s
  | .vfmax => execVfmax (unpackV w) s
  | .vfma => execVfma (unpackV w) s
  | .vfnma => execVfnma (unpackV w) s
  | .vfabs => execVfabs (unpackV w) s
  | .vfneg => execVfneg (unpackV w) s
  | .vexp => execVexp (unpackV w) s
  | .vexp2 => execVexp2 (unpackV w) s
  | .vlog => execVlog (unpackV w) s
  | .vlog2 => execVlog2 (unpackV w) s
  | .vrcp => execVrcp (unpackV w) s
  | .vrsqrt => execVrsqrt (unpackV w) s
  | .vsin => execVsin (unpackV w) s
  | .vcos => execVcos (unpackV w) s
  | .vtanh => execVtanh (unpackV w) s
  | .vsigm => execVsigm (unpackV w) s
  | .vcmpEq => execVcmpEq (unpackV w) s
  | .vcmpNe => execVcmpNe (unpackV w) s
  | .vcmpLt => execVcmpLt (unpackV w) s
  | .vcmpLe => execVcmpLe (unpackV w) s
  | .vcmpGt => execVcmpGt (unpackV w) s
  | .vcmpGe => execVcmpGe (unpackV w) s
  | .vwhile => execVwhile (unpackV w) s
  | .vfcmpEq => execVfcmpEq (unpackV w) s
  | .vfcmpNe => execVfcmpNe (unpackV w) s
  | .vfcmpLt => execVfcmpLt (unpackV w) s
  | .vfcmpLe => execVfcmpLe (unpackV w) s
  | .vfcmpGt => execVfcmpGt (unpackV w) s
  | .vfcmpGe => execVfcmpGe (unpackV w) s
  | .vfcmpUn => execVfcmpUn (unpackV w) s
  | .pand => execPand (unpackV w) s
  | .por => execPor (unpackV w) s
  | .pxor => execPxor (unpackV w) s
  | .pandn => execPandn (unpackV w) s
  | .pnot => execPnot (unpackV w) s
  | .pall => execPall (unpackV w) s
  | .pcnt => execPcnt (unpackV w) s
  | .pfirst => execPfirst (unpackV w) s
  | .vperm => execVperm (unpackV w) s
  | .vbcast => execVbcast (unpackV w) s
  | .vslu => execVslu (unpackV w) s
  | .vsld => execVsld (unpackV w) s
  | .vzip => execVzip (unpackV w) s
  | .vunzip => execVunzip (unpackV w) s
  | .vmvx => execVmvx (unpackV w) s
  | .vmvv => execVmvv (unpackV w) s
  | .vsel => execVsel (unpackV w) s
  | .vcmpr => execVcmpr (unpackV w) s
  | .vmov => execVmov (unpackV w) s
  | .vlen => execVlen (unpackV w) s
  | .vredadd => execVredadd (unpackV w) s
  | .vredmin => execVredmin (unpackV w) s
  | .vredmax => execVredmax (unpackV w) s
  | .vredand => execVredand (unpackV w) s
  | .vredor => execVredor (unpackV w) s
  | .vredxor => execVredxor (unpackV w) s
  | .vfredadd => execVfredadd (unpackV w) s
  | .vfredmin => execVfredmin (unpackV w) s
  | .vfredmax => execVfredmax (unpackV w) s
  | .vcvt => execVcvt (unpackVC w) s
  | .gmadd => execGmadd (unpackR w) s
  | .gsch => execGsch (unpackR w) s
  | .gdmp => execGdmp (unpackR w) s
  | .gmsend => execGmsend (unpackR w) s
  | .gmld => execGmld (unpackR w) s
  | .gres => execGres (unpackR w) s
  | .gpiv => execGpiv (unpackR w) s
  | .gmclr => execGmclr (unpackR w) s
  | .mxc => execMxc (unpackR w) s
  | .mxz => execMxz (unpackR w) s
  | .mxld => execMxld (unpackR w) s
  | .mxst => execMxst (unpackR w) s
  | .mxmv => execMxmv (unpackR w) s
  | .mxwl => execMxwl (unpackR w) s
  | .mxls => execMxls (unpackR w) s
  | .mxlr => execMxlr (unpackR w) s
  | .mxstat => execMxstat (unpackR w) s
  | .qnt => execQnt (unpackR w) s
  | .xaz => execXaz (unpackR w) s
  | .xafm => execXafm (unpackR w) s
  | .xaadd => execXaadd (unpackR w) s
  | .xarnd => execXarnd (unpackR w) s
  | .xasgn => execXasgn (unpackR w) s
  | .sqslot => execSqslot (unpackR w) s
  | .sqrot => execSqrot (unpackR w) s
  | .atts => execAtts (unpackR w) s
  | .sqsamp => execSqsamp (unpackR w) s
  | .sqplay => execSqplay (unpackR w) s
  | .sqtrunc => execSqtrunc (unpackR w) s
  | .sqframe => execSqframe (unpackR w) s
  | .sqcur => execSqcur (unpackR w) s
  | .hnop => execHnop (unpackHsch w) s
  | .pfl1 => execPfl1 (unpackHsch w) s
  | .pfsl => execPfsl (unpackHsch w) s
  | .pfi => execPfi (unpackHsch w) s
  | .hmod => execHmod (unpackHmod w) s
  | .himm => execHimm (unpackHimm w) s
  | .rep => execRep (unpackRep w) s
  | .hschKind47 => execHschKind47 (unpackHschK w) s

/-- exec of a step of the machine, by direct calls. -/
def runEvent (s : State) : Event → Host.Outcome State Fault Refusal
  | .trinvRange o => execTrinvRange o s
  | .trinvJob o => execTrinvJob o s
  | .trinvAll o => execTrinvAll o s
  | .trinvDone o => execTrinvDone o s
  | .jobswSuspend o => execJobswSuspend o s
  | .jobswResume o => execJobswResume o s
  | .sqstatClear o => execSqstatClear o s
  | .nlkstStart o => execNlkstStart o s
  | .collectiveAllreduce o => execCollectiveAllreduce o s
  | .collectiveBroadcast o => execCollectiveBroadcast o s
  | .hostToDevice o => execHostToDevice o s
  | .deviceToHost o => execDeviceToHost o s
  | .collectiveCompletion o => execCollectiveCompletion o s
  | .collectiveCancelNotice o => execCollectiveCancelNotice o s
  | .collectiveTimeout o => execCollectiveTimeout o s
  | .bringUp o => execBringUp o s
  | .query o => execQuery o s
  | .attest o => execAttest o s
  | .events o => execEvents o s
  | .config o => execConfig o s
  | .monitor o => execMonitor o s
  | .fuseRevoke o => execFuseRevoke o s
  | .linkclr o => execLinkclr o s
  | .qdbDoorbell o => execQdbDoorbell o s
  | .nopEntry o => execNopEntry o s
  | .launchEntry o => execLaunchEntry o s
  | .graphEntry o => execGraphEntry o s
  | .cancelEntry o => execCancelEntry o s
  | .priorityEntry o => execPriorityEntry o s
  | .signalEntry o => execSignalEntry o s
  | .entryAdmission o => execEntryAdmission o s
  | .dandelionWake o => execDandelionWake o s
  | .nolkaiMulticast o => execNolkaiMulticast o s
  | .rerankNotice o => execRerankNotice o s
  | .launchCompletion o => execLaunchCompletion o s
  | .hostRead o => execHostRead o s
  | .hostWrite o => execHostWrite o s
  | .loaderChoice o => execLoaderChoice o s
  | .threadStart o => execThreadStart o s
  | .sextantBalance o => execSextantBalance o s
  | .workListShipment o => execWorkListShipment o s
  | .meridianSample o => execMeridianSample o s
  | .cancelFlood o => execCancelFlood o s
  | .migrantPacketArrival o => execMigrantPacketArrival o s
  | .faultResponse o => execFaultResponse o s
  | .trapEntry o => execTrapEntry o s
  | .interruptEntry o => execInterruptEntry o s
  | .timerInterrupt o => execTimerInterrupt o s
  | .softInterruptDelivery o => execSoftInterruptDelivery o s
  | .singleStep o => execSingleStep o s
  | .preemption o => execPreemption o s
  | .contextSaveDone o => execContextSaveDone o s
  | .resultReturn o => execResultReturn o s
  | .lineFill o => execLineFill o s
  | .speculativeStoreReceipt o => execSpeculativeStoreReceipt o s
  | .commitInstall o => execCommitInstall o s
  | .regionMerge o => execRegionMerge o s
  | .revoke o => execRevoke o s
  | .deregistration o => execDeregistration o s
  | .forwardedRead o => execForwardedRead o s
  | .copySliceMiss o => execCopySliceMiss o s
  | .copyFillArrival o => execCopyFillArrival o s
  | .copyInvalidation o => execCopyInvalidation o s
  | .holderNotice o => execHolderNotice o s
  | .commutativeFlush o => execCommutativeFlush o s
  | .collection o => execCollection o s
  | .fallBackAtomicGrant o => execFallBackAtomicGrant o s
  | .remoteScratchpadWrite o => execRemoteScratchpadWrite o s
  | .remoteScratchpadRead o => execRemoteScratchpadRead o s
  | .sliceRetentionSleep o => execSliceRetentionSleep o s
  | .sliceWake o => execSliceWake o s
  | .ephemerisCreate o => execEphemerisCreate o s
  | .ephemerisLoad o => execEphemerisLoad o s
  | .ephemerisRelease o => execEphemerisRelease o s
  | .ephemerisPin o => execEphemerisPin o s
  | .ephemerisUnpin o => execEphemerisUnpin o s
  | .ephemerisCommit o => execEphemerisCommit o s
  | .ephemerisDiscard o => execEphemerisDiscard o s
  | .waiterCancel o => execWaiterCancel o s
  | .subscriptionRecord o => execSubscriptionRecord o s
  | .arrivalNotice o => execArrivalNotice o s
  | .stallResume o => execStallResume o s
  | .pressureReport o => execPressureReport o s
  | .promotionCompletion o => execPromotionCompletion o s
  | .frameAdmission o => execFrameAdmission o s
  | .streamFillElement o => execStreamFillElement o s
  | .streamDrainWrite o => execStreamDrainWrite o s
  | .heliostatLineReceive o => execHeliostatLineReceive o s
  | .matrixDispatch o => execMatrixDispatch o s
  | .matrixCommandCompletion o => execMatrixCommandCompletion o s
  | .solverOperationCompletion o => execSolverOperationCompletion o s
  | .msendDelivery o => execMsendDelivery o s
  | .qputDelivery o => execQputDelivery o s
  | .mailboxMessageArrival o => execMailboxMessageArrival o s
  | .linkTraining o => execLinkTraining o s
  | .nolkaiFlitReceipt o => execNolkaiFlitReceipt o s
  | .nolkaiNak o => execNolkaiNak o s
  | .ucieFlitReceipt o => execUcieFlitReceipt o s
  | .governorGrant o => execGovernorGrant o s
  | .powerCapStart o => execPowerCapStart o s
  | .powerCapEnd o => execPowerCapEnd o s
  | .eventReport o => execEventReport o s
  | .nonSpeculativeHomeWrite o => execNonSpeculativeHomeWrite o s
  | .sliceStallWake o => execSliceStallWake o s
  | .illegalEncoding o => execIllegalEncoding o s
  | .reset o => execReset o s

/-- step by direct calls. -/
def run (s : State) : Host.Outcome State Fault Refusal :=
  match select s with
  | (s, .word w) =>
    match decodeRow w with
    | .ok r => runRow w.toNat s r
    | .error _ => execIllegalEncoding ⟨w⟩ s
  | (s, .event e) => runEvent s e
  | (s, .idle) => finish s s

theorem runRow_eq (w : Nat) (s : State) (r : Opcode) : runRow w s r = exec (r.instr w) s := by
  cases r <;> rfl

theorem runEvent_eq (s : State) (e : Event) : runEvent s e = exec e.instr s := by
  cases e <;> rfl

theorem execWord_eq (w : BitVec 32) (s : State) : execWord w s =
    (match decodeRow w with
    | .ok r => runRow w.toNat s r
    | .error _ => execIllegalEncoding ⟨w⟩ s) := by
  unfold execWord
  rw [decode_eq_row]
  cases decodeRow w with
  | ok r => exact (runRow_eq w.toNat s r).symm
  | error e => rfl

/-- step is run. -/
@[csimp] theorem step_eq_run : @step = @run := by
  funext s
  unfold step run
  split
  · exact execWord_eq _ _
  · exact (runEvent_eq _ _).symm
  · rfl

/-! ## Placing an instruction -/

/-- The instruction line that holds a word at address 0 of job 0, and zeros. (DESIGN CHOICE, log 3) -/
def wordLine (w : Nat) : ILine :=
  ⟨0, 0, ⟨true, true, true, true⟩, .ofNat 1024 (w % 2 ^ 32), none, false, 0⟩

/-- The machine with an instruction placed where step fetches next: a thread in slot 0 of core 0, in monitor mode at address 0 of
job 0, whose instruction line is in the core's cache, chosen to issue. This stands for the launch that loads a program. (DESIGN CHOICE, log 3) -/
def State.withFetchWord (s : State) (nbits w : Nat) : State :=
  let t := s.thread 0
  let s := s.setThread 0
    { t with
      status := .ready
      stage := .start
      checked := false
      seq := none
      displaced := false
      pend := []
      stepDue := false
      ctx :=
        { t.ctx with
          pc := 0
          mode := .monitor
          ids := ⟨0, 0, 0, 0, 0⟩ } }
  let s := s.modCore 0 fun c => { c with l1i := tput c.l1i 0 (wordLine (w % 2 ^ nbits)) }
  { s with choice := [.issue 0] }

end Sys2Proof.Machine
end

