-- ==== Sys2Proof/Safety.lean ====
section
/-! DEFINITION. The terms in which the statements about the machine are made: the invariant that every step keeps, what lets an
instruction perform, what a completed instruction leaves, and what an unmodified word is. -/

namespace Sys2Proof.Machine

/-! ## The invariant -/

/-- HBM4 has its canonical form, and no byte waits to enter it: what stands between two steps. -/
def Inv (s : State) : Prop := Memory.wf s.hbm = true ∧ s.pending = [] ∧ s.linkHeld = false

/-! ## One instruction of the current thread -/

/-- The thread whose word is performed. -/
def State.hand (s : State) : Thread := s.thread s.cur

/-- The sequence that the current thread is in, or that of a word without modifiers. -/
def State.sequence (s : State) : SeqSt := s.hand.seq.getD (SeqSt.plain (wordAddr s.hand.ctx.pc))

/-- The instruction as its sequence makes it (R221 to R226). -/
def issued (s : State) (t : Traits) : Iss := mkIss s.cur s.hand t s.sequence

/-- The guards of an instruction: its own, and that of its HMOD word (R217, R218, R222). -/
def guards (s : State) (t : Traits) : Bool :=
  guardPass s.hand t.guard && guardPass s.hand (match s.sequence.hmod with
    | some h => h.g
    | none => 0)

/-- Whether HIMM words give a ten-bit field a value beyond it (R234, R267). -/
def overwide (s : State) (t : Traits) : Bool :=
  t.narrow && decide (0 < s.sequence.nimm) && bits (issued s t).imm 63 10 != 0

/-- Whether the sequence in hand is one that R223 to R226 and R267 allow before an instruction. -/
def sequenced (s : State) (t : Traits) : Bool :=
  !(s.hand.seq.isNone && bit s.hand.ctx.pc 63) && !(s.sequence.rep.isSome && !t.rep) && !overwide s t

/-- Whether an instruction performs: its sequence is a legal one, its guards pass, and the step governor lets it (R218, R425). -/
def performs (s : State) (t : Traits) : Bool :=
  sequenced s t && guards s t && (!t.power || (s.askVector (coreOf s.cur)).1)

/-- The machine once the step governor has been asked (R425). -/
def governed (s : State) (t : Traits) : State := if t.power then (s.askVector (coreOf s.cur)).2 else s

/-- The x and v registers that an instruction names. -/
def namedX (s : State) (t : Traits) : List Nat :=
  let i := issued s t
  t.d.reg .x i.d t.group.1 ++ t.a.reg .x i.a t.group.2.1 ++ (if i.bv.isSome then [] else t.b.reg .x i.b t.group.2.2) ++ t.more.1

def namedV (s : State) (t : Traits) : List Nat :=
  let i := issued s t
  t.d.reg .v i.d t.group.1 ++ t.a.reg .v i.a t.group.2.1 ++ (if i.bv.isSome then [] else t.b.reg .v i.b t.group.2.2) ++ t.more.2

/-- Whether an instruction names a register whose long-class result is outstanding (R159). -/
def hazard (s : State) (t : Traits) : Bool :=
  s.hand.stage == .start && s.hand.out.any fun o => o.dest.hits (namedX s t) (namedV s t)

/-- The machine in which an instruction's own effect begins: HAZ and MODFB stand as R159 and R235 say. -/
def begun (s : State) (t : Traits) : State :=
  let fb := fallback t s.sequence (issued s t).bv.isSome
  if hazard s t || fb then
    (governed s t).modCtx s.cur fun c => { c with haz := c.haz || hazard s t, modfb := c.modfb || fb }
  else governed s t

/-- The end of a step that began in `s`: the clock has advanced, and the bytes written to HBM4 stand in it. (DESIGN CHOICE, log 2) -/
def concluded (s t : State) : State :=
  { t with
    now := s.now + 1
    hbm := Memory.puts s.hbm t.pending.reverse
    pending := []
    linkHeld := false }

/-- A step of the machine outside a thread's issue answers a next state: the change `t`, with the clock advanced. -/
def Steps (i : Instr) (s t : State) : Prop := exec i s = .next (concluded s t)

/-- The next state of an instruction whose own effect ended in `r`: what follows an effect is Machine/Issue.lean's `settle`. -/
def after (s : State) (t : Traits) (r : Res) : State := concluded s (settle (governed s t) s.cur t.m r)

/-- An instruction that performs ends in `r`, which is told the instruction as its sequence makes it, its thread as it stood, and the
machine in which its effect begins. -/
def Ends (i : Instr) (s : State) (t : Traits) (r : Iss → Thread → State → Res) : Prop :=
  performs s t = true → exec i s = .next (after s t (r (issued s t) s.hand (begun s t)))

/-- It completes, and its effect is a change `f` of its thread alone. -/
def Does (i : Instr) (s : State) (t : Traits) (f : Iss → Thread → Thread → Thread) : Prop :=
  Ends i s t fun j h u => .done (u.modThread s.cur (f j h))

/-- It completes, and its effect is a change `f` of the machine. -/
def Acts (i : Instr) (s : State) (t : Traits) (f : Iss → Thread → State → State) : Prop :=
  Ends i s t fun j h u => .done (f j h u)

/-- A value with its flags to x[D]: the flags join ARITH unless HMOD.NF stands (R249). -/
def putX (i : Iss) (v : Word) (f : Flags) (u : Thread) : Thread := (if i.nf then u else u.orFlags f).setX i.d v

/-- An exact integer result under HMOD.SAT or wrapped (R250, R266): its 64 bits, and SAT when it was clamped. -/
def clamped (i : Iss) (v : Int) : Word × Flags :=
  if i.sat && decide (2 ^ 63 ≤ v) then (.ofNat 64 (2 ^ 63 - 1), fSAT)
  else if i.sat && decide (v < -2 ^ 63) then (.ofNat 64 (2 ^ 63), fSAT)
  else (.ofInt 64 v, 0)

/-! ## A thread that nothing holds back -/

/-- Whether a thread has nothing outstanding: no result, no posted write, no fault to surface, no guard record, no line or version of
its open task, no contribution in its core's buffer, and no engine operation or store of it on its way; its streams may have elements
to write. -/
def calm (s : State) (g : Nat) : Bool :=
  let t := s.thread g
  t.stage == .start && !t.checked && t.out.isEmpty && t.ctx.pd == 0 && t.ctx.px == 0 && t.ctx.po == 0 && t.stf.isEmpty && t.eng.isEmpty &&
  t.guardRec.isNone && t.units.isEmpty && t.creates.isEmpty && t.engines == 0 && t.pend.isEmpty &&
  !((s.core (coreOf g)).comm.any fun e => e.contrib.any fun x => x.1 == g) && !s.onWay (isSpecStore g)

/-- The same, and no engine of it has linear memory or host memory to write. -/
def quiet (s : State) (g : Nat) : Bool := calm s g && !lateEngines s g && !hostWrites s g

/-- The thread once a commit with nothing to publish has opened its next task (R128, R165). -/
def committed (own : Bool) (u : Thread) : Thread := reopen u own

/-! ## Rounded results -/

/-- Encoding `a` of a magnitude in format k as a multiple of a power of two; that of +∞ stands for the power next above the largest number. -/
def magnitude (k a : Nat) : Nat × Int :=
  let f := fmt k
  let h := 2 ^ (f.p - 1)
  if a < h then (a, f.umin) else (h + a % h, f.umin + (a / h : Nat) - 1)

/-- R244, R246, R247: `r` is what a rounding mode makes of an exact nonzero value in format k. `neg` is the value's sign, and `cmp m e` is the
order of m × 2^e to its magnitude. -/
def Rounded (k mode : Nat) (neg : Bool) (cmp : Nat → Int → Ordering) (r : FRes) : Prop :=
  let f := fmt k
  let a := r.1 % 2 ^ (f.w - 1)
  let at_ (n : Nat) : Ordering := cmp (magnitude k n).1 (magnitude k n).2
  let mid (n : Nat) : Ordering := cmp (2 * (magnitude k n).1 + 1) ((magnitude k n).2 - 1)
  let up : Bool := mode == 3 && !neg || mode == 4 && neg
  let p2 : Nat := 2 ^ f.p
  let e2 : Int := 1 - (f.emax : Int) - f.p
  r.1 = signBits k neg a ∧ a ≤ f.inf ∧
  -- which neighbour, when the overflow, and whether a power of two is still above it once it is rounded with no least exponent
  (∃ tiny : Bool,
    (if mode = 1 then
      (a < f.inf → mid a = .gt ∨ (mid a = .eq ∧ a % 2 = 0)) ∧ (0 < a → mid (a - 1) = .lt ∨ (mid (a - 1) = .eq ∧ a % 2 = 0)) ∧
      (tiny = true ↔ cmp (2 * p2 - 1) (e2 - 1) = .gt)
    else if up then
      (a < f.inf → at_ a ≠ .lt) ∧ (0 < a → at_ (a - 1) = .lt) ∧ (tiny = true ↔ cmp (p2 - 1) e2 ≠ .lt)
    else
      a < f.inf ∧ at_ a ≠ .gt ∧ (a + 1 < f.inf → at_ (a + 1) = .gt) ∧ (tiny = true ↔ cmp p2 e2 = .gt)) ∧
    (let big := if mode = 1 ∨ up = true then a = f.inf else at_ f.inf ≠ .gt
     (r.2.getLsbD 2 = true ↔ big) ∧ (r.2.getLsbD 0 = true ↔ big ∨ at_ a ≠ .eq) ∧ (r.2.getLsbD 1 = true ↔ tiny = true ∧ at_ a ≠ .eq))) ∧
  r.2 &&& 0xF8 = 0

/-! ## Vector results -/

/-- Element k of w bits of a vector register (R245). -/
def elementOf (w : Nat) (l : Line) (k : Nat) : Nat := l.toNat / 2 ^ (w * k) % 2 ^ w

/-- Whether element k of w bits is active (R310). -/
def isActive (h : Thread) (pr : BitVec 3) (w k : Nat) : Bool := pr == 0 || (h.preg pr.toNat).getLsbD (k * (w / 8))

/-- The instruction writes v[D] element by element: an active element takes its result, an inactive one keeps its value, and the flags are
those of the active elements (R249, R310). -/
def Lanewise (i : Instr) (s : State) (t : Traits) (pr : BitVec 3) (w : Nat) (f : Iss → Thread → Nat → FRes) : Prop :=
  ∃ (r : Line) (fl : Flags),
    Does i s t (fun j _ u => (if j.nf then u else u.orFlags fl).setV j.d r) ∧
    (∀ k, k < 1024 / w → elementOf w r k =
      if isActive s.hand pr w k then (f (issued s t) s.hand k).1 % 2 ^ w else elementOf w (s.hand.vreg (issued s t).d) k) ∧
    ∀ b, fl.getLsbD b = true ↔ ∃ k, k < 1024 / w ∧ isActive s.hand pr w k = true ∧ (f (issued s t) s.hand k).2.getLsbD b = true

/-- The instruction writes p[D]: the bits of an active element are its result, those of an inactive one are 0 (R311). -/
def Predicatewise (i : Instr) (s : State) (t : Traits) (pr : BitVec 3) (w : Nat) (f : Iss → Thread → Nat → Bool × Flags) : Prop :=
  ∃ (r : Pred) (fl : Flags),
    Does i s t (fun j _ u => (if j.nf then u else u.orFlags fl).setP j.d r) ∧
    (∀ n, n < 128 → r.getLsbD n = (isActive s.hand pr w (n / (w / 8)) && (f (issued s t) s.hand (n / (w / 8))).1)) ∧
    ∀ b, fl.getLsbD b = true ↔ ∃ k, k < 1024 / w ∧ isActive s.hand pr w k = true ∧ (f (issued s t) s.hand k).2.getLsbD b = true

/-! ## The operands of a matrix command -/

/-- A core's accumulator tiles and latched weights replaced. -/
def State.withTiles (s : State) (core : Nat) (acc : Table Acc) (w : Option Weights) : State :=
  s.modCore core fun c => { c with acc := acc, weights := w }

/-- A state like another but for the accumulator tiles and latched weights of a core, which no operand of a command is read from. -/
def tilesOnly (s : State) (core : Nat) (t : State) : Prop := t = s ∨ ∃ acc w, t = s.withTiles core acc w

/-- K block n of an MMA: its first element and the one after its last (R337). -/
def Mma.kBlock (m : Mma) (n : Nat) : Nat × Nat := (n * m.kb, min (mxK m.cmd) (n * m.kb + m.kb))

/-- What the operands of an MMA hold: elements A i k and B k j, and scale bytes SA b i and SB b j of scale block b, 127 without scales (R338).
Every access of the command answers them and changes nothing, and the streams hold as many bytes as the command needs; where the latched
weights stand, B and its scales are those (R337). -/
def MmaReads (s : State) (m : Mma) (A B SA SB : Nat → Nat → Nat) : Prop :=
  let c := m.cmd
  (mxScm c = 0 → ∀ b i, SA b i = 127 ∧ SB b i = 127) ∧
  (m.separate = true → m.blocks * mxM c = mxSalen c ∧ (m.kept = none → m.blocks * mxN c = mxSblen c)) ∧
  (∀ w, m.kept = some w → w.cols = ((List.range (mxN c)).map fun j => (List.range (mxK c)).map fun k => B k j) ∧
    w.scales = (List.range m.blocks).map fun b => (List.range (mxN c)).map (SB b)) ∧
  ∀ t n, tilesOnly s m.core t → n < ceilDiv (mxK c) m.kb →
    let k0 := (m.kBlock n).1
    let k1 := (m.kBlock n).2
    let sp := m.span k0 k1
    (∀ i, i < mxM c → readA m t i k0 k1 = (t, .ok ((List.range (k1 - k0)).map fun d => A i (k0 + d),
      if mxScm c = 5 then (List.range sp.2).map fun d => SA (sp.1 + d) i else []))) ∧
    (∀ cb, m.kept = none → cb < ceilDiv (mxN c) m.nb →
      let j0 := cb * m.nb
      let n := min (mxN c) (j0 + m.nb) - j0
      (mxScm c ≠ 5 → readBRows m j0 (j0 + n) k0 (k1 - k0) t =
        (t, .ok ((List.range (k1 - k0)).map fun d => (List.range n).map fun e => B (k0 + d) (j0 + e)))) ∧
      (mxScm c = 5 → readBCols m k0 k1 j0 n t =
        (t, .ok ((List.range n).map fun e => (List.range (k1 - k0)).map fun d => B (k0 + d) (j0 + e),
          (List.range n).map fun e => (List.range sp.2).map fun d => SB (sp.1 + d) (j0 + e))))) ∧
    (m.separate = true →
      readScales m (cmdWord c 2) (mxSalen c) (mxM c) sp.1 sp.2 t =
        (t, .ok ((List.range sp.2).map fun d => (List.range (mxM c)).map (SA (sp.1 + d)))) ∧
      (m.kept = none → readScales m (cmdWord c 3) (mxSblen c) (mxN c) sp.1 sp.2 t =
        (t, .ok ((List.range sp.2).map fun d => (List.range (mxN c)).map (SB (sp.1 + d))))))

/-- R258, R339: what an MMA makes of an accumulator element that starts at `acc`, for row i of A and column j of B: floating-point operands
K block by K block, residue operands scale block by scale block. -/
def mmaElement (m : Mma) (A B SA SB : Nat → Nat → Nat) (i j acc : Nat) : Nat :=
  let c := m.cmd
  if m.residue then
    (List.range m.blocks).foldl (fun z b =>
      let k0 := b * mxBlock c
      let sum := ((List.range (min (mxK c) (k0 + mxBlock c) - k0)).map fun d =>
        (resDec (mxAfmt c) (A i (k0 + d))).1 * (resDec (mxBfmt c) (B (k0 + d) j)).1).sum
      (accBlock z (scaled (SA b i) (SB b j) (ofInt (channels sum), 0))).1) acc
  else
    (List.range (ceilDiv (mxK c) m.kb)).foldl (fun z n =>
      let k0 := (m.kBlock n).1
      let b := k0 / mxBlock c
      (accChunk m.acc z (scaled (SA b i) (SB b j)
        (chunkSum (mxAfmt c) ((List.range ((m.kBlock n).2 - k0)).map fun d => (A i (k0 + d), B (k0 + d) j))))).1) acc

/-! ## Long-class results -/

/-- A result of the instruction is outstanding, and its value is on its way (R159). -/
def returning (i : Iss) (d : Dest) (v : ResultVal) (s : State) : State :=
  let r := expect s i d 1 false
  answer r.1 (fromThread i.g) i.g r.2 v none

/-- What ends the wait of an instruction whose event has come: the acquire steps (R122). -/
def acquiring (s : State) : State := acquireCore (s.stage s.cur .sent) (coreOf s.cur)

/-! ## Forms of one shape -/

/-- The loads, with their bytes and whether they extend the sign (R289). -/
def loads : List ((OpM → Instr) × Nat × Bool) :=
  [(.ldN8, 1, false), (.ldN16, 2, false), (.ldN32, 4, false), (.ldN64, 8, false), (.ldS8, 1, true), (.ldS16, 2, true), (.ldS32, 4, true)]

/-- The stores, with their bytes (R289). -/
def stores : List ((OpM → Instr) × Nat) := [(.stN8, 1), (.stN16, 2), (.stN32, 4), (.stN64, 8)]

/-- The atomics, with their operation, and whether it is of the commutative class, which returns nothing (R291). -/
def atomics : List ((OpA → Instr) × AtomicOp × Bool) :=
  [(.aadd, .add, true), (.aand, .and, true), (.aor, .or, true), (.axor, .xor, true), (.aminS, .minS, true), (.amaxS, .maxS, true),
   (.aminN, .minU, true), (.amaxN, .maxU, true), (.afadd, .add, false), (.aswp, .swap, false), (.acas, .cas, false), (.afor, .or, false),
   (.afxor, .xor, false), (.afminS, .minS, false), (.afmaxS, .maxS, false), (.affadd, .fadd, false)]

end Sys2Proof.Machine
end

