-- ==== Sys2Proof/Certificates/Slice0/Obligations.lean ====
section
/-! DEFINITION. The statements for the provers, family by family, then the machine as a whole. -/

open Sys2Proof Sys2Proof.Machine

/-! ## The scalar integer instructions -/

/-- R264 to R266: add, sub, mul and the divisions, with their flags. -/
def Obligations.IntegerArithmetic : Prop :=
  ∀ (o : OpR) (s : State),
    let t : Traits := { Traits.ofR o (fx o.d) (fx o.a) (fx o.b) with sets := true }
    let ts : Traits := { t with sat := true }
    let sum (f : Int → Int → Int) (i : Iss) (h : Thread) := clamped i (f (h.x i.a).toInt (i.bval h).toInt)
    let quot (v w : Word → Word → Word) (i : Iss) (h : Thread) (u : Thread) : Thread :=
      if i.bval h = 0 then putX i (v (h.x i.a) (i.bval h)) fDZ u else putX i (w (h.x i.a) (i.bval h)) 0 u
    Does (.add o) s ts (fun i h => putX i (sum (· + ·) i h).1 (sum (· + ·) i h).2) ∧
    Does (.sub o) s ts (fun i h => putX i (sum (· - ·) i h).1 (sum (· - ·) i h).2) ∧
    Does (.mul o) s ts (fun i h => putX i (sum (· * ·) i h).1 (sum (· * ·) i h).2) ∧
    Does (.divS64 o) s t (quot (fun _ _ => 0) fun a b => .ofInt 64 (a.toInt.tdiv b.toInt)) ∧
    Does (.divN64 o) s t (quot (fun _ _ => 0) fun a b => .ofNat 64 (a.toNat / b.toNat)) ∧
    Does (.remS64 o) s t (quot (fun a _ => a) fun a b => .ofInt 64 (a.toInt.tmod b.toInt)) ∧
    Does (.remN64 o) s t (quot (fun a _ => a) fun a b => .ofNat 64 (a.toNat % b.toNat))

/-- R264, R267: the INT forms besides the sums, products and divisions; the I and SHI forms, and lea. -/
def Obligations.IntegerForms : Prop :=
  (∀ (o : OpR) (s : State),
      let t := Traits.ofR o (fx o.d) (fx o.a) (fx o.b)
      let two (f : Word → Word → Word) (i : Iss) (h u : Thread) : Thread := u.setX i.d (f (h.x i.a) (i.bval h))
      Does (.mulhS64 o) s t (two fun a b => .ofInt 64 (a.toInt * b.toInt / 2 ^ 64)) ∧
      Does (.mulhN64 o) s t (two fun a b => .ofNat 64 (a.toNat * b.toNat / 2 ^ 64)) ∧
      Does (.and o) s t (two fun a b => a &&& b) ∧
      Does (.or o) s t (two fun a b => a ||| b) ∧
      Does (.xor o) s t (two fun a b => a ^^^ b) ∧
      Does (.andn o) s t (two fun a b => a &&& ~~~b) ∧
      Does (.orn o) s t (two fun a b => a ||| ~~~b) ∧
      Does (.xnor o) s t (two fun a b => ~~~(a ^^^ b)) ∧
      Does (.sll o) s t (two fun a b => a <<< (b.toNat % 64)) ∧
      Does (.srl o) s t (two fun a b => a >>> (b.toNat % 64)) ∧
      Does (.sra o) s t (two fun a b => .ofInt 64 (a.toInt / 2 ^ (b.toNat % 64))) ∧
      Does (.rol o) s t (two fun a b => a.rotateLeft (b.toNat % 64)) ∧
      Does (.ror o) s t (two fun a b => a.rotateRight (b.toNat % 64)) ∧
      Does (.minS64 o) s t (two fun a b => .ofInt 64 (min a.toInt b.toInt)) ∧
      Does (.maxS64 o) s t (two fun a b => .ofInt 64 (max a.toInt b.toInt)) ∧
      Does (.minN64 o) s t (two fun a b => .ofNat 64 (min a.toNat b.toNat)) ∧
      Does (.maxN64 o) s t (two fun a b => .ofNat 64 (max a.toNat b.toNat)) ∧
      Does (.sext o) s t (two fun a b => .ofInt 64 (intVal (b.toNat % 64 + 1) true a.toNat))) ∧
  ((∀ (o : OpR) (s : State),
      let t := Traits.ofR o (fx o.d) (fx o.a) fnone
      let one (f : Word → Word) (i : Iss) (h u : Thread) : Thread := u.setX i.d (f (h.x i.a))
      Does (.clz o) s t (one clzVal) ∧ Does (.ctz o) s t (one ctzVal) ∧ Does (.popc o) s t (one popVal) ∧
      Does (.brev o) s t (one brevVal) ∧ Does (.bswap o) s t (one bswapVal) ∧
      Does (.abs o) s t (one fun a => .ofInt 64 (if a.toInt < 0 then -a.toInt else a.toInt))) ∧
    (∀ a : Word,
      (a ≠ 0 → (clzVal a).toNat < 64 ∧ 2 ^ (63 - (clzVal a).toNat) ≤ a.toNat ∧ a.toNat < 2 ^ (64 - (clzVal a).toNat)) ∧
      (a ≠ 0 → (ctzVal a).toNat < 64 ∧ a.toNat % 2 ^ (ctzVal a).toNat = 0 ∧ a.getLsbD (ctzVal a).toNat = true) ∧
      clzVal 0 = 64 ∧ ctzVal 0 = 64 ∧
      (popVal a).toNat = ((List.range 64).filter fun n => a.getLsbD n).length ∧
      (∀ n, n < 64 → (brevVal a).getLsbD n = a.getLsbD (63 - n)) ∧
      ∀ n, n < 64 → (bswapVal a).getLsbD n = a.getLsbD (8 * (7 - n / 8) + n % 8))) ∧
  ((∀ (o : OpI) (s : State),
      let t := Traits.ofI o (fx o.d) (fx o.a)
      let two (f : Word → Word → Word) (i : Iss) (h u : Thread) : Thread := u.setX i.d (f (h.x i.a) i.imm)
      Does (.addi o) s t (two fun a k => a + k) ∧ Does (.andi o) s t (two fun a k => a &&& k) ∧
      Does (.ori o) s t (two fun a k => a ||| k) ∧ Does (.xori o) s t (two fun a k => a ^^^ k) ∧
      Does (.lea o) s (Traits.ofI o (fx o.d) fnone) (fun i _ u => u.setX i.d (i.pc + 4 * i.imm))) ∧
    (∀ (o : OpSh) (s : State),
      let sh (f : Word → Nat → Word) (i : Iss) (h u : Thread) : Thread := u.setX i.d (f (h.x i.a) o.k.toNat)
      Does (.slli o) s (Traits.ofSh o 0 (fx o.d) (fx o.a)) (sh fun a k => a <<< k) ∧
      Does (.srli o) s (Traits.ofSh o 1 (fx o.d) (fx o.a)) (sh fun a k => a >>> k) ∧
      Does (.srai o) s (Traits.ofSh o 2 (fx o.d) (fx o.a)) (sh fun a k => .ofInt 64 (a.toInt / 2 ^ k)) ∧
      Does (.rori o) s (Traits.ofSh o 3 (fx o.d) (fx o.a)) (sh fun a k => a.rotateRight k)))

/-- R268: bit-field extracts and inserts. The field starts at x[B][15:8] and is x[B][7:0] bits wide, cut at bit 63. -/
def Obligations.BitFields : Prop :=
  ∀ (o : OpR) (s : State),
    let t := Traits.ofR o (fx o.d) (fx o.a) (fx o.b)
    let off (b : Word) : Nat := b.toNat / 2 ^ 8 % 2 ^ 8
    let wid (b : Word) : Nat := min (b.toNat % 2 ^ 8) (64 - off b)
    Does (.bfxN64 o) s t (fun i h u => let b := i.bval h; u.setX i.d (.ofNat 64 ((h.x i.a).toNat / 2 ^ off b % 2 ^ wid b))) ∧
    Does (.bfxS64 o) s t (fun i h u =>
      let b := i.bval h
      u.setX i.d (if wid b = 0 then 0 else .ofInt 64 (intVal (wid b) true ((h.x i.a).toNat / 2 ^ off b)))) ∧
    Ends (.bfi o) s t (fun i h u =>
      let b := i.bval h
      let v := bfiVal (h.x i.d) (h.x i.a) b
      .done (u.modThread s.cur fun t => t.setX i.d v)) ∧
    ∀ (d a b : Word) (n : Nat), n < 64 →
      (bfiVal d a b).getLsbD n = if off b ≤ n ∧ n < off b + wid b then a.getLsbD (n - off b) else d.getLsbD n

/-- R269: compares into condition bits, operations on condition bits, and the condition word. -/
def Obligations.ConditionBits : Prop :=
  ∀ (o : OpR) (s : State),
    let t := Traits.ofR o (fc o.d) (fx o.a) (fx o.b)
    let tc := Traits.ofR o (fc o.d) (fc o.a) (fc o.b)
    let cmp (f : Word → Word → Prop) [∀ a b, Decidable (f a b)] (i : Iss) (h u : Thread) : Thread := u.setC i.d (decide (f (h.x i.a) (i.bval h)))
    let two (f : Bool → Bool → Bool) (i : Iss) (h u : Thread) : Thread := u.setC i.d (f (h.creg i.a) (h.creg i.b))
    Does (.cmpEq o) s t (cmp fun a b => a = b) ∧ Does (.cmpNe o) s t (cmp fun a b => a ≠ b) ∧
    Does (.cmpLtS64 o) s t (cmp fun a b => a.toInt < b.toInt) ∧ Does (.cmpGeS64 o) s t (cmp fun a b => b.toInt ≤ a.toInt) ∧
    Does (.cmpLtN64 o) s t (cmp fun a b => a.toNat < b.toNat) ∧ Does (.cmpGeN64 o) s t (cmp fun a b => b.toNat ≤ a.toNat) ∧
    Does (.cmpTst o) s t (cmp fun a b => a &&& b ≠ 0) ∧ Does (.cmpTstz o) s t (cmp fun a b => a &&& b = 0) ∧
    Does (.cand o) s tc (two fun a b => a && b) ∧ Does (.cor o) s tc (two fun a b => a || b) ∧
    Does (.cxor o) s tc (two fun a b => a != b) ∧ Does (.candn o) s tc (two fun a b => a && !b) ∧
    Does (.mfcw o) s (Traits.ofR o (fx o.d) fnone fnone) (fun i h u => u.setX i.d (h.ctx.cond.setWidth 64)) ∧
    Does (.mtcw o) s (Traits.ofR o fnone (fx o.a) fnone) (fun i h u =>
      { u with ctx := { u.ctx with cond := (h.x i.a).setWidth 16 } })

/-- R270, R246: the arithmetic forms of FPA and FPB, in nearest-even or in HMOD.RM's mode. R243 to R247, R270: what the floating-point
operations answer for NaN, for infinities, for an invalid operation and for a division by zero, that a result without NX is the exact
one, and the minima, maxima, signs and classes. -/
def Obligations.FloatingPoint : Prop :=
  (∀ (o : OpF) (s : State),
      let t : Traits := Traits.ofF o (fx o.d) (fx o.a) (fx o.b)
      let tr : Traits := { t with rounds := true }
      let t1 : Traits := Traits.ofF o (fx o.d) (fx o.a) fnone
      let put (i : Iss) (r : FRes) : Thread → Thread := putX i (.ofNat 64 r.1) r.2
      let mode (i : Iss) : Nat := if i.rm = 0 then 1 else i.rm
      let k := o.t.toNat
      let two (f : Nat → Nat → Nat → FRes) (i : Iss) (h : Thread) := put i (f (mode i) (h.x i.a).toNat (i.bval h).toNat)
      let one (f : Nat → FRes) (i : Iss) (h : Thread) := put i (f (h.x i.a).toNat)
      Does (.fadd o) s tr (two (fpAdd k)) ∧ Does (.fsub o) s tr (two (fpSub k)) ∧
      Does (.fmul o) s tr (two (fpMul k)) ∧ Does (.fdiv o) s tr (two (fpDiv k)) ∧
      Does (.fsqrt o) s { t1 with rounds := true } (fun i h => put i (fpSqrt k (mode i) (h.x i.a).toNat)) ∧
      Does (.fmac o) s tr (fun i h => put i (fpFma k (mode i) (h.x i.a).toNat (i.bval h).toNat (h.x i.d).toNat)) ∧
      Does (.fmin o) s t (two fun _ => fpMinMax k false) ∧ Does (.fmax o) s t (two fun _ => fpMinMax k true) ∧
      Does (.fsgn o) s t (two fun _ => fpSgn k) ∧
      Does (.fneg o) s t1 (one (fpNeg k)) ∧ Does (.fabs o) s t1 (one (fpAbs k)) ∧
      Does (.fclass o) s { t1 with sets := false } (one fun a => (fpClass k a, 0))) ∧
  (∀ k mode a b c : Nat, k < 4 →
      let x := fpVal k a
      let y := fpVal k b
      let z := fpVal k c
      let zero (v : Fv) : Prop := ∃ n e, v = .fin n 0 e
      let sig (v : Fv) : Prop := v = .nan true
      let nv (p : Prop) [Decidable p] : Flags := if p then fNV else 0
      let same (r : FRes) (v : Fv) : Prop := ∃ n m e, fpVal k r.1 = .fin n m e ∧ ∃ n' m' e', v = .fin n' m' e' ∧
        atExp n m e (min e e') = atExp n' m' e' (min e e')
      let is (r : FRes) (v : Fv) (f : Flags) : Prop := fpVal k r.1 = v ∧ r.2 = f
      let invalid : FRes := (canon k, fNV)
      let enc (v : Nat) : Nat := v % 2 ^ (fmt k).w
      fpVal k (canon k) = .nan false ∧
      -- a NaN operand
      (x.isNan = true ∨ y.isNan = true → ∀ f ∈ [fpAdd, fpSub, fpMul, fpDiv], f k mode a b = (canon k, nv (sig x ∨ sig y))) ∧
      (∀ q, x = .nan q → fpSqrt k mode a = (canon k, nv (q = true)) ∧ fpNeg k a = (canon k, nv (q = true)) ∧ fpAbs k a = (canon k, nv (q = true)) ∧
        fpSgn k a b = (canon k, nv (q = true))) ∧
      (x.isNan = true ∨ y.isNan = true ∨ z.isNan = true → (fpFma k mode a b c).1 = canon k ∧
        ((fpFma k mode a b c).2 = fNV ↔ sig x ∨ sig y ∨ sig z ∨ exactMul x y = .nan false ∧ x.isNan = false ∧ y.isNan = false) ∧
        ((fpFma k mode a b c).2 = fNV ∨ (fpFma k mode a b c).2 = 0)) ∧
      -- infinities, and the invalid operations on them
      (∀ n, x = .inf n →
        (y = .inf n → is (fpAdd k mode a b) (.inf n) 0 ∧ fpSub k mode a b = invalid) ∧ (y = .inf (!n) → fpAdd k mode a b = invalid ∧
          is (fpSub k mode a b) (.inf n) 0) ∧
        (zero y → fpMul k mode a b = invalid ∧ fpMul k mode b a = invalid ∧ fpFma k mode a b c = invalid ∧ fpFma k mode b a c = invalid) ∧
        (∀ n', y = .inf n' → fpDiv k mode a b = invalid ∧ is (fpMul k mode a b) (.inf (n != n')) 0) ∧
        (∀ n' m e, y = .fin n' m e → is (fpAdd k mode a b) (.inf n) 0 ∧ is (fpAdd k mode b a) (.inf n) 0 ∧ is (fpSub k mode a b) (.inf n) 0 ∧
          is (fpSub k mode b a) (.inf (!n)) 0 ∧ is (fpDiv k mode a b) (.inf (n != n')) 0 ∧ is (fpDiv k mode b a) (.fin (n != n') 0 (fmt k).umin) 0 ∧
          (0 < m → is (fpMul k mode a b) (.inf (n != n')) 0 ∧ (z = .inf (n == n') → fpFma k mode a b c = invalid) ∧
            (z.isNan = false → z ≠ .inf (n == n') → is (fpFma k mode a b c) (.inf (n != n')) 0))) ∧
        (if n then fpSqrt k mode a = invalid else is (fpSqrt k mode a) (.inf false) 0)) ∧
      -- zeros and negative operands
      (∀ n m e, x = .fin n m e → (m = 0 → is (fpSqrt k mode a) x 0) ∧ (0 < m → n = true → fpSqrt k mode a = invalid) ∧
        ∀ n' e', y = .fin n' 0 e' → (0 < m → is (fpDiv k mode a b) (.inf (n != n')) fDZ) ∧ (m = 0 → fpDiv k mode a b = invalid)) ∧
      -- a result without NX
      (∀ n m e n' m' e', x = .fin n m e → y = .fin n' m' e' →
        ((fpAdd k mode a b).2.getLsbD 0 = false → same (fpAdd k mode a b) (exactAdd mode x y)) ∧
        ((fpSub k mode a b).2.getLsbD 0 = false → same (fpSub k mode a b) (exactAdd mode x y.neg)) ∧
        ((fpMul k mode a b).2.getLsbD 0 = false → same (fpMul k mode a b) (exactMul x y))) ∧
      -- minimumNumber and maximumNumber
      (∀ big : Bool, let r := fpMinMax k big a b
        r.2 = nv (sig x ∨ sig y) ∧ (x.isNan = true → y.isNan = true → r.1 = canon k) ∧ (x.isNan = true → y.isNan = false → r.1 = enc b) ∧
        (x.isNan = false → y.isNan = true → r.1 = enc a) ∧
        (x.isNan = false → y.isNan = false →
          (fpOrder x y = some .lt → r.1 = if big then enc b else enc a) ∧ (fpOrder x y = some .gt → r.1 = if big then enc a else enc b) ∧
          (fpOrder x y = some .eq → (r.1 = enc a ∨ r.1 = enc b) ∧ (x.sign ≠ y.sign → (fpVal k r.1).sign = !big)))) ∧
      -- signs: all but the top bit of a number stays
      (x.isNan = false →
        fpAbs k a = (a % 2 ^ ((fmt k).w - 1), 0) ∧
        fpNeg k a = (a % 2 ^ ((fmt k).w - 1) + (if a.testBit ((fmt k).w - 1) then 0 else 2 ^ ((fmt k).w - 1)), 0) ∧
        fpSgn k a b = (a % 2 ^ ((fmt k).w - 1) + (if b.testBit ((fmt k).w - 1) then 2 ^ ((fmt k).w - 1) else 0), 0)) ∧
      -- the classes
      (let normal (m : Nat) : Prop := 2 ^ ((fmt k).p - 1) ≤ m
       (fpClass k a = 2 ^ 0 ↔ x = .inf true) ∧ (fpClass k a = 2 ^ 1 ↔ ∃ m e, x = .fin true m e ∧ normal m) ∧
       (fpClass k a = 2 ^ 2 ↔ ∃ m e, x = .fin true m e ∧ ¬normal m ∧ 0 < m) ∧ (fpClass k a = 2 ^ 3 ↔ ∃ e, x = .fin true 0 e) ∧
       (fpClass k a = 2 ^ 4 ↔ ∃ e, x = .fin false 0 e) ∧ (fpClass k a = 2 ^ 5 ↔ ∃ m e, x = .fin false m e ∧ ¬normal m ∧ 0 < m) ∧
       (fpClass k a = 2 ^ 6 ↔ ∃ m e, x = .fin false m e ∧ normal m) ∧ (fpClass k a = 2 ^ 7 ↔ x = .inf false) ∧
       (fpClass k a = 2 ^ 8 ↔ sig x) ∧ (fpClass k a = 2 ^ 9 ↔ x = .nan false)))

/-- R270, R271: the floating-point compares, and fcvt. R251, R252, R255, R257, R262: the value and the flags of every conversion between
two type codes. -/
def Obligations.FloatingPointCompares : Prop :=
  ((∀ (o : OpF) (s : State),
      let t : Traits := Traits.ofF o (fc o.d) (fx o.a) (fx o.b)
      let cmp (n : Nat) (i : Iss) (h u : Thread) : Thread :=
        let r := fpCompare o.t.toNat n (h.x i.a).toNat (i.bval h).toNat
        (if i.nf then u else u.orFlags r.2).setC i.d r.1
      Does (.fcmpEq o) s t (cmp 0) ∧ Does (.fcmpLt o) s t (cmp 1) ∧ Does (.fcmpLe o) s t (cmp 2) ∧ Does (.fcmpUn o) s t (cmp 3)) ∧
    (∀ (o : OpC) (s : State),
      let t : Traits := {
        m := o.m, guard := o.g, d := fx o.d, a := fx o.a, b := fk o.b, imm := none, immB := false
        rounds := convertRounds o.c.toNat o.b.toNat, sets := true, sat := false, pol := .ignored, rep := true, narrow := false
        more := ([], []) }
      Does (.fcvt o) s t fun i h =>
        let r := convert o.c.toNat o.b.toNat i.rm false (h.x i.a).toNat
        putX i (.ofNat 64 (if 4 ≤ o.c.toNat then intBits 64 (intVal (intType o.c.toNat).1 (intType o.c.toNat).2 r.1) else r.1)) r.2) ∧
    ∀ k a b : Nat, k < 4 →
      let x := fpVal k a
      let y := fpVal k b
      let nan := x.isNan || y.isNan
      ((fpCompare k 0 a b).1 = true ↔ fpOrder x y = some .eq) ∧
      ((fpCompare k 1 a b).1 = true ↔ fpOrder y x = some .gt) ∧
      ((fpCompare k 2 a b).1 = true ↔ nan = false ∧ (fpCompare k 1 b a).1 = false) ∧
      ((fpCompare k 3 a b).1 = true ↔ nan = true) ∧
      ((fpCompare k 1 a b).2 = (if nan then fNV else 0)) ∧ ((fpCompare k 2 a b).2 = (if nan then fNV else 0)) ∧
      ((fpCompare k 0 a b).2 = (if x = .nan true ∨ y = .nan true then fNV else 0))) ∧
  ((∀ (dst src rm b : Nat) (sat : Bool), dst ≤ 14 → src ≤ 14 → dst ≠ src → rm ≤ 4 →
      let r := convert dst src rm sat b
      let near := if rm = 0 then 1 else rm
      let ty := intType dst
      -- the exact value of the source, and the flag of an invalid residue digit
      let real := decide (src < 4) || src == 14
      let digits : Int × Flags := if src = 12 then resDec8 b else resDec12 b
      let whole : Int := if src < 12 then intVal (intType src).1 (intType src).2 b else digits.1
      let idig : Flags := if src = 12 ∨ src = 13 then digits.2 else 0
      let x : Fv := if src < 4 then fpVal src b else if src = 14 then e8Val (b % 256) else .fin (decide (whole < 0)) whole.natAbs 0
      -- a multiple of a power of two rounded to an integer
      let toWhole (mode : Nat) (n : Bool) (m : Nat) (e : Int) : Int × Bool :=
        let num : Int := (if n then -1 else 1) * (m * 2 ^ e.toNat : Nat)
        let den : Int := 2 ^ (-e).toNat
        let low := num / den
        let rest := num % den
        (match mode with
         | 2 => if n ∧ rest ≠ 0 then low + 1 else low
         | 3 => if rest ≠ 0 then low + 1 else low
         | 4 => low
         | _ => if 2 * rest < den ∨ (2 * rest = den ∧ low % 2 = 0) then low else low + 1, decide (rest ≠ 0))
      let lo : Int := if dst = 12 then -84 else if dst = 13 then -1560 else intMin ty.1 ty.2
      let hi : Int := if dst = 12 then 83 else if dst = 13 then 1559 else intMax ty.1 ty.2
      let enc (v : Int) : Nat := if dst = 12 then resEnc8 v else if dst = 13 then resEnc12 v else (v % 2 ^ ty.1).toNat
      let clamp (v : Int) (f : Flags) : FRes := if v < lo then (enc lo, f) else if hi < v then (enc hi, f) else (enc v, 0)
      -- to a floating-point format
      (dst < 4 →
        (∀ q, x = .nan q → r = (canon dst, if q then fNV else 0)) ∧ (∀ n, x = .inf n → r = (signBits dst n (fmt dst).inf, 0)) ∧
        (∀ n m e, x = .fin n m e → if m = 0 then r = (signBits dst n 0, idig)
          else Rounded dst near n (fun a d => compare (atExp false a d (min d e)) (atExp false m e (min d e))) r) ∧
        ((dst = 0 ∧ 1 ≤ src ∧ src < 4) ∨ (dst = 1 ∧ 2 ≤ src ∧ src < 4) → x.isNan = false → r.2 = 0)) ∧
      -- to an integer type
      (4 ≤ dst → dst < 12 →
        (real = false → if sat then r = ((clamp whole fSAT).1, (clamp whole fSAT).2 ||| idig) else r = (enc whole, idig)) ∧
        (real = true →
          (x.isNan = true → r = (0, fNV)) ∧ (∀ n, x = .inf n → r = (enc (if n then lo else hi), fNV)) ∧
          ∀ n m e, x = .fin n m e →
            let v : Int × Bool := toWhole (if rm = 0 then 2 else rm) n m e
            r = ((clamp v.1 0).1, if (clamp v.1 fSAT).2 = fSAT then fNV else if v.2 then fNX else 0))) ∧
      -- to a residue format
      (dst = 12 ∨ dst = 13 →
        (x.isNan = true → r = (enc 0, fNV)) ∧ (∀ n, x = .inf n → r = (enc (if n then lo else hi), fSAT ||| fNV)) ∧
        ∀ n m e, x = .fin n m e →
          let v : Int × Bool := toWhole near n m e
          r = ((clamp v.1 0).1, (clamp v.1 fSAT).2 ||| (if v.2 then fNX else 0) ||| idig)) ∧
      -- to a scale
      (dst = 14 →
        (∀ q, x = .nan q → r = (255, if q then fNV else 0)) ∧ (∀ n, x = .inf n → r = (254, fOF ||| fNX)) ∧
        ∀ n m e, x = .fin n m e →
          (m = 0 → r = (0, idig)) ∧
          (0 < m → ∀ k : Int, 2 ^ (k - e).toNat ≤ m * 2 ^ (e - k).toNat → m * 2 ^ (e - k).toNat < 2 * 2 ^ (k - e).toNat →
            r = if k + 127 < 0 then (0, fUF ||| fNX) else if 254 < k + 127 then (254, fOF ||| fNX)
                else ((k + 127).toNat, if m * 2 ^ (e - k).toNat = 2 ^ (k - e).toNat then 0 else fNX)))) ∧
    -- residues decode to what was encoded, and a byte that names no digit is read as 0 with IDIG
    (∀ v : Int, -84 ≤ v → v ≤ 83 → resDec8 (resEnc8 v) = (v, 0)) ∧ (∀ v : Int, -1560 ≤ v → v ≤ 1559 → resDec12 (resEnc12 v) = (v, 0)) ∧
    (∀ b : Nat, b < 256 → (resDec8 b = (0, fIDIG) ↔ 6 < b / 32 ∨ 2 < b % 4) ∧ ((resDec8 b).2 = 0 ∨ resDec8 b = (0, fIDIG))) ∧
    ∀ b : Nat, b < 65536 →
      (resDec12 b = (0, fIDIG) ↔ b / 4096 ≠ 0 ∨ 14 < b / 256 % 16 ∨ 12 < b % 16) ∧ ((resDec12 b).2 = 0 ∨ resDec12 b = (0, fIDIG)))

/-- R244, R246, R247: which of the two neighbours of an inexact result each rounding mode gives, the overflow and the underflow, for the
sums, products, fused products, quotients and roots, and for a value rounded by itself. -/
def Obligations.FloatingPointRounded : Prop :=
  ∀ k mode a b c : Nat, k < 4 → 1 ≤ mode → mode ≤ 4 →
    let x := fpVal k a
    let y := fpVal k b
    let z := fpVal k c
    let r (n : Bool) (v : Int) (u : Int) : FRes → Prop := Rounded k mode n fun m e => compare (atExp false m e (min e u)) (atExp false v.natAbs u (min e u))
    let zero (n : Bool) : FRes := (signBits k n 0, 0)
    (∀ (n : Bool) (m : Nat) (e : Int), 0 < m → r n m e (roundFp k mode n m e)) ∧
    (∀ n m e n' m' e', x = .fin n m e → y = .fin n' m' e' →
      let u := min e e'
      let sum (w : Bool) (f : FRes) : Prop :=
        let v := atExp n m e u + atExp w m' e' u
        if v = 0 then f = zero (if n = w then n else mode == 4) else r (decide (v < 0)) v u f
      sum n' (fpAdd k mode a b) ∧ sum (!n') (fpSub k mode a b) ∧
      (if m * m' = 0 then fpMul k mode a b = zero (n != n') else r (n != n') (m * m' : Nat) (e + e') (fpMul k mode a b)) ∧
      (∀ w l d, z = .fin w l d →
        let u := min (e + e') d
        let v := atExp (n != n') (m * m') (e + e') u + atExp w l d u
        if v = 0 then fpFma k mode a b c = zero (if (n != n') = w then w else mode == 4) else r (decide (v < 0)) v u (fpFma k mode a b c)) ∧
      (0 < m' → if m = 0 then fpDiv k mode a b = zero (n != n') else
        Rounded k mode (n != n') (fun q d => compare (atExp false (q * m') (d + e') (min (d + e') e)) (atExp false m e (min (d + e') e)))
          (fpDiv k mode a b)) ∧
      (0 < m → n = false →
        Rounded k mode false (fun q d => compare (atExp false (q * q) (2 * d) (min (2 * d) e)) (atExp false m e (min (2 * d) e)))
          (fpSqrt k mode a)))

/-! ## Control -/

/-- R272, R215, R226: branches and calls to PC + 4K, and jumps to x[A] + 4K, with the link in x31 or x[D]. R273: a loop's bounds in x8
and its count in x9, from a shape record, or from the list that its pointer names. -/
def Obligations.BranchTargetsAndLinks : Prop :=
  ((∀ (o : OpB) (s : State),
      let t : Traits := Traits.ofB o
      let target := (issued s t).pc + 4 * (issued s t).imm
      (bits target 63 57 = 0 → Ends (.br o) s t fun _ _ u => .jump target u) ∧
      (bits target 63 57 ≠ 0 → Ends (.br o) s t fun _ _ u => .trap (mkFault .translation 6 target) u)) ∧
    (∀ (o : OpB) (s : State),
      let t : Traits := { Traits.ofB o with more := ([31], []) }
      let target := (issued s t).pc + 4 * (issued s t).imm
      (bits target 63 57 = 0 → Ends (.call o) s t fun i _ u => .jump target (u.modThread s.cur fun h => h.setX 31 (i.pc + 4))) ∧
      (bits target 63 57 ≠ 0 → Ends (.call o) s t fun _ _ u => .trap (mkFault .translation 6 target) u)) ∧
    (∀ (o : OpI) (s : State),
      let t : Traits := { Traits.ofI o (fx o.d) (fx o.a) with rep := false }
      let target := s.hand.x (issued s t).a + 4 * (issued s t).imm
      (target ≠ 0 → bits target 63 57 = 0 → bits target 1 0 = 0 →
        Ends (.jmpr o) s t fun i _ u => .jump target (u.modThread s.cur fun h => h.setX i.d (i.pc + 4))) ∧
      (bits target 63 57 ≠ 0 → Ends (.jmpr o) s t fun _ _ u => .trap (mkFault .translation 6 target) u) ∧
      (bits target 63 57 = 0 → bits target 1 0 ≠ 0 → Ends (.jmpr o) s t fun _ _ u => .trap (mkFault .alignment 0 target) u) ∧
      (target = 0 → quiet s s.cur = true →
        Ends (.jmpr o) s t fun _ _ u => .gone (retire (u.modThread s.cur (committed false)) s.cur)))) ∧
  (∀ (o : OpI) (s v : State) (bs : List Byte),
      let t : Traits := { Traits.ofI o (fx o.d) (fx o.a) with rep := false, narrow := true, pol := .taken, more := ([8, 9], []) }
      let i := issued s t
      let ptr := s.hand.x i.a
      let len := o.k.toNat % 256
      let fields := leNat bs
      let entered (n : Nat) (w : State) : Res :=
        if n = 0 then .next (i.pc + 4 + .ofNat 64 (4 * len)) w
        else .done (w.modThread s.cur fun u =>
          (u.setX 9 (.ofNat 64 (len * 2 ^ 56 + (n - 1)))).setX 8 (.ofNat 64 (2 ^ 63) ||| (i.pc + .ofNat 64 (4 * len))))
      let noted (ps : List Word) (w : State) : State := notePolicy i ps w
      (s.onWay (isDirectWrite s.cur) = false → s.hand.stage = .start → ptr.toNat % 64 ≠ 0 →
        Ends (.loop o) s t fun _ _ u => .trap (mkFault .alignment 0 ptr) u) ∧
      (s.onWay (isDirectWrite s.cur) = false → ptr.toNat % 64 = 0 → s.hand.out = [] → readBytes (begun s t) s.cur ptr 64 .load false gkLoad i.pc = (v, .ok bs) → v.linkHeld = false →
        (fields / 2 ^ 308 % 16 ≠ 1 ∨ fields % 2 ^ 308 ≠ 0 → Ends (.loop o) s t fun _ _ _ => .trap badOperand v) ∧
        (fields / 2 ^ 308 % 16 = 1 → fields % 2 ^ 308 = 0 →
          (i.d = 0 → Ends (.loop o) s t fun _ _ _ => entered (shapeExt fields (o.k.toNat / 256)) (noted [ptr] v)) ∧
          (i.d ≠ 0 → fields / 2 ^ 448 = 0 → Ends (.loop o) s t fun _ _ _ => .trap badOperand v) ∧
          (i.d ≠ 0 → fields / 2 ^ 448 ≠ 0 → ∀ (w : State) (ns : List Byte),
            readBytes (noted [ptr, .ofNat 64 (fields / 2 ^ 448) + 4 * s.hand.x i.d] v) s.cur
              (.ofNat 64 (fields / 2 ^ 448) + 4 * s.hand.x i.d) 4 .load false gkLoad i.pc = (w, .ok ns) → w.linkHeld = false →
            Ends (.loop o) s t fun _ _ _ => entered (leNat ns) w))))

/-- R284, R201, R280: call entries, trap returns and the interrupt enable, each with the mode that may use it. R201: what a return
restores, from supervisor and from monitor mode; the other records stay. -/
def Obligations.CallEntriesAndReturnsByMode : Prop :=
  (∀ (o : OpR) (s : State),
      let t := ctl o (fk o.d) (fk o.a) (fk o.b)
      let user := s.hand.ctx.mode = .user
      let back := if s.hand.ctx.mode = .monitor then s.hand.ctx.mepc else s.hand.ctx.epc
      let good (pc : Word) := bits pc 63 57 = 0 ∨ bit pc 63 = true
      let denies (i : Instr) := user → Ends i s t fun _ _ u => .trap (mkFault .privilege 0 0) u
      Ends (.sysc o) s t (fun _ _ u => .call (mkFault .systemCall 0 0) u) ∧
      Ends (.brk o) s t (fun i _ u => .trap { mkFault .breakpoint 0 0 with pc := some i.pc } u) ∧
      (¬user → Ends (.monc o) s t (fun _ _ u => .call (mkFault .monitorCall 0 0) u)) ∧ denies (.monc o) ∧
      (¬user → Acts (.ien o) s t (fun _ _ u => u.modCtx s.cur fun c => { c with ie := true })) ∧ denies (.ien o) ∧
      (¬user → Acts (.idis o) s t (fun _ _ u => u.modCtx s.cur fun c => { c with ie := false })) ∧ denies (.idis o) ∧
      (¬user → good back → Ends (.tret o) s t fun _ _ u => .jump back (u.modThread s.cur fun h => returnTo h back)) ∧
      (¬user → ¬good back → Ends (.tret o) s t fun _ _ u => .trap (mkFault .translation 6 back) u) ∧ denies (.tret o) ∧
      (¬user → good back → Ends (.tretDp o) s t fun _ h u => .gone (u.modThread s.cur fun v =>
        { ((returnTo v back).transfer back).settle o.m h.ctx.ss with displaced := true })) ∧ denies (.tretDp o) ∧
      (¬user → good s.hand.ctx.rpc → Ends (.tretRs o) s t fun _ h u => .jump h.ctx.rpc ((dropLeases (discardTask u s.cur) s.cur).modThread s.cur fun v =>
        openTask { v with
          ctx := restartValues (leave v.ctx).1
          pend := v.pend.filter fun p => p.task != h.ctx.task } h.ctx.rpc)) ∧ denies (.tretRs o)) ∧
  (∀ (h : Thread) (pc : Word),
      let c := h.ctx
      let r := (returnTo h pc).ctx
      r.x = c.x ∧ r.cond = c.cond ∧ r.svec = c.svec ∧ r.mvec = c.mvec ∧ r.epc = c.epc ∧ r.mepc = c.mepc ∧
      (c.mode = .monitor →
        r.mode = c.mpmode ∧ r.ie = c.mpie ∧ r.ss = c.mpss ∧ r.mcause = { c.mcause with live := false } ∧ r.cause = c.cause) ∧
      (c.mode ≠ .monitor →
        r.mode = c.pmode ∧ r.ie = c.pie ∧ r.ss = c.pss ∧ r.cause = { c.cause with live := false } ∧ r.mcause = c.mcause))

/-- R199: what taking a trap or call entry saves, and where it goes: to supervisor mode, to monitor mode, or to a halt. Where the spec
leaves a point open, the statement says the model's choice (notes/assumptions: 95). -/
def Obligations.TrapEntrySaves : Prop :=
  ∀ (s : State) (g : Nat) (f : FaultRec),
    let h := s.thread g
    let c := h.ctx
    let n := (enter s g f).thread g
    let r := n.ctx
    let pc := f.pc.getD h.reportPc
    let up := c.mode = .monitor ∨ f.cause = .monitorCall
    (¬up → c.cause.live = false →
      r.mode = .supervisor ∧ r.pc = .ofNat 64 (c.svec.toNat * 4) ∧ r.epc = pc ∧ r.addr = f.addr ∧ r.info = f.info ∧
      r.pmode = c.mode ∧ r.pie = c.ie ∧ r.pss = c.ss ∧ r.ie = false ∧ r.ss = false ∧
      r.cause.live = true ∧ r.cause.cause = .ofNat 8 f.cause.code ∧ r.cause.kind = f.kind ∧ r.cause.disc = f.cause.discards ∧
      r.cause.task = c.task ∧ r.mcause = c.mcause ∧ r.mepc = c.mepc ∧ r.mpmode = c.mpmode ∧ r.mpie = c.mpie) ∧
    (up → c.mcause.live = false →
      r.mode = .monitor ∧ r.pc = .ofNat 64 (c.mvec.toNat * 4) ∧ r.mepc = pc ∧ r.mpmode = c.mode ∧ r.mpie = c.ie ∧ r.mpss = c.ss ∧
      r.ie = false ∧ r.ss = false ∧ r.mcause.live = true ∧ r.mcause.cause = .ofNat 8 f.cause.code ∧ r.mcause.kind = f.kind ∧
      r.mcause.task = c.task ∧ r.cause = c.cause ∧ r.epc = c.epc ∧ r.addr = c.addr ∧ r.info = c.info ∧ r.pmode = c.pmode ∧ r.pie = c.pie) ∧
    (¬up → c.cause.live = true → c.mcause.live = false →
      r.mode = .monitor ∧ r.pc = .ofNat 64 (c.mvec.toNat * 4) ∧ r.mepc = pc ∧ r.mcause.cause = .ofNat 8 Cause.doubleTrap.code ∧
      r.mcause.inner = .ofNat 6 f.cause.code ∧ r.cause = c.cause ∧ r.epc = c.epc ∧ r.addr = c.addr ∧ r.info = c.info) ∧
    (up ∨ c.cause.live = true → c.mcause.live = true → n.status = .halted ∧ r.mode = c.mode ∧ r.pc = c.pc ∧ r.mepc = c.mepc) ∧
    r.svec = c.svec ∧ r.mvec = c.mvec ∧ r.x = c.x ∧ r.cond = c.cond ∧ n.v = h.v ∧ n.p = h.p ∧ n.h = h.h

/-- R277, R119, R123, R126, R283: commit, fences, posting waits and the invalidation of an instruction line, in a thread that has nothing
outstanding. Where the spec leaves a point open, the statement says the model's choice (notes/assumptions: 7, 21, 94). -/
def Obligations.CommitsAndFencesOfAQuietThread : Prop :=
  ∀ (o : OpR) (s : State), quiet s s.cur = true →
    let t := ctl o (fk o.d) (fk o.a) (fk o.b)
    let tf := Traits.ofR o (fk o.d) (fk o.a) (fk o.b)
    let ti := ctl o (fk o.d) (fx o.a) (fk o.b)
    let ptr := s.hand.x (issued s ti).a
    let space := bits ptr 63 60
    let far := 4 ≤ space ∨ bits ptr 59 57 ≠ 0 ∧ space ≠ 2
    let scope := min 5 (if o.b.toNat = 0 then 1 else o.b.toNat)
    let open_ (u : State) : State := u.modThread s.cur (committed false)
    Acts (.tcom o) s t (fun _ _ u => open_ u) ∧
    Acts (.fence o) s tf (fun _ _ u => acquireCore (open_ u) (coreOf s.cur)) ∧
    Acts (.wpc o) s tf (fun _ _ u => u) ∧
    (far → Ends (.icinv o) s ti fun _ _ u => .trap (mkFault .translation 6 ptr) u) ∧
    (¬far → space = 1 ∨ space = 2 → Ends (.icinv o) s ti fun _ _ u => .trap (mkFault .translation 8 ptr) u) ∧
    (¬far → space ≠ 1 → space ≠ 2 → ∀ a, (begun s ti).resolve s.cur ptr .load = .ok (.linear a) →
      Ends (.icinv o) s ti fun _ h u =>
        .whole (dropILine (open_ u) h.ctx.ids.job (a / 128) (inScope (open_ u) (coreOf s.cur) h.ctx.ids.job scope))) ∧
    (¬far → space = 3 → ∀ k, (begun s ti).resolve s.cur ptr .load = .error k → Ends (.icinv o) s ti fun _ _ u => .whole (open_ u))

/-- R276, R162: a thread with nothing outstanding leaves in a packet, whose PC is that of the next word, with v0 to v3 if D's bit 0 is
set; to its own core it only commits and acquires. The packet has the length and fields of R163's tables. Where the spec leaves a point
open, the statement says the model's choice (notes/assumptions: 32). -/
def Obligations.MigrationLeavesInAPacket : Prop :=
  ∀ (o : OpR) (s : State), quiet s s.cur = true → enginesIdle s s.cur = true →
    let ta := ctl o (fk o.d) (fx o.a) (fk o.b)
    let th := ctl o (fk o.d) ⟨o.a.toNat, .h⟩ (fx o.b)
    let moved (dest : Nat) (near : Bool) (u : State) : Res :=
      if moveTarget s dest near = coreOf s.cur then .done (acquireCore (u.modThread s.cur (committed false)) (coreOf s.cur))
      else
      let w := u.modThread s.cur fun h => let n := committed false h; n.advance (nextPc (wordAddr n.ctx.pc))
      .gone (sendPacket w s.cur (mkPacket w s.cur (o.d.getLsbD 0) dest near))
    let core := (s.hand.x (issued s ta).a).toNat
    let handle := s.hand.handle (issued s th).a
    let module := if (issued s th).b = 0 ∧ (issued s th).bv.isNone then moduleOf (coreOf s.cur) else ((issued s th).bval s.hand).toNat
    (offJob s s.cur core = false → Ends (.migrC o) s ta fun _ _ u => moved core false u) ∧
    (∀ (dest : Nat) (near : Bool), migrTarget s s.cur (s.hand.x (issued s ta).a) = .ok (dest, near) → Ends (.migrA o) s ta fun _ _ u => moved dest near u) ∧
    (tileOperandBad s s.cur module handle = false →
      Ends (.migrH o) s th fun _ _ u => moved (nearCluster (tileSlice module (bits handle 63 24)) * 8) true u) ∧
    -- the packet: its flits, and fields at both ends of its two tables
    ∀ p : Packet, flitsOf (.migrantPacketArrival p) = ((packetBytes p).length + 255) / 256 ∧
      (packetBytes p).length = (if p.carry then 896 else 384) ∧
      packetBase p / 2 ^ 960 = p.ctx.pc.toNat ∧ packetBase p / 2 ^ 222 % 2 ^ 19 = p.dest % 2 ^ 19 ∧ packetBase p / 2 ^ 195 % 16 = p.fmt % 16 ∧
      packetBase p % 2 ^ 179 = 0 ∧ packetControl p / 2 ^ 1984 = p.ctx.rpc.toNat ∧ packetControl p / 2 ^ 820 % 2 ^ 64 = p.trem.toNat ∧
      packetControl p % 2 ^ 715 = 0

/-- R281, R282, R285, R286: interrupt sends, cancels, the feature words and the cycle count. -/
def Obligations.SendsAndQueries : Prop :=
  ∀ (o : OpR) (s : State),
    let t := ctl o (fx o.d) (fx o.a) (fx o.b)
    let tc := ctl o (fk o.d) (fx o.a) (fk o.b)
    let tf := ctl o (fx o.d) (fx o.a) (fk o.b)
    let core := (s.hand.x (issued s t).a).toNat
    let slot := ((issued s t).bval s.hand).toNat
    let c := s.hand.ctx
    let v := (s.hand.x (issued s tc).a).toNat
    let level := o.b.toNat
    let key := cancelKey c.ids level v
    let fits := v < (if level < 2 then 2 ^ 16 else 2 ^ 8)
    (offJob s s.cur core = true ∨ 15 < slot → Ends (.isend o) s t fun _ _ u => .trap badOperand u) ∧
    (offJob s s.cur core = false → slot ≤ 15 → s.hand.out.length < 16 →
      Acts (.isend o) s t fun i h u => ((u.modThread s.cur fun w =>
        { w with nextId := w.nextId + 1, out := w.out ++ [⟨w.nextId, .regs [i.d] [], 1, [], none, i.rpc, false, 0, w.ctx.task⟩] }).send
          (fromThread s.cur) (atCore core) (.softInterruptDelivery ⟨s.cur, h.nextId, i.d, core, slot, h.ctx.ids.job⟩))) ∧
    (¬fits → Ends (.cancel o) s tc fun _ _ u => .trap badOperand u) ∧
    (fits → cancelAllowed c.mode c.ids level v = false → Ends (.cancel o) s tc fun _ _ u => .trap (mkFault .privilege 0 0) u) ∧
    (fits → cancelAllowed c.mode c.ids level v = true → keyCovers key c.ids = false →
      Ends (.cancel o) s tc fun _ _ u => .whole (floodCancel u (moduleOf (coreOf s.cur)) key)) ∧
    (fits → cancelAllowed c.mode c.ids level v = true → keyCovers key c.ids = true →
      Ends (.cancel o) s tc fun _ _ u => .wait .stop (floodCancel u (moduleOf (coreOf s.cur)) key)) ∧
    Does (.feat o) s tf (fun i h u => u.setX i.d (.ofNat 64 (featWord s s.cur (h.x i.a).toNat))) ∧
    Does (.rdcyc o) s (ctl o (fx o.d) (fk o.a) (fk o.b)) (fun i _ u => u.setX i.d (.ofNat 64 (s.cycles (coreOf s.cur)))) ∧
    featWord s s.cur 1 = 1024 ∧ (∀ n, 10 < n → featWord s s.cur n = 0)

/-! ## Control registers -/

/-- R278, R237: reads. R236, R278: a register of the thread holds what a write leaves in it, and no other register of the thread changes.
Where the spec leaves a point open, the statement says the model's choice (notes/assumptions: 13, 36, 40). -/
def Obligations.ControlRegisterReads : Prop :=
  (∀ (o : OpI) (s : State),
      let t : Traits := { Traits.ofI o (fx o.d) (fk o.a) with narrow := true }
      let n := registerNumber (issued s t) o
      let u := begun s t
      (isRegister n = false → Ends (.mfcr o) s t fun _ _ u => .trap (mkFault .illegalInstruction 0 0) u) ∧
      (isRegister n = true → s.hand.ctx.mode.code < readMode n → Ends (.mfcr o) s t fun _ _ u => .trap (mkFault .privilege 0 0) u) ∧
      (inThread n = true → readMode n ≤ s.hand.ctx.mode.code →
        Does (.mfcr o) s t fun i _ w => w.setX i.d (readOwn u s.cur n)) ∧
      (isRegister n = true → inThread n = false → readMode n ≤ s.hand.ctx.mode.code → s.hand.out.length < 16 →
        ((n = 0x080 ∨ n = 0x081) → sliceAhead u (coreOf s.cur) (selSlice u s.cur) = false) →
        Acts (.mfcr o) s t fun i h w =>
          let r := readUnit w s.cur n
          let v := r.2.modThread s.cur fun x =>
            { x with nextId := x.nextId + 1, out := x.out ++ [⟨x.nextId, .regs [i.d] [], 1, [], none, i.rpc, false, 0, x.ctx.task⟩] }
          v.send (fromThread s.cur) (atCore (coreOf s.cur)) (.resultReturn ⟨s.cur, (r.2.thread s.cur).nextId, .regs [(i.d, r.1)] [] 0, none⟩)) ∧
      (let c := u.thread s.cur
       readOwn u s.cur 0x003 = .ofNat 64 c.ctx.task.toNat ∧ readOwn u s.cur 0x004 = .ofNat 64 (c.ctx.svec.toNat * 4) ∧
       readOwn u s.cur 0x005 = c.ctx.tcmp ∧ readOwn u s.cur 0x006 = c.ctx.rpc ∧ readOwn u s.cur 0x00A = c.ctx.epc ∧
       readOwn u s.cur 0x00B = c.ctx.addr ∧ readOwn u s.cur 0x00E = c.ctx.mepc ∧
       readOwn u s.cur 0x00F = .ofNat 64 (c.ctx.mvec.toNat * 4) ∧
       ∀ k, k < 16 → readOwn u s.cur (0x020 + k) = c.handle k)) ∧
  (∀ (s : State) (g n k : Nat) (v : Word), inThread n = true → inThread k = true →
      let w := wouldBe n (readOwn s g n) v
      let u := s.setThread g (writeOwn (s.thread g) n w)
      let r := (s.thread g).rgsel.toNat
      (n ≠ 0x008 ∨ (1 ≤ r ∧ r ≤ 10 ∧ (r = 10 → w.toNat < 2 ^ 16)) → readOwn u g n = w) ∧
      (k ≠ n → (n ≠ 0x005 ∨ k ≠ 0x000) → (n ≠ 0x007 ∨ k ≠ 0x008) → readOwn u g k = readOwn s g k))

/-- R278, R413: writes, with the mode that may make them, and a collective handed to its engine by a write of CLSUB. Where the spec
leaves a point open, the statement says the model's choice (notes/assumptions: 36, 40). -/
def Obligations.ControlRegisterWrites : Prop :=
  ∀ (o : OpI) (s : State),
    let t : Traits := { Traits.ofI o (fk o.d) (fx o.a) with narrow := true }
    let n := registerNumber (issued s t) o
    let v := if n = 0x008 then restartOf s.hand (s.hand.x (issued s t).a) else s.hand.x (issued s t).a
    let u := begun s t
    let mode := s.hand.ctx.mode.code
    let m := moduleOf (coreOf s.cur)
    let own := wouldBe n (readOwn u s.cur n) v
    let unit := wouldBe n (readUnit u s.cur n).1 v
    let bad := (quietOnly n && jobRuns u m s.cur) || badValue u (dieOf (coreOf s.cur)) n v
    (isRegister n = false → Ends (.mtcr o) s t fun _ _ u => .trap (mkFault .illegalInstruction 0 0) u) ∧
    (inThread n = true → deniedWrite mode n (readOwn u s.cur n) v = true →
      Ends (.mtcr o) s t fun _ _ u => .trap (mkFault .privilege 0 0) u) ∧
    (inThread n = true → deniedWrite mode n (readOwn u s.cur n) v = false →
      Acts (.mtcr o) s t fun _ _ w =>
        let w := w.modThread s.cur fun x => writeOwn x n own
        if n = 0x005 then w.armTimer s.cur else w) ∧
    (isRegister n = true → inThread n = false → s.hand.stage = .start → bad = true →
      Ends (.mtcr o) s t fun _ _ u => .trap (mkFault .illegalOperand 0 0) u) ∧
    (isRegister n = true → inThread n = false → s.hand.stage = .start → bad = false → deniedWrite mode n (readUnit u s.cur n).1 v = true →
      Ends (.mtcr o) s t fun _ _ u => .trap (mkFault .privilege 0 0) u) ∧
    (isRegister n = true → inThread n = false → quiet s s.cur = true → bad = false → deniedWrite mode n (readUnit u s.cur n).1 v = false →
      (n ≠ 0x045 → (n = 0x103 → (u.modu m).trBusy = false) → (n = 0x104 → (u.modu m).jsBusy = false) →
        Acts (.mtcr o) s t fun _ _ w => writeUnit w s.cur n unit) ∧
      (n = 0x045 → clsubFault u s.cur v = none → s.onWay (isDirectWrite s.cur) = false → ∀ (w : State) (bs : List Byte),
        readBytes u s.cur v 64 .load false gkLoad (issued s t).pc = (w, .ok bs) → w.linkHeld = false →
        let c := readColl w (issued s t) v (leNat bs)
        collFault w c (leNat bs) (w.thread s.cur).ctx.mode = none → Acts (.mtcr o) s t fun _ _ _ => acceptColl w c))

/-! ## Words of a sequence -/

/-- R220 to R222, R224, R226: HMOD, HIMM and REP words before an instruction; a third, a fourth and a late one are illegal. R223, R214:
scheduling hints stand alone; each advances the PC, and those that fetch change no register. Where the spec leaves a point open, the
statement says the model's choice (notes/assumptions: 29, 30, 43). -/
def Obligations.SequenceWords : Prop :=
  (∀ s : State, let h := s.hand
      let q := s.sequence
      let pc := h.ctx.pc
      let named : FaultRec := { mkFault .illegalInstruction 0 0 with pc := some (.ofNat 64 (pc.toNat % 2 ^ 57)) }
      let next (u : State) (q : SeqSt) : State := u.modThread s.cur fun t =>
        { t with
          status := .ready
          seq := some q
          displaced := false
          ctx := { t.ctx with pc := wordAddr pc + 4 } }
      (∀ o : OpHmod, ¬(h.seq = none ∧ bit pc 63 = true) →
        (q.nmod < 2 → exec (.hmod o) s = .next (concluded s
          (next (if q.nmod = 0 then s else s.modCtx s.cur fun c => { c with modfb := true }) { q with hmod := some o, nmod := q.nmod + 1 }))) ∧
        (2 ≤ q.nmod → exec (.hmod o) s = .next (concluded s (enter s s.cur (mkFault .illegalInstruction 0 0))))) ∧
      (∀ o : OpHimm, ¬(h.seq = none ∧ bit pc 63 = true) →
        (q.nimm < 3 → exec (.himm o) s = .next (concluded s
          (next s { q with himm := q.himm * 2 ^ 25 + o.h.toNat, nimm := q.nimm + 1 }))) ∧
        (3 ≤ q.nimm → exec (.himm o) s = .next (concluded s (enter s s.cur (mkFault .illegalInstruction 0 0))))) ∧
      (∀ o : OpRep,
        let k := if bit pc 63 then bits pc 62 57 else 0
        (h.seq = none → k ≤ o.n.toNat → exec (.rep o) s = .next (concluded s
          (next s { SeqSt.plain (wordAddr pc) with rep := some o, k := k }))) ∧
        (h.seq ≠ none → exec (.rep o) s = .next (concluded s (enter s s.cur (mkFault .illegalInstruction 0 0)))) ∧
        (h.seq = none → o.n.toNat < k → exec (.rep o) s = .next (concluded s (enter s s.cur named)))) ∧
      (∀ o : BadWord, exec (.illegalEncoding o) s = .next (concluded s
        (enter s s.cur (if h.seq = none ∧ bit pc 63 = true then named else mkFault .illegalInstruction 0 0))))) ∧
  (∀ s : State, let h := s.hand
      let ptr (o : OpHsch) : Word := h.x o.a.toNat + .ofInt 64 o.k.toInt
      -- a displaced hint is a single step (R214)
      let done (u : State) : State := u.modThread s.cur fun t => let step := t.displaced && t.ctx.ss
        { t.clearWord with
          status := if step then .waiting .results else .ready
          stepDue := step
          parkPc := t.reportPc
          ctx := { t.ctx with pc := t.ctx.pc + 4 } }
      (h.seq = none → bit h.ctx.pc 63 = false →
        (∀ o : OpHsch, exec (.hnop o) s = .next (concluded s (done s))) ∧
        (∀ o : OpHsch, exec (.pfl1 o) s = .next (concluded s (done (prefetchL1 s s.cur (ptr o))))) ∧
        (∀ o : OpHsch, exec (.pfsl o) s = .next (concluded s (done (prefetchSlice s s.cur (ptr o))))) ∧
        (∀ o : OpHsch, exec (.pfi o) s = .next (concluded s (done (prefetchInstr s s.cur (h.ctx.pc + 4 * .ofInt 64 o.k.toInt))))) ∧
        (∀ o : OpHschK, exec (.hschKind47 o) s = .next (concluded s (done (s.modCtx s.cur fun c => { c with modfb := true }))))) ∧
      (h.seq ≠ none → ∀ (o : OpHsch) (p : OpHschK) (i : Instr), i ∈ [.hnop o, .pfl1 o, .pfsl o, .pfi o, .hschKind47 p] →
        exec i s = .next (concluded s (enter s s.cur (mkFault .illegalInstruction 0 0)))) ∧
      ∀ (p : Word) (g n : Nat), ((prefetchL1 s s.cur p).thread g).x n = (s.thread g).x n ∧
        ((prefetchSlice s s.cur p).thread g).x n = (s.thread g).x n ∧ ((prefetchInstr s s.cur p).thread g).x n = (s.thread g).x n)

/-! ## Scalar memory -/

/-- R289, R290, R115, R121, R124: a load from the own scratchpad, and one from another core's and from linear memory, whose result is
then outstanding; of each class. Where the spec leaves a point open, the statement says the model's choice (notes/assumptions: 41). -/
def Obligations.LoadsBringTheirBytes : Prop :=
  ∀ (l : (OpM → Instr) × Nat × Bool), l ∈ loads → ∀ (o : OpM) (s : State),
    let n := l.2.1
    let t := Traits.ofM o (fx o.d) (fx o.a)
    let i := issued s t
    let c := coreOf s.cur
    let ptr := mEa i o s.hand n
    -- where the access begins: MODFB noted, and after the fence of class RELEASE
    let from_ (tgt : Target) (w : State) : State :=
      let w := noteFallback i (o.o == 2 || strayPolicy i o tgt) w
      if o.o = 2 then acquireCore (w.modThread s.cur (committed false)) c else w
    let wait (w : State) : State := w.modThread s.cur fun u =>
      { u with nextId := u.nextId + 1, out := u.out ++ [⟨u.nextId, .x i.d n l.2.2, 1, [], none, i.rpc, o.o == 2 || o.o == 3, ptr, u.ctx.task⟩] }
    -- a VOLATILE access to words that the open task has written commits first
    let settled (ps : List Piece) (w : State) : State :=
      if o.o = 3 ∧ (ps.any (ownSpec w s.cur)) = true then w.modThread s.cur (committed false) else w
    let sent (w : State) : Res := if o.o = 1 then .wait .results (w.stage s.cur .sent) else .done w
    (quiet s s.cur = true → s.hand.volatiles = 0 →
      (∀ off, (begun s t).target s.cur ptr n .load = .ok (.own off) → ptr.toNat % n = 0 →
        guarded (s.core c) off n = false → scratchPoisoned (s.core c) off n = false →
        Acts (l.1 o) s t fun _ _ w =>
          let v : Word := .ofInt 64 (intVal (8 * n) l.2.2 (leNat (Memory.read (s.core c).scratch off n)))
          let w := (from_ (.own off) w).modThread s.cur fun u => u.setX i.d v
          if o.o = 1 then acquireCore (w.stage s.cur .sent) c else w) ∧
      (∀ core off, (begun s t).target s.cur ptr n .load = .ok (.remote core off) → ptr.toNat % n = 0 →
        Ends (l.1 o) s t fun _ h w => sent ((wait (from_ (.remote core off) w)).send (fromThread s.cur) (atCore core)
          (.remoteScratchpadRead ⟨s.cur, h.nextId, 0, core, off, n, i.rpc, i.pc, ptr⟩))) ∧
      (∀ a ps, (begun s t).target s.cur ptr n .load = .ok (.linear a) → (o.o = 0 ∨ ptr.toNat % n = 0) →
        place (from_ (.linear a) (begun s t)) s.cur a n = .ok ps →
        Ends (l.1 o) s t fun _ h w =>
          let v := notePieces c h.ctx.ids.job ps (settled ps (from_ (.linear a) w))
          let v := v.modThread s.cur fun u =>
            { u with nextId := u.nextId + 1, out := u.out ++ [⟨u.nextId, .x i.d n l.2.2, ps.length, [], none, i.rpc, o.o == 2 || o.o == 3, ptr, u.ctx.task⟩] }
          sent (loadPieces i (if o.o = 0 then .plain else if o.o = 1 then .acquire else .volatile)
            (if o.o = 2 ∨ o.o = 3 then 0 else policyOf i o) h.nextId ptr ps v))) ∧
    (s.hand.stage = .sent → s.hand.out = [] → Acts (l.1 o) s t fun _ _ w => acquireCore w c)

/-- R289, R290, R115, R119: a store to the own scratchpad, and one to another core's and to linear memory, which posting counters count;
of each class. Where the spec leaves a point open, the statement says the model's choice (notes/assumptions: 42, 102). -/
def Obligations.StoresWriteTheirBytes : Prop :=
  ∀ (l : (OpM → Instr) × Nat), l ∈ stores → ∀ (o : OpM) (s : State), quiet s s.cur = true → s.hand.volatiles = 0 →
    let n := l.2
    let t := Traits.ofM o (fx o.d) (fx o.a)
    let i := issued s t
    let c := coreOf s.cur
    let ptr := mEa i o s.hand n
    let bs := bytesOf n (s.hand.x i.d)
    let vol := o.o == 1 || o.o == 3
    -- after the release of class RELEASE, or the fence that class ACQUIRE makes
    let from_ (tgt : Target) (w : State) : State :=
      let w := noteFallback i (o.o == 1 || strayPolicy i o tgt) w
      if o.o = 1 then acquireCore (w.modThread s.cur (committed false)) c
      else if o.o = 2 then w.modThread s.cur (committed false) else w
    -- a VOLATILE access to words that the open task has written commits first
    let settled (ps : List Piece) (w : State) : State :=
      if o.o = 3 ∧ (ps.any (ownSpec w s.cur)) = true then w.modThread s.cur (committed false) else w
    let late (w : State) : State := if vol then w.modThread s.cur fun u => { u with volatiles := u.volatiles + 1 } else w
    (∀ off, (begun s t).target s.cur ptr n .store = .ok (.own off) → ptr.toNat % n = 0 → guarded (s.core c) off n = false →
      Acts (l.1 o) s t fun _ _ w => scratchWrite (from_ (.own off) w) c off bs) ∧
    (∀ core off, (begun s t).target s.cur ptr n .store = .ok (.remote core off) → ptr.toNat % n = 0 →
      Acts (l.1 o) s t fun _ _ w => (late (countPost (from_ (.remote core off) w) s.cur .pd)).send (fromThread s.cur) (atCore core)
        (.remoteScratchpadWrite ⟨s.cur, core, off, bs.map some, i.pc, ptr, vol, 1⟩)) ∧
    (∀ a ps, (begun s t).target s.cur ptr n .store = .ok (.linear a) → (o.o = 0 ∨ ptr.toNat % n = 0) →
      place (from_ (.linear a) (begun s t)) s.cur a n = .ok ps → ps.length ≤ 2 →
      (o.o = 0 → Acts (l.1 o) s t fun _ h w =>
        let w := notePieces c h.ctx.ids.job ps (from_ (.linear a) w)
        storePieces i (policyOf i o) ptr bs ps (addUnits w s.cur (pieceLines ps))) ∧
      (o.o ≠ 0 →
        (ps.any fun p => loadOut (settled ps (from_ (.linear a) (begun s t))) s.cur s.hand.ctx.ids.job (p.addr / 128)) = false →
        Acts (l.1 o) s t fun _ h w =>
          homeWritePieces i (if o.o = 2 then policyOf i o else 0) ptr bs vol ps (notePieces c h.ctx.ids.job ps (settled ps (from_ (.linear a) w)))))

/-- R289, R66, R71: where a load or a store traps, and what a guard access does. -/
def Obligations.MemoryTraps : Prop :=
  ∀ (o : OpM) (s : State), quiet s s.cur = true →
    let t := Traits.ofM o (fx o.d) (fx o.a)
    let i := issued s t
    let c := coreOf s.cur
    let scratch (tgt : Target) : Prop := match tgt with
      | .linear _ => False
      | _ => True
    (∀ l ∈ loads, let ptr := mEa i o s.hand l.2.1
      (∀ k, (begun s t).target s.cur ptr l.2.1 .load = .error k → Ends (l.1 o) s t fun _ _ u => .trap (mkFault .translation k ptr) u) ∧
      (∀ tgt, (begun s t).target s.cur ptr l.2.1 .load = .ok tgt → scratch tgt ∨ o.o ≠ 0 → ptr.toNat % l.2.1 ≠ 0 →
        Ends (l.1 o) s t fun _ _ u => .trap (mkFault .alignment 0 ptr) u) ∧
      (∀ off, (begun s t).target s.cur ptr l.2.1 .load = .ok (.own off) → ptr.toNat % l.2.1 = 0 → guarded (s.core c) off l.2.1 = true → o.o = 0 →
        Acts (l.1 o) s t fun _ _ u =>
          (noteGuard (noteFallback i (strayPolicy i o (.own off)) u) s.cur 0 ptr i.pc).modThread s.cur fun h => h.setX i.d 0)) ∧
    (∀ l ∈ stores, let ptr := mEa i o s.hand l.2
      (∀ k, (begun s t).target s.cur ptr l.2 .store = .error k → Ends (l.1 o) s t fun _ _ u => .trap (mkFault .translation k ptr) u) ∧
      (∀ tgt, (begun s t).target s.cur ptr l.2 .store = .ok tgt → scratch tgt ∨ o.o ≠ 0 → ptr.toNat % l.2 ≠ 0 →
        Ends (l.1 o) s t fun _ _ u => .trap (mkFault .alignment 0 ptr) u) ∧
      (∀ off, (begun s t).target s.cur ptr l.2 .store = .ok (.own off) → ptr.toNat % l.2 = 0 → guarded (s.core c) off l.2 = true → o.o = 0 →
        Acts (l.1 o) s t fun _ _ u => noteGuard (noteFallback i (strayPolicy i o (.own off)) u) s.cur 1 ptr i.pc))

/-- R291, R292, R107, R108, R113: the atomics on the own scratchpad, of each class, and of class PLAIN on linear memory: a contribution
combined in the core's buffer, or a fetch-and-op at the home. R291: the value that an atomic leaves, on operands of 4 or 8 bytes. Where
the spec leaves a point open, the statement says the model's choice (notes/assumptions: 22). -/
def Obligations.AtomicsByClass : Prop :=
  (∀ (l : (OpA → Instr) × AtomicOp × Bool), l ∈ atomics → ∀ (o : OpA) (s : State), quiet s s.cur = true → s.hand.volatiles = 0 →
      let op := l.2.1
      let comm := l.2.2
      let n := if o.z then 8 else 4
      let t : Traits := { Traits.ofA o (if comm then fnone else fx o.d) (fx o.a) (fx o.b) with rounds := op == .fadd, sets := op == .fadd }
      let i := issued s t
      let c := coreOf s.cur
      let ptr := s.hand.x i.a
      let v := i.bval s.hand
      let cmp := s.hand.x i.d
      let from_ (tgt : Target) (w : State) : State :=
        let w := noteFallback i ((comm && o.o == 1) || (tgt.scratch && i.pol != 0)) w
        if o.o = 2 then w.modThread s.cur (committed false)
        -- class ACQUIRE on an atomic without a return value is a fence, and then class VOLATILE
        else if comm = true ∧ o.o = 1 then acquireCore (w.modThread s.cur (committed false)) c else w
      (∀ k, (begun s t).target s.cur ptr n .atomic = .error k → Ends (l.1 o) s t fun _ _ u => .trap (mkFault .translation k ptr) u) ∧
      (∀ tgt, (begun s t).target s.cur ptr n .atomic = .ok tgt → ptr.toNat % n ≠ 0 → Ends (l.1 o) s t fun _ _ u => .trap (mkFault .alignment 0 ptr) u) ∧
      (∀ off, (begun s t).target s.cur ptr n .atomic = .ok (.own off) → ptr.toNat % n = 0 →
        guarded (s.core c) off n = false → scratchPoisoned (s.core c) off n = false →
        Acts (l.1 o) s t fun _ _ w =>
          let old := wordOf (Memory.read (s.core c).scratch off n)
          let r := atomicRes op n old v cmp i.rm
          let w := (scratchWrite (from_ (.own off) w) c off (bytesOf n r.1)).modThread s.cur fun u =>
            let u := if i.nf then u else u.orFlags r.2
            if comm then u else u.setX i.d (oldValue op n old)
          if o.o = 1 ∧ comm = false then acquireCore (w.stage s.cur .sent) c else w) ∧
      (∀ a p, (begun s t).target s.cur ptr n .atomic = .ok (.linear a) → ptr.toNat % n = 0 → o.o = 0 →
        let w := from_ (.linear a) (begun s t)
        place w s.cur a n = .ok [p] → loadOut w s.cur s.hand.ctx.ids.job (p.addr / 128) = false →
        -- one with a return value commits first where the open task has written its word
        let x := if ownSpec w s.cur p = true then w.modThread s.cur (committed false) else w
        (comm = true → Acts (l.1 o) s t fun _ h _ =>
          combine (dropStale (w.noteEntries c h.ctx.ids.job a) c h.ctx.ids.job (a / 128)) i ptr (commKey h.ctx.ids.job a n op) p.gslice v) ∧
        (comm = false → ∃ u, fallBack i op n i.pol ptr v cmp p false x = .done u ∧ Acts (l.1 o) s t fun _ _ _ => u))) ∧
  (∀ (n : Nat) (a v c : Word), n = 4 ∨ n = 8 →
      let u (w : Word) : Nat := w.toNat % 2 ^ (8 * n)
      let g (w : Word) : Int := intVal (8 * n) true w.toNat
      let r (op : AtomicOp) : Word := atomicNew op n a v c
      (r .add).toNat = (a.toNat + v.toNat) % 2 ^ (8 * n) ∧ (r .and).toNat = (a &&& v).toNat % 2 ^ (8 * n) ∧
      (r .or).toNat = (a ||| v).toNat % 2 ^ (8 * n) ∧ (r .xor).toNat = (a ^^^ v).toNat % 2 ^ (8 * n) ∧
      (r .minU).toNat = min (u a) (u v) ∧ (r .maxU).toNat = max (u a) (u v) ∧
      g (r .minS) = min (g a) (g v) ∧ g (r .maxS) = max (g a) (g v) ∧ (r .minS).toNat < 2 ^ (8 * n) ∧ (r .maxS).toNat < 2 ^ (8 * n) ∧
      (r .swap).toNat = u v ∧ (r .cas).toNat = (if u a = u c then u v else u a))

/-! ## Synchronisation -/

/-- R294, R295: an arrival at a barrier and its phase, and the wait for a phase. -/
def Obligations.BarrierPhasesAndWaits : Prop :=
  (∀ (o : OpR) (s : State), quiet s s.cur = true →
    let t := Traits.ofR o (fk o.d) (fx o.a) (fk o.b)
    let i := issued s t
    let c := coreOf s.cur
    let n := o.b.toNat
    let b := s.barrier c n
    let job := s.hand.ctx.ids.job
    let opened (u : State) : State := u.modThread s.cur (committed false)
    let w : Wake := .barrier n ((s.hand.x i.a).toNat % 2 ^ 16)
    (b.owner = job → b.count ≠ 0 → Acts (.barArr o) s t fun _ _ u =>
      let r := expect (opened u) i (.regs [i.a] []) 1 false
      answer (r.1.setBarrier c n b.arrive) (fromThread s.cur) s.cur r.2 (.regs [(i.a, .ofNat 64 b.phase.toNat)] [] 0) none) ∧
    (b.owner ≠ job → Acts (.barArr o) s t fun _ _ u => returnFault i (.regs [i.a] []) denied (opened u)) ∧
    (b.owner = job → b.count = 0 → Acts (.barArr o) s t fun _ _ u => returnFault i (.regs [i.a] []) badOperand (opened u)) ∧
    (b.owner = job → b.passed ((s.hand.x i.a).toNat % 2 ^ 16) = true → Acts (.barWait o) s t fun _ _ u => acquiring u) ∧
    (b.owner = job → b.passed ((s.hand.x i.a).toNat % 2 ^ 16) = false → Ends (.barWait o) s t fun _ _ u =>
      .wait w (u.modThread s.cur fun h => { h with checked := true }))) ∧
  ∀ (b : Barrier) (n : Nat),
    (b.arrived + 1 = b.count → b.arrive.arrived = 0 ∧ b.arrive.phase = b.phase + 1) ∧
    (b.arrived + 1 ≠ b.count → b.arrive.arrived = b.arrived + 1 ∧ b.arrive.phase = b.phase) ∧
    b.arrive.count = b.count ∧ b.arrive.owner = b.owner ∧
    (b.passed b.phase.toNat = false) ∧ (b.phase = .ofNat 16 n + 1 → b.passed n = true)

/-- R296, R297: messages to a core's scratchpad and to its receive queue, and what takes one from the queue. -/
def Obligations.MessagesReachTheirCore : Prop :=
  ∀ (o : OpR) (s : State), quiet s s.cur = true →
    let t := Traits.ofR o (fk o.d) (fx o.a) (fx o.b)
    let tg := Traits.ofR o (fx o.d) (fk o.a) (fk o.b)
    let a := s.hand.x (issued s t).a
    let core := bits a 43 25
    let off := bits a 18 0
    let posted (u : State) (dest : Nat) : State := countPost (u.modThread s.cur (committed false)) s.cur (coreClass (coreOf s.cur) dest)
    (bits a 63 44 ≠ 0 ∨ offJob s s.cur core = true → Ends (.msend o) s t fun _ _ u => .trap badOperand u) ∧
    (bits a 63 44 = 0 → offJob s s.cur core = false → off % 8 ≠ 0 →
      Ends (.msend o) s t fun _ _ u => .trap (mkFault .alignment 0 (scratchPtr core off)) u) ∧
    (bits a 63 44 = 0 → offJob s s.cur core = false → off % 8 = 0 → Acts (.msend o) s t fun i h u =>
      (posted u core).send (fromThread s.cur) (atCore core)
        (.msendDelivery ⟨s.cur, h.ctx.ids.job, core, bits a 24 19, off, i.bval h, coreClass (coreOf s.cur) core, i.pc, ((posted u core).thread s.cur).ctx.task⟩)) ∧
    (bits a 63 19 ≠ 0 ∨ offJob s s.cur (bits a 18 0) = true → Ends (.qput o) s t fun _ _ u => .trap badOperand u) ∧
    (bits a 63 19 = 0 → offJob s s.cur (bits a 18 0) = false → Acts (.qput o) s t fun i h u =>
      (posted u (bits a 18 0)).send (fromThread s.cur) (atCore (bits a 18 0))
        (.qputDelivery ⟨s.cur, h.ctx.ids.job, bits a 18 0, 0, 0, i.bval h, coreClass (coreOf s.cur) (bits a 18 0), i.pc,
          ((posted u (bits a 18 0)).thread s.cur).ctx.task⟩)) ∧
    ((s.core (coreOf s.cur)).rq = [] → Ends (.qget o) s tg fun _ _ u => .wait .queue u) ∧
    (∀ w rest, (s.core (coreOf s.cur)).rq = w :: rest → queueAhead (begun s tg) s.cur = false → Acts (.qget o) s tg fun i _ u =>
      acquiring ((u.modCore (coreOf s.cur) fun c => { c with rq := rest }).modThread s.cur fun h => h.setX i.d w))

/-- R298: the privileged control of arrival counters, receive queues and barriers. R299, R122: waits for an arrival counter, a completion
counter and a Meridian channel, and the acquire that ends each. -/
def Obligations.CounterControlAndWaits : Prop :=
  (∀ (o : OpR) (s : State),
      let t := Traits.ofR o (fk o.d) (fx o.a) (fx o.b)
      let a := s.hand.x (issued s t).a
      let b := (issued s t).bval s.hand
      let c := coreOf s.cur
      let ok := cctlBad a b = false ∧ s.hand.ctx.mode ≠ .user
      (cctlBad a b = true → Ends (.cctl o) s t fun _ _ u => .trap badOperand u) ∧
      (cctlBad a b = false → s.hand.ctx.mode = .user → Ends (.cctl o) s t fun _ _ u => .trap denied u) ∧
      (ok → bits b 7 6 = 0 → Acts (.cctl o) s t fun _ _ u => u.modCore c fun k =>
        { k with arrivals := tput k.arrivals (bits b 5 0) (Arrival.mk
            (if bit a 8 then 0 else (tget Arrival.zero (s.core c).arrivals (bits b 5 0)).value) (bits a 7 0)) }) ∧
      (ok → bits b 7 6 = 1 → bit a 8 = false → Acts (.cctl o) s t fun _ _ u => u.modCore c fun k => { k with rqOwner := bits a 7 0 }) ∧
      (ok → bits b 7 6 = 1 → bit a 8 = true → Acts (.cctl o) s t fun _ h u =>
        (rejectEntries c (s.core c).rqOwner h.ctx.ids.job (s.core c).rq u).modCore c fun k => { k with rq := [], rqOwner := bits a 7 0 }) ∧
      (ok → bits b 7 6 = 2 → Acts (.cctl o) s t fun _ _ u =>
        u.setBarrier c (bits b 3 0) ((s.barrier c (bits b 3 0)).configure (bits a 7 0) (bits a 15 8) (bit a 16)))) ∧
  (∀ (o : OpR) (s : State), quiet s s.cur = true →
      let t := Traits.ofR o (fk o.d) (fx o.a) (fx o.b)
      let tc := Traits.ofR o (fx o.d) (fx o.a) (fx o.b)
      let tm := Traits.ofR o (fx o.d) (fx o.a) (fk o.b)
      let a := s.hand.x (issued s t).a
      let b := (issued s t).bval s.hand
      let bc := (issued s tc).bval s.hand
      let ac := s.hand.x (issued s tc).a
      let am := s.hand.x (issued s tm).a
      let job := s.hand.ctx.ids.job
      let m := moduleOf (coreOf s.cur)
      let k := tget Arrival.zero (s.core (coreOf s.cur)).arrivals (bits a 5 0)
      let kc := s.compCtr m job (bits ac 11 0)
      let km := s.meridian m (bits am 3 0)
      (bits a 63 6 ≠ 0 ∨ bits b 63 32 ≠ 0 → Ends (.cwait o) s t fun _ _ u => .trap badOperand u) ∧
      (bits a 63 6 = 0 → bits b 63 32 = 0 → k.owner ≠ job → Ends (.cwait o) s t fun _ _ u => .trap denied u) ∧
      (bits a 63 6 = 0 → bits b 63 32 = 0 → k.owner = job → k.value < b.toNat →
        Ends (.cwait o) s t fun _ _ u => .wait (.arrival (bits a 5 0) b.toNat) u) ∧
      (bits a 63 6 = 0 → bits b 63 32 = 0 → k.owner = job → b.toNat ≤ k.value → Acts (.cwait o) s t fun _ _ u => acquiring u) ∧
      (bits ac 63 12 ≠ 0 ∨ bits bc 63 32 ≠ 0 → Ends (.ccwait o) s tc fun _ _ u => .trap badOperand u) ∧
      (bits ac 63 12 = 0 → bits bc 63 32 = 0 → kc.value < bc.toNat →
        Ends (.ccwait o) s tc fun _ _ u => .wait (.completion (bits ac 11 0) bc.toNat) u) ∧
      (bits ac 63 12 = 0 → bits bc 63 32 = 0 → bc.toNat ≤ kc.value → Acts (.ccwait o) s tc fun i _ u =>
        acquiring (u.modThread s.cur fun h => h.setX i.d (.ofNat 64 (bitNat kc.canc)))) ∧
      (bits am 63 4 ≠ 0 → Ends (.mwait o) s tm fun _ _ u => .trap badOperand u) ∧
      (bits am 63 4 = 0 → ∀ c e, s.hand.status = .waiting (.meridian c e) → km.ends.toNat ≠ e → Acts (.mwait o) s tm fun i _ u =>
        acquiring (u.modThread s.cur fun h => h.setX i.d (.ofNat 64 km.ends.toNat))) ∧
      (bits am 63 4 = 0 → s.hand.status = .ready → km.v = true → km.job.toNat = job →
        Ends (.mwait o) s tm fun _ _ u => .wait (.meridian (bits am 3 0) km.ends.toNat) u))

/-- R300, R187, R189: the arming of a waiting task, and a work-list entry. -/
def Obligations.WaitingTasks : Prop :=
  ∀ (o : OpR) (s : State),
    let t := Traits.ofR o (fx o.d) (fx o.a) (fx o.b)
    let i := issued s t
    let c := coreOf s.cur
    let h := s.hand
    let d := h.x i.d
    let pc := h.x i.a
    let badPc := bits pc 63 57 ≠ 0 ∨ bits pc 1 0 ≠ 0
    let badW := bits d 31 0 = 0 ∨ bits d 39 38 = 3 ∨ bits d 63 40 ≠ 0
    let badL := bits d 17 16 = 3 ∨ bits d 63 18 ≠ 0
    let owner := (tget Arrival.zero (s.core c).arrivals (bits d 37 32)).owner
    let mayW := bits d 39 38 ≤ h.ctx.mode.code ∧ owner = h.ctx.ids.job
    let task : WtEntry :=
      { pc := pc, arg := i.bval h, thresh := bits d 31 0, ctr := bits d 37 32, ids := h.ctx.ids, mode := Mode.of (bits d 39 38)
        prio := (s.lease s.cur).prio, fired := false, value := 0, order := 0, into := none }
    (h.stage = .start → badW → Ends (.wtarm o) s t fun _ _ u => .trap badOperand u) ∧
    (h.stage = .start → ¬badW → ¬mayW → Ends (.wtarm o) s t fun _ _ u => .trap denied u) ∧
    (¬badW → mayW → ¬badPc → ∀ n, firstFree (s.core c).wt 0 Config.waitingTasks = some n →
      Acts (.wtarm o) s t fun _ _ u => evalCounter (u.modCore c fun k => { k with wt := tput k.wt n task }) c (bits d 37 32)) ∧
    (¬badW → mayW → ¬badPc → firstFree (s.core c).wt 0 Config.waitingTasks = none → Ends (.wtarm o) s t fun _ _ u => .wait (.tableFull 0) u) ∧
    (h.stage = .start → badL → Ends (.wlpush o) s t fun _ _ u => .trap badOperand u) ∧
    (h.stage = .start → ¬badL → h.ctx.mode.code < bits d 17 16 → Ends (.wlpush o) s t fun _ _ u => .trap denied u) ∧
    (¬badL → bits d 17 16 ≤ h.ctx.mode.code → ¬badPc → (s.core c).work.length < Config.workList →
      Acts (.wlpush o) s t fun _ _ u => ((u.modCore c fun k => { k with work := k.work ++
        [⟨pc, i.bval h, .ofNat 16 (bits d 15 0), h.ctx.ids, Mode.of (bits d 17 16), (s.lease s.cur).prio⟩] }).askLoader c).askSextant c)

/-- R193, R326: tile queues: a descriptor, the next sub-tile of one, and its end. -/
def Obligations.TileQueues : Prop :=
  (∀ (o : OpR) (s : State), s.hand.out.length < 16 →
    let t := Traits.ofR o (fx o.d) (fx o.a) (fx o.b)
    let tf := { t with imm := none }
    let tq := Traits.ofR o (fk o.d) (fx o.a) (fk o.b)
    let i := issued s t
    let a := s.hand.x i.a
    let b := i.bval s.hand
    let cl := clusterOf (coreOf s.cur)
    let x := s.cluster cl
    let d : TqDesc := ⟨bits a 31 0, bits a 63 32, bits b 15 0, bits b 31 16, s.hand.ctx.ids.job, 0, 0⟩
    let gen := (x.gen + 1) % 2 ^ 16
    let f := issued s tf
    let af := s.hand.x f.a
    let aq := s.hand.x (issued s tq).a
    let put (u : State) (n : Nat) (d : TqDesc) : State := u.modCluster cl fun c => { c with tq := tput c.tq n d }
    (bits b 63 32 = 0 → d.m ≠ 0 → d.n ≠ 0 → d.tm ≠ 0 → d.tn ≠ 0 → d.total < 2 ^ 31 → ∀ n, firstFree x.tq 0 Config.tileQueue = some n →
      Acts (.tqset o) s t fun _ _ u =>
        let r := expect u i (.regs [i.d] []) 1 false
        let w := r.1.modCluster cl fun c => { c with gen := gen, tq := tput c.tq n { d with gen := gen } }
        answer w (fromThread s.cur) s.cur r.2 (.regs [(i.d, .ofNat 64 (n + gen * 2 ^ 8))] [] 0) none) ∧
    (ticketBad af = false → ∀ e, tfind x.tq (bits af 2 0) = some e → e.job = s.hand.ctx.ids.job → e.gen = bits af 23 8 → e.k < e.total →
      Acts (.ftile o) s tf fun _ _ u =>
        returning f (.regs [f.d, f.b] []) (.regs [(f.d, (e.tile e.k).1), (f.b, (e.tile e.k).2)] [] 0)
          (put u (bits af 2 0) { e with k := e.k + 1 })) ∧
    (ticketBad af = false → ∀ e, tfind x.tq (bits af 2 0) = some e → e.job = s.hand.ctx.ids.job → (e.gen ≠ bits af 23 8 ∨ e.total ≤ e.k) →
      Acts (.ftile o) s tf fun _ _ u =>
        returning f (.regs [f.d, f.b] []) (.regs [(f.d, 0), (f.b, .ofNat 64 (2 ^ 63))] [] 0) u) ∧
    (ticketBad aq = false → Acts (.tqfree o) s tq fun j _ u =>
      let r := expect u j .none 1 false
      let w := match tfind x.tq (bits aq 2 0) with
        | some e => if e.gen = bits aq 23 8 then r.1.modCluster cl fun c => { c with tq := tdel c.tq (bits aq 2 0) } else r.1
        | none => r.1
      answer w (fromThread s.cur) s.cur r.2 .ack none)) ∧
  ∀ (d : TqDesc) (k : Nat), d.m < 2 ^ 32 → d.n < 2 ^ 32 → 0 < d.tm → 0 < d.tn → d.tm < 2 ^ 16 → d.tn < 2 ^ 16 → k < d.total → d.total < 2 ^ 31 →
    let row := bits (d.tile k).1 31 0
    let col := bits (d.tile k).1 63 32
    let rows := bits (d.tile k).2 15 0
    let cols := bits (d.tile k).2 31 16
    let across := (d.n + d.tn - 1) / d.tn
    bits (d.tile k).2 62 32 = k ∧ row = k / across * d.tm ∧ col = k % across * d.tn ∧
    rows = min d.tm (d.m - row) ∧ cols = min d.tn (d.n - col) ∧ 0 < rows ∧ 0 < cols

/-! ## Tiles, the device heap and streams -/

/-- R37, R39, R41, R42, R57, R59, R304 to R306: the request that each tile instruction sends to its tile's home, and what ends its wait.
Where the spec leaves a point open, the statement says the model's choice (notes/assumptions: 31). -/
def Obligations.TileFormsAskTheirHome : Prop :=
  ∀ (o : OpT) (s : State),
    let t := Traits.ofT o (fx o.a) (fx o.b)
    let tt : Traits := { t with pol := .taken }
    let tk := Traits.ofT o (fk o.a) (fk o.b)
    let ta := Traits.ofT o (fx o.a) (fk o.b)
    let i := issued s t
    let c := coreOf s.cur
    let h := s.hand.handle o.h.toNat
    let m := tileModule s s.cur o
    let ref := tileRef m s.hand.ctx.ids.job h
    let b := i.bval s.hand
    let a := s.hand.x i.a
    let aa := s.hand.x (issued s ta).a
    let at_ (u : State) (e : Event) : State := u.send (fromThread s.cur) (atSlice ref.gslice) e
    (∀ f, s.hand.stage = .answered f →
      Ends (.tst o) s tt (fun _ _ u => .done u) ∧ Ends (.tsub o) s t (fun _ _ u => .done u)) ∧
    (∀ f, s.hand.stage = .answered f ∨ s.hand.stage = .sent → s.hand.out = [] →
      Acts (.tld o) s t (fun _ _ u => acquireCore u c) ∧ Acts (.tldc o) s t (fun _ _ u => acquireCore u c)) ∧
    (quiet s s.cur = true → tileOperandBad s s.cur m h = true →
      Ends (.trel o) s tk (fun _ _ u => .trap (mkFault .tile 0 h) u) ∧ Ends (.tqry o) s ta (fun _ _ u => .trap (mkFault .tile 0 h) u)) ∧
    (quiet s s.cur = true → tileOperandBad s s.cur m h = false →
      (∀ w bs, bits b 63 21 = 0 → bits b 15 0 ≠ 0 → bits b 19 16 ≤ 9 → a.toNat % 128 = 0 →
        tileSource (begun s tt) s.cur (classBytes (bits b 19 16)) a = none → s.onWay (isDirectWrite s.cur) = false →
        readBytes (notePolicy (issued s tt) [a] (begun s tt)) s.cur a (classBytes (bits b 19 16)) .tile false gkLoad i.pc = (w, .ok bs) → w.linkHeld = false →
        Ends (.tst o) s tt fun i v _ =>
          let q := expect w i .none 1 false h
          .wait .answer (at_ (q.1.modThread s.cur fun x => { x with creates := x.creates ++ [ref] })
            (.ephemerisCreate ⟨ref, s.cur, q.2, bits b 19 16, bits b 15 0, bit b 20, byteTable 0 bs, some v.ctx.task, i.pc⟩))) ∧
      (∀ pos, bits b 63 32 = 0 → bits b 15 0 % 128 = 0 → bits b 31 16 % 128 = 0 → bits b 15 0 + bits b 31 16 ≤ 65536 →
        tileDest s.cur (bits b 31 16) a = .ok pos →
        ∀ l : (OpT → Instr) × Bool, l ∈ [(.tld, false), (.tldc, true)] →
        Ends (l.1 o) s t fun _ v u => .wait (.tile h m false) (at_ (expect u i (.scratch pos) 1 false h).1
          (.ephemerisLoad ⟨ref, .thread s.cur v.nextId, l.2, bits b 15 0, bits b 31 16, Config.scratchBytes - pos, c, pos, v.ctx.task, i.pc⟩))) ∧
      Acts (.trel o) s tk (fun j v u => at_ (expect u j .none 1 false h).1 (.ephemerisRelease ⟨ref, s.cur, v.nextId, j.pc⟩)) ∧
      (tileOnWay (begun s ta) s.cur ref.gslice = false → linkDown (begun s ta) (moduleOf c) m = false →
        ((begun s ta).overLinks (moduleOf c) m).linkHeld = false →
        Acts (.tqry o) s ta (fun j v u =>
          let w := (u.overLinks (moduleOf c) m).serve ref.gslice
          let q := expect (awake w ref.gslice) j (.regs [j.a] []) 1 false h
          answer q.1 (fromSlice ref.gslice) s.cur q.2 (.regs [(j.a, queryWord (w.tile ref) v.ctx.task)] [] 0) none) ∧
        (bits aa 63 25 = 0 → Acts (.tunsub o) s ta (fun j _ u =>
          let q := expect ((u.overLinks (moduleOf c) m).serve ref.gslice) j .none 1 false h
          let w := (awake q.1 ref.gslice).modSlice ref.gslice fun x =>
            { x with subs := x.subs.filter fun e =>
                !(e.standing && e.job == ref.job && e.name == ref.name && e.core == bits aa 24 6 && e.ctr == bits aa 5 0) }
          tileAck (wakeStalls w (sliceDie ref.gslice)) ref s.cur q.2))) ∧
      (bits a 63 25 = 0 → s.ofJob (moduleOf c) s.hand.ctx.ids.job (moduleOf (bits a 24 6)) = true →
        serial (bits h 23 0) (bits b 23 0) < 2 ^ 23 →
        Ends (.tsub o) s t fun _ v u => .wait .answer (at_ (expect u i .none 1 false h).1
          (.subscriptionRecord ⟨ref, s.cur, v.nextId, bits b 23 0, bits a 24 6, bits a 5 0⟩))) ∧
      (bits aa 63 9 = 0 → bits aa 7 6 = 0 → (tget Arrival.zero (s.core c).arrivals (bits aa 5 0)).owner = s.hand.ctx.ids.job →
        Acts (.tmov o) s ta fun j v u => at_ (u.modThread s.cur fun x => { x with engines := x.engines + 1 })
          (.ephemerisPin ⟨ref, .promotion s.cur c (bits aa 5 0) (bit aa 8) j.pc v.ctx.task false⟩)))

/-- R61 to R63, R308: the device heap gives a block of the smallest class that holds the bytes asked for, and takes it back. Where the
spec leaves a point open, the statement says the model's choice (notes/assumptions: 39, 109). -/
def Obligations.HeapGivesAndTakesBack : Prop :=
  (∀ (o : OpR) (s : State),
    let t := Traits.ofR o (fx o.d) (fx o.a) (fk o.b)
    let tf := Traits.ofR o (fk o.d) (fx o.a) (fk o.b)
    let c := coreOf s.cur
    let m := moduleOf c
    let job := s.hand.ctx.ids.job
    let n := s.hand.x (issued s t).a
    let p := s.hand.x (issued s tf).a
    let used := (tget Arena.empty (s.modu m).heap job).used
    let inside := ∃ start size, heapOf (s.heapEntry m job) = some (start, size) ∧ start ≤ p.toNat ∧ p.toNat < start + 64 * size
    (s.hand.out.length < 16 → ∀ (w : State) (a : Word), heapAlloc (begun s t) c job n.toNat = (w, some a) →
      Acts (.halloc o) s t fun i _ _ => returning i (.regs [i.d] []) (.regs [(i.d, a)] [] 0) w) ∧
    (s.hand.out.length < 16 → ∀ w : State, heapAlloc (begun s t) c job n.toNat = (w, none) →
      Acts (.halloc o) s t fun i _ _ => returnFault i (.regs [i.d] []) (mkFault .tile 6 n) w) ∧
    (p = 0 → Acts (.hfree o) s tf fun _ _ u => u) ∧
    (p ≠ 0 → quiet s s.cur = true → inside → (tfind used p.toNat).isSome = true → Acts (.hfree o) s tf fun _ _ u =>
      u.modModu m fun x => { x with heap := tput x.heap job { tget Arena.empty x.heap job with used := tdel used p.toNat } }) ∧
    (p ≠ 0 → quiet s s.cur = true → ¬(inside ∧ (tfind used p.toNat).isSome = true) → Acts (.hfree o) s tf fun i _ u =>
      addPend u i (mkFault .tile 5 p))) ∧
  ∀ (s : State) (core job n : Nat),
    (heapAlloc s core job 0).2 = some 0 ∧
    (0 < n → n ≤ 65536 → n ≤ classBytes (heapClass n 0 9) ∧ ∀ k, k < heapClass n 0 9 → classBytes k < n)

/-- R72, R74, R301: a stream bound to a descriptor, its elements read and written in order, and its end. -/
def Obligations.StreamElementsInOrder : Prop :=
  ∀ (o : OpR) (s : State), calm s s.cur = true →
    let tb : Traits := { Traits.ofR o (fs o.d) (fx o.a) (fk o.b) with pol := .taken }
    let tu := Traits.ofR o (fs o.d) (fk o.a) (fk o.b)
    let tg := Traits.ofR o (fx o.d) (fs o.a) (fk o.b)
    let tv := Traits.ofR o (fv o.d) (fs o.a) (fk o.b)
    let tp := Traits.ofR o (fs o.d) (fx o.a) (fk o.b)
    let tw := Traits.ofR o (fs o.d) (fv o.a) (fk o.b)
    let p := s.hand.x (issued s tb).a
    let st (n : Nat) := s.hand.stream n
    let idle (n : Nat) := (st n).drains = true → (st n).buf = []
    -- an instruction that waited for a drain to write observes its end, and so acquires
    let joins (n : Nat) : Prop := (st n).drains = true ∧ 0 < (st n).next
    let base (n : Nat) (u : State) : State := if joins n then (acquireCore u (coreOf s.cur)).stage s.cur .sent else u
    let taken (x : Stream) (rest : List (Line × Option FaultRec)) : Stream :=
      { x with buf := rest, next := x.next + 1, mode := if x.next + 1 = streamTotal x.desc then .ended else .fill }
    let queued (x : Stream) (l : Line) : Stream :=
      { x with buf := x.buf ++ [(l, none)], next := x.next + 1, mode := if x.next + 1 = streamTotal x.desc then .ended else .drain }
    (∀ k, (begun s tb).target s.cur p 64 .load = .error k → Ends (.sbind o) s tb fun _ _ u => .trap (mkFault .translation k p) u) ∧
    (∀ tgt, (begun s tb).target s.cur p 64 .load = .ok tgt → p.toNat % 64 ≠ 0 →
      Ends (.sbind o) s tb fun _ _ u => .trap (mkFault .alignment 0 p) u) ∧
    (p.toNat % 64 = 0 → idle (issued s tb).d → s.onWay (isDirectWrite s.cur) = false →
      ∀ tgt w bs, (begun s tb).target s.cur p 64 .load = .ok tgt →
      readBytes (notePolicy (issued s tb) [p] (base (issued s tb).d (begun s tb))) s.cur p 64 .load false gkLoad (issued s tb).pc = (w, .ok bs) → w.linkHeld = false →
      let d : BitVec 512 := .ofNat 512 (leNat bs)
      (streamBad s.cur d = true → Ends (.sbind o) s tb fun _ _ _ => .trap badOperand w) ∧
      (streamBad s.cur d = false → Acts (.sbind o) s tb fun i _ _ => kickStream (w.modThread s.cur fun h => h.setStream i.d
        { mode := if streamTotal d = 0 then .ended else if d.getLsbD 152 then .drain else .fill
          drains := d.getLsbD 152, desc := d, next := 0, engine := 0, buf := [], pc := i.pc }) s.cur i.d)) ∧
    (idle (issued s tu).d →
      let ended (n : Nat) (u : State) : State := if joins n then acquiring u else u
      Acts (.sunbind o) s tu (fun i _ u => ended i.d (u.modThread s.cur fun h => { h with streams := tdel h.streams i.d })) ∧
      Acts (.swait o) s tu (fun i _ u => ended i.d u)) ∧
    (¬ idle (issued s tu).d →
      Ends (.sunbind o) s tu (fun i _ u => .wait (.drainEnd i.d) u) ∧ Ends (.swait o) s tu (fun i _ u => .wait (.drainEnd i.d) u)) ∧
    (∀ l rest x, x = st (issued s tg).a →
      x.mode = .fill → streamEsize x.desc ≤ 3 → x.buf = (l, none) :: rest → Acts (.sget o) s tg fun i _ u =>
        acquiring (kickStream (u.modThread s.cur fun h => (h.setStream i.a (taken x rest)).setX i.d (.ofNat 64 l.toNat)) s.cur i.a)) ∧
    (∀ l rest x, x = st (issued s tv).a →
      x.mode = .fill → x.buf = (l, none) :: rest → Acts (.vsget o) s tv fun i _ u =>
        acquiring (kickStream (u.modThread s.cur fun h => (h.setStream i.a (taken x rest)).setV i.d l) s.cur i.a)) ∧
    (∀ x, x = st (issued s tp).d →
      x.mode = .drain → streamEsize x.desc ≤ 3 → x.buf.length < drainRoom x.desc → Acts (.sput o) s tp fun i h u =>
        kickStream (u.modThread s.cur fun v => v.setStream i.d (queued x (.ofNat 1024 (h.x i.a).toNat))) s.cur i.d) ∧
    (∀ x, x = st (issued s tw).d →
      x.mode = .drain → x.buf.length < drainRoom x.desc → Acts (.vsput o) s tw fun i h u =>
        kickStream (u.modThread s.cur fun v => v.setStream i.d (queued x (h.vreg i.a))) s.cur i.d) ∧
    ((st (issued s tg).a).mode = .unbound → Ends (.sget o) s tg fun _ _ u => .trap (mkFault .streamState 0 0) u) ∧
    ((st (issued s tp).d).mode = .unbound → Ends (.sput o) s tp fun _ _ u => .trap (mkFault .streamState 0 0) u)

/-- R75, R76, R302, R303: a Heliostat transfer handed to its engine, and where the words of a row go. -/
def Obligations.HeliostatTransfers : Prop :=
  (∀ (o : OpR) (s : State), quiet s s.cur = true →
    let t := Traits.ofR o (fx o.d) (fx o.a) (fx o.b)
    let i := issued s t
    let a := s.hand.x i.a
    let b := i.bval s.hand
    let d := s.hand.x i.d
    let c := coreOf s.cur
    let owner := (tget Arrival.zero (s.core c).arrivals (bits b 24 19)).owner
    let far := 2 ≤ bits a 63 60 ∧ ¬(bits a 63 60 = 2 ∧ bits a 59 57 = c % 8)
    let bad := bits b 63 32 % 8 ≠ 0 ∨ bits b 31 25 ≠ 0 ∨ bits b 18 0 % 8 ≠ 0 ∨ bits d 63 32 = 0 ∨ bits d 63 32 % 8 ≠ 0 ∨ bits d 31 0 = 0 ∨
      hpBad s.hand.ctx.hpat = true
    (bad → Ends (.hxfer o) s t fun _ _ u => .trap badOperand u) ∧
    (¬bad → owner ≠ s.hand.ctx.ids.job → Ends (.hxfer o) s t fun _ _ u => .trap denied u) ∧
    (¬bad → owner = s.hand.ctx.ids.job → far → Ends (.hxfer o) s t fun _ _ u => .trap (mkFault .translation 8 a) u) ∧
    (¬bad → owner = s.hand.ctx.ids.job → ¬far → a.toNat % 8 ≠ 0 → Ends (.hxfer o) s t fun _ _ u => .trap (mkFault .alignment 0 a) u) ∧
    (¬bad → owner = s.hand.ctx.ids.job → ¬far → a.toNat % 8 = 0 →
      Acts (.hxfer o) s t fun _ h u => streamEvent (u.modThread s.cur fun x => { x with engines := x.engines + 1 }) s.cur
        (.heliostatLineReceive
          { gti := s.cur, job := h.ctx.ids.job, user := h.ctx.mode == .user, task := h.ctx.task, core := c, src := a
            spitch := bits b 63 32, rowbytes := bits d 63 32, rows := bits d 31 0, dbase := bits b 18 0, hpat := h.ctx.hpat
            ctr := bits b 24 19, row := 0, col := 0, bound := false, fault := none, pc := i.pc })) ∧
    -- so it completes, one engine operation more, whose first line is on its way
    (performs s t = true → ¬bad → owner = s.hand.ctx.ids.job → ¬far → a.toNat % 8 = 0 → ∃ u : State, exec (.hxfer o) s = .next u ∧
      (u.thread s.cur).engines = s.hand.engines + 1 ∧ ∃ f ∈ u.agenda, ∃ h : Helio, f.ev = .heliostatLineReceive h ∧ h.gti = s.cur ∧ h.src = a ∧
        h.rows = bits d 31 0 ∧ h.rowbytes = bits d 63 32 ∧ h.ctr = bits b 24 19 ∧ h.row = 0 ∧ h.col = 0)) ∧
  (∀ (h : BitVec 55) (base i w : Nat), hpBad h = false →
    let pr := hpField h 47 44 + 1
    let pc := hpField h 43 40 + 1
    let bi := i / hpField h 39 30
    let bj := w / hpField h 29 20
    (helioTarget h base i w).1 = (hpField h 54 48 + bi % pr * pc + bj % pc) % 96 ∧ (helioTarget h base i w).2 % 8 = base % 8)

/-! ## Vectors -/

/-- R310, R313, R314: the integer forms, element by element. -/
def Obligations.VectorIntegers : Prop :=
  ∀ (o : OpV) (s : State),
    let t := Traits.ofV o (fv o.d) (fv o.a) (fv o.b)
    let tb := { t with sets := true, sat := true }
    let tv := { t with sets := true }
    let w := (intT o.t).1
    let sg := (intT o.t).2
    let a (i : Iss) (h : Thread) (k : Nat) : Nat := elementOf w (h.vreg i.a) k
    let b (i : Iss) (h : Thread) (k : Nat) : Nat := elementOf w (i.vB h w) k
    let v := intVal w sg
    let fit (f : Int → Int → Int) (i : Iss) (h : Thread) (k : Nat) : FRes := fitInt w sg i.sat (f (v (a i h k)) (v (b i h k)))
    let sat (f : Int → Int → Int) (i : Iss) (h : Thread) (k : Nat) : FRes := satInt w sg (f (v (a i h k)) (v (b i h k)))
    let nat (f : Nat → Nat → Nat) (i : Iss) (h : Thread) (k : Nat) : FRes := (f (a i h k) (b i h k), 0)
    let int (f : Int → Int → Int) (i : Iss) (h : Thread) (k : Nat) : FRes := (intBits w (f (v (a i h k)) (v (b i h k))), 0)
    Lanewise (.vadd o) s tb o.p w (fit (· + ·)) ∧ Lanewise (.vsub o) s tb o.p w (fit (· - ·)) ∧
    Lanewise (.vmul o) s tb o.p w (fit (· * ·)) ∧ Lanewise (.vmulh o) s t o.p w (int fun x y => x * y / 2 ^ w) ∧
    Lanewise (.vmin o) s t o.p w (int min) ∧ Lanewise (.vmax o) s t o.p w (int max) ∧
    Lanewise (.vand o) s t o.p w (nat (· &&& ·)) ∧ Lanewise (.vor o) s t o.p w (nat (· ||| ·)) ∧ Lanewise (.vxor o) s t o.p w (nat (· ^^^ ·)) ∧
    Lanewise (.vsll o) s tb o.p w (fun i h k => fitInt w sg i.sat (v (a i h k) * 2 ^ (b i h k % w))) ∧
    Lanewise (.vsrl o) s t o.p w (nat fun x y => x / 2 ^ (y % w)) ∧
    Lanewise (.vsra o) s t o.p w (fun i h k => (intBits w (intVal w true (a i h k) / 2 ^ (b i h k % w)), 0)) ∧
    Lanewise (.vadds o) s tv o.p w (sat (· + ·)) ∧ Lanewise (.vsubs o) s tv o.p w (sat (· - ·)) ∧
    Lanewise (.vabs o) s (Traits.ofV o (fv o.d) (fv o.a) fnone) o.p w
      (fun i h k => (intBits w (if v (a i h k) < 0 then -v (a i h k) else v (a i h k)), 0)) ∧
    Lanewise (.vdot o) s tv o.p (4 * w) (fun i h k =>
      let p (n : Nat) : Int := v (a i h (4 * k + n)) * v (b i h (4 * k + n))
      satInt (4 * w) sg (intVal (4 * w) sg (elementOf (4 * w) (h.vreg i.d) k) + p 0 + p 1 + p 2 + p 3))

/-- R315, R316, R321: the floating-point forms, the special functions and the conversions, element by element. Where the spec leaves a
point open, the statement says the model's choice (notes/assumptions: 12). -/
def Obligations.VectorFloatingPoint : Prop :=
  (∀ (o : OpV) (s : State),
    let t := { Traits.ofV o (fv o.d) (fv o.a) (fv o.b) with sets := true, rounds := false }
    let tr := { t with rounds := true }
    let tu := { Traits.ofV o (fv o.d) (fv o.a) fnone with sets := true, rounds := false }
    let ty := o.t.toNat
    let w := (fmt ty).w
    let mode (i : Iss) : Nat := if i.rm = 0 then 1 else i.rm
    let a (i : Iss) (h : Thread) (k : Nat) : Nat := elementOf w (h.vreg i.a) k
    let b (i : Iss) (h : Thread) (k : Nat) : Nat := elementOf w (i.vB h w) k
    let d (i : Iss) (h : Thread) (k : Nat) : Nat := elementOf w (h.vreg i.d) k
    let two (f : Nat → Nat → Nat → FRes) (i : Iss) (h : Thread) (k : Nat) : FRes := f (mode i) (a i h k) (b i h k)
    let one (f : Nat → FRes) (i : Iss) (h : Thread) (k : Nat) : FRes := f (a i h k)
    Lanewise (.vfadd o) s tr o.p w (two (fpAdd ty)) ∧ Lanewise (.vfsub o) s tr o.p w (two (fpSub ty)) ∧
    Lanewise (.vfmul o) s tr o.p w (two (fpMul ty)) ∧ Lanewise (.vfdiv o) s tr o.p w (two (fpDiv ty)) ∧
    Lanewise (.vfsqrt o) s { tu with rounds := true } o.p w (fun i h k => fpSqrt ty (mode i) (a i h k)) ∧
    Lanewise (.vfmin o) s t o.p w (two fun _ => fpMinMax ty false) ∧ Lanewise (.vfmax o) s t o.p w (two fun _ => fpMinMax ty true) ∧
    Lanewise (.vfma o) s tr o.p w (fun i h k => fpFma ty (mode i) (a i h k) (b i h k) (d i h k)) ∧
    Lanewise (.vfnma o) s tr o.p w (fun i h k => fpFma ty (mode i) (a i h k ^^^ 2 ^ (w - 1)) (b i h k) (d i h k)) ∧
    Lanewise (.vfabs o) s tu o.p w (one (fpAbs ty)) ∧ Lanewise (.vfneg o) s tu o.p w (one (fpNeg ty)) ∧
    Lanewise (.vexp o) s tu o.p w (one (specialFp 0 ty)) ∧ Lanewise (.vexp2 o) s tu o.p w (one (specialFp 1 ty)) ∧
    Lanewise (.vlog o) s tu o.p w (one (specialFp 2 ty)) ∧ Lanewise (.vlog2 o) s tu o.p w (one (specialFp 3 ty)) ∧
    Lanewise (.vrcp o) s tu o.p w (one (specialFp 4 ty)) ∧ Lanewise (.vrsqrt o) s tu o.p w (one (specialFp 5 ty)) ∧
    Lanewise (.vsin o) s tu o.p w (one (specialFp 6 ty)) ∧ Lanewise (.vcos o) s tu o.p w (one (specialFp 7 ty)) ∧
    Lanewise (.vtanh o) s tu o.p w (one (specialFp 8 ty)) ∧ Lanewise (.vsigm o) s tu o.p w (one (specialFp 9 ty))) ∧
  ∀ (o : OpVC) (s : State),
    let dst := o.c.toNat
    let src := o.b.toNat
    let ws := 8 * typeBytes src
    let t : Traits := {
      m := o.m, guard := 0, d := fv o.d, a := fv o.a, b := fk o.b, imm := none, immB := false
      rounds := convertRounds dst src, sets := convertSets dst src, sat := decide (4 ≤ dst ∧ dst < 12), pol := .ignored, rep := true, narrow := false
      more := ([], []), power := true }
    Lanewise (.vcvt o) s t o.p (8 * typeBytes dst) fun i h k =>
      if k < 1024 / ws then convert dst src i.rm i.sat (elementOf ws (h.vreg i.a) k) else (0, 0)

/-- R316: the special results of the special functions in FP32; between them the model's value is free inside the error bound, which a
log entry names. Where the spec leaves a point open, the statement says the model's choice (notes/assumptions: 12). -/
def Obligations.SpecialFunctionValues : Prop :=
  let f (n a : Nat) : FRes := specialFp n 1 a
  let plus := 0x7F800000
  let minus := 0xFF800000
  let nan : FRes := (canon 1, fNV)
  (∀ n, n < 10 → ∀ a q, fpVal 1 a = .nan q → f n a = (canon 1, if q then fNV else 0)) ∧
  (∀ n, n < 2 → f n 0 = (0x3F800000, 0) ∧ f n 0x80000000 = (0x3F800000, 0) ∧ f n plus = (plus, 0) ∧ f n minus = (0, 0)) ∧
  (∀ n, n = 2 ∨ n = 3 → f n 0 = (minus, fDZ) ∧ f n 0x80000000 = (minus, fDZ) ∧ f n plus = (plus, 0) ∧ f n minus = nan ∧ f n 0x3F800000 = (0, 0)) ∧
  (f 4 0 = (plus, fDZ) ∧ f 4 0x80000000 = (minus, fDZ) ∧ f 4 plus = (0, 0) ∧ f 4 minus = (0x80000000, 0)) ∧
  (f 5 0 = (plus, fDZ) ∧ f 5 0x80000000 = (minus, fDZ) ∧ f 5 plus = (0, 0) ∧ f 5 minus = nan) ∧
  (f 6 0 = (0, 0) ∧ f 6 0x80000000 = (0x80000000, 0) ∧ f 7 0 = (0x3F800000, 0) ∧ f 6 plus = nan ∧ f 7 plus = nan ∧ f 6 minus = nan ∧ f 7 minus = nan) ∧
  (f 8 0 = (0, 0) ∧ f 8 0x80000000 = (0x80000000, 0) ∧ f 8 plus = (0x3F800000, 0) ∧ f 8 minus = (0xBF800000, 0)) ∧
  (f 9 0 = (0x3F000000, 0) ∧ f 9 plus = (0x3F800000, 0) ∧ f 9 minus = (0, 0)) ∧
  (∀ n a m e, n = 2 ∨ n = 3 ∨ n = 5 → fpVal 1 a = .fin true m e → 0 < m → f n a = nan) ∧
  (∀ a neg m e v, fpVal 1 a = .fin neg m e → 0 < m → integerOf neg m e = some v → -149 ≤ v → v ≤ 127 → f 1 a = roundFp 1 1 false 1 v) ∧
  (∀ a m e k, fpVal 1 a = .fin false m e → 0 < m → powerOf m e = some k → f 3 a = roundFv 1 1 (ofInt k)) ∧
  ∀ n a neg m e, n < 10 → fpVal 1 a = .fin neg m e → specialFinite n neg m e = none →
    let v := specialExact n neg m e
    (f n a).2.getLsbD 0 = true ∧
    ((f n a).1 = (roundFix 1 v).1 ∨ within v (specialBound n (decide (2 ^ 16 * fixOne < toFix false m e)) v) (f n a).1 = true)

/-- R311, R317, R318: compares into predicates, and operations on predicates. -/
def Obligations.VectorPredicates : Prop :=
  ∀ (o : OpV) (s : State),
    let t := Traits.ofV o (fp o.d) (fv o.a) (fv o.b)
    let tf := { t with sets := true }
    let tw := Traits.ofV o (fp o.d) (fx o.a) (fx o.b)
    let w := (intT o.t).1
    let sg := (intT o.t).2
    let ty := o.t.toNat
    let wf := (fmt ty).w
    let int (f : Int → Int → Prop) [∀ x y, Decidable (f x y)] (i : Iss) (h : Thread) (k : Nat) : Bool × Flags :=
      (decide (f (intVal w sg (elementOf w (h.vreg i.a) k)) (intVal w sg (elementOf w (i.vB h w) k))), 0)
    let fp_ (f : Nat → Nat → Bool × Flags) (i : Iss) (h : Thread) (k : Nat) : Bool × Flags :=
      f (elementOf wf (h.vreg i.a) k) (elementOf wf (i.vB h wf) k)
    let pred (i : Instr) (ta tb : Field) (f : Pred → Pred → Pred) : Prop :=
      Does i s (Traits.ofV o (fp o.d) ta tb) fun j h u => u.setP j.d (f (h.preg j.a) (h.preg j.b))
    let first (x : Pred) (r : Pred) : Prop := ∀ n, r.getLsbD n = (x.getLsbD n && decide (∀ k, k < n → x.getLsbD k = false))
    Predicatewise (.vcmpEq o) s t o.p w (int (· = ·)) ∧ Predicatewise (.vcmpNe o) s t o.p w (int (· ≠ ·)) ∧
    Predicatewise (.vcmpLt o) s t o.p w (int (· < ·)) ∧ Predicatewise (.vcmpLe o) s t o.p w (int (· ≤ ·)) ∧
    Predicatewise (.vcmpGt o) s t o.p w (int fun x y => y < x) ∧ Predicatewise (.vcmpGe o) s t o.p w (int fun x y => y ≤ x) ∧
    Predicatewise (.vwhile o) s tw o.p w (fun i h k =>
      let v (x : Word) : Int := if sg then x.toInt else x.toNat
      (decide (v (h.x i.a) + k < v (i.bval h)), 0)) ∧
    Predicatewise (.vfcmpEq o) s tf o.p wf (fp_ (fpCompare ty 0)) ∧
    Predicatewise (.vfcmpNe o) s tf o.p wf (fp_ fun x y => (!(fpCompare ty 0 x y).1, (fpCompare ty 0 x y).2)) ∧
    Predicatewise (.vfcmpLt o) s tf o.p wf (fp_ (fpCompare ty 1)) ∧ Predicatewise (.vfcmpLe o) s tf o.p wf (fp_ (fpCompare ty 2)) ∧
    Predicatewise (.vfcmpGt o) s tf o.p wf (fp_ fun x y => fpCompare ty 1 y x) ∧
    Predicatewise (.vfcmpGe o) s tf o.p wf (fp_ fun x y => fpCompare ty 2 y x) ∧
    Predicatewise (.vfcmpUn o) s tf o.p wf (fp_ (fpCompare ty 3)) ∧
    pred (.pand o) (fp o.a) (fp o.b) (· &&& ·) ∧ pred (.por o) (fp o.a) (fp o.b) (· ||| ·) ∧ pred (.pxor o) (fp o.a) (fp o.b) (· ^^^ ·) ∧
    pred (.pandn o) (fp o.a) (fp o.b) (fun x y => x &&& ~~~y) ∧ pred (.pnot o) (fp o.a) fnone (fun x _ => ~~~x) ∧
    pred (.pall o) fnone fnone (fun _ _ => .allOnes 128) ∧
    (∃ r, Does (.pfirst o) s (Traits.ofV o (fp o.d) (fp o.a) fnone) (fun j _ u => u.setP j.d r) ∧
      first (s.hand.preg (issued s (Traits.ofV o (fp o.d) (fp o.a) fnone)).a) r) ∧
    Does (.pcnt o) s (Traits.ofV o (fx o.d) (fp o.a) fnone) (fun j h u =>
      u.setX j.d (.ofNat 64 ((List.range 128).filter fun n => (h.preg j.a).getLsbD n).length))

/-- R319: the permutes. Bytes of v[A] and v[B] are numbered from the lowest. R259, R320: the reductions of the active elements. -/
def Obligations.VectorPermutesAndReductions : Prop :=
  (∀ (o : OpV) (s : State),
      let t := Traits.ofV o (fv o.d) (fv o.a) (fv o.b)
      let tx := Traits.ofV o (fv o.d) (fv o.a) (fx o.b)
      let t1 := Traits.ofV o (fv o.d) (fv o.a) fnone
      let w := 8 * 2 ^ o.t.toNat
      let a (i : Iss) (h : Thread) (k : Nat) : Nat := if k < 128 then elementOf 8 (h.vreg i.a) k else 0
      let b (i : Iss) (h : Thread) (k : Nat) : Nat := if k < 128 then elementOf 8 (i.vB h 8) k else 0
      let n (i : Iss) (h : Thread) : Nat := (i.bval h).toNat
      let put (f : Iss → Thread → Nat → Nat) (i : Iss) (h : Thread) (k : Nat) : FRes := (f i h k, 0)
      Lanewise (.vperm o) s t o.p 8 (put fun i h k => a i h (b i h k)) ∧
      Lanewise (.vbcast o) s (Traits.ofV o (fv o.d) fnone (fx o.b)) o.p w (put fun i h _ => (i.bval h).toNat) ∧
      Lanewise (.vslu o) s tx o.p 8 (put fun i h k => if n i h ≤ k then a i h (k - n i h) else 0) ∧
      Lanewise (.vsld o) s tx o.p 8 (put fun i h k => a i h (k + n i h)) ∧
      Lanewise (.vzip o) s t o.p 8 (put fun i h k => if k % 2 = 0 then a i h (k / 2) else b i h (k / 2)) ∧
      Lanewise (.vunzip o) s t o.p 8 (put fun i h k => if k < 64 then a i h (2 * k) else b i h (2 * k - 128)) ∧
      Lanewise (.vmov o) s t1 o.p 8 (put a) ∧
      Does (.vmvx o) s (Traits.ofV o (fx o.d) (fv o.a) (fx o.b)) (fun i h u =>
        u.setX i.d (.ofNat 64 (if n i h < 1024 / w then elementOf w (h.vreg i.a) (n i h) else 0))) ∧
      (let tv := Traits.ofV o (fv o.d) (fx o.a) (fx o.b)
       let i := issued s tv
       (1024 / w ≤ n i s.hand → Does (.vmvv o) s tv fun _ _ u => u) ∧
       (n i s.hand < 1024 / w → ∃ r, Does (.vmvv o) s tv (fun i _ u => u.setV i.d r) ∧
        ∀ k, k < 1024 / w → elementOf w r k = if k = n i s.hand then (s.hand.x i.a).toNat % 2 ^ w else elementOf w (s.hand.vreg i.d) k)) ∧
      (∃ r, Does (.vsel o) s t (fun i _ u => u.setV i.d r) ∧ let i := issued s t
        ∀ k, k < 128 → elementOf 8 r k = if isActive s.hand o.p 8 k then a i s.hand k else b i s.hand k) ∧
      (∃ r, Does (.vcmpr o) s t1 (fun i _ u => u.setV i.d r) ∧ let i := issued s t1
        let chosen := (List.range 128).filter fun k => isActive s.hand o.p 8 k
        ∀ k, k < 128 → elementOf 8 r k = match chosen[k]? with
          | some j => a i s.hand j
          | none => 0) ∧
      Does (.vlen o) s (Traits.ofV o (fx o.d) fnone fnone) (fun i _ u => u.setX i.d 1024)) ∧
  (∀ (o : OpV) (s : State),
      let t := Traits.ofV o (fx o.d) (fv o.a) fnone
      let w := (intT o.t).1
      let sg := (intT o.t).2
      let ext (v : Nat) : Word := .ofInt 64 (intVal w sg v)
      let live := (List.range (1024 / w)).filter fun k => isActive s.hand o.p w k
      let el (k : Nat) : Nat := elementOf w (s.hand.vreg (issued s t).a) k
      let bits_ (i : Instr) (f : Nat → Nat → Nat) (z : Nat) : Prop :=
        Does i s t fun j _ u => u.setX j.d (ext (live.foldl (fun r k => f r (el k)) z))
      let least (le : Int → Int → Prop) (i : Instr) (empty : Nat) : Prop :=
        ∃ r, Does i s t (fun j _ u => u.setX j.d (.ofInt 64 r)) ∧ (live = [] → r = intVal w sg empty) ∧
          (live ≠ [] → (∃ k ∈ live, r = intVal w sg (el k)) ∧ ∀ k ∈ live, le r (intVal w sg (el k)))
      let ty := o.t.toNat
      let wf := (fmt ty).w
      let tf := { t with sets := true }
      let tree (i : Instr) (ts : Traits) (empty : Nat) (f : Nat → Nat → Nat → FRes) : Prop :=
        Does i s ts fun j h u =>
          let r := treeGo (f (if j.rm = 0 then 1 else j.rm)) 7 (activeLanes h o.p wf j.a) 0
          putX j (.ofNat 64 (r.1.getD empty)) r.2 u
      Does (.vredadd o) s t (fun j _ u => u.setX j.d (.ofInt 64 (live.foldl (fun r k => r + intVal w sg (el k)) 0))) ∧
      least (· ≤ ·) (.vredmin o) (intBits w (intMax w sg)) ∧ least (fun x y => y ≤ x) (.vredmax o) (intBits w (intMin w sg)) ∧
      bits_ (.vredand o) (· &&& ·) (2 ^ w - 1) ∧ bits_ (.vredor o) (· ||| ·) 0 ∧ bits_ (.vredxor o) (· ^^^ ·) 0 ∧
      tree (.vfredadd o) { tf with rounds := true } 0 (fun m => fpAdd ty m) ∧
      tree (.vfredmin o) { tf with rounds := false } (fmt ty).inf (fun _ => fpMinMax ty false) ∧
      tree (.vfredmax o) { tf with rounds := false } (2 ^ (wf - 1) + (fmt ty).inf) (fun _ => fpMinMax ty true))

/-- R322 to R324: the vector loads and stores: nothing where no element is active, the own scratchpad element by element, and the
accesses that go elsewhere, whose result is then outstanding or which posting counters count. -/
def Obligations.VectorMemory : Prop :=
  ∀ (o : OpVM) (s : State), quiet s s.cur = true → s.hand.volatiles = 0 →
    let c := coreOf s.cur
    let form (b : Field) : Traits := Traits.ofVM o (fv o.d) (fx o.a) b
    let size (k : VKind) : Nat := if k = .contiguous then 1 else 2 ^ o.e.toNat
    ∀ l : Instr × Instr × VKind × Field,
      l ∈ [(.vld o, .vst o, .contiguous, fnone), (.vlds o, .vsts o, .strided, fx o.b), (.vldx o, .vstx o, .indexed, fv o.b)] →
    let k := l.2.2.1
    let t := form l.2.2.2
    let i := issued s t
    let e := size k
    let addr (n : Nat) : Word := elementAddr i s.hand k e n
    let live (n : Nat) : Prop := n < 128 / e ∧ isActive s.hand o.p (8 * e) n = true
    let els := activeAddrs i s.hand k o.p e
    let noted (rs : List (Nat × Word × Target)) (w : State) : State :=
      noteFallback i (decide (i.pol ≠ 0) && (o.v || rs.all fun x => x.2.2.scratch)) w
    -- no active element
    ((∀ n, ¬live n) → Acts l.1 s t (fun i _ u => noteFallback i (decide (i.pol ≠ 0)) u) ∧
      Acts l.2.1 s t (fun i _ u => noteFallback i (decide (i.pol ≠ 0)) u)) ∧
    -- the own scratchpad
    (∀ off : Nat → Nat, o.v = false → (∃ n, live n) →
      (∀ n, live n → addr n = .ofNat 64 (2 ^ 60 + off n) ∧ off n + e ≤ Config.scratchBytes ∧ off n % e = 0 ∧ guarded (s.core c) (off n) e = false) →
      (k = .contiguous → (s.hand.x i.a).toNat % 8 = 0 ∧ bits (s.hand.x i.a) 63 19 = 2 ^ 41) →
      ((∀ n, live n → scratchPoisoned (s.core c) (off n) e = false) → ∃ r : Line,
        Acts l.1 s t (fun i _ u => (noteFallback i (decide (i.pol ≠ 0)) u).modThread s.cur fun h => h.setV i.d r) ∧
        ∀ n, n < 128 / e → (live n → elementOf (8 * e) r n = leNat (Memory.read (s.core c).scratch (off n) e)) ∧
          (¬live n → elementOf (8 * e) r n = elementOf (8 * e) (s.hand.vreg i.d) n)) ∧
      ∃ u : State, (performs s t = true → exec l.2.1 s = .next (after s t (.done u))) ∧
        (∀ a, (∀ n, live n → ¬(off n ≤ a ∧ a < off n + e)) → Memory.get (u.core c).scratch a = Memory.get (s.core c).scratch a) ∧
        ∀ n j, live n → j < e → (∀ m, live m → n < m → ¬(off m ≤ off n + j ∧ off n + j < off m + e)) →
          Memory.get (u.core c).scratch (off n + j) = .ofNat 8 (elementOf 8 (s.hand.vreg i.d) (n * e + j))) ∧
    -- wherever the accesses lead
    (∀ rs acc, resolveAll (begun s t) s.cur .load e els = .ok rs →
      (if k = .contiguous then baseMisaligned (begun s t) s.cur .load o.v (s.hand.x i.a) (!els.isEmpty) else misaligned o.v e rs) = none →
      placeAll (begun s t) s.cur (accesses o.v k e rs) = .ok acc → acc ≠ [] →
      (o.v = false → Ends l.1 s t fun _ _ _ => vecLoad i acc (noted rs (begun s t))) ∧
      (o.v = false → (acc.any fun x => !x.1.own) = true → ∃ u, vecLoad i acc (noted rs (begun s t)) = .done u) ∧
      (o.v = true → Ends l.1 s t fun _ _ _ => vecLoadVol i acc (noted rs (begun s t)))) ∧
    (∀ rs acc, resolveAll (begun s t) s.cur .store e els = .ok rs →
      (if k = .contiguous then baseMisaligned (begun s t) s.cur .store o.v (s.hand.x i.a) (!els.isEmpty) else misaligned o.v e rs) = none →
      placeAll (begun s t) s.cur (accesses o.v k e rs) = .ok acc → acc ≠ [] →
      (o.v = false → ∃ u, vecStore i acc (noted rs (begun s t)) = .done u ∧ Acts l.2.1 s t fun _ _ _ => u) ∧
      (o.v = true → Ends l.2.1 s t fun _ _ _ =>
        -- one that goes on waiting for a load has checked the guard record, if its wait field asks for it
        let r := vecStoreVol i acc (noted rs (begun s t))
        if o.w = 0 then r else r.noteChecked s.cur)) ∧
    -- where they stop
    (∀ f, resolveAll (begun s t) s.cur .load e els = .error f → Ends l.1 s t fun _ _ u => .trap f u) ∧
    (∀ f, resolveAll (begun s t) s.cur .store e els = .error f → Ends l.2.1 s t fun _ _ u => .trap f u)

/-! ## Matrix unit -/

/-- R331, R332, R335, R341, R346 to R350: a command accepted into the dependency table, the move of a tile's bytes, leases and status.
Where the spec leaves a point open, the statement says the model's choice (notes/assumptions: 45 to 47). -/
def Obligations.MatrixCommandsAndLeases : Prop :=
  (∀ (o : OpR) (s : State),
    let core := coreOf s.cur
    let free := (s.core core).deps.length < 16
    let tc := { Traits.ofR o (fx o.d) (fx o.a) (fx o.b) with imm := none, group := (3, 1, 1) }
    let tz := Traits.ofR o (fa o.d) (fk o.a) (fk o.b)
    let tm := Traits.ofR o (fa o.d) (fx o.a) (fx o.b)
    let tw := { Traits.ofR o (fk o.d) (fx o.a) (fk o.b) with pol := .taken }
    let tv := Traits.ofR o (fv o.d) (fa o.a) (fx o.b)
    let tl := Traits.ofR o (fx o.d) (fx o.a) (fk o.b)
    let tr := Traits.ofR o (fk o.d) (fx o.a) (fk o.b)
    let ts := { Traits.ofR o (fx o.d) (fx o.a) (fx o.b) with imm := none }
    -- a command from registers: refused, or accepted
    let takes (i : Instr) (t : Traits) (c : BitVec 512) : Prop :=
      (∀ f, cmdFault s s.cur c = some f → Ends i s t fun _ _ u => .trap f u) ∧
      (cmdFault s s.cur c = none → free → Acts i s t fun j _ u => acceptCommand u j c) ∧
      (cmdFault s s.cur c = none → ¬free → Ends i s t fun _ _ u => .wait .unit u)
    let x (n : Nat) : Nat := (s.hand.x n).toNat
    let c := issued s tc
    let m := issued s tm
    let b := m.bval s.hand
    let p := s.hand.x (issued s tw).a
    let v := issued s tv
    let sel := v.bval s.hand
    let badSel := if bit sel 7 then bits sel 63 10 ≠ 0 ∨ bits sel 6 5 ≠ 0 else bits sel 63 8 ≠ 0
    let al := s.hand.x (issued s tl).a
    let ar := s.hand.x (issued s tr).a
    let as_ := s.hand.x (issued s ts).a
    let ready := readyMask (s.core core) as_
    (c.d ≤ 28 → c.a ≤ 30 → c.b ≤ 30 → takes (.mxc o) tc (.ofNat 512 (x c.d + x (c.d + 1) * 2 ^ 64 + x (c.d + 2) * 2 ^ 128 + x (c.d + 3) * 2 ^ 192 +
      x c.a * 2 ^ 256 + x (c.a + 1) * 2 ^ 320 + x c.b * 2 ^ 384 + x (c.b + 1) * 2 ^ 448))) ∧
    takes (.mxz o) tz (.ofNat 512 (wholeCmd 1 (issued s tz).d 64 0 false)) ∧
    (bits b 31 28 = 0 → bits b 63 39 = 0 → ∀ l : Instr × Nat, l ∈ [(.mxld o, 2), (.mxst o, 3)] →
      takes l.1 tm (.ofNat 512 (wholeCmd l.2 m.d (if bits b 27 24 = 0 then 32 else 64) (bits b 27 24) (bit b 38) + bits b 37 32 * 2 ^ 122 +
        (s.hand.x m.a).toNat * 2 ^ 256 + bits b 23 0 * 2 ^ 320))) ∧
    (p.toNat % 64 ≠ 0 → Ends (.mxwl o) s tw fun _ _ u => .trap (mkFault .alignment 0 p) u) ∧
    (p.toNat % 64 = 0 → s.hand.out.length < 16 → free → s.onWay (isDirectWrite s.cur) = false → ∀ w bs,
      readBytes (notePolicy (issued s tw) [p] (begun s tw)) s.cur p 64 .load false gkLoad (issued s tw).pc = (w, .ok bs) → w.linkHeld = false → cmdFault w s.cur (.ofNat 512 (leNat bs)) = none →
      Acts (.mxwl o) s tw fun j _ _ =>
        let q := expect w j .none 1 false
        answer (acceptCommand q.1 j (.ofNat 512 (leNat bs))) (fromThread s.cur) s.cur q.2 .ack none) ∧
    (s.hand.stage = .sent → s.hand.out = [] →
      Acts (.mxmv o) s tv (fun _ _ u => acquireCore u core) ∧ Acts (.mxstat o) s ts (fun _ _ u => acquireCore u core)) ∧
    (s.hand.stage ≠ .sent → badSel → Ends (.mxmv o) s tv fun _ _ u => .trap badOperand u) ∧
    (s.hand.stage ≠ .sent → ¬badSel → holdsTile s s.cur v.a = false → Ends (.mxmv o) s tv fun _ _ u => .trap denied u) ∧
    (s.hand.stage ≠ .sent → ¬badSel → holdsTile s s.cur v.a = true → s.hand.out.length < 16 →
      Ends (.mxmv o) s tv fun j h u => .wait .results ((kickMatrix ((expect u j (.regs [] [j.d]) 1 false).1.modCore core fun k =>
        { k with mxReads := k.mxReads ++ [⟨s.cur, h.nextId, j.d, j.a, sel, k.cmdId⟩] }) core).stage s.cur .sent)) ∧
    (bits al 63 5 = 0 → Acts (.mxls o) s tl fun j h u =>
      let w := requestTiles core s.cur h.ctx.ids.job h.ctx.ids.launch al (bit al 4) 4 u
      w.modThread s.cur fun t => t.setX j.d (.ofNat 64 (heldMask w s.cur))) ∧
    (bits ar 63 4 = 0 → Acts (.mxlr o) s tr fun _ _ u => u.modCore core fun k =>
      { k with acc := tmap (fun n a => if bit ar n then { a with holders := a.holders.filter (· != s.cur) } else a) k.acc }) ∧
    (s.hand.stage ≠ .sent → bits as_ 63 6 ≠ 0 → Ends (.mxstat o) s ts fun _ _ u => .trap badOperand u) ∧
    (s.hand.stage ≠ .sent → bits as_ 63 6 = 0 → bit as_ 4 = true → ready ≠ .ofNat 4 (bits as_ 3 0) →
      Ends (.mxstat o) s ts fun _ _ u => .wait (.ready (.ofNat 4 (bits as_ 3 0))) u) ∧
    (s.hand.stage ≠ .sent → bits as_ 63 6 = 0 → (bit as_ 4 = false ∨ ready = .ofNat 4 (bits as_ 3 0)) → s.hand.eng = [] →
      s.hand.out.length < 16 →
      Ends (.mxstat o) s ts fun j _ u =>
        let cleared := if bit as_ 5 then u.modCore core fun k =>
          { k with acc := tmap (fun n a => if bit as_ n && a.holders.contains s.cur then { a with flags := 0 } else a) k.acc } else u
        let q := expect cleared j (.regs [j.d] []) 1 false
        .wait .results ((answer q.1 (fromThread s.cur) s.cur q.2
          (.regs [(j.d, .ofNat 64 (statusWord (s.core core) s.cur as_))] [] 0) none).stage s.cur .sent))) ∧
  -- what acceptance does, and what a released tile is
  (∀ (s : State) (i : Iss) (c : BitVec 512),
    let r := (acceptCommand s i c).core (coreOf i.g)
    let k := s.core (coreOf i.g)
    (∃ e, r.deps = k.deps ++ [e] ∧ e.cmd = c ∧ e.gti = i.g ∧ e.pc = i.pc ∧ e.job = (s.thread i.g).ctx.ids.job) ∧
    (tget Acc.zero r.acc (mxTile c)).pend = (tget Acc.zero k.acc (mxTile c)).pend + 1 ∧
    ((acceptCommand s i c).thread i.g).engines = (s.thread i.g).engines + 1)

/-- R352: the quantiser's register, and the messages of its outliers. -/
def Obligations.QuantiserBlocksAndOutliers : Prop :=
  (∀ (o : OpR) (s : State),
    let t := { Traits.ofR o (fv o.d) (fv o.a) (fx o.b) with group := (0, 0, 1) }
    let i := issued s t
    let b := i.bval s.hand
    let b1 := s.hand.x (i.b + 1)
    let hoff := bits b 38 20
    let target := bits b 63 45
    let src := if bit b 0 then 3 else 1
    let fmt := if bit b 1 then 13 else 12
    let thr := bits b 19 12
    let w := if bit b 0 then 16 else 32
    let els := (List.range 32).map fun k => elementOf w (s.hand.vreg i.a) k
    let xs := els.map (fpVal src)
    let n := (xs.filter (outlier thr)).length
    let c := coreClass (coreOf s.cur) target
    let good := i.b ≤ 30 ∧ bits b 11 2 = 0 ∧ bits b1 63 32 = 0 ∧ offJob s s.cur target = false ∧ hoff + 256 ≤ Config.scratchBytes ∧ hoff % 8 = 0
    (good → n = 0 → Does (.qnt o) s t fun j _ u => u.setV j.d (qntBlock fmt thr xs)) ∧
    (good → n ≠ 0 → quiet s s.cur = true → Acts (.qnt o) s t fun j h u =>
      (sendOutliers j h.ctx.ids.job target (bits b 44 39) hoff (bits b1 31 0) thr src c 0 0 els (u.modThread s.cur (committed false))).modThread s.cur
        fun v => v.setV j.d (qntBlock fmt thr xs))) ∧
  ∀ (fmt thr : Nat) (xs : List Fv), fmt = 12 ∨ fmt = 13 → xs.length = 32 → thr < 256 →
    let r := qntBlock fmt thr xs
    elementOf 8 r 124 = (xs.filter (outlier thr)).length ∧ elementOf 8 r 127 < 255 ∧ elementOf 8 r 126 = 0 ∧
    ∀ k x, xs[k]? = some x → outlier thr x = true ∨ x.isNan = true →
      elementOf (if fmt = 12 then 8 else 16) r k = 0

/-- R260, R261, R353: the exact accumulator: sums without loss, and one rounding at the end. -/
def Obligations.ExactAccumulator : Prop :=
  (∀ (o : OpR) (s : State),
    let tz := Traits.ofR o (fk o.d) (fk o.a) (fk o.b)
    let tf := { Traits.ofR o (fk o.d) (fx o.a) (fx o.b) with sets := true }
    let ta := { Traits.ofR o (fk o.d) (fx o.a) (fk o.b) with sets := true }
    let tr := { Traits.ofR o (fx o.d) (fk o.a) (fk o.b) with rounds := true, sets := true }
    let tg := { Traits.ofR o (fc o.d) (fk o.a) (fk o.b) with sets := true }
    let neg := o.d.getLsbD 0
    let flags (i : Iss) (f : Flags) (u : Thread) : Thread := if i.nf then u else u.orFlags f
    Does (.xaz o) s tz (fun _ _ u => { u with xa := Xa.zero }) ∧
    Does (.xafm o) s tf (fun i h u =>
      let a := fpVal 0 (h.x i.a).toNat
      let b := fpVal 0 (i.bval h).toNat
      let p := exactMul a b
      let r := h.xa.add (if neg then p.neg else p)
      flags i (r.2 ||| if a = .nan true ∨ b = .nan true ∨ (p.isNan = true ∧ a.isNan = false ∧ b.isNan = false) then fNV else 0) { u with xa := r.1 }) ∧
    Does (.xaadd o) s ta (fun i h u =>
      let a := fpVal 0 (h.x i.a).toNat
      let r := h.xa.add (if neg then a.neg else a)
      flags i (r.2 ||| if a = .nan true then fNV else 0) { u with xa := r.1 }) ∧
    Does (.xarnd o) s tr (fun i h =>
      let v := h.xa.value
      let r := roundFv 0 (if i.rm = 0 then 1 else i.rm) v.1
      putX i (.ofNat 64 r.1) (r.2 ||| v.2)) ∧
    Does (.xasgn o) s tg (fun i h u =>
      let v := h.xa.value.1
      flags i (if v.isNan then fNV else 0) (u.setC i.d (match fpOrder v (.fin false 0 0) with
        | some .lt => o.b == 0
        | some .eq => o.b == 1
        | some .gt => o.b == 2
        | none => false)))) ∧
  (∀ (x : Xa) (n : Bool) (m : Nat) (e : Int), -2148 ≤ e →
    let d : Int := (m : Int) * 2 ^ (e + 2148).toNat
    let y := x.int + if n then -d else d
    let r := x.add (.fin n m e)
    r.1.nan = x.nan ∧ r.1.pinf = x.pinf ∧ r.1.ninf = x.ninf ∧ (r.1.int - y) % 2 ^ 4220 = 0 ∧
    (-2 ^ 4219 ≤ y → y < 2 ^ 4219 → r.1.int = y ∧ r.1.ovf = x.ovf ∧ r.2 = 0) ∧
    (¬(-2 ^ 4219 ≤ y ∧ y < 2 ^ 4219) → r.1.ovf = true ∧ r.2 = fXOV)) ∧
  (∀ a b : Nat, ∀ n m e, exactMul (fpVal 0 a) (fpVal 0 b) = .fin n m e → -2148 ≤ e) ∧
  Xa.zero.int = 0 ∧ Xa.zero.value = (.fin false 0 (-2148), 0)

/-! ## Sequence memory and Gaussian messages -/

/-- R145 to R149, R356 to R358, R362: the cursor operations, released and performed at the descriptor's home, whose return is an acquire;
and the reads of a descriptor. Where the spec leaves a point open, the statement says the model's choice (notes/assumptions: 48, 107,
111). -/
def Obligations.SequenceCursors : Prop :=
  ∀ (o : OpR) (s : State),
    let t := Traits.ofR o (fx o.d) (fx o.a) (fx o.b)
    let tf := { t with imm := none, group := (0, 0, 1) }
    let i := issued s t
    let j := issued s tf
    let core := coreOf s.cur
    let b := i.bval s.hand
    let f := (s.hand.x j.b).toNat
    let opened (c : SqAt) (u : State) : State := (u.noteEntries c.core c.job c.addr).modThread s.cur (committed false)
    let reads (n : Instr) (bad : Bool) (good : Line → Bool) (v : Line → Word) : Prop :=
      (∀ c, sqAt (begun s t) i = .ok c → bad = false → s.hand.stage = .start → s.hand.out = [] → s.onWay (isDirectWrite s.cur) = false → ∀ w bs,
        readBytes ((begun s t).noteEntries c.core c.job c.addr) s.cur c.ptr 128 .load false gkLoad i.pc = (w, .ok bs) →
        w.linkHeld = false → good (lineOf bs) = true → Ends n s t fun _ _ _ =>
          let q := expect w i (.regs [i.d] []) 1 false c.ptr
          .wait .results ((answer q.1 (fromSlice c.gslice) s.cur q.2 (.regs [(i.d, v (lineOf bs))] [] 0) none).stage s.cur .sent)) ∧
      (s.hand.stage = .sent → s.hand.out = [] → Acts n s t fun _ _ u => acquireCore u core)
    -- the answer of a cursor operation has come
    ((s.hand.stage = .sent ∨ ∃ x, s.hand.stage = .answered x) → s.hand.out = [] →
      Acts (.sqsamp o) s t (fun _ _ u => acquireCore u core) ∧ Acts (.sqplay o) s t (fun _ _ u => acquireCore u core) ∧
      Acts (.sqtrunc o) s t (fun _ _ u => acquireCore u core) ∧
      (j.b ≤ 30 → Acts (.sqframe o) s tf (fun _ _ u => acquireCore u core))) ∧
    -- a cursor operation of a thread with nothing outstanding reaches its home
    (quiet s s.cur = true → ∀ c, sqAt (begun s t) i = .ok c → b.toNat ≤ sqLast → linkDown (opened c (begun s t)) (moduleOf core) c.module = false →
      ∀ v d, sqFetch ((opened c (begun s t)).overLinks (moduleOf core) c.module) c = (v, .ok d) → v.linkHeld = false →
      ∀ l : Instr × (SqAt → Nat → Word → State → SqRes), l ∈ [(.sqsamp o, fun c id pc s => sqSample c id pc b.toNat s),
        (.sqplay o, fun c _ _ s => sqSetPlayback c b.toNat s), (.sqtrunc o, fun c _ _ s => sqTruncate c b.toNat s)] →
      (sqBusy d = true → sqBad d = false → Ends l.1 s t fun _ _ _ => .wait .unit v) ∧
      (sqBusy d = false ∨ sqBad d = true →
        let q := expect v i (.regs [i.d] []) 1 false c.ptr
        let a := l.2 c q.2 i.rpc q.1
        a.1.linkHeld = false → Ends l.1 s t fun _ _ _ => .wait .answer (match a.2 with
          | .ok none => a.1
          | .ok (some x) => sqAnswer a.1 c q.2 i.rpc (.ok x)
          | .error e => sqAnswer a.1 c q.2 i.rpc (.error e)))) ∧
    (quiet s s.cur = true → j.b ≤ 30 → f ≤ sqLast → ∀ c, sqAt (begun s tf) j = .ok c →
      linkDown (opened c (begun s tf)) (moduleOf core) c.module = false → Ends (.sqframe o) s tf fun _ h u =>
        let q := expect (opened c u) j (.regs [j.d] []) 1 false c.ptr
        .wait .answer (q.1.send (fromThread s.cur) (atSlice c.gslice)
          (.frameAdmission ⟨s.cur, q.2, c.gslice, c.job, c.user, c.addr, f, h.x (j.b + 1), j.rpc, c.ptr, s.cur⟩))) ∧
    reads (.sqcur o) (decide (bits b 63 2 ≠ 0) || bits b 1 0 == 3) (fun _ => true) (fun d => .ofNat 64 (match bits b 1 0 with
      | 0 => sqGen d
      | 1 => sqPlay d
      | _ => sqTepoch d + sqFqTail d * 2 ^ 16 + sqFqHead d * 2 ^ 32 + bitNat (sqLate d) * 2 ^ 48 + bitNat (sqBusy d) * 2 ^ 49 +
          bitNat (sqV d) * 2 ^ 50)) ∧
    reads (.sqslot o) (decide (sqLast < b.toNat)) (fun d => !sqBad d) (fun d =>
      .ofNat 64 (bitNat (decide (b.toNat < sqSink d)) * 2 ^ 63 + sqPver d b.toNat * 2 ^ 32 + sqSlot d b.toNat)) ∧
    -- a descriptor that names no sequence
    ∀ c, sqAt (begun s t) i = .ok c → b.toNat ≤ sqLast → s.hand.stage = .start → s.hand.out = [] → s.onWay (isDirectWrite s.cur) = false → ∀ w bs,
      readBytes ((begun s t).noteEntries c.core c.job c.addr) s.cur c.ptr 128 .load false gkLoad i.pc = (w, .ok bs) →
      w.linkHeld = false → sqBad (lineOf bs) = true → Acts (.sqslot o) s t fun _ _ _ => returnFault i (.regs [i.d] []) (sqFault kSeqDesc (s.hand.x i.a)) w

/-- R360, R361, R363 to R365: the rotation of a row, and one block of an attention step. Where the spec leaves a point open, the
statement says the model's choice (notes/assumptions: 44, 49). -/
def Obligations.SequenceEngine : Prop :=
  (∀ (o : OpR) (s : State), s.hand.out.length < 16 →
    let t := { Traits.ofR o (fv o.d) (fv o.a) (fx o.b) with imm := none, sets := true, group := (0, 0, 1) }
    let i := issued s t
    let p := s.hand.x i.b
    let q := s.hand.x (i.b + 1)
    let cfg := bits q 15 0
    let w := (fmt (kfmtType (rotKfmt cfg))).w
    let bad := bits p 63 48 ≠ 0 ∨ sqLast < bits p 47 0 ∨ bits q 63 29 ≠ 0 ∨ bit q 16 = true ∨ rotKfmt cfg = 3
    (i.b ≤ 30 → bad → Ends (.sqrot o) s t fun _ _ u => .trap badOperand u) ∧
    (i.b ≤ 30 → ¬bad → Acts (.sqrot o) s t fun i h u =>
      let r := rotate cfg (bits p 47 0) (bits q 28 16) (lanes w (h.vreg i.a))
      returning i (.regs [] [i.d]) (.regs [] [(i.d, ofLanes w r.1)] (if i.nf then 0 else r.2)) u)) ∧
  (∀ (o : OpR) (s : State),
    let t := { Traits.ofR o (fv o.d) (fx o.a) (fx o.b) with group := (3, 0, 0) }
    let i := issued s t
    let b := i.bval s.hand
    let dest : Dest := .regs [] [i.d, i.d + 1, i.d + 2, i.d + 3]
    let layer := bits b 7 0
    let head := bits b 13 8
    let idle (u : State) : State := u.modThread s.cur fun h => { h with att := none }
    (i.d ≤ 28 → s.hand.att = none → s.hand.stage = .sent → s.hand.out = [] → Acts (.atts o) s t fun _ _ u => acquireCore u (coreOf s.cur)) ∧
    -- the snapshot
    (i.d ≤ 28 → s.hand.att = none → s.hand.stage = .start → s.hand.out = [] → bits b 15 14 = 0 → bits b 63 48 = 0 →
      s.onWay (isDirectWrite s.cur) = false → ∀ c, sqAt (begun s t) i = .ok c → ∀ u bs,
      readBytes ((begun s t).noteEntries c.core c.job c.addr) s.cur c.ptr 128 .load true gkLoad i.pc = (u, .ok bs) → u.linkHeld = false →
      let d := lineOf bs
      let bad := 1 < rotKfmt (sqRotcfg d) ∨ sqLayers d ≤ layer ∨ min (sqKrow d) (sqVrow d) ≤ head ∨ sqPages d ≤ bits b 47 16
      (sqBad d = true → Acts (.atts o) s t fun _ _ _ => returnFault i dest (attFault i (sqFault kSeqDesc c.ptr)) (idle u)) ∧
      (sqBad d = false → bad → Acts (.atts o) s t fun _ _ _ => returnFault i dest (attFault i badOperand) (idle u)) ∧
      (sqBad d = false → ¬bad → Ends (.atts o) s t fun _ _ _ => .wait .unit ((u.stage s.cur .sent).modThread s.cur fun h =>
        { h with att := some ⟨d, c.gslice, List.range' (bits b 47 16 * sqPs d) (sqPs d), ⟨[], [], []⟩⟩ }))) ∧
    -- a slot of the page
    (∀ a slot rest, i.d ≤ 28 → s.hand.att = some a → a.todo = slot :: rest →
      let r := attSlot i (sliceModule a.gslice) s.hand.ctx.ids.job a.desc layer head slot a.read (begun s t)
      r.1.linkHeld = false →
      (r.2.2 = none → Ends (.atts o) s t fun _ _ _ =>
        .wait .unit (r.1.modThread s.cur fun h => { h with att := some { a with todo := rest, read := r.2.1 } })) ∧
      (∀ e, r.2.2 = some e → Acts (.atts o) s t fun _ _ _ =>
        returnFault i dest (attFault i e) (dropPins a.gslice r.2.1.pins (idle r.1)))) ∧
    -- the page's end
    (∀ a, i.d ≤ 28 → s.hand.att = some a → a.todo = [] → Ends (.atts o) s t fun i h u =>
      let cfg := sqRotcfg a.desc
      let r := attBlock (kfmtType (rotKfmt cfg)) cfg head (sqGen a.desc) (sqTepoch a.desc) (!a.read.absent.isEmpty)
        (a.read.rows.foldl (fun l e => insertRow e l) []) (h.vreg i.d) (h.vreg (i.d + 1)) (h.vreg (i.d + 2)) (h.vreg (i.d + 3))
      let q := expect (idle u) i dest 1 false
      .wait .results ((dropPins a.gslice a.read.pins (answer q.1 (fromSlice a.gslice) s.cur q.2
        (.regs [] [(i.d, h.vreg i.d), (i.d + 1, r.1), (i.d + 2, r.2.1), (i.d + 3, r.2.2)] 0) none)).stage s.cur .sent))) ∧
  -- a position or a ROTCFG that turns nothing leaves the elements as they are
  (∀ (cfg p e0 : Nat) (els : List Nat), rotLb cfg = 0 ∨ rotLen cfg = 0 → rotate cfg p e0 els = (els, 0)) ∧
  (∀ (cfg p e0 : Nat) (els : List Nat), (rotate cfg p e0 els).1.length = els.length) ∧
  (∀ lb i rl : Nat, orreryAngle lb i rl 0 = (0x3F800000, 0)) ∧
  -- the step of a pair's angle, where it is a power of two, is exact
  (∀ lb i rl : Nat, 0 < rl → 2 * lb * i % rl = 0 → orreryW lb i rl = roundFp 0 1 false 1 (-((2 * lb * i / rl : Nat) : Int))) ∧
  -- a pair turned: each element is the exact sum of its two products, rounded once, an exact zero +0
  (∀ (cfg p e0 i : Nat) (els : List Nat), rotLb cfg ≠ 0 → rotLen cfg ≠ 0 → 2 * i + 1 < els.length →
    let t := kfmtType (rotKfmt cfg)
    let cs := orreryAngle (rotLb cfg) ((e0 + 2 * i) % rotLen cfg / 2) (rotLen cfg) p
    let x := fpVal t (els.getD (2 * i) 0)
    let y := fpVal t (els.getD (2 * i + 1) 0)
    let r := (rotate cfg p e0 els).1
    let turned (z : Nat) (a b : Fv) : Prop := ∀ n m e n' m' e', a = .fin n m e → b = .fin n' m' e' → ∀ g k d, exactAdd 1 a b = .fin g k d →
      z = if k = 0 then 0 else (roundFp t 1 g k d).1
    turned (r.getD (2 * i) 0) (exactMul x (fpVal 1 cs.1)) (exactMul y (fpVal 1 cs.2).neg) ∧
    turned (r.getD (2 * i + 1) 0) (exactMul x (fpVal 1 cs.2)) (exactMul y (fpVal 1 cs.1)) ∧
    (x.isNan = true → r.getD (2 * i) 0 = canon t ∧ r.getD (2 * i + 1) 0 = canon t)) ∧
  -- a row's score: its exact sum, rounded once
  (∀ (t cfg head : Nat) (q : List Nat) (row : AttRow),
    let vs := (q.zip (rotate cfg row.pos (64 * head) row.key).1).map fun p => (fpVal t p.1, fpVal t p.2)
    ∀ p rest g m e, (vs.map fun p => exactMul p.1 p.2) = p :: rest → rest.foldl (exactAdd 1) p = .fin g m e →
      (attScore t cfg head q row).1 = (roundFp 1 1 g m e).1) ∧
  -- the state block after a step
  ∀ (t cfg head gen epoch : Nat) (part : Bool) (rows : List AttRow) (v0 v1 v2 v3 : Line), (∀ r ∈ rows, r.val.length = 64) → gen < 2 ^ 48 →
    epoch < 2 ^ 16 →
    let out := attBlock t cfg head gen epoch part rows v0 v1 v2 v3
    let old (n : Nat) : Nat := (lanes 32 v3).getD n 0
    let new (n : Nat) : Nat := (lanes 32 out.2.2).getD n 0
    let acc (n : Nat) : Nat := (lanes 32 v1 ++ lanes 32 v2).getD n 0
    let acc' (n : Nat) : Nat := (lanes 32 out.1 ++ lanes 32 out.2.1).getD n 0
    let score (r : AttRow) : Nat := (attScore t cfg head (lanes 16 v0) r).1
    let stat (n : Nat) : Bool := (new 2).testBit n
    (rows = [] → out.1 = v1 ∧ out.2.1 = v2 ∧ new 0 = old 0 ∧ new 1 = old 1 ∧ new 3 = old 3) ∧
    (∀ row rest, rows = row :: rest →
      let mn := (fpMinMax 1 true (old 0) (rest.foldl (fun a r => (fpMinMax 1 true a (score r)).1) (score row))).1
      let weight (x : Nat) : Nat := (specialFp 0 1 (fpSub 1 1 x mn).1).1
      new 0 = mn ∧ new 3 = min (old 3 + rows.length) 0xFFFFFFFF ∧
      new 1 = rows.foldl (fun a r => (fpAdd 1 1 a (weight (score r))).1) (fpMul 1 1 (old 1) (weight (old 0))).1 ∧
      ∀ e, e < 64 → acc' e =
        rows.foldl (fun a r => (fpFma 1 1 (weight (score r)) (convert 1 t 0 false (r.val.getD e 0)).1 a).1) (fpMul 1 1 (acc e) (weight (old 0))).1) ∧
    stat 18 = true ∧ new 2 % 2 ^ 16 = (if (old 2).testBit 18 then old 2 % 2 ^ 16 else epoch) ∧
    stat 17 = ((old 2).testBit 17 || ((old 2).testBit 18 && old 2 % 2 ^ 16 != epoch)) ∧ stat 16 = ((old 2).testBit 16 || part) ∧
    (∀ n, 19 ≤ n → n < 24 → (old 2).testBit n = true → stat n = true) ∧ (∀ n, 24 ≤ n → stat n = false) ∧
    new 4 = gen % 2 ^ 32 ∧ new 5 = gen / 2 ^ 32 ∧ ∀ n, 6 ≤ n → new n = 0

/-- R369 to R376: the Gaussian forms enter their core's solver; and the operations that a mailbox or a solver performs on slots. R369 to
R376: what each Gaussian form comes to: it completes, its operation enters its core's solver, and the solver, where it was idle, performs
it on the slots as they stand. Where the spec leaves a point open, the statement says the model's choice (notes/assumptions: 27, 50,
100). -/
def Obligations.GaussianMessages : Prop :=
  (∀ (o : OpR) (s : State), s.hand.out.length < 16 → (s.core (coreOf s.cur)).solver.length < Config.solverQueue →
      let core := coreOf s.cur
      let t3 := Traits.ofR o (fx o.d) (fx o.a) (fx o.b)
      let t2 := Traits.ofR o (fx o.d) (fx o.a) (fk o.b)
      let tl := { t2 with pol := .taken }
      let ts := Traits.ofR o (fk o.d) (fx o.a) (fx o.b)
      let tr := { t3 with imm := none }
      let x (t : Traits) (n : Iss → Nat) : Word := s.hand.x (n (issued s t))
      let c3 := (issued s t3).bval s.hand
      let cs := (issued s ts).bval s.hand
      let slots (t : Traits) (ps : List Word) : Prop := slotFault (begun s t) s.cur ps = none
      let queued (t : Traits) (dest : Dest) (op d a b : Nat) (control src : Word) (u : State) : State :=
        let i := issued s t
        let q := expect u i dest 1 false
        let w := q.1.modCore core fun c =>
          { c with solver := c.solver ++ [⟨s.cur, q.2, op, d, a, b, control, src, s.hand.ctx.mode == .user, i.pc, s.cur⟩] }
        w.post ⟨s.now, fromThread s.cur, atCore core, .solverOperationCompletion ⟨core⟩⟩
      let off (p : Word) : Nat := bits p 18 0
      let d3 := x t3 Iss.d
      let a3 := x t3 Iss.a
      let as_ := x ts Iss.a
      let target := bits cs 43 25
      (slots t3 [d3, a3] → bits c3 63 4 = 0 → Acts (.gmadd o) s t3 fun _ _ u => queued t3 .none 0 (off d3) (off a3) 0 c3 0 u) ∧
      (slots t3 [d3, a3] → bits c3 63 24 = 0 → bit c3 7 = false → Acts (.gsch o) s t3 fun _ _ u => queued t3 .none 1 (off d3) (off a3) 0 c3 0 u) ∧
      (slots t2 [x t2 Iss.d, x t2 Iss.a] → Acts (.gdmp o) s t2 fun _ _ u => queued t2 .none 2 (off (x t2 Iss.d)) (off (x t2 Iss.a)) 0 0 0 u) ∧
      (quiet s s.cur = true → slots ts [as_] → bits cs 63 44 = 0 → offJob s s.cur target = false → bits cs 18 0 ≤ 0x7FE80 → bits cs 18 0 % 128 = 0 →
        Acts (.gmsend o) s ts fun _ _ u =>
          countPost (queued ts .none 3 0 (off as_) 0 cs 0 (u.modThread s.cur (committed false))) s.cur (coreClass core target)) ∧
      (slots tl [x tl Iss.d] → (x tl Iss.a).toNat % 128 = 0 →
        Acts (.gmld o) s tl fun i _ u => queued tl .none 4 (off (x tl Iss.d)) 0 0 0 (x tl Iss.a) (notePolicy i [x tl Iss.a] u)) ∧
      (slots tr [x tr Iss.a, x tr Iss.b] → Acts (.gres o) s tr fun i _ u =>
        queued tr (.regs [i.d] []) 5 i.d (off (x tr Iss.a)) (off (x tr Iss.b)) 0 0 u) ∧
      (slots t2 [x t2 Iss.a] → Acts (.gpiv o) s t2 fun i _ u => queued t2 (.regs [i.d] []) 6 i.d (off (x t2 Iss.a)) 0 0 0 u) ∧
      (slots ts [as_] → bits cs 63 16 = 0 → bits cs 7 4 = 0 → 1 ≤ bits cs 3 0 → bits cs 3 0 ≤ 8 →
        Acts (.gmclr o) s ts fun _ _ u => queued ts .none 7 0 (off as_) 0 cs 0 u) ∧
      (bits c3 63 4 ≠ 0 → s.hand.stage = .start → Ends (.gmadd o) s t3 fun _ _ u => .trap badOperand u) ∧
      (∀ p, (∀ f, (begun s t2).resolve s.cur p .load ≠ .ok (.own f)) → slotPtr (begun s t2) s.cur p = .error (mkFault .translation 8 p)) ∧
      (∀ p, p.toNat % 128 ≠ 0 → slotPtr (begun s t2) s.cur p = .ok (off p) → slotFault (begun s t2) s.cur [p] = some (mkFault .alignment 0 p))) ∧
  (∀ (o : OpR) (s : State), s.hand.out.length < 16 → (s.core (coreOf s.cur)).solver = [] → s.hand.solverDead = false →
      let core := coreOf s.cur
      let t3 := Traits.ofR o (fx o.d) (fx o.a) (fx o.b)
      let t2 := Traits.ofR o (fx o.d) (fx o.a) (fk o.b)
      let tl := { t2 with pol := .taken }
      let ts := Traits.ofR o (fk o.d) (fx o.a) (fx o.b)
      let tr := { t3 with imm := none }
      let x (t : Traits) (n : Iss → Nat) : Word := s.hand.x (n (issued s t))
      let off (p : Word) : Nat := bits p 18 0
      let c3 := (issued s t3).bval s.hand
      let cs := (issued s ts).bval s.hand
      -- a slot pointer that serves, and whose slot can be read and written
      let clear (p : Word) : Prop := slotPtr s s.cur p = .ok (off p) ∧ p.toNat % 128 = 0 ∧ guarded (s.core core) (off p) 384 = false ∧
        scratchPoisoned (s.core core) (off p) 384 = false
      let slot (p : Word) : GSlot := gslot (Memory.read (s.core core).scratch (off p) 384)
      let put (z : State) (p : Word) (m : GSlot) : Prop := (z.core core).scratch = ((scratchWrite s core (off p) m.bytes).core core).scratch
      -- the result on its way to the thread
      let back (z : State) (v : ResultVal) : Prop := ∃ f, f ∈ z.agenda ∧ f.ev = .resultReturn ⟨s.cur, s.hand.nextId, v, none⟩
      let runs (i : Instr) (r : State → Prop) : Prop :=
        ∃ u z, exec i s = .next u ∧ (u.core core).solver.length = 1 ∧ exec (.solverOperationCompletion ⟨core⟩) u = .next z ∧ r z
      (performs s t3 = true → clear (x t3 Iss.d) → clear (x t3 Iss.a) → bits c3 63 4 = 0 →
        let dst := slot (x t3 Iss.d)
        let src := slot (x t3 Iss.a)
        let r := gaddVals (bit c3 3) (bits c3 2 0) dst src.source
        dst.bad = false → src.bad = false → bits c3 2 0 + src.d ≤ dst.d →
        runs (.gmadd o) fun z => back z .ack ∧
          put z (x t3 Iss.d) { dst with vals := r.1, v := true, flags := dst.flags ||| src.flags ||| slotFlags r.2 }) ∧
      (performs s t3 = true → clear (x t3 Iss.d) → clear (x t3 Iss.a) → bits c3 63 24 = 0 → bit c3 7 = false →
        let out := slot (x t3 Iss.d)
        let src := slot (x t3 Iss.a)
        let m := src.source
        let k := bits c3 2 0
        let n := bits c3 6 3
        let te := bits c3 15 8
        let w := gsweep (fun pv => pivotLow pv || pivotSmall te (gdiag m.d m.vals) pv)
          ((List.range m.d).filter fun i => !decide (k ≤ i ∧ i < k + n)) (List.range m.d) m.vals 0 []
        src.bad = false → n ≠ 0 → k + n ≤ m.d → w.2.2.2 = none →
        runs (.gsch o) fun z => back z .ack ∧ put z (x t3 Iss.d)
          { out with
            vals := gvals (fun i => w.1.getD (k + i) 0) (fun i j => w.1.getD (lamAt (k + i) (k + j)) 0)
            d := n, v := true, fmt := 1, flags := src.flags ||| slotFlags w.2.1 }) ∧
      (performs s t2 = true → clear (x t2 Iss.d) → clear (x t2 Iss.a) →
        let new := slot (x t2 Iss.d)
        let old := slot (x t2 Iss.a)
        let flags (f : Nat) : Nat := new.flags ||| old.flags ||| f
        let made (m : GSlot) (vs : List Nat) (f : Nat) : GSlot := { m with vals := vs, d := new.d, v := true, flags := flags f }
        new.bad = false → old.bad = false → (old.v = true → old.d = new.d) →
        let r := joinFlags ((old.source.vals.zip new.source.vals).map fun p => gmix (old.damp % 256) p.1 p.2)
        let vs := if old.v then r.1 else new.source.vals
        let f := if old.v then slotFlags r.2 else slotFlags 0
        runs (.gdmp o) fun z => back z .ack ∧ (z.core core).scratch =
          ((scratchWrite (scratchWrite s core (off (x t2 Iss.d)) (made new vs f).bytes) core (off (x t2 Iss.a)) (made old vs f).bytes).core core).scratch) ∧
      (performs s ts = true → quiet s s.cur = true → clear (x ts Iss.a) → bits cs 63 44 = 0 → offJob s s.cur (bits cs 43 25) = false →
        bits cs 18 0 ≤ 0x7FE80 → bits cs 18 0 % 128 = 0 → (slot (x ts Iss.a)).bad = false →
        runs (.gmsend o) fun z => back z .ack ∧ (moduleOf (bits cs 43 25) = moduleOf core → ∃ f m, f ∈ z.agenda ∧
          f.ev = .mailboxMessageArrival m ∧ m.gti = s.cur ∧ m.core = bits cs 43 25 ∧ m.ctr = bits cs 24 19 ∧ m.pos = bits cs 18 0 ∧
          (∀ k, k < 0x160 → tget 0 m.data k = Memory.get (s.core core).scratch (off (x ts Iss.a) + k)) ∧
          leNat (tableBytes m.data 0x160 16) / 2 ^ 105 = s.cur % 2 ^ 23)) ∧
      (performs s tl = true → clear (x t2 Iss.d) → (x t2 Iss.a).toNat % 128 = 0 →
        (∃ u, exec (.gmld o) s = .next u ∧ ((u.core core).solver.map fun e => (e.op, e.d, e.src)) = [(4, off (x t2 Iss.d), x t2 Iss.a)]) ∧
        (clear (x t2 Iss.a) → runs (.gmld o) fun z => back z .ack ∧ (z.core core).scratch =
          ((scratchWrite s core (off (x t2 Iss.d)) (Memory.read (s.core core).scratch (off (x t2 Iss.a)) 384)).core core).scratch)) ∧
      (performs s tr = true → clear (x tr Iss.a) → clear (x tr Iss.b) →
        let a := slot (x tr Iss.a)
        let b := slot (x tr Iss.b)
        (a.v = false ∨ b.v = false → runs (.gres o) fun z => back z (.regs [((issued s tr).d, .ofNat 64 (fmt 0).inf)] [] 0)) ∧
        (a.v = true → b.v = true → a.bad = false → b.bad = false → a.d = b.d →
          runs (.gres o) fun z => back z (.regs [((issued s tr).d, .ofNat 64 (gresidual a b))] [] 0))) ∧
      (performs s t2 = true → clear (x t2 Iss.a) → (slot (x t2 Iss.a)).bad = false →
        runs (.gpiv o) fun z => back z (.regs [((issued s t2).d, .ofNat 64 (gpivot (slot (x t2 Iss.a)).source))] [] 0)) ∧
      (performs s ts = true → clear (x ts Iss.a) → bits cs 63 16 = 0 → bits cs 7 4 = 0 → 1 ≤ bits cs 3 0 → bits cs 3 0 ≤ 8 →
        runs (.gmclr o) fun z => back z .ack ∧ put z (x ts Iss.a)
          { vals := [], sgti := 0, fmt := 1, d := bits cs 3 0, v := false, flags := 0, damp := bits cs 15 8, aseq := 0 }))

/-! ## Steps outside a thread's issue -/

/-- R27, R28, R84, R195, R211, R424, R425; R406 to R408, R412: invalidation of translations, suspending a job, slice counters, Meridian's
samples, power; link training, flits and their checks. Where the spec leaves a point open, the statement says the model's choice
(notes/assumptions: 63, 64, 66, 68 to 70). -/
def Obligations.ModuleUpkeep : Prop :=
  ∀ (s : State),
    -- R27: what an invalidation of a range, of a job and of everything drops, and the step in which BUSY clears
    (∀ (o : TrInv) (f : (TrInv → Instr) × TrScope), f ∈ [(Instr.trinvRange, TrScope.range), (.trinvJob, .job), (.trinvAll, .all)] →
      ∃ t : State, Steps (f.1 o) s (t.post ⟨s.now, fromModule o.module, atModule o.module, .trinvDone ⟨o.module⟩⟩) ∧
        (o.data = false →
          (∀ c e, e ∈ (t.ctrl c).leaves ↔
            e ∈ (s.ctrl c).leaves ∧ (c / 256 = o.module → trPage o f.2 (e.1 / 2 ^ 41) (e.1 % 2 ^ 41) = false)) ∧
          (∀ c e, e ∈ (t.core c).jobCache ↔ e ∈ (s.core c).jobCache ∧ (moduleOf c = o.module → trJob o f.2 e.1 = false)) ∧
          (∀ c, (t.core c).l1d = (s.core c).l1d) ∧ t.threads = s.threads ∧ t.slices = s.slices ∧ t.pending = s.pending) ∧
        (o.data = true → ∀ c, moduleOf c = o.module →
          (∀ e, e ∈ (t.core c).l1d → trLine o f.2 e.2.job e.2.line = false) ∧
          ∀ e, e ∈ (t.core c).l1i → trLine o f.2 e.2.job e.2.line = false)) ∧
    (∀ o : ModRef, Steps (.trinvDone o) s (s.modModu o.module fun x => { x with trBusy := false })) ∧
    (∀ (o : TrInv) (page : Nat), trPage o .range o.job page = true ↔ o.start ≤ page ∧ page < o.start + o.pages) ∧
    -- R211: a suspended job, and one resumed
    (∀ o : JobRef, ∃ x : Module,
      Steps (.jobswSuspend o) s (s.setModu o.module x) ∧ x.suspended.contains o.job = true ∧
        (x.jsBusy = true ↔ heldSlots s o.module o.job ≠ 0) ∧
        ∀ j, j ≠ o.job → x.suspended.contains j = (s.modu o.module).suspended.contains j) ∧
    (∀ o : JobRef, ∃ t : State, Steps (.jobswResume o) s (askAdmission t o.module) ∧
      (t.modu o.module).suspended.contains o.job = false ∧ (t.modu o.module).jsBusy = false ∧
        (∀ j, j ≠ o.job → (t.modu o.module).suspended.contains j = (s.modu o.module).suspended.contains j) ∧ t.cores = s.cores) ∧
    (∀ o : SliceRef, Steps (.sqstatClear o) s (s.modSlice o.gslice fun x => { x with maxo := 0 })) ∧
    -- R195: a sample of a channel, and two idle samples in a row
    (∀ o : MerRef, (tget MerCh.off (s.modu o.module).mer o.ch).v = true →
      let k := tget MerCh.off (s.modu o.module).mer o.ch
      let idle := (merModules s o.module k).all (jobIdle s k.job.toNat)
      ∃ q : MerCh, Steps (.meridianSample o) s
          ((s.modModu o.module fun x => { x with mer := tput x.mer o.ch q }).later (MerCh.gap q - s.now % MerCh.gap q) (fromModule o.module)
            (atModule o.module) (.meridianSample o)) ∧
        (idle = false → q.idle = 0 ∧ q.ends = k.ends) ∧ (idle = true → k.idle = 0 → q.idle = 1 ∧ q.ends = k.ends) ∧
        (idle = true → k.idle ≠ 0 → q.idle = 2 ∧ q.ends = if k.counted then k.ends else k.ends + 1)) ∧
    -- R425: the governor's grant, and the two ends of capping
    (∀ (o : DieRef) (n : Nat), (s.die o.gdie).waitSince = some n → (s.cores.all fun c => c.2.sequencer.isEmpty) = true →
      Steps (.governorGrant o) s (s.modDie o.gdie fun d => { d with stepdly := d.stepdly + .ofNat 64 (s.now - n), waitSince := none })) ∧
    -- R424, R425: work that asks begins where its die rises by at most 32 A within 1 µs and stays within its share, or nothing else runs there
    (∀ gdie amps : Nat,
      let r := s.askGovernor gdie amps
      let d := s.die gdie
      let within := d.rises.filter fun e => decide (s.now < e.1 + 1100)
      let slope := within = [] ∨ ampsOf within + amps ≤ 32000
      let share := s.current gdie = 0 ∨ s.current gdie + amps ≤ currentLimit (s.modu (dieModule gdie))
      (r.1 = true ↔ slope ∧ share) ∧
      (slope → share → (r.2.die gdie).waitSince = none ∧
        (r.2.die gdie).stepdly = (match d.waitSince with
          | some n => d.stepdly + .ofNat 64 (s.now - n)
          | none => d.stepdly) ∧
        (within ≠ [] → ampsOf ((r.2.die gdie).rises.filter fun e => decide (s.now < e.1 + 1100)) ≤ 32000)) ∧
      (¬(slope ∧ share) → (r.2.die gdie).waitSince = some (d.waitSince.getD s.now) ∧ (r.2.die gdie).rises = d.rises ∧
        r.2.cores = s.cores ∧ r.2.threads = s.threads)) ∧
    (∀ x : Module, powerLimit x ≤ 8000 ∧ currentLimit x ≤ 250000 ∧
      (x.capping = true → 64 * 650 * currentLimit x ≤ powerLimit x * 1000000)) ∧
    (∀ o : PowerEvent, (s.modu o.module).capping = false → min (s.modu o.module).pwrcap.toNat 8000 < o.watts →
      ∃ r : Report, r.kind = 5 ∧ r.module = o.module ∧
        Steps (.powerCapStart o) s ((s.modModu o.module fun x => { x with watts := o.watts, capping := true }).report r)) ∧
    (∀ o : PowerEvent, (s.modu o.module).capping = true → o.watts ≤ min (s.modu o.module).pwrcap.toNat 8000 →
      ∃ (r : Report) (t : State), r.kind = 5 ∧ r.module = o.module ∧ Steps (.powerCapEnd o) s (t.report r) ∧
        (t.modu o.module).capping = false ∧ (t.modu o.module).watts = o.watts ∧ t.cores = s.cores ∧ t.threads = s.threads ∧
        ∀ e ∈ s.dies, dieModule e.1 = o.module → (t.die e.1).waitSince = none) ∧
    -- R407, R412: training, and a link whose ends share no version
    (∀ o : LinkRef, ∃ t : State, Steps (.nlkstStart o) s t ∧ (t.link o.module o.link).state = .training ∧
      t.threads = s.threads ∧ t.cores = s.cores ∧ t.pending = s.pending) ∧
    (∀ o : Training, (s.link o.module o.link).state = .down ∨ (s.link o.module o.link).state = .training →
      ∃ t : State, Steps (.linkTraining o) s t ∧
        ((o.v1 = true ∨ o.v2 = true) → o.notice1 = true → (s.link o.module o.link).wait = [] →
          (t.link o.module o.link).state = .up ∧ (t.link o.module o.link).ver = (if o.v2 then 2 else 1) ∧
          (t.link o.module o.link).partner = o.partner ∧ (t.link o.module o.link).peer = o.peer)) ∧
    -- R408: a flit's checks, in their order, and what a NAK asks for
    (∀ (o : FlitIn) (e : Nat × Option Flight),
      let k := s.link o.module o.link
      let nak : Flight := ⟨s.now, fromModule k.partner, atModule o.module, .nolkaiNak ⟨o.module, o.link, k.recvSeq⟩⟩
      o.xon = false → k.state = .up → (k.buf.find? fun e => e.1 == o.seq) = some e →
      (o.crc = false → Steps (.nolkaiFlitReceipt o) s ((s.countCorrected (k.partner * 64) 8 k.peer 0).post nak)) ∧
      (o.crc = true → o.seq ≠ k.recvSeq → Steps (.nolkaiFlitReceipt o) s (s.post nak)) ∧
      let taken := s.modLink o.module o.link fun q =>
        { q with recvSeq := (o.seq + 1) % 4096, buf := q.buf.filter fun e => e.1 != o.seq, tries := 0 }
      (o.crc = true → o.seq = k.recvSeq → e.2 = none → Steps (.nolkaiFlitReceipt o) s taken) ∧
      ∀ f, o.crc = true → o.seq = k.recvSeq → o.room = true → e.2 = some f → placeModule f.dst = k.partner →
        Steps (.nolkaiFlitReceipt o) s (pump (taken.post { f with due := s.now }) o.module o.link)) ∧
    (∀ o : Nak,
      let k := s.link o.module o.link
      let again := k.buf.dropWhile fun e => e.1 != o.seq
      k.state = .up → again.isEmpty = false →
      (8 ≤ k.tries → Steps (.nolkaiNak o) s (failLink s o.module o.link 0)) ∧
      (k.tries < 8 → Steps (.nolkaiNak o) s (resend o.module o.link again ((dropReceipts s o.module o.link).modLink o.module o.link
        fun q => { q with tries := q.tries + 1, replays := q.replays + .ofNat 32 again.length })))) ∧
    -- R2, R406: a die-link flit, replayed at most eight times; none comes over an edge that joins no neighbour
    ∀ o : DieFlit,
      let n := tget 0 (s.die o.gdie).edgeTries o.edge
      (edgeExists o.gdie o.edge = false → Steps (.ucieFlitReceipt o) s s) ∧
      (edgeExists o.gdie o.edge = true →
      (o.good = true → Steps (.ucieFlitReceipt o) s (s.modDie o.gdie fun d => { d with edgeTries := tdel d.edgeTries o.edge })) ∧
      (o.good = false → n < 8 → Steps (.ucieFlitReceipt o) s
        ((s.modDie o.gdie fun d => { d with edgeTries := tput d.edgeTries o.edge (n + 1) }).countCorrected o.gdie 4 o.edge 0)) ∧
      (o.good = false → 8 ≤ n → s.agenda[o.n]? = none → Steps (.ucieFlitReceipt o) s
        ((s.modDie o.gdie fun d => { d with edgeTries := tdel d.edgeTries o.edge }).countBad o.gdie 4 o.edge)))

/-- R170, R174 to R181, R186, R401 to R404, R411: a queue's doorbell and entries, admission, the wakes of a launch, completion. Where the
spec leaves a point open, the statement says the model's choice (notes/assumptions: 51 to 58, 97, 104, 107). -/
def Obligations.QueueEngine : Prop :=
  ∀ (s : State) (m q : Nat),
    let k := s.queue m q
    let o : QueueRef := ⟨m, q⟩
    let e := entryAt s m q k.head.toNat
    let at_ (ev : Event) : Prop := k.v = true ∧ k.head ≠ k.tail ∧ entryEvent s m q = ev ∧ entryBad k e = false
    let job := k.job.toNat
    let ids := entryIds m k e
    let l := (eligibleHeads s m).filter fun a => admits s m a.queue
    -- R404: a doorbell that passes what the ring holds leaves TAIL, and is reported
    (∀ v : Word, k.held = [] →
      let ahead := (BitVec.ofNat 16 (bits v 15 0) - k.head).toNat
      let bad := BitVec.ofNat 16 (bits v 15 0) ≠ k.tail ∧ (ahead < (k.tail - k.head).toNat ∨ 2 ^ k.log.toNat < ahead)
      let rung (tail : BitVec 16) : State := s.modQueue m q fun k => { k with chead := .ofNat 16 (bits v 47 32), tail := tail }
      (¬bad → Steps (.qdbDoorbell ⟨m, q, v⟩) s (askAdmission (nextEntry (rung (.ofNat 16 (bits v 15 0))) m q) m)) ∧
      (bad → ∃ r : Report, r.kind = 6 ∧ r.module = m ∧ Steps (.qdbDoorbell ⟨m, q, v⟩) s (askAdmission (nextEntry ((rung k.tail).report r) m q) m))) ∧
    -- R402: an entry that is refused by itself, and each that is not
    (∀ i : (QueueRef → Instr) × (QueueRef → Event), i ∈ [(Instr.nopEntry, Event.nopEntry), (.launchEntry, .launchEntry), (.graphEntry, .graphEntry),
        (.cancelEntry, .cancelEntry), (.priorityEntry, .priorityEntry), (.signalEntry, .signalEntry)] →
      (k.v = false ∨ k.head = k.tail → Steps (i.1 o) s s) ∧
      (k.v = true → k.head ≠ k.tail → entryEvent s m q = i.2 o → entryBad k e = true → Steps (i.1 o) s (endHead s m q e 2))) ∧
    (at_ (.nopEntry o) → Steps (.nopEntry o) s (endHead s m q e 0)) ∧
    (at_ (.launchEntry o) → jobStopped s m job = true → Steps (.launchEntry o) s (endHead s m q e 2)) ∧
    (at_ (.launchEntry o) → jobStopped s m job = false → ∀ u d r, engineRecord s m job (.ofNat 64 (recField e 127 64)) = (u, .ok d) →
      launchRecord u m k (recField e 7 0) d = some r → u.linkHeld = false → Steps (.launchEntry o) s (askAdmission (passHead (u.modModu m fun x =>
        { x with heads := tput x.heads q ⟨ids, k.head.toNat, entryCookie e, r, false, .ofNat 64 (recField e 127 64), recField e 7 0⟩ }) m q) m)) ∧
    (at_ (.graphEntry o) → jobStopped s m job = false → ∀ u d w ns, engineRecord s m job (.ofNat 64 (recField e 127 64)) = (u, .ok d) →
      headerBad d = false → readNodes m k (recField e 7 0) (.ofNat 64 (recField e 127 64)) 0 (recField d 8 0) u = (w, some ns) → w.linkHeld = false →
      Steps (.graphEntry o) s (askAdmission (passHead (w.modModu m fun x =>
        { x with graphs := x.graphs ++ [⟨ids, q, k.head.toNat, entryCookie e, recField d 27 16, ns, 0, false, false, false⟩] }) m q) m)) ∧
    (at_ (.cancelEntry o) → k.busy = false → Steps (.cancelEntry o) s
      (((floodCancel s m (entryKey m k e)).modQueue m q fun k => { k with busy := true }).post ⟨s.now, fromModule m, atModule m, .cancelEntry o⟩)) ∧
    (at_ (.cancelEntry o) → k.busy = true → Steps (.cancelEntry o) s (endHead s m q e 0)) ∧
    (at_ (.priorityEntry o) → k.busy = false → (s.modu m).launches = [] → Steps (.priorityEntry o) s
      ((s.modQueue m q fun k => { k with busy := true, prio := .ofNat 3 (recField e 194 192) }).post
        ⟨s.now, fromModule m, atModule m, .priorityEntry o⟩)) ∧
    (at_ (.priorityEntry o) → k.busy = true → Steps (.priorityEntry o) s (endHead s m q e 0)) ∧
    (at_ (.signalEntry o) → Steps (.signalEntry o) s (endHead
      (raise s 4 fun _ c => keyCovers ⟨0, { ids with launch := recField e 207 192 }⟩ c.ids) m q e 0)) ∧
    -- R403: the bytes of a completion record
    (∀ (n st : Nat) (c : Word), k.held = [] → (k.ctail - k.chead).toNat < 2 ^ k.log.toNat →
      hostBytes (complRecord s m q n c st) m (queuePort (s.modu m) q).1 k.func.toNat (k.cbase.toNat + 16 * (k.ctail.toNat % 2 ^ k.log.toNat)) 16 =
        leBytes 16 (c.toNat * 2 ^ 64 + st * 2 ^ 56 + bitNat k.pass * 2 ^ 55 + n % 2 ^ 16)) ∧
    -- R175, R176, R178, R179: which head is admitted, by the record that is read then
    (l = [] → Steps (.entryAdmission ⟨m⟩) s s) ∧
    (∀ a, (l.find? fun a => a.canc) = some a → Steps (.entryAdmission ⟨m⟩) s (cancelHead s m a)) ∧
    (∀ a, (l.find? fun a => a.canc) = none → bestHead s m l = some a →
        (∀ u d, (s.modu m).launches.length < Config.launchTable → admitRecord s m a = (u, some d) → u.linkHeld = false →
          (dependence u m a.ids.job d = none → Steps (.entryAdmission ⟨m⟩) s (askAdmission (u.modModu m fun x =>
            { x with heads := tmap (fun q h => if q = a.queue then { h with recd := d } else h) x.heads }) m)) ∧
          (dependence u m a.ids.job d = some false → Steps (.entryAdmission ⟨m⟩) s (admitHead u m { a with recd := d })) ∧
          (dependence u m a.ids.job d = some true → Steps (.entryAdmission ⟨m⟩) s (cancelHead u m { a with recd := d }))) ∧
        (∀ u, (s.modu m).launches.length < Config.launchTable → admitRecord s m a = (u, none) → u.linkHeld = false →
          Steps (.entryAdmission ⟨m⟩) s (nextEntry (askAdmission (complRecord (leaveHead u m a 0) m a.queue a.entry a.cookie 2) m) m a.queue)) ∧
        (Config.launchTable ≤ (s.modu m).launches.length → Steps (.entryAdmission ⟨m⟩) s (countStall s m a)) ∧
        ∀ b, b ∈ l → (s.queue m b.queue).prio.toNat ≤ (s.queue m a.queue).prio.toNat) ∧
    -- R170: a launch that a cancel covers is one of the cancelled heads, whatever it depends on
    (∀ h, h ∈ (s.modu m).heads → coveredAt s m h.2.ids = true →
      ⟨h.1, h.2.ids, h.2.entry, h.2.cookie, h.2.recd, none, true, h.2.counted⟩ ∈ eligibleHeads s m) ∧
    -- R180, R411: a wake floods the cores of its range
    (∀ b : CastBody, m < 64 → Steps (.nolkaiMulticast ⟨m, .ofNat 64 (2 ^ m), b⟩) s (deliverCast s m b)) ∧
    (∀ (w : Dandelion) (c : Nat), w.first ≤ c → c < w.first + w.count → moduleOf c = m →
      ⟨s.now, fromModule m, atCore c, .dandelionWake ⟨c, w⟩⟩ ∈ (deliverCast s m (.wake w)).agenda) ∧
    -- R186: the leases and saved contexts of a launch take a new RANK
    (∀ n : Rerank, n.module = m → ∃ t : State, Steps (.rerankNotice n) s t ∧ t.threads = s.threads ∧ t.slices = s.slices ∧ t.modules = s.modules ∧
      ∀ g, g < 2 ^ 33 → t.lease g =
        if moduleOf (coreOf g) = m ∧ (s.lease g).state ≠ 0 ∧ (s.thread g).ctx.ids = n.ids then { s.lease g with rank := n.rank } else s.lease g) ∧
    -- R169, R181: the reports of a launch's cores
    ∀ (h : ShareReport), h.ids.home = m →
      (((s.modu m).launches.find? fun l => l.waked && l.ids == h.ids) = none → Steps (.launchCompletion h) s s) ∧
      ∀ l, ((s.modu m).launches.find? fun l => l.waked && l.ids == h.ids) = some l →
        let r : Launch := 
          { l with reports := l.reports + 1, rejected := l.rejected || h.status == 2, cancelled := l.cancelled || h.status == 1 }
        let t := s.modModu m fun x => { x with launches := x.launches.map fun y => if y = l then r else y }
        (r.reports < l.recd.count → Steps (.launchCompletion h) s t) ∧
        (l.recd.count ≤ r.reports → Steps (.launchCompletion h) s (endRow t m r (if r.rejected then 2 else if r.cancelled then 1 else 0)))

/-- R103, R104, R399 to R401, R405, R422: host accesses to NEGCAP, a queue's registers, an aperture, the mailbox, and the device memory
window. Where the spec leaves a point open, the statement says the model's choice (notes/assumptions: 14, 16, 53, 59 to 62, 73, 97). -/
def Obligations.HostAccesses : Prop :=
  ∀ (s : State) (o : HostAccess),
    let x := s.modu o.module
    let w := hostAperture s o
    let mine (q : Nat) : Prop := blockQueue x o.port (o.off / 32) = some q ∧ o.off < 0xF0000 ∧ o.off % 8 = 0 ∧
      ((s.queue o.module q).func.toNat = o.func ∨ o.func = 0)
    -- R419: before step 4 of bring-up an access reaches nothing, but the mailbox of a module whose bring-up has failed can be read
    (x.step < 4 → Steps (.hostWrite o) s s ∧ (x.stuck = false ∨ o.bar ≠ 4 → Steps (.hostRead o) s s)) ∧
    (x.stuck = true ∨ 4 ≤ x.step → o.bar = 4 →
      Steps (.hostRead o) s (answerHost s o 0 ((List.range o.size).map fun i => mboxByte x.mbox (o.off + i)))) ∧
    (4 ≤ x.step →
    -- R399, R401: registers of BAR0
    (o.bar = 0 → o.off = 0xFFF00 → o.size = 8 → Steps (.hostRead o) s (answerHost s o 0 (bytesOf 8 negcap))) ∧
    (∀ q, o.bar = 0 → o.size = 8 → mine q → ∀ v, v ∈ [(0, (s.queue o.module q).qbase), (1, (s.queue o.module q).cbase),
        (2, packQcfg (s.queue o.module q)), (3, packQdb (s.queue o.module q))] → o.off % 32 / 8 = v.1 →
      Steps (.hostRead o) s (answerHost s o 0 (bytesOf 8 v.2))) ∧
    (∀ q, o.bar = 0 → o.size = 8 → o.off < 0xF0000 → o.off % 8 = 0 → blockQueue x o.port (o.off / 32) = some q → o.func ≠ 0 →
      (s.queue o.module q).func.toNat ≠ o.func → Steps (.hostRead o) s (refuseHost s o false
        (if (s.queue o.module q).v then some (s.queue o.module q).job.toNat else none) failAperture)) ∧
    (∀ q, o.bar = 0 → o.data.length = 8 → mine q →
      let v := wordOf o.data
      (o.off % 32 / 8 = 0 → Steps (.hostWrite o) s (s.modQueue o.module q fun k => { k with qbase := .ofNat 64 (v.toNat / 64 * 64) })) ∧
      (o.off % 32 / 8 = 1 → Steps (.hostWrite o) s (s.modQueue o.module q fun k => { k with cbase := .ofNat 64 (v.toNat / 16 * 16) })) ∧
      (o.off % 32 / 8 = 2 →
        let old := s.queue o.module q
        let new := writeQcfg old (o.func == 0) v
        ((old.v = false ∧ (new.v = false ∨ jobOpen s o.module new.job.toNat = true)) ∨ (old.v = true ∧ new.v = true ∧ new.job = old.job ∧ o.module < 64) →
          Steps (.hostWrite o) s (nextEntry (s.modQueue o.module q fun _ => new) o.module q)) ∧
        -- R175: the counters of a job that starts
        (new.v = true → jobOpen s o.module new.job.toNat = false → ∃ t : State, Steps (.hostWrite o) s t ∧ (t.queue o.module q) = new ∧
          ∀ c, c < 4096 → t.compCtr o.module new.job.toNat c = CompCtr.zero)) ∧
      (o.off % 32 / 8 = 3 → (s.queue o.module q).func.toNat = o.func → Steps (.hostWrite o) s
        (s.post ⟨s.now, fromModule o.module, atModule o.module, .qdbDoorbell ⟨o.module, q, v⟩⟩))) ∧
    -- R401: QCFG with a LOG outside 4 to 15, and the fields that an owner leaves
    (∀ (k : Queue) (pf : Bool) (v : Word),
      (bits v 47 44 < 4 → (writeQcfg k pf v).v = false) ∧
      (writeQcfg k false v).job = k.job ∧ (writeQcfg k false v).sup = k.sup ∧ (writeQcfg k false v).prio = k.prio ∧
      (writeQcfg k false v).func = k.func ∧ (4 ≤ bits v 47 44 → packQcfg (writeQcfg k true v) =
        v &&& 0xFFFFF07FFFF00000)) ∧
    -- R400: an aperture control, which a virtual function's write leaves
    (o.bar = 0 → o.data.length = 8 → 0xF0000 ≤ o.off → o.off < 0xF0080 → o.off % 8 = 0 →
      (o.func = 0 → Steps (.hostWrite o) s (s.modModu o.module fun y => { y with apc := tset 0 y.apc (apcKey o.port ((o.off - 0xF0000) / 8)) (apcMask (wordOf o.data)) })) ∧
      (o.func ≠ 0 → Steps (.hostWrite o) s s)) ∧
    -- R422: the mailbox reads as it stands, and takes nothing while GO is 1
    (o.bar = 4 → x.mbox.go = true → Steps (.hostWrite o) s s) ∧
    -- R422: GO with a version or command that the module does not accept, or with one that it does
    (o.bar = 4 → x.mbox.go = false → o.off = 0 → o.data.length = 8 → bit (wordOf o.data) 63 = true →
      let v := wordOf o.data
      let b := { x.mbox with ver := .ofNat 8 (bits v 7 0), cmd := .ofNat 8 (bits v 15 8), len := .ofNat 16 (bits v 47 32) }
      (bits v 7 0 ≠ 1 ∨ bits v 15 8 = 0 ∨ 7 < bits v 15 8 →
        Steps (.hostWrite o) s (s.modModu o.module fun y => { y with mbox := { b with go := false, status := 2 } })) ∧
      (∀ c, c ∈ [(1, Event.query), (2, .attest), (3, .events), (4, .config), (6, .fuseRevoke), (7, .linkclr)] → bits v 7 0 = 1 → bits v 15 8 = c.1 →
        Steps (.hostWrite o) s ((s.modModu o.module fun y => { y with mbox := { b with go := true } }).post
          ⟨s.now, fromModule o.module, atModule o.module, c.2 ⟨o.module, 1, .ofNat 768 (leNat (mboxData x.mbox 0 96))⟩⟩)) ∧
      (bits v 7 0 = 1 → bits v 15 8 = 5 → Steps (.hostWrite o) s ((s.modModu o.module fun y => { y with mbox := { b with go := true } }).post
        ⟨s.now, fromModule o.module, atModule o.module, .monitor ⟨o.module, 1, mboxImage { b with go := true }⟩⟩))) ∧
    -- R104, R400, R405: the window
    (o.bar = 2 → ownsAperture o w = false →
      Steps (.hostRead o) s (refuseHost s o false (apertureJob w) failAperture) ∧
      Steps (.hostWrite o) s (refuseHost s o true (apertureJob w) failAperture)) ∧
    (∀ (l : Line) (g : Nat), o.bar = 2 → ownsAperture o w = true → o.off % 128 + o.size ≤ 128 → 0 < o.size →
      apertureHome s o.module w (windowAddr o w) = .ok g →
      tfind x.readBuf (bufKey o.port (apcJob w) (sliceDie g) (windowAddr o w / 128)) = some l →
      Steps (.hostRead o) s (answerHost s o 0 (lineSlice l (o.off % 128) o.size))) ∧
    -- R405: a write of which one line fails is not performed; one within a line is a home write, the port's own copy gone
    (∀ f, o.bar = 2 → ownsAperture o w = true → (splitLines (windowAddr o w) o.size).findSome? (pieceFails s o w) = some f →
      Steps (.hostWrite o) s (refuseHost s o true (apertureJob w) f)) ∧
    ∀ (g : Nat) (u : State) (p : Unit), o.bar = 2 → ownsAperture o w = true → o.off % 128 + o.size ≤ 128 → 0 < o.size → o.data.length = o.size →
      apertureHome s o.module w (windowAddr o w) = .ok g → pieceFails s o w (windowAddr o w, 0, o.size) = none →
      homeWrite (s.modModu o.module fun y => { y with readBuf := tdel y.readBuf (bufKey o.port (apcJob w) (sliceDie g) (windowAddr o w / 128)) })
        g (apcJob w) (windowAddr o w / 128) false (maskFrom (o.off % 128) o.size) (lineAt (o.off % 128) o.data) = (u, .ok p) →
      Steps (.hostWrite o) s u)

/-- R412, R419 to R423, R427 to R429: the package event arbiter, errors in storage, the mailbox commands, bring-up and reset. Where the
spec leaves a point open, the statement says the model's choice (notes/assumptions: 14 to 17, 38 and 71 to 75). -/
def Obligations.FirmwareCommandsAndReset : Prop :=
  ∀ (s : State) (o : MboxCmd),
    let m := o.module
    let x := s.modu m
    let ended (t : State) (st : BitVec 8) (data : List Byte) : State := t.modModu m fun y =>
      { y with mbox := mboxPut { y.mbox with status := st, len := .ofNat 16 data.length, go := false } 0x100 data }
    let done := Config.statusDone
    -- R422: a version that the module does not accept, and each command
    (∀ i, i ∈ [Instr.query, .attest, .events, .config, .fuseRevoke, .linkclr] → o.ver ≠ 1 → Steps (i o) s (ended s 2 [])) ∧
    (o.ver = 1 → Steps (.query o) s (ended s done (bytesOf 8 negcap ++ leBytes 48 (Config.fusedKey m 0).toNat ++
      leBytes 48 (Config.fusedKey m 1).toNat ++ leBytes 4 (Config.fusedMinVersion m).toNat ++ leBytes 4 x.fwVersion.toNat ++
      leBytes 4 x.monVersion.toNat ++ certificate m))) ∧
    -- R423: a quote and its signature by the identity key
    (o.ver = 1 → let quote := leBytes 48 o.arg.toNat ++ measurements s m
      Steps (.attest o) s (ended { s with fresh := s.fresh + 1 } done (quote ++
        leBytes 96 (Config.ecdsaSign (Config.identityKey (Config.fusedSeed m)) (Config.sha384 quote) s.fresh).toNat))) ∧
    (o.ver = 1 → x.heldEv = [] → Steps (.events o) s (ended (s.modModu m fun y => { y with ring := y.ring.drop 256 }) done
      ((x.ring.take 256).flatMap EvRec.bytes))) ∧
    (o.ver = 1 → Steps (.config o) s (ended (s.modModu m fun y => { y with qsplitNext := .ofNat 6 o.arg.toNat }) done [])) ∧
    (∀ c : MonitorCmd, c.module = m →
      (c.ver = 1 → let t := ended (s.modModu m fun y => { y with monImage := some c.image }) done []
        Steps (.monitor c) s (if x.step = 4 ∧ x.stuck = false then t.post ⟨s.now, fromModule m, atModule m, .bringUp ⟨m, none⟩⟩ else t)) ∧
      (c.ver ≠ 1 → Steps (.monitor c) s (ended s 2 []))) ∧
    -- R420: a key slot is revoked only while the other holds a key
    (∀ k, k < 2 → o.ver = 1 → o.arg.toNat % 256 = k → Steps (.fuseRevoke o) s (if Config.keyFused m (1 - k) then
      ended (s.modModu m fun y => { y with revoked := y.revoked ||| .ofNat 2 (2 ^ k) }) done [] else ended s Config.statusRefused [])) ∧
    (o.ver = 1 →
      ((s.link m (o.arg.toNat % 32)).state = .failed → Steps (.linkclr o) s (ended (s.modModu m fun y =>
        { y with routes := y.routes.filter fun e => e.2.link != o.arg.toNat % 32 }) done [])) ∧
      ((s.link m (o.arg.toNat % 32)).state ≠ .failed → Steps (.linkclr o) s (ended s Config.statusRefused []))) ∧
    -- R427: a report enters the ring, or waits and folds
    (∀ r : Report, r.module = m →
      let e := EvRec.ofReport r
      (x.ring.length < Config.eventRing → r.job = none → Steps (.eventReport r) s (s.modModu m fun y =>
        { y with ring := y.ring ++ [{ e with seq := y.evSeq }], evSeq := y.evSeq + 1, msix := y.msix ++ [(0, 0, 0), (1, 0, 0)] })) ∧
      (Config.eventRing ≤ x.ring.length → x.heldEv = [] → Steps (.eventReport r) s (s.modModu m fun y => { y with heldEv := [e] })) ∧
      (Config.eventRing ≤ x.ring.length → ∀ h, x.heldEv = [h] → EvRec.folds h e = true → Steps (.eventReport r) s (s.modModu m fun y =>
        { y with heldEv := [{ h with count := min 0xFFFF (h.count + 1) }] }))) ∧
    -- R428, R429: a soft error that a unit corrects counts in its SECOR, and every 2^16 of them are reported; an uncorrectable one stands
    -- until it is written over
    (∀ (d cls idx : Nat) (a : Word), idx < classSize cls →
      let u := s.modDie d fun y => { y with errsel := .ofNat 12 (cls * 128 + idx) }
      let t := befall u (.soft d cls idx a)
      errCount t d = errCount u d + 1 <<< 32 ∧ t.threads = s.threads ∧ t.cores = s.cores ∧ t.hbm = s.hbm ∧
      (bits (errCount t d) 47 32 ≠ 0 → t.agenda = s.agenda) ∧
      (bits (errCount t d) 47 32 = 0 → ∃ f r, t.agenda = s.agenda ++ [f] ∧ f.ev = .eventReport r ∧ r.kind = 0 ∧ r.cls = cls ∧ r.index = idx ∧ r.addr = (if cls = 3 ∨ cls = 4 ∨ cls = 8 then 0 else a) ∧
        r.detail.toNat = (errCount t d).toNat)) ∧
    (∀ n : Nat, (befall s (.line n)).badLine (n * 128) = true ∧ ((befall s (.line n)).clearBad (n * 128)).badLine (n * 128) = false) ∧
    (∀ c n : Nat, n < 0x10000 → ∀ k, k < 8 → scratchPoisoned ((befall s (.word c n)).core c) (8 * n + k) 1 = true) ∧
    -- R419, R420: the steps of bring-up, in their order
    (∀ f : Found,
      let named := s.modModu m fun y => { y with firmware := imageDigest f.firmware, fwVersion := f.firmware.version, step := 1 }
      let bad := f.badEdges.filter fun e => edgeExists e.1 e.2
      let passed (t : State) (n : Nat) : State := t.modModu m fun y => { y with step := n }
      let runs (t : State) : Prop := Steps (.bringUp ⟨m, some f⟩) s t
      (x.step ≠ 0 ∨ x.stuck = true → runs s) ∧
      (x.step = 0 → x.stuck = false →
        -- firmware that does not authenticate ends it at step 1, whatever else stands
        let first (t : State) : State := if authentic m x f.firmware then t else failStep s m 1
        (bad ≠ [] → runs (first (failStep (reportEdges m bad named) m 2))) ∧
        (bad = [] → f.stacksOk = false ∨ boundsOk s m = false → runs (first (failStep named m 2))) ∧
        (bad = [] → f.stacksOk = true → boundsOk s m = true →
          let cleared := passed (clearMemory named m) 3
          (f.pcie = false → runs (first (failStep cleared m 4))) ∧
          (f.pcie = true → runs (first (if x.monImage.isSome then
            (passed cleared 4).post ⟨s.now, fromModule m, atModule m, .bringUp ⟨m, none⟩⟩ else passed cleared 4)))))) ∧
    -- step 5, which waits for a MONITOR command
    (x.step ≠ 4 ∨ x.stuck = true ∨ x.monImage = none → Steps (.bringUp ⟨m, none⟩) s s) ∧
    (∀ i, x.step = 4 → x.stuck = false → x.monImage = some i →
      ∃ t : State, Steps (.bringUp ⟨m, none⟩) s t ∧ (authentic m x i = false → t = failStep s m 5) ∧
      (authentic m x i = true → (t.modu m).step = 5 ∧ (t.modu m).present = true ∧ (t.modu m).monitor = imageDigest i ∧ (t.modu m).monVersion = i.version ∧
        (t.thread (m * 6144 * 16)).status = .ready ∧ (t.thread (m * 6144 * 16)).ctx.mode = .monitor ∧
        (t.thread (m * 6144 * 16)).ctx.pc = .ofNat 64 (i.entry.toNat * 4) ∧
        ∀ k, k < i.body.length → frameModule (i.base.toNat + k) = m → t.peek (i.base.toNat + k) = i.body.getD k 0)) ∧
    (∀ n : Nat, ((failStep s m n).modu m).stuck = true ∧ ((failStep s m n).modu m).step = x.step ∧
      ((failStep s m n).modu m).mbox.status = .ofNat 8 n) ∧
    -- R419, R421: reset
    ∃ t : State, Steps (.reset ⟨m⟩) s t ∧
      (∀ g, moduleOf (coreOf g) = m → t.thread g = Thread.empty) ∧ (∀ c, moduleOf c = m → t.core c = Core.empty) ∧
      (∀ g, sliceModule g = m → t.slice g = Slice.empty) ∧ (∀ d, dieModule d = m → t.die d = Die.empty) ∧
      (∀ c, moduleOf c ≠ m → t.core c = s.core c) ∧ (∀ g, moduleOf (coreOf g) ≠ m → t.thread g = s.thread g) ∧
      (t.modu m).resetAt = s.now ∧ (t.modu m).qsplit = (if 32 < x.qsplitNext.toNat then 16 else x.qsplitNext) ∧
      (t.modu m).revoked = x.revoked ∧ (t.modu m).step = 0 ∧ (t.modu m).stuck = false ∧ t.hbm = s.hbm ∧ t.pending = s.pending

/-- R413 to R418: a member of a collective joins and waits; the collective runs once all have joined; a copy; completion, a cancel
notice, a timeout. Where the spec leaves a point open, the statement says the model's choice (notes/assumptions: 67, 107). -/
def Obligations.CollectiveSteps : Prop :=
  ∀ (s : State) (c : Coll),
    let joined : State := (s.modModu c.module fun x => { x with colls := x.colls ++ [⟨c, s.now⟩] }).later (collTimeout s c.module)
      (fromModule c.module) (atModule c.module) (.collectiveTimeout ⟨c.module, c.job, c.tag⟩)
    let ended (t : State) (code written : Nat) (f : Option FaultRec) : State :=
      (t.modModu c.module fun x => { x with colls := x.colls.filter fun w => w.c != c }).post
        ⟨t.now, fromModule c.module, atModule c.module, .collectiveCompletion ⟨c, code, 0, written, f⟩⟩
    (∀ i, i ∈ [Instr.collectiveAllreduce, .collectiveBroadcast] →
      ((∀ w, w ∈ collWaits joined c.job c.tag → collJoined joined w.c = none) → Steps (i c) s joined) ∧
      ∀ w rest ws, collWaits joined c.job c.tag = w :: rest → collJoined joined w.c = some ws →
        ((ws.any fun y => !sameHeader y.c w.c) = true → Steps (i c) s (endColls 4 ws joined)) ∧
        ((ws.any fun y => !sameHeader y.c w.c) = false → collLinks joined w.c = true → (runCollective joined w.c ws).linkHeld = false →
          Steps (i c) s (runCollective joined w.c ws)) ∧
        ((ws.any fun y => !sameHeader y.c w.c) = false → collLinks joined w.c = false → Steps (i c) s joined)) ∧
    -- R415: the reduced elements, one after another
    (∀ (srcs : Table (List Byte)) (j n : Nat), (collReduce c srcs j n).1.length = n * collBytes c.type) ∧
    (∀ (srcs : Table (List Byte)) (j n : Nat), (collReduce c srcs j (n + 1)).1.take (collBytes c.type) =
      leBytes (collBytes c.type) ((treeGo (collNode c.op c.type) 6 (collLeaves (collBytes c.type) j srcs) 0).1.getD 0)) ∧
    -- R414: copies between host and device
    (∀ u n f, collWrite s c (hostBytes s c.module (collPort c) (collFunc c) c.src.toNat c.bytes) = (u, n, f) → u.linkHeld = false →
      Steps (.hostToDevice c) s (ended u (if f.isSome then 2 else 1) n f)) ∧
    (∀ u bs, collRead s c = (u, .ok bs) → u.linkHeld = false → Steps (.deviceToHost c) s
      (ended (hostStore u c.module (collPort c) (collFunc c) c.dst.toNat bs) 1 c.bytes none)) ∧
    (∀ u f, collRead s c = (u, .error f) → u.linkHeld = false → Steps (.deviceToHost c) s (ended u 2 0 (some (collFaultRec c f)))) ∧
    -- R416: STATUS, then the counter
    (∀ (code flags written : Nat) (f : Option FaultRec) (u : State),
      let d : CollDone := ⟨c, code, flags, written, f⟩
      code < 5 → c.gti < 2 ^ 34 → (tfind u.threads c.gti).isSome = true →
      underMode s c.gti c.user (fun t => writeBytes t c.gti c.desc (bytesOf 8 (collStatus d)) .store gkStore) = (u, .ok ()) → u.linkHeld = false →
      Steps (.collectiveCompletion d) s (bump (u.modThread c.gti fun t =>
        { t with engines := t.engines - 1
                 eng := match f with
                   | none => t.eng
                   | some y => t.eng ++ [⟨some c.ctr, 0, y⟩] }) c.core c.ctr c.job)) ∧
    (∀ code flags written : Nat, code < 16 → flags < 16 → written < 2 ^ 24 →
      collStatus ⟨c, code, flags, written, none⟩ = .ofNat 64 (code * 2 ^ 60 + flags * 2 ^ 56 + written)) ∧
    -- R417: a discarded copy, whose STATUS goes to the own scratchpad alone, and whose counter rises
    (∀ (flags written : Nat) (f : Option FaultRec),
      let d : CollDone := ⟨c, 6, flags, written, f⟩
      1 < c.kind → c.gti < 2 ^ 34 → (tfind s.threads c.gti).isSome = true →
      let u := if bits c.desc 63 60 = 1 ∨ (bits c.desc 63 60 = 2 ∧ bits c.desc 59 57 = c.core % 8) then scratchWrite s c.core (bits c.desc 18 0) (bytesOf 8 (collStatus d)) else s
      Steps (.collectiveCompletion d) s (bump (u.modThread c.gti fun t => { t with engines := t.engines - 1 }) c.core c.ctr c.job)) ∧
    -- R417: a notice, and a timeout
    ∀ o : CollRef, o.module = c.module →
      (collWaitAt s o.job o.tag o.module = none → Steps (.collectiveCancelNotice o) s s ∧ Steps (.collectiveTimeout o) s s) ∧
      ∀ w, collWaitAt s o.job o.tag o.module = some w →
        (w.c = c → Steps (.collectiveCancelNotice o) s (ended s 2 0 none)) ∧
        (s.now < w.since + collTimeout s o.module → (∀ y ∈ collWaits s o.job o.tag, collJoined s y.c = none) → w.c.module = o.module →
          Steps (.collectiveTimeout o) s (s.later (w.since + collTimeout s o.module - s.now) (fromModule o.module) (atModule o.module)
            (.collectiveTimeout ⟨o.module, w.c.job, w.c.tag⟩))) ∧
        (w.since + collTimeout s o.module ≤ s.now → Steps (.collectiveTimeout o) s
          (endColls 3 ((collMembers w.c).filterMap (collWaitAt s o.job o.tag)) (s.report (timeoutReport w.c))))

/-- R30, R159, R160, R187, R199, R214, R281, R296, R297: what reaches a thread from outside its own issue, and what its issue takes in
place of a word. Where the spec leaves a point open, the statement says the model's choice (notes/assumptions: 23, 77). -/
def Obligations.ThreadEvents : Prop :=
  ∀ (s : State) (g : Nat), g < 2 ^ 33 → (tfind s.threads g).isSome = true →
    let h := s.thread g
    let core := coreOf g
    let lone (e : Outst) : Prop := h.out = [e] ∧ e.parts = 1 ∧ e.fault = none
    let landed (f : Thread → Thread) : State := s.modThread g fun t => f { t with out := [] }
    let awaited (e : Outst) : Bool := e.id + 1 == h.nextId && match h.status with
      | .waiting .answer | .waiting (.tile _ _ _) | .waiting (.stall _ _) => true
      | _ => false
    -- R159: the last part of a result writes its register; an instruction that waits for an answer goes on
    (∀ (e : Outst) (n : Nat) (sign : Bool) (d : Nat) (bs : List Byte), lone e → e.dest = .x d n sign → e.buf = [] → bs.length = n → awaited e = false →
      (n = 1 ∨ n = 2 ∨ n = 4 ∨ n = 8) →
      Steps (.resultReturn ⟨g, e.id, .bytes 0 bs, none⟩) s (landed fun t => t.setX d (.ofInt 64 (intVal (8 * n) sign (leNat bs))))) ∧
    (∀ (e : Outst) (d : Nat) (v : Word) (fl : Flags), lone e → e.dest = .regs [d] [] → awaited e = false →
      Steps (.resultReturn ⟨g, e.id, .regs [(d, v)] [] fl, none⟩) s (landed fun t => (t.setX d v).orFlags fl)) ∧
    (∀ (e : Outst) (d : Nat) (v : Word), lone e → h.status = .waiting .answer → e.id + 1 = h.nextId →
      Steps (.resultReturn ⟨g, e.id, .regs [(d, v)] [] 0, none⟩) s
        (landed fun t => { t.setX d v with status := .ready, stage := .answered v })) ∧
    (∀ (id : Nat) (v : ResultVal), h.out = [] → Steps (.resultReturn ⟨g, id, v, none⟩) s s) ∧
    -- R30, R198: a fault response pends, or joins those of posted stores in their order
    (∀ (f : FaultRec), f.task = h.ctx.task → Steps (.faultResponse ⟨g, none, none, 0, f⟩) s
      (s.modThread g fun t => { t with pend := t.pend ++ [f] })) ∧
    (∀ (e : Outst) (f : FaultRec), lone e → e.task = h.ctx.task → Steps (.faultResponse ⟨g, some e.id, none, 0, f⟩) s
      (s.modThread g fun t => { t with out := [], pend := t.pend ++ [{ f with task := e.task }] })) ∧
    (∀ (c : PostCtr) (off : Nat) (f : FaultRec), h.stf = [] → f.task = h.ctx.task → Steps (.faultResponse ⟨g, none, some c, off, f⟩) s
      (s.modThread g fun t => { t with ctx := t.ctx.setCount c (t.ctx.count c - 1), stf := [⟨c, off, f⟩] })) ∧
    -- R198: a late fault of a discarded task is only counted, in the record that names the task
    (∀ (f : FaultRec), f.task ≠ h.ctx.task → h.gone.contains f.task = true →
      let more (r : CauseRec) : CauseRec := { r with more := .ofNat 8 (min 255 (r.more.toNat + 1)) }
      let here := h.ctx.cause.disc = true ∧ h.ctx.cause.task = f.task
      let there := h.ctx.mcause.disc = true ∧ h.ctx.mcause.task = f.task
      (here → Steps (.faultResponse ⟨g, none, none, 0, f⟩) s (s.modCtx g fun c => { c with cause := more c.cause })) ∧
      (¬here → there → Steps (.faultResponse ⟨g, none, none, 0, f⟩) s (s.modCtx g fun c => { c with mcause := more c.mcause })) ∧
      (¬here → ¬there → Steps (.faultResponse ⟨g, none, none, 0, f⟩) s s)) ∧
    -- R199: a fault that pends is taken by a trap entry, whose effect TrapEntrySaves states; R160: an interrupt's; R214: a single step's
    (∀ (f : FaultRec), h.pend = [f] →
      Steps (.trapEntry ⟨g, f⟩) s (enter (s.modThread g fun t => { t with pend := [] }) g f)) ∧
    (∀ (i : Instr × Cause), i ∈ [(Instr.singleStep ⟨g⟩, Cause.singleStep), (.interruptEntry ⟨g, 2⟩, .interrupt)] → h.pend = [] →
      canAbandon s g = false → h.ctx.mode ≠ .monitor → h.ctx.cause.live = false → ∃ t : State,
      Steps i.1 s t ∧ (t.thread g).ctx.mode = .supervisor ∧ (t.thread g).ctx.epc = h.reportPc ∧ (t.thread g).ctx.pmode = h.ctx.mode ∧
        (t.thread g).ctx.pie = h.ctx.ie ∧ (t.thread g).ctx.ie = false ∧ (t.thread g).ctx.pc = .ofNat 64 (h.ctx.svec.toNat * 4) ∧
        (t.thread g).ctx.cause.live = true ∧ (t.thread g).ctx.cause.cause = .ofNat 8 i.2.code ∧ (t.thread g).ctx.x = h.ctx.x ∧
        t.cores = s.cores ∧ t.slices = s.slices ∧ t.pending = s.pending) ∧
    -- R160, R281: interrupts that become pending
    (Steps (.timerInterrupt ⟨g⟩) s (s.modCtx g fun c => { c with ipend := s.ipend g })) ∧
    (∀ (o : SoftIrq), o.core * 16 + o.slot = g →
      let here := h.status ≠ .absent ∧ h.ctx.ids.job = o.job
      (here → Steps (.softInterruptDelivery o) s (answer (s.modCtx g fun c => { c with ipend := c.ipend ||| 1 }) (fromThread (o.core * 16)) o.gti o.id
        (.regs [(o.d, 0)] [] 0) none)) ∧
      (¬here → Steps (.softInterruptDelivery o) s (answer s (fromThread (o.core * 16)) o.gti o.id (.regs [(o.d, 1)] [] 0) none))) ∧
    -- R187, R296, R297: a message to scratchpad and a counter, and one to a receive queue
    (∀ o : Msg, o.gti = g →
      let k := tget Arrival.zero (s.core o.core).arrivals o.ctr
      (k.owner ≠ o.job → Steps (.msendDelivery o) s (ackPost (bump s o.core o.ctr o.job) g o.post)) ∧
      (k.owner = o.job → guarded (s.core o.core) o.pos 8 = false → Steps (.msendDelivery o) s
        (ackPost (bump (scratchWrite s o.core o.pos (bytesOf 8 o.payload)) o.core o.ctr o.job) g o.post)) ∧
      ((s.core o.core).rqOwner ≠ o.job → ∃ r : Report, r.kind = 8 ∧ Steps (.qputDelivery o) s
        (ackPost ((s.modCore o.core fun c => { c with acrej := c.acrej + 1 }).report r) g o.post)) ∧
      ((s.core o.core).rqOwner = o.job → (s.core o.core).rq.length < Config.recvQueue → (s.core o.core).saved = [] →
        Steps (.qputDelivery o) s (ackPost (s.modCore o.core fun c => { c with rq := c.rq ++ [o.payload] }) g o.post)) ∧
      ((s.core o.core).rqOwner = o.job → Config.recvQueue ≤ (s.core o.core).rq.length →
        Steps (.qputDelivery o) s (s.urge ⟨s.now, fromThread g, atCore o.core, .qputDelivery o⟩))) ∧
    -- R187: an increment by a job that does not own the counter
    ∀ n, (tget Arrival.zero (s.core core).arrivals n).owner ≠ h.ctx.ids.job →
      ((bump s core n h.ctx.ids.job).core core).acrej = (s.core core).acrej + 1 ∧
      ((bump s core n h.ctx.ids.job).core core).arrivals = (s.core core).arrivals

/-- R157, R162 to R164, R170, R180 to R184, R189 to R192, R206 to R212: the loader and the start of threads, wakes and shares, work
lists, migrant packets, cancels, and the saving of contexts. Where the spec leaves a point open, the statement says the model's choice
(notes/assumptions: 23, 25, 26, 35, 76, 78, 107, 110). -/
def Obligations.CoreTables : Prop :=
  ∀ (s : State) (core : Nat), core < 2 ^ 29 →
    let c := s.core core
    let cancelled (ids : Ids) : Bool := cancelledAt s (moduleOf core) ids
    let held (w : Dandelion) : Prop := w.first ≤ core ∧ core < w.first + w.count
    let queued (t : State) (q : Share) : State := t.modCore core fun k => { k with shares := k.shares ++ [q] }
    -- R180 to R183: a wake outside its range, without room, of a cancelled launch, of an empty share, and of one with threads
    (∀ w : Dandelion, ¬held w → Steps (.dandelionWake ⟨core, w⟩) s s) ∧
    (∀ w : Dandelion, held w → sharesFull c = true → cancelled w.ids = false →
      Steps (.dandelionWake ⟨core, w⟩) s (s.urge ⟨s.now, fromModule (moduleOf core), atCore core, .dandelionWake ⟨core, w⟩⟩)) ∧
    (∀ w : Dandelion, held w → cancelled w.ids = true → Steps (.dandelionWake ⟨core, w⟩) s (queued s (noShare w 1)).reportAll) ∧
    -- R169, R181, R188, R190: a core's report, of the share that is done
    (∀ q : Share, shareDone s core q = true ↔ q.count = 0 ∧
      (∀ x, x ∈ s.liveCtx → x.ids = q.wake.ids → x.origin / 16 ≠ core) ∧
      (s.otherShare q.wake.ids core = true ∨ (∀ x, x ∈ s.liveCtx → x.ids ≠ q.wake.ids) ∧ s.entriesLeft q.wake.ids = false)) ∧
    (∀ (w : Dandelion) u d, held w → sharesFull c = false → cancelled w.ids = false →
      readRecord (s.home core w.ids.job) (moduleOf core) w.ids.job (w.mode == .user) w.shape s = (u, .ok d) → u.linkHeld = false →
      let v := u.noteEntries core w.ids.job w.shape.toNat
      let t := shapeExt d 0 * shapeExt d 1 * shapeExt d 2 * shapeExt d 3
      let h := shareOf d (core - w.first) w.count
      let share : Share := ⟨w, h.1, h.2.1, h.2.2, recField d 319 315, [shapeExt d 0, shapeExt d 1, shapeExt d 2, shapeExt d 3], 0⟩
      (shapeBad d = true → Steps (.dandelionWake ⟨core, w⟩) s (queued v (noShare w 2)).reportAll) ∧
      (shapeBad d = false → h.2.1 = 0 → Steps (.dandelionWake ⟨core, w⟩) s (queued v share).reportAll) ∧
      (shapeBad d = false → h.2.1 ≠ 0 → Steps (.dandelionWake ⟨core, w⟩) s ((queued v share).askLoader core)) ∧
      (recField d 314 314 = 0 → (List.range w.count).foldl (fun n i => n + (shareOf d i w.count).2.1) 0 = t)) ∧
    -- R184: the loader takes the highest priority
    (freeSlot s.reportAll core = none ∨ candidates s.reportAll core = [] → Steps (.loaderChoice ⟨core⟩) s s.reportAll) ∧
    (∀ slot k, freeSlot s.reportAll core = some slot → best (candidates s.reportAll core) = some k →
      Steps (.loaderChoice ⟨core⟩) s (load s.reportAll core slot k) ∧ ∀ q, q ∈ candidates s.reportAll core → q.prio ≤ k.prio) ∧
    -- R165, R183, R189: a thread starts in its slot, and its start is an acquire
    (∀ slot, slot < 16 → (s.lease (core * 16 + slot)).state = 1 → (s.lease (core * 16 + slot)).source ≤ 2 →
      ∃ t : State, Steps (.threadStart ⟨core, slot⟩) s t ∧ (t.thread (core * 16 + slot)).status = .ready ∧
        (t.thread (core * 16 + slot)).ctx.pc = (s.thread (core * 16 + slot)).ctx.pc ∧
        (t.thread (core * 16 + slot)).ctx.x = (s.thread (core * 16 + slot)).ctx.x) ∧
    (∀ slot, slot < 16 → (s.lease (core * 16 + slot)).state = 1 → (s.lease (core * 16 + slot)).source = 4 →
      ∃ t : State, Steps (.threadStart ⟨core, slot⟩) s t ∧ (t.thread (core * 16 + slot)).bypass = true ∧
        (t.thread (core * 16 + slot)).status = (if (s.thread (core * 16 + slot)).out = [] then .ready else .waiting .results)) ∧
    (∀ slot, (s.lease (core * 16 + slot)).state ≠ 1 → slot < 16 → Steps (.threadStart ⟨core, slot⟩) s s) ∧
    -- R191, R192: what a balance ships, and what its receiver has room for
    (∀ d, lowest s (neighbours core) = some d → c.work ≠ [] →
      let least := (s.die (dieOf core)).sxMin.toNat
      let n := c.work.length
      let k := min ((n - occupancy s d) / 2) 64
      (least = 0 ∨ n - occupancy s d < least → Steps (.sextantBalance ⟨core⟩) s (s.askSextant core)) ∧
      (least ≠ 0 → least ≤ n - occupancy s d → Steps (.sextantBalance ⟨core⟩) s
        ((s.askSextant core).post ⟨s.now, fromThread (core * 16), atCore d, .workListShipment ⟨core, d, c.work.drop (n - k)⟩⟩)) ∧
      ∀ e, e ∈ neighbours core → occupancy s d ≤ occupancy s e) ∧
    (∀ w : Shipment, w.target = core → w.source ≠ core →
      let kept := (s.core w.source).work
      let es := (stillHeld w.entries kept).take (Config.workList - c.work.length)
      ∃ t : State, Steps (.workListShipment w) s ((t.askLoader core).askSextant core).reportAll ∧
        (t.core core).work = c.work ++ es ∧ ((t.core w.source).work ++ es).Perm kept ∧
        ∀ a, kept = a ++ w.entries → c.work.length + w.entries.length ≤ Config.workList → es = w.entries ∧ (t.core w.source).work = a) ∧
    -- R162 to R164, R211, R212: a packet takes a free slot, enters the run queue, waits in the network, or is quarantined
    (∀ p : Packet, p.dest = core → p.near = false → cancelled p.ctx.ids = false →
      let slot := if (s.modu (moduleOf core)).suspended.contains p.ctx.ids.job then none else freeSlot s core
      let taken : Packet := { p with ctx := { p.ctx with tcmp := 0 } }
      (c.quarantine.isSome = true ∨ (p.corrupt = false ∧ p.fmt = 1 ∧ slot = none ∧ Config.runQueue ≤ c.runq.length) →
        Steps (.migrantPacketArrival p) s (s.urge ⟨s.now, fromThread (p.source * 16), atCore core, .migrantPacketArrival p⟩)) ∧
      (c.quarantine = none →
        (p.corrupt = true ∨ p.fmt ≠ 1 → ∃ r : Report, r.kind = 7 ∧ Steps (.migrantPacketArrival p) s
          ((s.modCore core fun k => { k with quarantine := some p }).report r)) ∧
        (p.corrupt = false → p.fmt = 1 → p.trem = 0 →
          (∀ n, slot = some n → Steps (.migrantPacketArrival p) s (loadInto s core n (ofPacket s core taken) p.prio 3 8)) ∧
          (slot = none → c.runq.length < Config.runQueue → Steps (.migrantPacketArrival p) s
            ((s.modCore core fun k => { k with runq := insertPacket taken k.runq }).askLoader core))))) ∧
    -- R170, R171: a cancel of a level that is complete, and one that stops what it covers
    (∀ k : CancelKey, levelLive s k = false → Steps (.cancelFlood ⟨core, k⟩) s s) ∧
    (∀ k : CancelKey, levelLive s k = true → Steps (.cancelFlood ⟨core, k⟩) s (tidyCancels (cancelCore s core k))) ∧
    -- R208, R210: a context is saved, and its row becomes FREE
    (∀ f slot, freeFrame s core = some f → victim s core = some slot → Steps (.preemption ⟨core⟩) s (saveContext s core slot f)) ∧
    (preemptDue s core = false → Steps (.preemption ⟨core⟩) s s) ∧
    (∀ slot, slot < 16 → Steps (.contextSaveDone ⟨core, slot⟩) s (freeRow s (core * 16 + slot))) ∧
    ∀ f x, tfind c.saved f = some x → (∃ a b, x.wake = .stall a b) → c.saved.map (·.1) = [f] →
      Steps (.sliceStallWake ⟨core, f⟩) s ((s.modCore core fun k => { k with saved := [(f, { x with wake := .unit })] }).askLoader core)

/-- R22, R50, R90 to R102, R110, R113, R115, R125, R126, R426: what a home slice, a copy slice and a scratchpad do with each request that
reaches them. Where the spec leaves a point open, the statement says the model's choice (notes/assumptions: 7 to 9, 22, 88 to 91, 101,
102). -/
def Obligations.HomeSteps : Prop :=
  ∀ s : State,
    let awake (g : Nat) : Prop := (s.slice g).asleep = false
    -- R50, R426: a request to a sleeping slice wakes it first
    (∀ (g : Nat) (x : Instr × Event) (r : HomeReq) (w : LineWrite) (c : Install) (a : AtomicReq), r.gslice = g → w.gslice = g → c.gslice = g →
      a.gslice = g → x ∈ [(Instr.lineFill r, Event.lineFill r), (.forwardedRead r, .forwardedRead r), (.speculativeStoreReceipt w, .speculativeStoreReceipt w),
        (.commitInstall c, .commitInstall c), (.fallBackAtomicGrant a, .fallBackAtomicGrant a)] → (s.slice g).asleep = true →
      Steps x.1 s ((s.urge ⟨s.now, senderOf g x.2, atSlice g, x.2⟩).urge ⟨s.now, fromSlice g, atSlice g, .sliceWake ⟨g⟩⟩)) ∧
    (∀ r : SliceRef, Steps (.sliceWake r) s (s.modSlice r.gslice fun x =>
      { x with asleep := false, lastServed := s.now, copies := x.copies.filter fun c => c.2.filling })) ∧
    (∀ r : SliceRef, let n := (s.die (sliceDie r.gslice)).slcfg.toNat
      (awake r.gslice → n ≠ 0 → (s.slice r.gslice).lastServed + 2 ^ max 16 n ≤ s.now →
        Steps (.sliceRetentionSleep r) s (s.modSlice r.gslice fun x => { x with asleep := true })) ∧
      (n = 0 ∨ s.now < (s.slice r.gslice).lastServed + 2 ^ max 16 n → Steps (.sliceRetentionSleep r) s s)) ∧
    -- R22, R30, R90, R93: a read at its home
    (∀ (r : HomeReq) (u : State) (h : HomeLine), awake r.gslice → r.copy = none →
      let job := r.job
      let line := r.addr / 128
      (∀ k, readFill s r = .error k →
        Steps (.lineFill r) s (refuseRead (s.serve r.gslice) (fromSlice r.gslice) r (mkFault .translation k r.ptr))) ∧
      (∀ l, tfind (s.slice r.gslice).lines (lineKey job line) = some l → permOk l.perms r.user false false = false →
        Steps (.lineFill r) s (refuseRead (s.serve r.gslice) (fromSlice r.gslice) r (mkFault .translation kPermission r.ptr))) ∧
      (readFill s r = .ok (u, h) →
        let q := committedLine (u.serve r.gslice) r.gslice job line (some r.core) (readWords r) h
        let data := if r.own then overlay (q.1.slice r.gslice) r.gti r.task job line q.2 else q.2
        let served := answer q.1 (fromSlice r.gslice) r.gti r.id (.bytes r.off (lineSlice data (r.addr % 128) r.size))
          (if r.fill then some ⟨r.core, job, line, r.gslice, data, h.perms, r.lru⟩ else none)
        let may := u.badLine h.frame = false ∧ collectDue u r.gslice job line (readWords r) = false
        (may → forwardDue u r.gslice job line (some r.core) (readWords r) = false → Steps (.lineFill r) s served) ∧
        (may → Steps (.forwardedRead r) s served) ∧
        (may → forwardDue u r.gslice job line (some r.core) (readWords r) = true → Steps (.lineFill r) s
          (u.urge ⟨u.now, fromThread r.gti, atSlice r.gslice, .forwardedRead r⟩)) ∧
        (u.badLine h.frame = false → collectDue u r.gslice job line (readWords r) = true →
          Steps (.lineFill r) s ((u.urge ⟨u.now, fromThread r.gti, atSlice r.gslice, .lineFill r⟩).urge
            ⟨u.now, fromSlice r.gslice, atSlice r.gslice, .collection ⟨r.gslice, job, line, readWords r⟩⟩)))) ∧
    -- R80: a set holds no more linear lines and copies than the slice's linear ways
    (∀ (g job line : Nat) (ok : Perms → Bool) (once : Bool) (u : State) (h : HomeLine),
      let full (t : State) : Prop := (residents (t.slice g) line).1.length + (residents (t.slice g) line).2.length ≤ linearWays s g
      homeFill s g job line ok once = .ok (u, h) → full s → full u ∧ ok h.perms = true) ∧
    -- R99, R101, R102: copies on other dies
    (∀ (r : HomeReq) (cs : Nat), r.copy = some cs → awake cs →
      let key := lineKey r.job (r.addr / 128)
      let v := s.serve cs
      (∀ c, tfind (v.slice cs).copies key = some c → c.filling = false → Steps (.copySliceMiss r) s
        (serveRead (v.modSlice cs fun x => { x with copies := tput x.copies key { c with used := s.now } }) (fromSlice cs) r c.data c.perms)) ∧
      (tfind (v.slice cs).copies key = none → Steps (.copySliceMiss r) s
        ((v.modSlice cs fun x => { x with copies := tput x.copies key ⟨true, false, 0, ⟨false, false, false, false⟩, 0, [r]⟩ }).send
          (fromSlice cs) (atSlice r.gslice) (.lineFill r)))) ∧
    (∀ (f : CopyFill) (c : CopyLine), awake f.gslice →
      let v := s.serve f.gslice
      let key := lineKey f.job f.line
      let gone := v.modSlice f.gslice fun x => { x with copies := tdel x.copies key }
      tfind (v.slice f.gslice).copies key = some c → c.filling = true → c.waiting = [] → f.fault = none →
      Steps (.copyFillArrival f) s (if c.marked = true ∨ linearWays s f.gslice = 0 then gone
        else (roomWay f.gslice f.line 16 gone).modSlice f.gslice fun x =>
          { x with copies := tput x.copies key ⟨false, false, f.data, f.perms, gone.now, []⟩ })) ∧
    (∀ (v : CopyInval) (cs : Nat), v.sharer = .copy cs → awake cs → ∃ t : State, Steps (.copyInvalidation v) s t ∧
      (∀ k c, (k, c) ∈ (t.slice cs).copies → inRange v k = true → c.filling = true ∧ c.marked = true) ∧
      (∀ k c, inRange v k = false → ((k, c) ∈ (t.slice cs).copies ↔ (k, c) ∈ ((s.serve cs).slice cs).copies))) ∧
    -- R90, R91: a store is held at its home; a commit installs it
    (∀ (w : LineWrite) (u : State), awake w.gslice →
      (storeCheck s w.gslice w.job w.line w.user w.once = .ok u → u.hasThread w.gti = true → (u.thread w.gti).ctx.task = w.task →
        Steps (.speculativeStoreReceipt w) s (ackPost (u.modSlice w.gslice fun x => addSpec x w.gti w.task w.job w.line w.user w.mask w.data) w.gti w.ctr)) ∧
      (∀ k, storeCheck s w.gslice w.job w.line w.user w.once = .error k → Steps (.speculativeStoreReceipt w) s (refuseWrite (s.serve w.gslice) w .translation k))) ∧
    (∀ (c : Install) (p : SpecLine), awake c.gslice →
      let found := (s.slice c.gslice).spec.find? fun p => p.gti == c.gti && p.task == c.task && p.job == c.job && p.line == c.line
      (found = none → Steps (.commitInstall c) s (commitAck s c.gti)) ∧
      (found = some p → ∀ u h, homeFill s c.gslice c.job c.line (fun q => permOk q p.user true false) false = .ok (u, h) →
        let v := settleRegd c.core c.job c.line p.mask c.gslice 16 u
        let n := writeNeeds v c.gslice c.job c.line (if sliceDie c.gslice = dieOf c.core then some c.core else none) (touched p.mask 16)
        (n.2 = [] → Steps (.commitInstall c) s (installBytes n.1 c p h)) ∧
        (n.2 ≠ [] → Steps (.commitInstall c) s (urgeAll (fromSlice c.gslice) (atSlice c.gslice) n.2
          (n.1.urge ⟨n.1.now, fromThread c.gti, atSlice c.gslice, .commitInstall c⟩))))) ∧
    (∀ (a : Nat) (p : SpecLine) (k : Nat), k < 128 → (s.pokeMasked a p.mask.toNat (lineBytes p.data)).peek (a + k) =
      if p.mask.getLsbD k then lineByte p.data k else s.peek (a + k)) ∧
    -- R92, R125: a write that is not speculative
    (∀ (w : HomeWrite) (u : State) (h : HomeLine), awake w.w.gslice → 
      homeFill s w.w.gslice w.w.job w.w.line (fun p => permOk p w.w.user true false) w.w.once = .ok (u, h) →
      w.w.mask ≠ .ofNat 128 (2 ^ 128 - 1) → w.comm = none →
      let n := writeNeeds u w.w.gslice w.w.job w.w.line none (touched w.w.mask 16)
      n.2 = [] → Steps (.nonSpeculativeHomeWrite w) s
        (volDone (ackPost ((n.1.serve w.w.gslice).pokeMasked h.frame w.w.mask.toNat (lineBytes w.w.data)) w.w.gti w.w.ctr) w.w.gti w.vol)) ∧
    -- R93, R94, R100: registrations and regions
    (∀ (w : WordRef) (r : Reg), tfind (s.slice w.gslice).regs (wordKey w.job w.word) = some r →
      (r.core = w.core → Steps (.revoke w) s (doRevoke s w.gslice w.core w.job w.word)) ∧ (r.core ≠ w.core → Steps (.revoke w) s s)) ∧
    (∀ (g core job word : Nat), tfind ((doRevoke s g core job word).slice g).regs (wordKey job word) = none ∧
      ((doRevoke s g core job word).slice g).cohrevoke = (s.slice g).cohrevoke + 1) ∧
    (∀ (d : Dereg), awake d.gslice → ∃ t : State, Steps (.deregistration d) s (untrack t d.gslice d.job d.line) ∧
      ∀ w r, w < 16 → d.words.getLsbD w = true → tfind (t.slice d.gslice).regs (wordKey d.job (d.line * 16 + w)) = some r → r.core ≠ d.core) ∧
    (∀ r : SliceRef, Steps (.regionMerge r) s (s.modSlice r.gslice fun x =>
      { x with regions := (mergedRegions s r.gslice).1, cohmerge := x.cohmerge + .ofNat 64 (mergedRegions s r.gslice).2 })) ∧
    -- R108 to R110: contributions
    (∀ n : CommFlush, awake n.gslice → ((s.slice n.gslice).comm.any fun d => d.key.job == n.key.job && d.key.word == n.key.word) = false →
      (s.slice n.gslice).comm.length < Config.commDir →
      Steps (.holderNotice n) s ((s.serve n.gslice).modSlice n.gslice fun x => { x with comm := x.comm ++ [addHolder n.gslice n.core ⟨n.key, 0, 0, 0⟩] })) ∧
    (∀ n : CommFlush, awake n.gslice → Steps (.commutativeFlush n) s
      (mergeEntry s n.core ⟨n.key, n.user, n.gslice, n.value, n.contrib⟩)) ∧
    (∀ l : LineRef, ∃ t : State, Steps (.collection l) s t ∧ collectDue t l.unit l.job l.line l.words = false) ∧
    (∀ (x : Nat) (k : CommKey) (v : Word) (a : Nat), wordFrame s x k.job k.word = some a →
      applyComm s x k v = s.pokes (a + keyOff k)
        (bytesOf (keyBytes k) (atomicNew k.op (keyBytes k) (wordOf (s.peeks (a + keyOff k) (keyBytes k))) v 0))) ∧
    -- R113: a fall-back atomic is performed on the word that its home grants
    (∀ (a : AtomicReq) (u : State) (h : HomeLine), awake a.gslice →
      let word := a.addr / 8
      let filled := homeFill s a.gslice a.job (a.addr / 128) (fun p => permOk p a.user true false) a.once
      (∀ k, filled = .error k → Steps (.fallBackAtomicGrant a) s (refuseAtomic (s.serve a.gslice) a .translation k)) ∧
      (filled = .ok (u, h) → u.badLine h.frame = false → a.size = 8 → a.addr % 8 = 0 →
        let n := writeNeeds u a.gslice a.job (a.addr / 128) (some a.core) [word % 16]
        n.2 = [] →
        let v := n.1.serve a.gslice
        let old := currentWord v a.gslice a.job word (h.frame + 8 * (word % 16))
        let r := atomicRes a.op 8 old a.v a.cmp a.rm
        let t := grantL1 (register v a.gslice a.job word a.core true) a h.perms (low 8 r.1)
        Steps (.fallBackAtomicGrant a) s (answer t (fromSlice a.gslice) a.gti a.id
          (.regs [(resultReg t a.gti a.id, oldValue a.op 8 old)] [] (if a.nf then 0 else r.2)) none))) ∧
    -- R115, R126: another core's scratchpad
    (∀ r : RemoteRead, r.size ≤ 8 → guarded (s.core r.core) r.pos r.size = false → scratchPoisoned (s.core r.core) r.pos r.size = false →
      Steps (.remoteScratchpadRead r) s (answer s (fromThread (r.core * 16)) r.gti r.id (.bytes r.off (scratchBytes s r.core r.pos r.size)) none)) ∧
    -- R428, R429: a poisoned word is found where it lies, counted and reported there, and its reader receives the fault
    (∀ r : RemoteRead, r.size ≤ 8 → guarded (s.core r.core) r.pos r.size = false → scratchPoisoned (s.core r.core) r.pos r.size = true →
      ∃ u : State, Steps (.remoteScratchpadRead r) s (refuse u (fromThread (r.core * 16)) r.gti (some r.id) none r.off
          { mkFault .poison 2 r.ptr with pc := some r.pc, task := (s.thread r.gti).ctx.task }) ∧
        u.cores = s.cores ∧ u.threads = s.threads ∧ u.hbm = s.hbm ∧ u.pending = s.pending ∧
        ∃ f p, u.agenda = s.agenda ++ [f] ∧ f.ev = .eventReport p ∧ p.kind = 1 ∧ p.addr = r.ptr) ∧
    -- R110, R429: a contribution to a poisoned line changes nothing of it
    (∀ (n : CommFlush) (u : State) (h : HomeLine), awake n.gslice →
      homeFill (ackContrib (postClass n.core n.gslice) n.contrib (s.serve n.gslice)) n.gslice n.key.job (n.key.word / 16)
        (fun p => permOk p n.user true false) false = .ok (u, h) → u.badLine h.frame = true →
      ∃ t : State, Steps (.commutativeFlush n) s t ∧ t.hbm = u.hbm ∧ t.pending = u.pending ∧ t.cores = u.cores ∧ t.slices = u.slices) ∧
    ∀ (w : RemoteWrite) (b : Byte), w.data = [some b] →
      (guarded (s.core w.core) w.pos 1 = true → Steps (.remoteScratchpadWrite w) s
        (volDone (ackPosts (remoteGuard s w.gti gkStore w.ptr w.pc) w.gti .pd w.count) w.gti w.vol)) ∧
      (guarded (s.core w.core) w.pos 1 = false → (s.core w.core).scratchBad = [] → Steps (.remoteScratchpadWrite w) s
        (volDone (ackPosts (s.modCore w.core fun c => { c with scratch := Memory.put c.scratch w.pos b }) w.gti .pd w.count) w.gti w.vol))

/-- R36 to R60, R146: what the home of a tile version does with each request that reaches it, and the notices and reports that follow.
Where the spec leaves a point open, the statement says the model's choice (notes/assumptions: 39, 92, 103, 105). -/
def Obligations.TileSteps : Prop :=
  ∀ s : State,
    let awake (g : Nat) : Prop := (s.slice g).asleep = false
    let tile (r : TileRef) : Option TileEntry := (s.serve r.gslice).tile r
    -- no uncorrectable error stands in the data of a version (R44)
    let clean (t : State) (r : TileRef) (e : TileEntry) : Prop := findError t r e = (t, e)
    -- R36 to R40, R49, R51: a create
    (∀ (c : TileCreate) (task : BitVec 32), c.task = some task → awake c.t.gslice →
      let v := s.serve c.t.gslice
      (∀ e, tile c.t = some e → e.st ≠ .awaited →
        Steps (.ephemerisCreate c) s (tileRefuse v c.t c.gti c.id task (tileFault kWriteOnce c.t c.pc))) ∧
      (tile c.t = none → windowOk (v.slice c.t.gslice) c.t = false →
        Steps (.ephemerisCreate c) s (tileRefuse v c.t c.gti c.id task (tileFault kVersionWindow c.t c.pc))) ∧
      (tile c.t = none → windowOk (v.slice c.t.gslice) c.t = true → (v.slice c.t.gslice).stalls = [] →
        (v.slice c.t.gslice).tiles.length < Config.ephemeris → ∀ hbm block, storageFor v c.t.gslice c.size c.hbm = some (hbm, block) →
        let e : TileEntry := { TileEntry.awaited with
          st := .pending, size := c.size, hbm := hbm, block := block, hold := c.count == 65535, count := c.count, task := task, data := c.data }
        Steps (.ephemerisCreate c) s (tileAck ((clearBlock v c.t e).setTile c.t e) c.t c.gti c.id)) ∧
      (tile c.t = none → windowOk (v.slice c.t.gslice) c.t = true → Config.ephemeris ≤ (v.slice c.t.gslice).tiles.length →
        Steps (.ephemerisCreate c) s (stallOp v c.t.gslice (.ephemerisCreate c) .entries c.t.job (tileHandle c.t) c.gti)) ∧
      (tile c.t = none → windowOk (v.slice c.t.gslice) c.t = true → (v.slice c.t.gslice).stalls = [] →
        (v.slice c.t.gslice).tiles.length < Config.ephemeris → storageFor v c.t.gslice c.size c.hbm = none →
        Steps (.ephemerisCreate c) s (stallOp v c.t.gslice (.ephemerisCreate c) (if c.hbm then .hbm else .sram) c.t.job (tileHandle c.t) c.gti))) ∧
    -- R36, R39, R44, R306: a load of a PRESENT version, of one whose data holds an uncorrectable error, and one that must wait
    (∀ (l : TileLoad) (g id : Nat) (e : TileEntry), l.client = .thread g id → awake l.t.gslice →
      let v := s.serve l.t.gslice
      (tile l.t = some e → (e.st = .present ∨ e.st = .pending ∧ e.task = l.task) → e.poison = false → clean v l.t e → l.len ≠ 0 → l.consume = false →
        Steps (.ephemerisLoad l) s (answer (if e.hbm then holdFor v l.t.gslice e.block else v) (fromSlice l.t.gslice) g id
          (.bytes 0 (e.bytes l.off l.len)) none)) ∧
      (∀ k, tile l.t = some e → e.st = .present → e.hbm = false → e.poison = false → k ∈ (v.slice l.t.gslice).bad → inBlock e 0 k = true →
        ∃ t : State, t.tile l.t = some { e with poison := true } ∧
          Steps (.ephemerisLoad l) s ((tileRefuse t l.t g id l.task (tileFault kPoisonedTile l.t l.pc)).report (poisonReport l.t))) ∧
      (tile l.t = some e → e.st = .present → e.poison = false → clean v l.t e → l.len ≠ 0 → l.consume = true → e.hold = false → 1 < e.count →
        ∃ t : State, Steps (.ephemerisLoad l) s t ∧ t.tile l.t = some { e with count := e.count - 1 }) ∧
      (tile l.t = some e → e.st = .awaited → dieOf l.core = sliceDie l.t.gslice → Steps (.ephemerisLoad l) s (recordWaiter v l))) ∧
    -- R36, R41: a release
    (∀ (r : TileRelease), awake r.t.gslice →
      let v := s.serve r.t.gslice
      (∀ e, tile r.t = some e → e.st = .present → e.hold = true → e.pins = 0 →
        Steps (.ephemerisRelease r) s (tileAck (freeEntry v r.t e) r.t r.gti r.id)) ∧
      (∀ e, tile r.t = some e → e.st = .present → e.hold = true → e.pins ≠ 0 → Steps (.ephemerisRelease r) s
        (tileAck ((v.setTile r.t { e with st := .deferred }).modSlice r.t.gslice fun x => { x with tvdefer := x.tvdefer + 1 }) r.t r.gti r.id)) ∧
      (tile r.t = none → Steps (.ephemerisRelease r) s (tileRefuse v r.t r.gti r.id (v.thread r.gti).ctx.task (tileFault kTileState r.t r.pc)))) ∧
    -- R43: pins
    (∀ (r : TileRef) (g core ctr : Nat) (up : Bool) (pc : Word) (task : BitVec 32), awake r.gslice →
      let v := s.serve r.gslice
      let q : TilePin := ⟨r, .promotion g core ctr up pc task false⟩
      (∀ e, tile r = some e → e.st = .present → e.pins < 63 → Steps (.ephemerisPin q) s
        ((v.setTile r { e with pins := e.pins + 1, moves := e.moves + 1 }).post
          ⟨s.now, fromThread g, atSlice r.gslice, .promotionCompletion ⟨r, g, core, ctr, up, pc, task, false⟩⟩)) ∧
      (∀ e, tile r = some e → e.st = .present → 63 ≤ e.pins → Steps (.ephemerisPin q) s (v.setTile r { e with pinWait := e.pinWait ++ [q] })) ∧
      (tile r = none → Steps (.ephemerisPin q) s (engineDone v g core (some ctr)
        (some { engineFault 4 kTileState r pc with task := task }))) ∧
      -- R167: the task of a promotion that still waits for its pin has been discarded
      Steps (.ephemerisPin ⟨r, .promotion g core ctr up pc task true⟩) s (engineDone v g core (some ctr) none)) ∧
    (∀ (r : TileRef) (e : TileEntry), awake r.gslice → tile r = some e → e.pinWait = [] →
      let v := s.serve r.gslice
      (1 < e.pins → Steps (.ephemerisUnpin r) s (v.setTile r { e with pins := e.pins - 1 })) ∧
      (e.pins = 1 → e.st = .present → Steps (.ephemerisUnpin r) s (v.setTile r { e with pins := 0 })) ∧
      (e.pins = 1 → e.st = .deferred → Steps (.ephemerisUnpin r) s (freeEntry v r { e with pins := 0 }))) ∧
    -- R47, R48: the versions of a task that commits, and of one that is discarded
    (∀ (q : TileSettle), awake q.t.gslice →
      let v := s.serve q.t.gslice
      let acked (t : State) : State := t.modThread q.gti fun h => { h with acks := h.acks - 1 }
      (∀ e, tile q.t = some e → e.st = .pending → e.task = q.task → Steps (.ephemerisCommit q) s (acked (makePresent v q.t e))) ∧
      (∀ e, tile q.t = some e → e.task ≠ q.task → Steps (.ephemerisCommit q) s (acked v)) ∧
      (∀ e, tile q.t = some e → e.st = .pending → e.task = q.task → e.waiters = [] →
        ∃ t : State, Steps (.ephemerisDiscard q) s t ∧ t.tile q.t = none)) ∧
    (∀ w : WaiterRef, awake w.t.gslice →
      (opHeld s w = true → Steps (.waiterCancel w) s (abandonOp (s.serve w.t.gslice) w)) ∧
      (opHeld s w = false → Steps (.waiterCancel w) s s)) ∧
    -- R55 to R58: subscriptions and notices
    (∀ q : SubReq, awake q.t.gslice →
      let v := s.serve q.t.gslice
      (∀ u, tileSub v q false = .ok u → Steps (.subscriptionRecord q) s u) ∧
      (Config.subscriptions ≤ (v.slice q.t.gslice).subs.length →
        Steps (.subscriptionRecord q) s (stallOp v q.t.gslice (.subscriptionRecord q) .records q.t.job (tileHandle q.t) q.gti)) ∧
      ((v.slice q.t.gslice).subs.length < Config.subscriptions → (v.slice q.t.gslice).stalls = [] → (v.slice q.t.gslice).tiles = [] →
        tileSub v q false = .ok (tileAck (v.modSlice q.t.gslice fun x =>
          { x with subs := x.subs ++ [⟨q.t.job, q.t.name, q.t.ver, q.vlast, true, q.core, q.ctr, [], freeRecord (v.slice q.t.gslice)⟩] }) q.t q.gti q.id))) ∧
    (∀ n : Notice,
      (∀ c, n.ctr = some c → Steps (.arrivalNotice n) s (bump s n.core c n.job)) ∧
      (n.ctr = none → s.cores = [] → ∃ t : State, Steps (.arrivalNotice n) s t ∧ ∀ g, dieOf (coreOf g) = dieOf n.core →
        (s.thread g).ctx.ids.job = n.job → (s.thread g).status = .waiting (.tile (handleOf n.name n.ver) (sliceModule n.gslice) true) →
        (t.thread g).status = .ready)) ∧
    -- R51, R52: stalled operations
    (∀ r : SliceRef, awake r.gslice →
      ((s.slice r.gslice).stalls = [] → Steps (.stallResume r) s (s.modSlice r.gslice fun x => { x with latched := [] })) ∧
      ∀ y, (s.slice r.gslice).stalls = [y] → sealOp y.ev = false → ∀ u, retryOp (unstall (s.modSlice r.gslice fun x => { x with stalls := [] }) y) y.ev = .ok u →
        Steps (.stallResume r) s (u.modSlice r.gslice unlatch)) ∧
    (∀ (p : Pressure) (y : Stalled), ((s.slice p.gslice).stalls.find? fun y => y.res == p.res) = some y →
      ((s.slice p.gslice).latched.contains p.res = true → Steps (.pressureReport p) s s) ∧
      ((s.slice p.gslice).latched.contains p.res = false → s.now < y.since + thresh s p.gslice → Steps (.pressureReport p) s
        (s.later (y.since + thresh s p.gslice - s.now) (fromSlice p.gslice) (atSlice p.gslice) (.pressureReport p))) ∧
      ((s.slice p.gslice).latched.contains p.res = false → y.since + thresh s p.gslice ≤ s.now → ∃ r : Report, r.kind = 3 ∧ r.addr = y.handle ∧
        Steps (.pressureReport p) s ((s.modSlice p.gslice fun x => { x with latched := x.latched ++ [p.res] }).report r))) ∧
    -- R59, R60: the end of a promotion
    (∀ (p : Promotion), awake p.t.gslice → p.stopped = false →
      let ended (t : State) : State := engineDone (wakeStalls (tileUnpin t p.t) (sliceDie p.t.gslice)) p.gti p.core (some p.ctr) none
      (s.tile p.t = none → Steps (.promotionCompletion p) s (engineDone s p.gti p.core (some p.ctr) none)) ∧
      ∀ e, s.tile p.t = some e → e.poison = false → clean s p.t e → e.st = .present → e.hbm ≠ p.toHbm →
        let room := if p.toHbm then reserveBlock s p.t.gslice e.size else sramBlock s p.t.gslice e.size
        (∀ block, room = some block → Steps (.promotionCompletion p) s
          (ended (s.setTile p.t { e with hbm := p.toHbm, block := block, moves := e.moves - 1 }))) ∧
        (room = none → p.toHbm = false → Steps (.promotionCompletion p) s (ended (s.setTile p.t { e with moves := e.moves - 1 })))) ∧
    -- R146: a sample commit waits until its sequence admits it
    ∀ (q : FrameReq) (u : State), u.linkHeld = false →
      let c : SqAt := ⟨q.gti, coreOf q.gti, q.job, q.user, q.gslice, q.desc, q.ptr⟩
      (∀ x, sqFrame c q s = (u, some x) → Steps (.frameAdmission q) s (sqAnswer u c q.id q.pc x)) ∧
      (sqFrame c q s = (u, none) → Steps (.frameAdmission q) s (u.urge ⟨s.now, fromSlice q.gslice, atSlice q.gslice, .frameAdmission q⟩))

/-- R70, R73 to R76, R341, R342, R344, R370, R375: the elements of streams, a line of a strided transfer, the matrix unit's dispatch and
completion, the solver's operations, and a message to a mailbox. Where the spec leaves a point open, the statement says the model's
choice (notes/assumptions: 19, 27, 45, 66, 107). -/
def Obligations.EngineSteps : Prop :=
  ∀ s : State,
    -- R73, R74: an element fetched ahead, and an element written
    (∀ (g n : Nat) (u : State) (bs : List Byte),
      let x := (s.thread g).stream n
      let p := streamAddr x.desc x.engine
      let k := streamBytes x.desc
      let fetched (t : State) (e : Line × Option FaultRec) : State := kickStream (t.modThread g fun h =>
        h.setStream n { h.stream n with buf := (h.stream n).buf ++ [e], engine := (h.stream n).engine + 1 }) g n
      let may := x.mode = .fill ∧ x.drains = false ∧ x.engine < streamTotal x.desc
      (may → p.toNat % k = 0 → u.linkHeld = false → readBytes s g p k .streamFill true gkStream x.pc = (u, .ok bs) →
        Steps (.streamFillElement ⟨g, n⟩) s (fetched u (lineOf bs, none))) ∧
      (may → p.toNat % k ≠ 0 → Steps (.streamFillElement ⟨g, n⟩) s (fetched s (0, some (streamFault (mkFault .alignment 0 p) x.pc)))) ∧
      (streamTotal x.desc ≤ x.engine → Steps (.streamFillElement ⟨g, n⟩) s (kickStream s g n)) ∧
      (∀ l rest, x.buf = (l, none) :: rest → p.toNat % k = 0 → u.linkHeld = false → writeBytes s g p (lineSlice l 0 k) .streamDrain gkStream = (u, .ok ()) →
        Steps (.streamDrainWrite ⟨g, n⟩) s (kickStream (u.modThread g fun h =>
          h.setStream n { h.stream n with buf := rest, engine := x.engine + 1 }) g n)) ∧
      (x.buf = [] → Steps (.streamDrainWrite ⟨g, n⟩) s (kickStream s g n))) ∧
    -- R73: a stream whose strides are 0 keeps its place
    (∀ (d : BitVec 512) (n : Nat), (∀ k, k < 4 → streamStride d k = 0) → dbits d 155 153 = 0 → streamAddr d n = streamAddr d 0) ∧
    -- R75, R76: a line of a transfer: the next, or its end
    (∀ (h : Helio) (u : State) (bs : List Byte),
      let p : Word := h.src + .ofNat 64 (h.row * h.spitch + h.col)
      let n := min (h.rowbytes - h.col) (128 - p.toNat % 128)
      underMode s h.gti h.user (fun t => readBytes t h.gti p n .streamFill true gkLoad h.pc) = (u, .ok bs) → u.linkHeld = false →
      let q := helioWords h (h.col / 8) bs u (n / 8)
      let again (r : Helio) : State := q.2.post ⟨q.2.now, fromThread h.gti, atCore (coreOf h.gti), .heliostatLineReceive r⟩
      (h.col + n < h.rowbytes → h.row < h.rows → Steps (.heliostatLineReceive h) s (again { q.1 with col := h.col + n })) ∧
      (h.rowbytes ≤ h.col + n → h.row + 1 < h.rows → Steps (.heliostatLineReceive h) s (again { q.1 with col := 0, row := h.row + 1 })) ∧
      (h.rowbytes ≤ h.col + n → h.row + 1 = h.rows →
        Steps (.heliostatLineReceive h) s (engineDone q.2 h.gti h.core (some h.ctr) q.1.fault))) ∧
    -- R341: a ready entry passes to an empty sequencer and begins; R344: the command that has begun ends
    (∀ core : Nat,
      let c := s.core core
      (∀ x : MxEntry, c.deps = [x] → c.sequencer = [] → c.mxReads = [] → x.failed = none → x.tiles = [] → x.pins = [] → (x.ready.all id) = true →
        let t := s.modCore core fun k => { k with deps := [], sequencer := [x] }
        let ask := t.askGovernor (dieOf core) (commandAmps x)
        let r := runCommand ask.2 core x
        (ask.1 = true → r.1.linkHeld = false → (r.1.core core).mxReads = [] → (r.1.core core).sequencer = [x] → r.2.2 = none → x.begun = false →
          Steps (.matrixDispatch ⟨core⟩) s ((r.1.modCore core fun k =>
            { k with sequencer := [{ x with begun := true, wrote := r.2.1, failed := none }] }).post
              ⟨r.1.now, fromThread (core * 16), atCore core, .matrixCommandCompletion ⟨core⟩⟩))) ∧
      (c.deps = [] → c.sequencer = [] → c.mxReads = [] → Steps (.matrixDispatch ⟨core⟩) s s) ∧
      (∀ x rest, c.sequencer = x :: rest → x.begun = true → x.failed = none →
        let e := engineOver ((endEntry s core x).modThread x.gti id) x.gti core (mxCtr x.cmd) (.ofNat 4 (2 ^ mxTile x.cmd)) none
        (mxCtr x.cmd = none → Steps (.matrixCommandCompletion ⟨core⟩) s e) ∧
        ∀ k, mxCtr x.cmd = some k → Steps (.matrixCommandCompletion ⟨core⟩) s
          (evalCounter (raiseCount e core k (e.thread x.gti).ctx.ids.job) core k)) ∧
      (c.sequencer = [] → Steps (.matrixCommandCompletion ⟨core⟩) s s) ∧
      -- R370: the oldest operation of a solver
      (c.solver = [] → Steps (.solverOperationCompletion ⟨core⟩) s s) ∧
      ∀ o rest u, c.solver = o :: rest → (s.thread o.gti).solverDead = false → u.linkHeld = false →
        let joins (t : State) : State := t.modThread o.gti fun h => { h with solverJoin := true }
        (∀ v, solve (s.modCore core fun k => { k with solver := rest }) o = (u, .ok (some v)) → Steps (.solverOperationCompletion ⟨core⟩) s
          (answer (joins u) (fromThread o.gti) o.gti o.id (.regs [(o.d, .ofNat 64 v)] [] 0) none)) ∧
        (solve (s.modCore core fun k => { k with solver := rest }) o = (u, .ok none) → Steps (.solverOperationCompletion ⟨core⟩) s
          (answer (joins u) (fromThread o.gti) o.gti o.id .ack none))) ∧
    -- R375: a message to a mailbox
    ∀ m : MailSend,
      let k := tget Arrival.zero (s.core m.core).arrivals m.ctr
      (k.owner ≠ m.job → Steps (.mailboxMessageArrival m) s (ackPost (bump s m.core m.ctr m.job) m.gti m.post)) ∧
      (k.owner = m.job → guarded (s.core m.core) m.pos 384 = true → Steps (.mailboxMessageArrival m) s
        (ackPost (remoteGuard s m.gti gkStore (scratchPtr m.core m.pos) m.pc) m.gti m.post)) ∧
      (k.owner = m.job → guarded (s.core m.core) m.pos 384 = false →
        let t := scratchWrite s m.core m.pos (tableBytes m.data 0 0x170)
        Steps (.mailboxMessageArrival m) s (ackPost (bump (scratchWrite t m.core (m.pos + 0x178)
          (leBytes 8 (leNat (scratchBytes s m.core (m.pos + 0x178) 8) + 1))) m.core m.ctr m.job) m.gti m.post))

/-- R205, R258, R336 to R340: what a matrix command that the unit runs leaves in its accumulator tile: ZERO, LOAD and MMA, element by
element of the region, and nothing outside it; what a STORE of one row writes; a poisoned tile; and where the elements of A, B and a LOAD
lie. Where the spec leaves a point open, the statement says the model's choice (notes/assumptions: 46). -/
def Obligations.MatrixResults : Prop :=
  -- the tile after a command
  (∀ (s : State) (core : Nat) (x : MxEntry), cmdBad x.cmd = false →
    let c := x.cmd
    let a := tget Acc.zero (s.core core).acc (mxTile c)
    let r := runCommand s core x
    let b := tget Acc.zero (r.1.core core).acc (mxTile c)
    let w : Nat := if mxWide c then 8 else 4
    let view : Nat := if mxWide c then 0 else 1
    let mode := (s.thread x.gti).ctx.mode
    let issued : Mode := if x.user then .user else if mode = .user then .supervisor else mode
    -- the machine in which the command runs, in the mode that it was issued in
    let u := s.modCtx x.gti fun t => { t with mode := issued }
    let inside (i j : Nat) : Prop := mxRow0 c ≤ i ∧ i < mxRow0 c + mxM c ∧ mxCol0 c ≤ j ∧ j < mxCol0 c + mxN c
    -- every element of the region is f of its place there, and every other stands
    let tile (f : Nat → Nat → Nat) : Prop := ∀ i j, i < mxRows c → j < 64 →
      (inside i j → accRow b w i j 1 = [f (i - mxRow0 c) (j - mxCol0 c)]) ∧ (¬ inside i j → accRow b w i j 1 = accRow a w i j 1)
    (a.poison = true → mxKind c = 0 ∨ mxKind c = 3 ∨ mxWhole c = false → r = (s, false, some (mkFault .matrix 1 0))) ∧
    (a.poison = false ∨ (mxWhole c = true ∧ (mxKind c = 1 ∨ mxKind c = 2)) →
      (mxKind c = 1 → r.2 = (true, none) ∧ b.poison = false ∧ b.flags = (if mxWhole c then 0 else a.flags) ∧ tile fun _ _ => 0) ∧
      (∀ els : Nat → Nat → Nat, mxKind c = 2 →
        (∀ t i, tilesOnly u core t → i < mxM c →
          mxElems t x core ⟨(mxA c).base, (mxA c).geo &&& .ofNat 64 (2 ^ 64 - 1 - 7 * 2 ^ 59)⟩ (typeBytes (mxAfmt c)) (i * (mxA c).rpitch) (mxN c) 0 =
            (t, .ok ((List.range (mxN c)).map (els i)))) →
        r.2 = (true, none) ∧ b.poison = false ∧ (tile fun i j => (widened view (mxAfmt c) (els i j)).1) ∧
        b.flags = (List.range (mxM c)).foldl (fun z i => (List.range (mxN c)).foldl
          (fun z j => z ||| accFlags (widened view (mxAfmt c) (els i j)).2) z) (if mxWhole c then 0 else a.flags)) ∧
      (∀ (kb nb : Nat) (A B SA SB : Nat → Nat → Nat), mxKind c = 0 → mxPair (mxAfmt c) (mxBfmt c) = some (kb, nb) →
        let m : Mma := ⟨x, core, kb, nb, keptWeights u core kb nb x⟩
        MmaReads u m A B SA SB → r.2 = (true, none) ∧ b.poison = false ∧ tile fun i j => mmaElement m A B SA SB i j
          (if c.getLsbD 2 then 0 else (accRow a w (mxRow0 c + i) (mxCol0 c + j) 1).getD 0 0)) ∧
      (mxKind c = 3 → mxM c = 1 →
        let vs := (accRow a w (mxRow0 c) (mxCol0 c) (mxN c)).map fun e => if view = mxAfmt c then (e, (0 : Flags)) else convert (mxAfmt c) view 1 false e
        let bs := vs.flatMap fun v => leBytes (typeBytes (mxAfmt c)) v.1
        let z := writeRun (modAcc u core (mxTile c) fun k => k.orFlags (vs.foldl (fun z v => z ||| v.2) 0)) x.gti (mxA c).base bs bs.length
        r = (z.1.modCtx x.gti (fun t => { t with mode := mode }), false, z.2)))) ∧
  -- what widening answers: the format's own elements stand, and every NaN is the canonical one
  (∀ b, widened 1 1 b = if (fpVal 1 b).isNan then (0x7FC00000, if fpVal 1 b = .nan true then fNV else 0) else (b, 0)) ∧
  -- where the elements lie: in vector registers, and in the own scratchpad without a bank rotation
  ∀ (s : State) (m : Mma), mxScm m.cmd ≠ 5 →
    (∀ i k0 k1, (mxA m.cmd).src = 1 → k0 ≤ k1 → k1 * m.esA ≤ 128 → 0 < m.esA →
      readA m s i k0 k1 = (s, .ok ((List.range (k1 - k0)).map fun d =>
        elementOf (8 * m.esA) ((s.thread m.x.gti).vreg (((mxA m.cmd).base.toNat % 32 + i) % 32)) (k0 + d), []))) ∧
    ((s.core m.core).scratchBad = [] → coreOf m.x.gti = m.core →
      let mem (pos e : Nat) : Nat := leNat (Memory.read (s.core m.core).scratch pos e)
      let free (pos n : Nat) : Prop := 0 < n ∧ pos + n ≤ Config.scratchBytes ∧ guarded (s.core m.core) pos n = false
      (∀ pos i k0 n, (mxA m.cmd).src = 0 → (mxA m.cmd).rc = 0 → (mxA m.cmd).base = .ofNat 64 (2 ^ 60 + pos) → k0 % m.kb = 0 → n ≤ m.kb →
        let at_ := pos + k0 / m.kb * (mxA m.cmd).tpitch + i * (mxA m.cmd).rpitch
        free at_ (n * m.esA) →
        readA m s i k0 (k0 + n) = (s, .ok ((List.range n).map fun d => mem (at_ + d * m.esA) m.esA, []))) ∧
      (∀ pos k j0 n, (mxB m.cmd).src = 0 → (mxB m.cmd).rc = 0 → (mxB m.cmd).base = .ofNat 64 (2 ^ 60 + pos) →
        let at_ := pos + k / m.kb * (mxB m.cmd).tpitch + k % m.kb * (mxB m.cmd).rpitch + j0 * m.esB
        free at_ (n * m.esB) →
        readBRows m j0 (j0 + n) k 1 s = (s, .ok [(List.range n).map fun d => mem (at_ + d * m.esB) m.esB])))

/-! ## Encoding, fetching, and the machine as a whole -/

/-- R216 to R224: words written out from the formats, and the instructions that they stand for. -/
def Obligations.DecodedWords : Prop :=
  -- R: M OP G D A B F
  decode 0b0_000001_00000_00001_00010_00011_00000 = .ok (.add ⟨false, 0, 1, 2, 3⟩) ∧
  decode 0b1_001000_00011_00001_00010_00101_00010 = .ok (.bfi ⟨true, 3, 1, 2, 5⟩) ∧
  decode 0b0_001001_10001_01111_00010_00011_00010 = .ok (.cmpLtS64 ⟨false, 17, 15, 2, 3⟩) ∧
  -- I: M OP G D A K; mtcr 0x022, x10
  decode 0b0_000010_00000_00100_00101_1111111111 = .ok (.addi ⟨false, 0, 4, 5, 0x3FF⟩) ∧
  decode 0x2C002822 = .ok (.mtcr ⟨false, 0, 0, 10, 0x22⟩) ∧
  -- M: M OP G D A W O X; ld.n32 x5, [x6 + 28]
  decode 0b0_011010_00000_00101_00110_00_00_000111 = .ok (.ldN32 ⟨false, 0, 5, 6, 0, 0, 7⟩) ∧
  -- B: M OP G K
  decode 0b0_010000_00001_11111111111111111111 = .ok (.br ⟨false, 1, 0xFFFFF⟩) ∧
  -- V, VM, A, T
  decode 0b0_110000_00001_00010_00011_001_010_0000 = .ok (.vadd ⟨false, 1, 2, 3, 1, 2⟩) ∧
  decode 0b0_100110_00000_01001_01010_00_00_000_1_00 = .ok (.aadd ⟨false, 0, 9, 10, 0, 0, 0, true⟩) ∧ decode 0x5044A806 = .ok (.acas ⟨false, 4, 9, 10, 0, 0, 0, true⟩) ∧
  decode 0b0_101010_01_0011_00010_00011_00001_0001 = .ok (.tld ⟨false, 1, 3, 2, 3, 1⟩) ∧
  -- R284: sysc, monc and brk
  decode 0x28000007 = .ok (.sysc ⟨false, 0, 0, 0, 0⟩) ∧ decode 0x28000008 = .ok (.monc ⟨false, 0, 0, 0, 0⟩) ∧
  decode 0x28000009 = .ok (.brk ⟨false, 0, 0, 0, 0⟩) ∧
  -- R221 to R224: modifier words, whose bit 31 is 0
  decode 0b0_111110_1000000000000000000000001 = .ok (.himm ⟨0x1000001⟩) ∧
  decode 0b0_111101_00010_011_1_10_1_0000000000000 = .ok (.hmod ⟨2, 3, true, 2, true⟩) ∧
  decode 0b0_111111_000011_1_0_1_10_00000000000000 = .ok (.rep ⟨3, true, false, true, 2⟩) ∧
  (∃ e, decode 0b1_111110_0000000000000000000000000 = .error e) ∧ (∃ e, decode 0 = .error e)

/-- R215 to R234: decoding gives an instruction back from its word, with every operand at every value that the encoding admits; and no
word has two meanings. -/
def Obligations.DecodeEncode : Prop :=
  (∀ (i : Instr) (w : BitVec 32), i.wf = true → encode i = some w → decode w = .ok i) ∧
  (∀ (i : Instr) (w : BitVec 32), decode w = .ok i → i.wf = true ∧ encode i = some w)

/-- R158, R198, R203, R213, R215, R410: a step that issues a thread runs the instruction that a word encodes: the four bytes at its PC,
in a line of its core's instruction cache, or its displaced word. A word that encodes none raises ILLEGAL_INSTRUCTION. A step that
delivers a message, or takes an input, performs that event. Where the spec leaves a point open, the statement says the model's choice
(notes/assumptions: 1, 38, 107). -/
def Obligations.StepRuns : Prop :=
  ∀ (s : State) (rest : List Pick),
    (∀ (g a k : Nat) (l : ILine),
      let h := s.thread g
      let core := coreOf g
      let v : State := { s with choice := rest, cur := g }
      let u := fetchLines v core h.ctx.ids.job (a / 128) (h.ctx.mode == .user)
      let w : BitVec 32 := .ofNat 32 (l.data.toNat / 2 ^ (8 * (a % 128)))
      s.choice = .issue g :: rest → g < 2 ^ 33 → h.status = .ready → h.stage = .start → h.displaced = false → h.pend = [] → h.stepDue = false →
      doomedBy v g = none → takeable v g = none → v.resolve g (wordAddr h.ctx.pc) .fetch = .ok (.linear a) →
      l1iFind (u.core core) h.ctx.ids.job (a / 128) = some (k, l) → l.mark = none → permOk l.perms (h.ctx.mode == .user) false true = true → u.linkHeld = false →
      (∀ i, decode w = .ok i → step s = exec i u) ∧ (∀ e, decode w = .error e → step s = exec (.illegalEncoding ⟨w⟩) u)) ∧
    -- R410: a word that no link can bring now is fetched at a later turn
    (∀ g a : Nat,
      let h := s.thread g
      let v : State := { s with choice := rest, cur := g }
      s.choice = .issue g :: rest → g < 2 ^ 33 → h.status = .ready → h.stage = .start → h.displaced = false → h.pend = [] → h.stepDue = false →
      doomedBy v g = none → takeable v g = none → v.resolve g (wordAddr h.ctx.pc) .fetch = .ok (.linear a) → s.linkHeld = false →
      (fetchLines v (coreOf g) h.ctx.ids.job (a / 128) (h.ctx.mode == .user)).linkHeld = true → step s = .next (concluded v v)) ∧
    (∀ g : Nat,
      let h := s.thread g
      let v : State := { s with choice := rest, cur := g }
      s.choice = .issue g :: rest → g < 2 ^ 33 → h.status = .ready → h.displaced = true → doomedBy v g = none →
      (∀ i, decode h.ctx.xeq = .ok i → step s = exec i v) ∧ (∀ e, decode h.ctx.xeq = .error e → step s = exec (.illegalEncoding ⟨h.ctx.xeq⟩) v)) ∧
    -- R15, R203: an address that no word can be fetched from; R170, R171, R282: a thread that a cancel stops before its next instruction
    (∀ g : Nat,
      let h := s.thread g
      let v : State := { s with choice := rest, cur := g }
      let pc := wordAddr h.ctx.pc
      s.choice = .issue g :: rest → g < 2 ^ 33 → h.status = .ready →
      (h.stage = .start → h.displaced = false → h.pend = [] → h.stepDue = false → doomedBy v g = none → takeable v g = none →
        (∀ k, v.resolve g pc .fetch = .error k → step s = exec (.trapEntry ⟨g, mkFault .translation k pc⟩) v) ∧
        (bits pc 63 60 = 1 ∧ bits pc 59 57 = 0 ∨ bits pc 63 60 = 2 → bits pc 56 19 = 0 →
          step s = exec (.trapEntry ⟨g, mkFault .translation kSpaceOp pc⟩) v)) ∧
      (∀ k, doomedBy v g = some k → step s = exec (.cancelFlood ⟨coreOf g, k⟩) v)) ∧
    (∀ (n : Nat) (f : Flight), s.choice = .deliver n :: rest → mayDeliver { s with choice := rest } n = true → s.agenda[n]? = some f →
      step s = exec f.ev.instr { s with choice := rest, agenda := dropAt s.agenda n }) ∧
    (∀ (e : Event) (more : List Event), s.choice = .input :: rest → s.inputs = e :: more →
      step s = exec e.instr { s with choice := rest, inputs := more }) ∧
    -- R425, R428, R429: what happens to the hardware of itself
    ∀ c : Chance, s.choice = .chance c :: rest → step s = .next (concluded { s with choice := rest } (befall { s with choice := rest } c))

/-- From every state whose memory is in its form, with no write pending and no access held up on its way over a link, a step gives such a
state: no word of any program, and no step of the machine, breaks it. -/
def Obligations.InvariantKept : Prop := ∀ s t : State, Inv s → step s = .next t → Inv t

/-- The state after reset meets the invariant, and every unit reads as its registers' Reset column says: TVCFG, ALRES, COHCFG and SXCFG
(R53, R105, R192), SLCFG (R426), guard maps (R69), barriers (R294), tile queues (R326), the counters of a slice (R54, R106), those of a
core (R88), queues (R401), routes and links (R407, R409), PWRCAP (R424). Where the spec leaves a point open, the statement says the
model's choice (notes/assumptions: 4 and 5). -/
def Obligations.AfterReset : Prop :=
  Inv State.reset ∧
  (∀ d : Nat, let x := State.reset.die d
    x.tsplit = 8 ∧ x.thresh = 16 ∧ x.alBase = 40 ∧ x.alSize = 8 ∧ x.copy = false ∧ x.quiet = 16 ∧ x.sxMin = 8 ∧ x.sxInt = 12 ∧ x.slcfg = 20 ∧ x.psV = false ∧
      x.stepdly = 0) ∧
  (∀ c : Nat, let x := State.reset.core c
    x.guardMap = [] ∧ x.spskip = 0 ∧ x.spconf = 0 ∧ x.acrej = 0 ∧ x.l1d = [] ∧ x.l1i = [] ∧ ∀ n, tget Arrival.zero x.arrivals n = ⟨0, 0⟩) ∧
  (∀ c n : Nat, State.reset.barrier c n = ⟨0, 0, 0, 0⟩) ∧ (∀ c : Nat, (State.reset.cluster c).gen = 0) ∧
  (∀ g : Nat, let x := State.reset.slice g
    x.maxo = 0 ∧ x.occsum = 0 ∧ x.tvdefer = 0 ∧ x.tvlate = 0 ∧ x.tvstall = 0 ∧ x.cohfwd = 0 ∧ x.cohrevoke = 0 ∧ x.cohrecall = 0 ∧ x.cohsplit = 0 ∧
      x.cohmerge = 0 ∧ x.cohinv = 0 ∧ x.atmcoll = 0) ∧
  (∀ m q : Nat, (State.reset.queue m q).v = false ∧ (State.reset.queue m q).head = 0 ∧ (State.reset.queue m q).tail = 0) ∧
  (∀ m l : Nat, (State.reset.link m l).state = .down) ∧
  (∀ m : Nat, let x := State.reset.modu m
    x.trBusy = false ∧ x.jsBusy = false ∧ x.schstall = 0 ∧ x.domV = false ∧ x.clTmo = 24 ∧ x.pwrcap = 8000 ∧ x.qsplit = 16 ∧ x.evSeq = 0 ∧ x.ring = []) ∧
  ∀ g : Nat, (State.reset.thread g).status = .absent ∧ (∀ n, (State.reset.thread g).x n = 0) ∧ ∀ a, State.reset.peek a = 0

/-- What an instruction leaves as it was: of one whose effect is a change of its thread, every other thread, unit and byte; of an integer
form, every register but x[D] (and the two of LOOP, while a loop is active), and the whole context but the PC and the flags; of a store
to scratchpad, every byte outside those it stores; of a plain store to linear memory, every byte of memory until its task commits. Where
the spec leaves a point open, the statement says the model's choice (notes/assumptions: 2, 20). -/
def Obligations.EffectsAndFrames : Prop :=
  (∀ (i : Instr) (s : State) (t : Traits) (f : Iss → Thread → Thread → Thread), Does i s t f → performs s t = true → s.pending = [] →
    ∃ s' : State, exec i s = .next s' ∧ (∀ g, g ≠ s.cur → s'.thread g = s.thread g) ∧ s'.cores = s.cores ∧ s'.clusters = s.clusters ∧
      s'.slices = s.slices ∧ s'.ctrls = s.ctrls ∧ s'.modules = s.modules ∧ s'.agenda = s.agenda ∧ s'.hostMem = s.hostMem ∧ s'.hbmBad = s.hbmBad ∧
      (t.power = false → s'.dies = s.dies) ∧ ∀ a, s'.peek a = s.peek a) ∧
  (∀ (f : OpR → Instr), f ∈ [Instr.add, .sub, .mul, .mulhS64, .mulhN64, .divS64, .divN64, .remS64, .remN64, .and, .or, .xor, .andn, .orn, .xnor, .sll, .srl,
      .sra, .rol, .ror, .minS64, .maxS64, .minN64, .maxN64, .clz, .ctz, .popc, .brev, .bswap, .sext, .abs, .bfxN64, .bfxS64, .bfi] →
    ∀ (o : OpR) (s : State),
      let t := Traits.ofR o (fx o.d) (fx o.a) (fx o.b)
      let d := (issued s t).d
      let h := s.hand
      performs s t = true → ∃ s' : State, exec (f o) s = .next s' ∧
        let h' := s'.thread s.cur
        (∀ n, n ≠ d → n ≠ 8 → n ≠ 9 → h'.x n = h.x n) ∧
        (d ≠ 8 → bit (h.x 8) 63 = false → h'.x 8 = h.x 8 ∧ (d ≠ 9 → h'.x 9 = h.x 9)) ∧ h'.x 0 = 0 ∧
        h'.v = h.v ∧ h'.p = h.p ∧ h'.h = h.h ∧ h'.xa = h.xa ∧ h'.streams = h.streams ∧ h'.out = h.out ∧ h'.pend = h.pend ∧
        { h'.ctx with pc := h.ctx.pc, x := h.ctx.x, haz := h.ctx.haz, modfb := h.ctx.modfb, arith := h.ctx.arith } = h.ctx ∧
        h'.ctx.arith &&& h.ctx.arith = h.ctx.arith ∧ (h.ctx.haz = true → h'.ctx.haz = true) ∧ (h.ctx.modfb = true → h'.ctx.modfb = true)) ∧
  ∀ (l : (OpM → Instr) × Nat), l ∈ stores → ∀ (o : OpM) (s : State), quiet s s.cur = true → s.hand.volatiles = 0 → s.pending = [] →
    let n := l.2
    let t := Traits.ofM o (fx o.d) (fx o.a)
    let i := issued s t
    let c := coreOf s.cur
    let ptr := mEa i o s.hand n
    performs s t = true →
    (∀ off, (begun s t).target s.cur ptr n .store = .ok (.own off) → ptr.toNat % n = 0 → guarded (s.core c) off n = false →
      ∃ s' : State, exec (l.1 o) s = .next s' ∧
        (∀ a, a < off ∨ off + n ≤ a → Memory.get (s'.core c).scratch a = Memory.get (s.core c).scratch a) ∧
        (∀ k, k < n → Memory.get (s'.core c).scratch (off + k) = .ofNat 8 ((s.hand.x i.d).toNat / 2 ^ (8 * k))) ∧
        (∀ b, b ≠ c → (s'.core b).scratch = (s.core b).scratch) ∧ ∀ a, s'.peek a = s.peek a) ∧
    ∀ a ps, (begun s t).target s.cur ptr n .store = .ok (.linear a) → o.o = 0 →
      place (noteFallback i (strayPolicy i o (.linear a)) (begun s t)) s.cur a n = .ok ps → ps.length ≤ 2 →
      ∃ s' : State, exec (l.1 o) s = .next s' ∧ ∀ b, s'.peek b = s.peek b

/-! ## Two rules whole -/

/-- R79: the slice of a linear address within its home die, in every placement mode. -/
def Obligations.SliceHash : Prop :=
  (∀ a : Nat, sliceOf a = (((a / 2 ^ 7 % 16) ^^^ (a / 2 ^ 11 % 16)) ^^^ (a / 2 ^ 15 % 16)) ^^^ (a / 2 ^ 19 % 16) ∧ sliceOf a < 16) ∧
  (∀ a b : Nat, a % 2 ^ 23 = b % 2 ^ 23 → sliceOf a = sliceOf b) ∧
  ∀ (s : State) (core job a g : Nat), s.home core job a = .ok g → g % 16 = sliceOf a ∧
    ∃ d r, s.homeDie (moduleOf core) (dieOf core) (s.jobEntry core job) (s.region core job) a = .ok (d, r) ∧ sliceDie g = d

/-- R285, R409: the feature words. Word 3 is the module's number as its NLKDOM register holds it; that word 4 is at least 1 is the
model's choice (log 79). Where the spec leaves a point open, the statement says the model's choice (notes/assumptions: 79). -/
def Obligations.FeatureWords : Prop :=
  ∀ (o : OpR) (s : State),
    let m := moduleOf (coreOf s.cur)
    let word (n : Nat) : Nat := (#[2 + 0x40 * 2 ^ 8, 1024, 0x1FF, (s.modu m).domModule.toNat,
      max 1 ((List.range 64).filter fun k => (s.partition m s.hand.ctx.ids.job).getLsbD k).length,
      6144, 16, 524288, 65536, 0b110, 0x0101] : Array Nat).getD n 0
    Does (.feat o) s (ctl o (fx o.d) (fx o.a) (fk o.b)) (fun i h u => u.setX i.d (.ofNat 64 (word (h.x i.a).toNat)))
end

