-- ==== Sys2Proof/Laws/Home.lean ====
section
/-! SUPPORT. What the operations of a home slice can do: an access that homeFill lets pass has the permissions it asks for, a slice never
holds more requests than its queue, and what a read of a home line needs. -/

namespace Sys2Proof.Machine

/-- A home line that an access gets is one whose permissions it passes (R22, R30). -/
theorem homeFill_perms {s u : State} {g job line : Nat} {ok : Perms → Bool} {once : Bool} {h : HomeLine}
    (e : homeFill s g job line ok once = .ok (u, h)) : ok h.perms = true := by
  unfold homeFill at e
  split at e
  · split at e
    · cases e; assumption
    · cases e
  · split at e
    · cases e
    · split at e
      · cases e
      · cases e; simp_all

/-- CUR never passes the length of a slice's queue (R84). -/
theorem held_le (s : State) (g : Nat) : s.held g ≤ Config.sliceQueue := Nat.min_le_left _ _

/-- A read that its home answers passes the page's permissions (R22). -/
theorem readFill_perms {s u : State} {r : HomeReq} {h : HomeLine} (e : readFill s r = .ok (u, h)) :
    permOk h.perms r.user false false = true := homeFill_perms e

end Sys2Proof.Machine
end

