-- ==== Sys2Proof/Laws/Tables.lean ====
section
/-! SUPPORT. The laws of tables and memories: a read after a write, other places unchanged, and the canonical form kept. -/

namespace Sys2Proof.Machine

/-! ## Reading after writing, in any table -/

theorem tget_tput {α : Type} (d : α) (t : Table α) (a b : Nat) (x : α) :
    tget d (tput t a x) b = if b = a then x else tget d t b := by
  induction t with
  | nil => simp [tput, tget]
  | cons e t ih =>
    obtain ⟨k, v⟩ := e
    simp only [tput]
    split
    · by_cases h : b = a <;> simp [tget, h]
    · split
      · rename_i h
        by_cases hb : b = a <;> simp [tget, hb, ← h]
      · simp only [tget, ih]
        by_cases hk : b = k
        · subst hk
          have : ¬ b = a := by omega
          simp [this]
        · simp [hk]

theorem tget_tdel {α : Type} (d : α) (t : Table α) (a b : Nat) :
    tget d (tdel t a) b = if b = a then d else tget d t b := by
  induction t with
  | nil => simp [tdel, tget]
  | cons e t ih =>
    obtain ⟨k, v⟩ := e
    simp only [tdel]
    split
    · rename_i h
      simp only [ih, tget]
      by_cases hb : b = a <;> simp [hb, ← h]
    · rename_i h
      simp only [tget, ih]
      by_cases hk : b = k
      · subst hk
        have : ¬ b = a := fun e => h e.symm
        simp [this]
      · simp [hk]

theorem tget_tset {α : Type} [DecidableEq α] (d : α) (t : Table α) (a b : Nat) (x : α) :
    tget d (tset d t a x) b = if b = a then x else tget d t b := by
  unfold tset
  split
  · rename_i h
    rw [tget_tdel, h]
  · rw [tget_tput]

@[simp] theorem tget_tput_self {α : Type} (d : α) (t : Table α) (a : Nat) (x : α) : tget d (tput t a x) a = x := by
  simp [tget_tput]

@[simp] theorem tget_tset_self {α : Type} [DecidableEq α] (d : α) (t : Table α) (a : Nat) (x : α) :
    tget d (tset d t a x) a = x := by
  simp [tget_tset]

theorem tput_tput {α : Type} (t : Table α) (a : Nat) (x y : α) : tput (tput t a x) a y = tput t a y := by
  induction t with
  | nil => simp [tput]
  | cons e t ih =>
    obtain ⟨k, v⟩ := e
    by_cases h : a < k
    · simp [tput, h]
    · by_cases h' : a = k
      · simp [tput, h']
      · simp [tput, h, h', ih]

/-! ## Memory -/

@[simp] theorem Memory.get_put (m : List Host.Cell) (a b : Nat) (x : Byte) :
    Memory.get (Memory.put m a x) b = if b = a then x else Memory.get m b :=
  tget_tset _ _ _ _ _

/-- The first address of a memory lies above a bound. -/
def Memory.above (a : Nat) : List Host.Cell → Bool
  | [] => true
  | (k, _) :: _ => decide (a < k)

theorem Memory.above_cons (a k : Nat) (b : Byte) (m : List Host.Cell) : Memory.above a ((k, b) :: m) = decide (a < k) := rfl

theorem Memory.wf_cons (a : Nat) (b : Byte) (m : List Host.Cell) :
    Memory.wf ((a, b) :: m) = (Memory.above a m && b != Memory.blank && Memory.wf m) := by
  cases m with
  | nil => simp [Memory.wf, Memory.above]
  | cons e t => simp [Memory.wf, Memory.above]

theorem Memory.above_tdel (a c : Nat) (m : List Host.Cell) (h : Memory.wf m = true) (ha : Memory.above c m = true) :
    Memory.above c (tdel m a) = true ∧ Memory.wf (tdel m a) = true := by
  induction m generalizing c with
  | nil => exact ⟨rfl, rfl⟩
  | cons e t ih =>
    obtain ⟨k, v⟩ := e
    simp only [Memory.wf_cons, Bool.and_eq_true] at h
    simp only [Memory.above, decide_eq_true_eq] at ha
    simp only [tdel]
    split
    · refine ih c h.2 ?_
      cases t with
      | nil => rfl
      | cons e t =>
        have := h.1.1
        simp only [Memory.above, decide_eq_true_eq] at this ⊢
        omega
    · have := ih k h.2 h.1.1
      simp [Memory.above_cons, ha, Memory.wf_cons, this, h.1.2]

theorem Memory.above_tput (a c : Nat) (b : Byte) (m : List Host.Cell) (hb : (b != Memory.blank) = true)
    (h : Memory.wf m = true) (ha : Memory.above c m = true) (hc : c < a) :
    Memory.above c (tput m a b) = true ∧ Memory.wf (tput m a b) = true := by
  induction m generalizing c with
  | nil => simp [tput, Memory.above, Memory.wf, hc, hb]
  | cons e t ih =>
    obtain ⟨k, v⟩ := e
    have h' := h
    simp only [Memory.wf_cons, Bool.and_eq_true] at h
    simp only [tput]
    split
    · rename_i hk
      simp [Memory.above, hc, Memory.wf_cons a b, hk, hb, h']
    · split
      · rename_i hk
        simp only [Memory.above, decide_eq_true_eq]
        subst hk
        simp [hc, Memory.wf_cons, hb, h.1.1, h.2]
      · have := ih k h.2 h.1.1 (by omega)
        simp only [Memory.above_cons, decide_eq_true_eq] at ha
        simp [Memory.above_cons, ha, Memory.wf_cons, this, h.1.2]

/-- A write of one byte keeps the canonical form. -/
theorem Memory.wf_put (m : List Host.Cell) (a : Nat) (b : Byte) (h : Memory.wf m = true) :
    Memory.wf (Memory.put m a b) = true := by
  unfold Memory.put tset
  split
  · cases m with
    | nil => rfl
    | cons e t =>
      obtain ⟨k, v⟩ := e
      simp only [tdel]
      have h' := h
      simp only [Memory.wf_cons, Bool.and_eq_true] at h
      split
      · exact (Memory.above_tdel a k t h.2 h.1.1).2
      · have := Memory.above_tdel a k t h.2 h.1.1
        simp [Memory.wf_cons, this, h.1.2]
  · rename_i hb
    have hb : (b != Memory.blank) = true := by simpa using hb
    cases m with
    | nil => simp [tput, Memory.wf, hb]
    | cons e t =>
      obtain ⟨k, v⟩ := e
      have h' := h
      simp only [Memory.wf_cons, Bool.and_eq_true] at h
      simp only [tput]
      split
      · rename_i hk
        simp [Memory.wf_cons a b, Memory.above, hk, hb, h']
      · split
        · rename_i hk
          subst hk
          simp [Memory.wf_cons, hb, h.1.1, h.2]
        · have := Memory.above_tput a k b t hb h.2 h.1.1 (by omega)
          simp [Memory.wf_cons, this, h.1.2]

/-- Writes in turn keep it. -/
theorem Memory.wf_puts (m l : List Host.Cell) (h : Memory.wf m = true) : Memory.wf (Memory.puts m l) = true := by
  induction l generalizing m with
  | nil => exact h
  | cons e t ih => exact ih _ (Memory.wf_put m e.1 e.2 h)

/-- Writes from an address up keep it. -/
theorem Memory.wf_write (m : List Host.Cell) (a : Nat) (bs : List Byte) (h : Memory.wf m = true) :
    Memory.wf (Memory.write m a bs) = true := by
  induction bs generalizing m a with
  | nil => exact h
  | cons b t ih => exact ih _ _ (Memory.wf_put m a b h)

/-- A byte outside what is written reads as before. -/
theorem Memory.get_write_other (m : List Host.Cell) (a b : Nat) (bs : List Byte) (h : b < a ∨ a + bs.length ≤ b) :
    Memory.get (Memory.write m a bs) b = Memory.get m b := by
  induction bs generalizing m a with
  | nil => rfl
  | cons x t ih =>
    simp only [List.length_cons] at h
    simp only [Memory.write]
    rw [ih (Memory.put m a x) (a + 1) (by omega), Memory.get_put]
    simp
    omega

end Sys2Proof.Machine
end

