-- ==== Sys2Proof/Laws/State.lean ====
section
/-! SUPPORT. What each update of the state and of a thread leaves: one lemma a field, by unfolding. -/

namespace Sys2Proof.Machine

/-! ## Updates of the state -/

@[simp] theorem State.setThread_now (s : State) (n : Nat) (y : Thread) : (s.setThread n y).now = s.now := rfl
@[simp] theorem State.setThread_cur (s : State) (n : Nat) (y : Thread) : (s.setThread n y).cur = s.cur := rfl
@[simp] theorem State.setThread_fresh (s : State) (n : Nat) (y : Thread) : (s.setThread n y).fresh = s.fresh := rfl
@[simp] theorem State.setThread_agenda (s : State) (n : Nat) (y : Thread) : (s.setThread n y).agenda = s.agenda := rfl
@[simp] theorem State.setThread_inputs (s : State) (n : Nat) (y : Thread) : (s.setThread n y).inputs = s.inputs := rfl
@[simp] theorem State.setThread_choice (s : State) (n : Nat) (y : Thread) : (s.setThread n y).choice = s.choice := rfl
@[simp] theorem State.setThread_hbm (s : State) (n : Nat) (y : Thread) : (s.setThread n y).hbm = s.hbm := rfl
@[simp] theorem State.setThread_hbmBad (s : State) (n : Nat) (y : Thread) : (s.setThread n y).hbmBad = s.hbmBad := rfl
@[simp] theorem State.setThread_pending (s : State) (n : Nat) (y : Thread) : (s.setThread n y).pending = s.pending := rfl
@[simp] theorem State.setThread_hostMem (s : State) (n : Nat) (y : Thread) : (s.setThread n y).hostMem = s.hostMem := rfl
@[simp] theorem State.setThread_cores (s : State) (n : Nat) (y : Thread) : (s.setThread n y).cores = s.cores := rfl
@[simp] theorem State.setThread_clusters (s : State) (n : Nat) (y : Thread) : (s.setThread n y).clusters = s.clusters := rfl
@[simp] theorem State.setThread_slices (s : State) (n : Nat) (y : Thread) : (s.setThread n y).slices = s.slices := rfl
@[simp] theorem State.setThread_ctrls (s : State) (n : Nat) (y : Thread) : (s.setThread n y).ctrls = s.ctrls := rfl
@[simp] theorem State.setThread_dies (s : State) (n : Nat) (y : Thread) : (s.setThread n y).dies = s.dies := rfl
@[simp] theorem State.setThread_modules (s : State) (n : Nat) (y : Thread) : (s.setThread n y).modules = s.modules := rfl
@[simp] theorem State.setThread_linkHeld (s : State) (n : Nat) (y : Thread) : (s.setThread n y).linkHeld = s.linkHeld := rfl
@[simp] theorem State.core_setThread (s : State) (n k : Nat) (y : Thread) : (s.setThread n y).core k = s.core k := rfl
@[simp] theorem State.cluster_setThread (s : State) (n k : Nat) (y : Thread) : (s.setThread n y).cluster k = s.cluster k := rfl
@[simp] theorem State.slice_setThread (s : State) (n k : Nat) (y : Thread) : (s.setThread n y).slice k = s.slice k := rfl
@[simp] theorem State.ctrl_setThread (s : State) (n k : Nat) (y : Thread) : (s.setThread n y).ctrl k = s.ctrl k := rfl
@[simp] theorem State.die_setThread (s : State) (n k : Nat) (y : Thread) : (s.setThread n y).die k = s.die k := rfl
@[simp] theorem State.modu_setThread (s : State) (n k : Nat) (y : Thread) : (s.setThread n y).modu k = s.modu k := rfl
@[simp] theorem State.thread_setThread_self (s : State) (n : Nat) (y : Thread) : (s.setThread n y).thread n = y := tget_tput_self _ _ _ _
theorem State.thread_setThread (s : State) (n k : Nat) (y : Thread) : (s.setThread n y).thread k = if k = n then y else s.thread k := tget_tput _ _ _ _ _
@[simp] theorem State.modThread_eq (s : State) (n : Nat) (f : Thread → Thread) : s.modThread n f = s.setThread n (f (s.thread n)) := rfl

@[simp] theorem State.setCore_now (s : State) (n : Nat) (y : Core) : (s.setCore n y).now = s.now := rfl
@[simp] theorem State.setCore_cur (s : State) (n : Nat) (y : Core) : (s.setCore n y).cur = s.cur := rfl
@[simp] theorem State.setCore_fresh (s : State) (n : Nat) (y : Core) : (s.setCore n y).fresh = s.fresh := rfl
@[simp] theorem State.setCore_agenda (s : State) (n : Nat) (y : Core) : (s.setCore n y).agenda = s.agenda := rfl
@[simp] theorem State.setCore_inputs (s : State) (n : Nat) (y : Core) : (s.setCore n y).inputs = s.inputs := rfl
@[simp] theorem State.setCore_choice (s : State) (n : Nat) (y : Core) : (s.setCore n y).choice = s.choice := rfl
@[simp] theorem State.setCore_hbm (s : State) (n : Nat) (y : Core) : (s.setCore n y).hbm = s.hbm := rfl
@[simp] theorem State.setCore_hbmBad (s : State) (n : Nat) (y : Core) : (s.setCore n y).hbmBad = s.hbmBad := rfl
@[simp] theorem State.setCore_pending (s : State) (n : Nat) (y : Core) : (s.setCore n y).pending = s.pending := rfl
@[simp] theorem State.setCore_hostMem (s : State) (n : Nat) (y : Core) : (s.setCore n y).hostMem = s.hostMem := rfl
@[simp] theorem State.setCore_threads (s : State) (n : Nat) (y : Core) : (s.setCore n y).threads = s.threads := rfl
@[simp] theorem State.setCore_clusters (s : State) (n : Nat) (y : Core) : (s.setCore n y).clusters = s.clusters := rfl
@[simp] theorem State.setCore_slices (s : State) (n : Nat) (y : Core) : (s.setCore n y).slices = s.slices := rfl
@[simp] theorem State.setCore_ctrls (s : State) (n : Nat) (y : Core) : (s.setCore n y).ctrls = s.ctrls := rfl
@[simp] theorem State.setCore_dies (s : State) (n : Nat) (y : Core) : (s.setCore n y).dies = s.dies := rfl
@[simp] theorem State.setCore_modules (s : State) (n : Nat) (y : Core) : (s.setCore n y).modules = s.modules := rfl
@[simp] theorem State.setCore_linkHeld (s : State) (n : Nat) (y : Core) : (s.setCore n y).linkHeld = s.linkHeld := rfl
@[simp] theorem State.thread_setCore (s : State) (n k : Nat) (y : Core) : (s.setCore n y).thread k = s.thread k := rfl
@[simp] theorem State.cluster_setCore (s : State) (n k : Nat) (y : Core) : (s.setCore n y).cluster k = s.cluster k := rfl
@[simp] theorem State.slice_setCore (s : State) (n k : Nat) (y : Core) : (s.setCore n y).slice k = s.slice k := rfl
@[simp] theorem State.ctrl_setCore (s : State) (n k : Nat) (y : Core) : (s.setCore n y).ctrl k = s.ctrl k := rfl
@[simp] theorem State.die_setCore (s : State) (n k : Nat) (y : Core) : (s.setCore n y).die k = s.die k := rfl
@[simp] theorem State.modu_setCore (s : State) (n k : Nat) (y : Core) : (s.setCore n y).modu k = s.modu k := rfl
@[simp] theorem State.core_setCore_self (s : State) (n : Nat) (y : Core) : (s.setCore n y).core n = y := tget_tput_self _ _ _ _
theorem State.core_setCore (s : State) (n k : Nat) (y : Core) : (s.setCore n y).core k = if k = n then y else s.core k := tget_tput _ _ _ _ _
@[simp] theorem State.modCore_eq (s : State) (n : Nat) (f : Core → Core) : s.modCore n f = s.setCore n (f (s.core n)) := rfl

@[simp] theorem State.setCluster_now (s : State) (n : Nat) (y : Cluster) : (s.setCluster n y).now = s.now := rfl
@[simp] theorem State.setCluster_cur (s : State) (n : Nat) (y : Cluster) : (s.setCluster n y).cur = s.cur := rfl
@[simp] theorem State.setCluster_fresh (s : State) (n : Nat) (y : Cluster) : (s.setCluster n y).fresh = s.fresh := rfl
@[simp] theorem State.setCluster_agenda (s : State) (n : Nat) (y : Cluster) : (s.setCluster n y).agenda = s.agenda := rfl
@[simp] theorem State.setCluster_inputs (s : State) (n : Nat) (y : Cluster) : (s.setCluster n y).inputs = s.inputs := rfl
@[simp] theorem State.setCluster_choice (s : State) (n : Nat) (y : Cluster) : (s.setCluster n y).choice = s.choice := rfl
@[simp] theorem State.setCluster_hbm (s : State) (n : Nat) (y : Cluster) : (s.setCluster n y).hbm = s.hbm := rfl
@[simp] theorem State.setCluster_hbmBad (s : State) (n : Nat) (y : Cluster) : (s.setCluster n y).hbmBad = s.hbmBad := rfl
@[simp] theorem State.setCluster_pending (s : State) (n : Nat) (y : Cluster) : (s.setCluster n y).pending = s.pending := rfl
@[simp] theorem State.setCluster_hostMem (s : State) (n : Nat) (y : Cluster) : (s.setCluster n y).hostMem = s.hostMem := rfl
@[simp] theorem State.setCluster_threads (s : State) (n : Nat) (y : Cluster) : (s.setCluster n y).threads = s.threads := rfl
@[simp] theorem State.setCluster_cores (s : State) (n : Nat) (y : Cluster) : (s.setCluster n y).cores = s.cores := rfl
@[simp] theorem State.setCluster_slices (s : State) (n : Nat) (y : Cluster) : (s.setCluster n y).slices = s.slices := rfl
@[simp] theorem State.setCluster_ctrls (s : State) (n : Nat) (y : Cluster) : (s.setCluster n y).ctrls = s.ctrls := rfl
@[simp] theorem State.setCluster_dies (s : State) (n : Nat) (y : Cluster) : (s.setCluster n y).dies = s.dies := rfl
@[simp] theorem State.setCluster_modules (s : State) (n : Nat) (y : Cluster) : (s.setCluster n y).modules = s.modules := rfl
@[simp] theorem State.setCluster_linkHeld (s : State) (n : Nat) (y : Cluster) : (s.setCluster n y).linkHeld = s.linkHeld := rfl
@[simp] theorem State.thread_setCluster (s : State) (n k : Nat) (y : Cluster) : (s.setCluster n y).thread k = s.thread k := rfl
@[simp] theorem State.core_setCluster (s : State) (n k : Nat) (y : Cluster) : (s.setCluster n y).core k = s.core k := rfl
@[simp] theorem State.slice_setCluster (s : State) (n k : Nat) (y : Cluster) : (s.setCluster n y).slice k = s.slice k := rfl
@[simp] theorem State.ctrl_setCluster (s : State) (n k : Nat) (y : Cluster) : (s.setCluster n y).ctrl k = s.ctrl k := rfl
@[simp] theorem State.die_setCluster (s : State) (n k : Nat) (y : Cluster) : (s.setCluster n y).die k = s.die k := rfl
@[simp] theorem State.modu_setCluster (s : State) (n k : Nat) (y : Cluster) : (s.setCluster n y).modu k = s.modu k := rfl
@[simp] theorem State.cluster_setCluster_self (s : State) (n : Nat) (y : Cluster) : (s.setCluster n y).cluster n = y := tget_tput_self _ _ _ _
theorem State.cluster_setCluster (s : State) (n k : Nat) (y : Cluster) : (s.setCluster n y).cluster k = if k = n then y else s.cluster k := tget_tput _ _ _ _ _
@[simp] theorem State.modCluster_eq (s : State) (n : Nat) (f : Cluster → Cluster) : s.modCluster n f = s.setCluster n (f (s.cluster n)) := rfl

@[simp] theorem State.setSlice_now (s : State) (n : Nat) (y : Slice) : (s.setSlice n y).now = s.now := rfl
@[simp] theorem State.setSlice_cur (s : State) (n : Nat) (y : Slice) : (s.setSlice n y).cur = s.cur := rfl
@[simp] theorem State.setSlice_fresh (s : State) (n : Nat) (y : Slice) : (s.setSlice n y).fresh = s.fresh := rfl
@[simp] theorem State.setSlice_agenda (s : State) (n : Nat) (y : Slice) : (s.setSlice n y).agenda = s.agenda := rfl
@[simp] theorem State.setSlice_inputs (s : State) (n : Nat) (y : Slice) : (s.setSlice n y).inputs = s.inputs := rfl
@[simp] theorem State.setSlice_choice (s : State) (n : Nat) (y : Slice) : (s.setSlice n y).choice = s.choice := rfl
@[simp] theorem State.setSlice_hbm (s : State) (n : Nat) (y : Slice) : (s.setSlice n y).hbm = s.hbm := rfl
@[simp] theorem State.setSlice_hbmBad (s : State) (n : Nat) (y : Slice) : (s.setSlice n y).hbmBad = s.hbmBad := rfl
@[simp] theorem State.setSlice_pending (s : State) (n : Nat) (y : Slice) : (s.setSlice n y).pending = s.pending := rfl
@[simp] theorem State.setSlice_hostMem (s : State) (n : Nat) (y : Slice) : (s.setSlice n y).hostMem = s.hostMem := rfl
@[simp] theorem State.setSlice_threads (s : State) (n : Nat) (y : Slice) : (s.setSlice n y).threads = s.threads := rfl
@[simp] theorem State.setSlice_cores (s : State) (n : Nat) (y : Slice) : (s.setSlice n y).cores = s.cores := rfl
@[simp] theorem State.setSlice_clusters (s : State) (n : Nat) (y : Slice) : (s.setSlice n y).clusters = s.clusters := rfl
@[simp] theorem State.setSlice_ctrls (s : State) (n : Nat) (y : Slice) : (s.setSlice n y).ctrls = s.ctrls := rfl
@[simp] theorem State.setSlice_dies (s : State) (n : Nat) (y : Slice) : (s.setSlice n y).dies = s.dies := rfl
@[simp] theorem State.setSlice_modules (s : State) (n : Nat) (y : Slice) : (s.setSlice n y).modules = s.modules := rfl
@[simp] theorem State.setSlice_linkHeld (s : State) (n : Nat) (y : Slice) : (s.setSlice n y).linkHeld = s.linkHeld := rfl
@[simp] theorem State.thread_setSlice (s : State) (n k : Nat) (y : Slice) : (s.setSlice n y).thread k = s.thread k := rfl
@[simp] theorem State.core_setSlice (s : State) (n k : Nat) (y : Slice) : (s.setSlice n y).core k = s.core k := rfl
@[simp] theorem State.cluster_setSlice (s : State) (n k : Nat) (y : Slice) : (s.setSlice n y).cluster k = s.cluster k := rfl
@[simp] theorem State.ctrl_setSlice (s : State) (n k : Nat) (y : Slice) : (s.setSlice n y).ctrl k = s.ctrl k := rfl
@[simp] theorem State.die_setSlice (s : State) (n k : Nat) (y : Slice) : (s.setSlice n y).die k = s.die k := rfl
@[simp] theorem State.modu_setSlice (s : State) (n k : Nat) (y : Slice) : (s.setSlice n y).modu k = s.modu k := rfl
@[simp] theorem State.slice_setSlice_self (s : State) (n : Nat) (y : Slice) : (s.setSlice n y).slice n = y := tget_tput_self _ _ _ _
theorem State.slice_setSlice (s : State) (n k : Nat) (y : Slice) : (s.setSlice n y).slice k = if k = n then y else s.slice k := tget_tput _ _ _ _ _
@[simp] theorem State.modSlice_eq (s : State) (n : Nat) (f : Slice → Slice) : s.modSlice n f = s.setSlice n (f (s.slice n)) := rfl

@[simp] theorem State.setCtrl_now (s : State) (n : Nat) (y : Ctrl) : (s.setCtrl n y).now = s.now := rfl
@[simp] theorem State.setCtrl_cur (s : State) (n : Nat) (y : Ctrl) : (s.setCtrl n y).cur = s.cur := rfl
@[simp] theorem State.setCtrl_fresh (s : State) (n : Nat) (y : Ctrl) : (s.setCtrl n y).fresh = s.fresh := rfl
@[simp] theorem State.setCtrl_agenda (s : State) (n : Nat) (y : Ctrl) : (s.setCtrl n y).agenda = s.agenda := rfl
@[simp] theorem State.setCtrl_inputs (s : State) (n : Nat) (y : Ctrl) : (s.setCtrl n y).inputs = s.inputs := rfl
@[simp] theorem State.setCtrl_choice (s : State) (n : Nat) (y : Ctrl) : (s.setCtrl n y).choice = s.choice := rfl
@[simp] theorem State.setCtrl_hbm (s : State) (n : Nat) (y : Ctrl) : (s.setCtrl n y).hbm = s.hbm := rfl
@[simp] theorem State.setCtrl_hbmBad (s : State) (n : Nat) (y : Ctrl) : (s.setCtrl n y).hbmBad = s.hbmBad := rfl
@[simp] theorem State.setCtrl_pending (s : State) (n : Nat) (y : Ctrl) : (s.setCtrl n y).pending = s.pending := rfl
@[simp] theorem State.setCtrl_hostMem (s : State) (n : Nat) (y : Ctrl) : (s.setCtrl n y).hostMem = s.hostMem := rfl
@[simp] theorem State.setCtrl_threads (s : State) (n : Nat) (y : Ctrl) : (s.setCtrl n y).threads = s.threads := rfl
@[simp] theorem State.setCtrl_cores (s : State) (n : Nat) (y : Ctrl) : (s.setCtrl n y).cores = s.cores := rfl
@[simp] theorem State.setCtrl_clusters (s : State) (n : Nat) (y : Ctrl) : (s.setCtrl n y).clusters = s.clusters := rfl
@[simp] theorem State.setCtrl_slices (s : State) (n : Nat) (y : Ctrl) : (s.setCtrl n y).slices = s.slices := rfl
@[simp] theorem State.setCtrl_dies (s : State) (n : Nat) (y : Ctrl) : (s.setCtrl n y).dies = s.dies := rfl
@[simp] theorem State.setCtrl_modules (s : State) (n : Nat) (y : Ctrl) : (s.setCtrl n y).modules = s.modules := rfl
@[simp] theorem State.setCtrl_linkHeld (s : State) (n : Nat) (y : Ctrl) : (s.setCtrl n y).linkHeld = s.linkHeld := rfl
@[simp] theorem State.thread_setCtrl (s : State) (n k : Nat) (y : Ctrl) : (s.setCtrl n y).thread k = s.thread k := rfl
@[simp] theorem State.core_setCtrl (s : State) (n k : Nat) (y : Ctrl) : (s.setCtrl n y).core k = s.core k := rfl
@[simp] theorem State.cluster_setCtrl (s : State) (n k : Nat) (y : Ctrl) : (s.setCtrl n y).cluster k = s.cluster k := rfl
@[simp] theorem State.slice_setCtrl (s : State) (n k : Nat) (y : Ctrl) : (s.setCtrl n y).slice k = s.slice k := rfl
@[simp] theorem State.die_setCtrl (s : State) (n k : Nat) (y : Ctrl) : (s.setCtrl n y).die k = s.die k := rfl
@[simp] theorem State.modu_setCtrl (s : State) (n k : Nat) (y : Ctrl) : (s.setCtrl n y).modu k = s.modu k := rfl
@[simp] theorem State.ctrl_setCtrl_self (s : State) (n : Nat) (y : Ctrl) : (s.setCtrl n y).ctrl n = y := tget_tput_self _ _ _ _
theorem State.ctrl_setCtrl (s : State) (n k : Nat) (y : Ctrl) : (s.setCtrl n y).ctrl k = if k = n then y else s.ctrl k := tget_tput _ _ _ _ _
@[simp] theorem State.modCtrl_eq (s : State) (n : Nat) (f : Ctrl → Ctrl) : s.modCtrl n f = s.setCtrl n (f (s.ctrl n)) := rfl

@[simp] theorem State.setDie_now (s : State) (n : Nat) (y : Die) : (s.setDie n y).now = s.now := rfl
@[simp] theorem State.setDie_cur (s : State) (n : Nat) (y : Die) : (s.setDie n y).cur = s.cur := rfl
@[simp] theorem State.setDie_fresh (s : State) (n : Nat) (y : Die) : (s.setDie n y).fresh = s.fresh := rfl
@[simp] theorem State.setDie_agenda (s : State) (n : Nat) (y : Die) : (s.setDie n y).agenda = s.agenda := rfl
@[simp] theorem State.setDie_inputs (s : State) (n : Nat) (y : Die) : (s.setDie n y).inputs = s.inputs := rfl
@[simp] theorem State.setDie_choice (s : State) (n : Nat) (y : Die) : (s.setDie n y).choice = s.choice := rfl
@[simp] theorem State.setDie_hbm (s : State) (n : Nat) (y : Die) : (s.setDie n y).hbm = s.hbm := rfl
@[simp] theorem State.setDie_hbmBad (s : State) (n : Nat) (y : Die) : (s.setDie n y).hbmBad = s.hbmBad := rfl
@[simp] theorem State.setDie_pending (s : State) (n : Nat) (y : Die) : (s.setDie n y).pending = s.pending := rfl
@[simp] theorem State.setDie_hostMem (s : State) (n : Nat) (y : Die) : (s.setDie n y).hostMem = s.hostMem := rfl
@[simp] theorem State.setDie_threads (s : State) (n : Nat) (y : Die) : (s.setDie n y).threads = s.threads := rfl
@[simp] theorem State.setDie_cores (s : State) (n : Nat) (y : Die) : (s.setDie n y).cores = s.cores := rfl
@[simp] theorem State.setDie_clusters (s : State) (n : Nat) (y : Die) : (s.setDie n y).clusters = s.clusters := rfl
@[simp] theorem State.setDie_slices (s : State) (n : Nat) (y : Die) : (s.setDie n y).slices = s.slices := rfl
@[simp] theorem State.setDie_ctrls (s : State) (n : Nat) (y : Die) : (s.setDie n y).ctrls = s.ctrls := rfl
@[simp] theorem State.setDie_modules (s : State) (n : Nat) (y : Die) : (s.setDie n y).modules = s.modules := rfl
@[simp] theorem State.setDie_linkHeld (s : State) (n : Nat) (y : Die) : (s.setDie n y).linkHeld = s.linkHeld := rfl
@[simp] theorem State.thread_setDie (s : State) (n k : Nat) (y : Die) : (s.setDie n y).thread k = s.thread k := rfl
@[simp] theorem State.core_setDie (s : State) (n k : Nat) (y : Die) : (s.setDie n y).core k = s.core k := rfl
@[simp] theorem State.cluster_setDie (s : State) (n k : Nat) (y : Die) : (s.setDie n y).cluster k = s.cluster k := rfl
@[simp] theorem State.slice_setDie (s : State) (n k : Nat) (y : Die) : (s.setDie n y).slice k = s.slice k := rfl
@[simp] theorem State.ctrl_setDie (s : State) (n k : Nat) (y : Die) : (s.setDie n y).ctrl k = s.ctrl k := rfl
@[simp] theorem State.modu_setDie (s : State) (n k : Nat) (y : Die) : (s.setDie n y).modu k = s.modu k := rfl
@[simp] theorem State.die_setDie_self (s : State) (n : Nat) (y : Die) : (s.setDie n y).die n = y := tget_tput_self _ _ _ _
theorem State.die_setDie (s : State) (n k : Nat) (y : Die) : (s.setDie n y).die k = if k = n then y else s.die k := tget_tput _ _ _ _ _
@[simp] theorem State.modDie_eq (s : State) (n : Nat) (f : Die → Die) : s.modDie n f = s.setDie n (f (s.die n)) := rfl

@[simp] theorem State.setModu_now (s : State) (n : Nat) (y : Module) : (s.setModu n y).now = s.now := rfl
@[simp] theorem State.setModu_cur (s : State) (n : Nat) (y : Module) : (s.setModu n y).cur = s.cur := rfl
@[simp] theorem State.setModu_fresh (s : State) (n : Nat) (y : Module) : (s.setModu n y).fresh = s.fresh := rfl
@[simp] theorem State.setModu_agenda (s : State) (n : Nat) (y : Module) : (s.setModu n y).agenda = s.agenda := rfl
@[simp] theorem State.setModu_inputs (s : State) (n : Nat) (y : Module) : (s.setModu n y).inputs = s.inputs := rfl
@[simp] theorem State.setModu_choice (s : State) (n : Nat) (y : Module) : (s.setModu n y).choice = s.choice := rfl
@[simp] theorem State.setModu_hbm (s : State) (n : Nat) (y : Module) : (s.setModu n y).hbm = s.hbm := rfl
@[simp] theorem State.setModu_hbmBad (s : State) (n : Nat) (y : Module) : (s.setModu n y).hbmBad = s.hbmBad := rfl
@[simp] theorem State.setModu_pending (s : State) (n : Nat) (y : Module) : (s.setModu n y).pending = s.pending := rfl
@[simp] theorem State.setModu_hostMem (s : State) (n : Nat) (y : Module) : (s.setModu n y).hostMem = s.hostMem := rfl
@[simp] theorem State.setModu_threads (s : State) (n : Nat) (y : Module) : (s.setModu n y).threads = s.threads := rfl
@[simp] theorem State.setModu_cores (s : State) (n : Nat) (y : Module) : (s.setModu n y).cores = s.cores := rfl
@[simp] theorem State.setModu_clusters (s : State) (n : Nat) (y : Module) : (s.setModu n y).clusters = s.clusters := rfl
@[simp] theorem State.setModu_slices (s : State) (n : Nat) (y : Module) : (s.setModu n y).slices = s.slices := rfl
@[simp] theorem State.setModu_ctrls (s : State) (n : Nat) (y : Module) : (s.setModu n y).ctrls = s.ctrls := rfl
@[simp] theorem State.setModu_dies (s : State) (n : Nat) (y : Module) : (s.setModu n y).dies = s.dies := rfl
@[simp] theorem State.setModu_linkHeld (s : State) (n : Nat) (y : Module) : (s.setModu n y).linkHeld = s.linkHeld := rfl
@[simp] theorem State.thread_setModu (s : State) (n k : Nat) (y : Module) : (s.setModu n y).thread k = s.thread k := rfl
@[simp] theorem State.core_setModu (s : State) (n k : Nat) (y : Module) : (s.setModu n y).core k = s.core k := rfl
@[simp] theorem State.cluster_setModu (s : State) (n k : Nat) (y : Module) : (s.setModu n y).cluster k = s.cluster k := rfl
@[simp] theorem State.slice_setModu (s : State) (n k : Nat) (y : Module) : (s.setModu n y).slice k = s.slice k := rfl
@[simp] theorem State.ctrl_setModu (s : State) (n k : Nat) (y : Module) : (s.setModu n y).ctrl k = s.ctrl k := rfl
@[simp] theorem State.die_setModu (s : State) (n k : Nat) (y : Module) : (s.setModu n y).die k = s.die k := rfl
@[simp] theorem State.modu_setModu_self (s : State) (n : Nat) (y : Module) : (s.setModu n y).modu n = y := tget_tput_self _ _ _ _
theorem State.modu_setModu (s : State) (n k : Nat) (y : Module) : (s.setModu n y).modu k = if k = n then y else s.modu k := tget_tput _ _ _ _ _
@[simp] theorem State.modModu_eq (s : State) (n : Nat) (f : Module → Module) : s.modModu n f = s.setModu n (f (s.modu n)) := rfl

@[simp] theorem State.modCtx_eq (s : State) (n : Nat) (f : Ctx → Ctx) :
    s.modCtx n f = s.setThread n { s.thread n with ctx := f (s.thread n).ctx } := rfl

@[simp] theorem State.setThread_twice (s : State) (n : Nat) (x y : Thread) : (s.setThread n x).setThread n y = s.setThread n y := by
  simp [State.setThread, tput_tput]

@[simp] theorem State.setCore_twice (s : State) (n : Nat) (x y : Core) : (s.setCore n x).setCore n y = s.setCore n y := by
  simp [State.setCore, tput_tput]

/-! ## Updates of a thread -/

@[simp] theorem Thread.setV_status (t : Thread) (n : Nat) (y : Line) : (t.setV n y).status = t.status := rfl
@[simp] theorem Thread.setV_ctx (t : Thread) (n : Nat) (y : Line) : (t.setV n y).ctx = t.ctx := rfl
@[simp] theorem Thread.setV_p (t : Thread) (n : Nat) (y : Line) : (t.setV n y).p = t.p := rfl
@[simp] theorem Thread.setV_h (t : Thread) (n : Nat) (y : Line) : (t.setV n y).h = t.h := rfl
@[simp] theorem Thread.setV_xa (t : Thread) (n : Nat) (y : Line) : (t.setV n y).xa = t.xa := rfl
@[simp] theorem Thread.setV_streams (t : Thread) (n : Nat) (y : Line) : (t.setV n y).streams = t.streams := rfl
@[simp] theorem Thread.setV_rgsel (t : Thread) (n : Nat) (y : Line) : (t.setV n y).rgsel = t.rgsel := rfl
@[simp] theorem Thread.setV_since (t : Thread) (n : Nat) (y : Line) : (t.setV n y).since = t.since := rfl
@[simp] theorem Thread.setV_seq (t : Thread) (n : Nat) (y : Line) : (t.setV n y).seq = t.seq := rfl
@[simp] theorem Thread.setV_displaced (t : Thread) (n : Nat) (y : Line) : (t.setV n y).displaced = t.displaced := rfl
@[simp] theorem Thread.setV_stage (t : Thread) (n : Nat) (y : Line) : (t.setV n y).stage = t.stage := rfl
@[simp] theorem Thread.setV_nextId (t : Thread) (n : Nat) (y : Line) : (t.setV n y).nextId = t.nextId := rfl
@[simp] theorem Thread.setV_out (t : Thread) (n : Nat) (y : Line) : (t.setV n y).out = t.out := rfl
@[simp] theorem Thread.setV_pend (t : Thread) (n : Nat) (y : Line) : (t.setV n y).pend = t.pend := rfl
@[simp] theorem Thread.setV_stf (t : Thread) (n : Nat) (y : Line) : (t.setV n y).stf = t.stf := rfl
@[simp] theorem Thread.setV_eng (t : Thread) (n : Nat) (y : Line) : (t.setV n y).eng = t.eng := rfl
@[simp] theorem Thread.setV_engines (t : Thread) (n : Nat) (y : Line) : (t.setV n y).engines = t.engines := rfl
@[simp] theorem Thread.setV_guardRec (t : Thread) (n : Nat) (y : Line) : (t.setV n y).guardRec = t.guardRec := rfl
@[simp] theorem Thread.setV_units (t : Thread) (n : Nat) (y : Line) : (t.setV n y).units = t.units := rfl
@[simp] theorem Thread.setV_creates (t : Thread) (n : Nat) (y : Line) : (t.setV n y).creates = t.creates := rfl
@[simp] theorem Thread.setV_filter (t : Thread) (n : Nat) (y : Line) : (t.setV n y).filter = t.filter := rfl
@[simp] theorem Thread.setV_acks (t : Thread) (n : Nat) (y : Line) : (t.setV n y).acks = t.acks := rfl
@[simp] theorem Thread.setV_stepDue (t : Thread) (n : Nat) (y : Line) : (t.setV n y).stepDue = t.stepDue := rfl
@[simp] theorem Thread.setV_opened (t : Thread) (n : Nat) (y : Line) : (t.setV n y).opened = t.opened := rfl
@[simp] theorem Thread.setV_solverDead (t : Thread) (n : Nat) (y : Line) : (t.setV n y).solverDead = t.solverDead := rfl
@[simp] theorem Thread.setV_solverJoin (t : Thread) (n : Nat) (y : Line) : (t.setV n y).solverJoin = t.solverJoin := rfl
@[simp] theorem Thread.setV_checked (t : Thread) (n : Nat) (y : Line) : (t.setV n y).checked = t.checked := rfl
@[simp] theorem Thread.setV_gone (t : Thread) (n : Nat) (y : Line) : (t.setV n y).gone = t.gone := rfl
@[simp] theorem Thread.setV_bypass (t : Thread) (n : Nat) (y : Line) : (t.setV n y).bypass = t.bypass := rfl
@[simp] theorem Thread.setV_volatiles (t : Thread) (n : Nat) (y : Line) : (t.setV n y).volatiles = t.volatiles := rfl
@[simp] theorem Thread.setV_parkPc (t : Thread) (n : Nat) (y : Line) : (t.setV n y).parkPc = t.parkPc := rfl
@[simp] theorem Thread.setV_att (t : Thread) (n : Nat) (y : Line) : (t.setV n y).att = t.att := rfl

@[simp] theorem Thread.setP_status (t : Thread) (n : Nat) (y : Pred) : (t.setP n y).status = t.status := rfl
@[simp] theorem Thread.setP_ctx (t : Thread) (n : Nat) (y : Pred) : (t.setP n y).ctx = t.ctx := rfl
@[simp] theorem Thread.setP_v (t : Thread) (n : Nat) (y : Pred) : (t.setP n y).v = t.v := rfl
@[simp] theorem Thread.setP_h (t : Thread) (n : Nat) (y : Pred) : (t.setP n y).h = t.h := rfl
@[simp] theorem Thread.setP_xa (t : Thread) (n : Nat) (y : Pred) : (t.setP n y).xa = t.xa := rfl
@[simp] theorem Thread.setP_streams (t : Thread) (n : Nat) (y : Pred) : (t.setP n y).streams = t.streams := rfl
@[simp] theorem Thread.setP_rgsel (t : Thread) (n : Nat) (y : Pred) : (t.setP n y).rgsel = t.rgsel := rfl
@[simp] theorem Thread.setP_since (t : Thread) (n : Nat) (y : Pred) : (t.setP n y).since = t.since := rfl
@[simp] theorem Thread.setP_seq (t : Thread) (n : Nat) (y : Pred) : (t.setP n y).seq = t.seq := rfl
@[simp] theorem Thread.setP_displaced (t : Thread) (n : Nat) (y : Pred) : (t.setP n y).displaced = t.displaced := rfl
@[simp] theorem Thread.setP_stage (t : Thread) (n : Nat) (y : Pred) : (t.setP n y).stage = t.stage := rfl
@[simp] theorem Thread.setP_nextId (t : Thread) (n : Nat) (y : Pred) : (t.setP n y).nextId = t.nextId := rfl
@[simp] theorem Thread.setP_out (t : Thread) (n : Nat) (y : Pred) : (t.setP n y).out = t.out := rfl
@[simp] theorem Thread.setP_pend (t : Thread) (n : Nat) (y : Pred) : (t.setP n y).pend = t.pend := rfl
@[simp] theorem Thread.setP_stf (t : Thread) (n : Nat) (y : Pred) : (t.setP n y).stf = t.stf := rfl
@[simp] theorem Thread.setP_eng (t : Thread) (n : Nat) (y : Pred) : (t.setP n y).eng = t.eng := rfl
@[simp] theorem Thread.setP_engines (t : Thread) (n : Nat) (y : Pred) : (t.setP n y).engines = t.engines := rfl
@[simp] theorem Thread.setP_guardRec (t : Thread) (n : Nat) (y : Pred) : (t.setP n y).guardRec = t.guardRec := rfl
@[simp] theorem Thread.setP_units (t : Thread) (n : Nat) (y : Pred) : (t.setP n y).units = t.units := rfl
@[simp] theorem Thread.setP_creates (t : Thread) (n : Nat) (y : Pred) : (t.setP n y).creates = t.creates := rfl
@[simp] theorem Thread.setP_filter (t : Thread) (n : Nat) (y : Pred) : (t.setP n y).filter = t.filter := rfl
@[simp] theorem Thread.setP_acks (t : Thread) (n : Nat) (y : Pred) : (t.setP n y).acks = t.acks := rfl
@[simp] theorem Thread.setP_stepDue (t : Thread) (n : Nat) (y : Pred) : (t.setP n y).stepDue = t.stepDue := rfl
@[simp] theorem Thread.setP_opened (t : Thread) (n : Nat) (y : Pred) : (t.setP n y).opened = t.opened := rfl
@[simp] theorem Thread.setP_solverDead (t : Thread) (n : Nat) (y : Pred) : (t.setP n y).solverDead = t.solverDead := rfl
@[simp] theorem Thread.setP_solverJoin (t : Thread) (n : Nat) (y : Pred) : (t.setP n y).solverJoin = t.solverJoin := rfl
@[simp] theorem Thread.setP_checked (t : Thread) (n : Nat) (y : Pred) : (t.setP n y).checked = t.checked := rfl
@[simp] theorem Thread.setP_gone (t : Thread) (n : Nat) (y : Pred) : (t.setP n y).gone = t.gone := rfl
@[simp] theorem Thread.setP_bypass (t : Thread) (n : Nat) (y : Pred) : (t.setP n y).bypass = t.bypass := rfl
@[simp] theorem Thread.setP_volatiles (t : Thread) (n : Nat) (y : Pred) : (t.setP n y).volatiles = t.volatiles := rfl
@[simp] theorem Thread.setP_parkPc (t : Thread) (n : Nat) (y : Pred) : (t.setP n y).parkPc = t.parkPc := rfl
@[simp] theorem Thread.setP_att (t : Thread) (n : Nat) (y : Pred) : (t.setP n y).att = t.att := rfl

@[simp] theorem Thread.setH_status (t : Thread) (n : Nat) (y : Word) : (t.setH n y).status = t.status := rfl
@[simp] theorem Thread.setH_ctx (t : Thread) (n : Nat) (y : Word) : (t.setH n y).ctx = t.ctx := rfl
@[simp] theorem Thread.setH_v (t : Thread) (n : Nat) (y : Word) : (t.setH n y).v = t.v := rfl
@[simp] theorem Thread.setH_p (t : Thread) (n : Nat) (y : Word) : (t.setH n y).p = t.p := rfl
@[simp] theorem Thread.setH_xa (t : Thread) (n : Nat) (y : Word) : (t.setH n y).xa = t.xa := rfl
@[simp] theorem Thread.setH_streams (t : Thread) (n : Nat) (y : Word) : (t.setH n y).streams = t.streams := rfl
@[simp] theorem Thread.setH_rgsel (t : Thread) (n : Nat) (y : Word) : (t.setH n y).rgsel = t.rgsel := rfl
@[simp] theorem Thread.setH_since (t : Thread) (n : Nat) (y : Word) : (t.setH n y).since = t.since := rfl
@[simp] theorem Thread.setH_seq (t : Thread) (n : Nat) (y : Word) : (t.setH n y).seq = t.seq := rfl
@[simp] theorem Thread.setH_displaced (t : Thread) (n : Nat) (y : Word) : (t.setH n y).displaced = t.displaced := rfl
@[simp] theorem Thread.setH_stage (t : Thread) (n : Nat) (y : Word) : (t.setH n y).stage = t.stage := rfl
@[simp] theorem Thread.setH_nextId (t : Thread) (n : Nat) (y : Word) : (t.setH n y).nextId = t.nextId := rfl
@[simp] theorem Thread.setH_out (t : Thread) (n : Nat) (y : Word) : (t.setH n y).out = t.out := rfl
@[simp] theorem Thread.setH_pend (t : Thread) (n : Nat) (y : Word) : (t.setH n y).pend = t.pend := rfl
@[simp] theorem Thread.setH_stf (t : Thread) (n : Nat) (y : Word) : (t.setH n y).stf = t.stf := rfl
@[simp] theorem Thread.setH_eng (t : Thread) (n : Nat) (y : Word) : (t.setH n y).eng = t.eng := rfl
@[simp] theorem Thread.setH_engines (t : Thread) (n : Nat) (y : Word) : (t.setH n y).engines = t.engines := rfl
@[simp] theorem Thread.setH_guardRec (t : Thread) (n : Nat) (y : Word) : (t.setH n y).guardRec = t.guardRec := rfl
@[simp] theorem Thread.setH_units (t : Thread) (n : Nat) (y : Word) : (t.setH n y).units = t.units := rfl
@[simp] theorem Thread.setH_creates (t : Thread) (n : Nat) (y : Word) : (t.setH n y).creates = t.creates := rfl
@[simp] theorem Thread.setH_filter (t : Thread) (n : Nat) (y : Word) : (t.setH n y).filter = t.filter := rfl
@[simp] theorem Thread.setH_acks (t : Thread) (n : Nat) (y : Word) : (t.setH n y).acks = t.acks := rfl
@[simp] theorem Thread.setH_stepDue (t : Thread) (n : Nat) (y : Word) : (t.setH n y).stepDue = t.stepDue := rfl
@[simp] theorem Thread.setH_opened (t : Thread) (n : Nat) (y : Word) : (t.setH n y).opened = t.opened := rfl
@[simp] theorem Thread.setH_solverDead (t : Thread) (n : Nat) (y : Word) : (t.setH n y).solverDead = t.solverDead := rfl
@[simp] theorem Thread.setH_solverJoin (t : Thread) (n : Nat) (y : Word) : (t.setH n y).solverJoin = t.solverJoin := rfl
@[simp] theorem Thread.setH_checked (t : Thread) (n : Nat) (y : Word) : (t.setH n y).checked = t.checked := rfl
@[simp] theorem Thread.setH_gone (t : Thread) (n : Nat) (y : Word) : (t.setH n y).gone = t.gone := rfl
@[simp] theorem Thread.setH_bypass (t : Thread) (n : Nat) (y : Word) : (t.setH n y).bypass = t.bypass := rfl
@[simp] theorem Thread.setH_volatiles (t : Thread) (n : Nat) (y : Word) : (t.setH n y).volatiles = t.volatiles := rfl
@[simp] theorem Thread.setH_parkPc (t : Thread) (n : Nat) (y : Word) : (t.setH n y).parkPc = t.parkPc := rfl
@[simp] theorem Thread.setH_att (t : Thread) (n : Nat) (y : Word) : (t.setH n y).att = t.att := rfl

@[simp] theorem Thread.setStream_status (t : Thread) (n : Nat) (y : Stream) : (t.setStream n y).status = t.status := rfl
@[simp] theorem Thread.setStream_ctx (t : Thread) (n : Nat) (y : Stream) : (t.setStream n y).ctx = t.ctx := rfl
@[simp] theorem Thread.setStream_v (t : Thread) (n : Nat) (y : Stream) : (t.setStream n y).v = t.v := rfl
@[simp] theorem Thread.setStream_p (t : Thread) (n : Nat) (y : Stream) : (t.setStream n y).p = t.p := rfl
@[simp] theorem Thread.setStream_h (t : Thread) (n : Nat) (y : Stream) : (t.setStream n y).h = t.h := rfl
@[simp] theorem Thread.setStream_xa (t : Thread) (n : Nat) (y : Stream) : (t.setStream n y).xa = t.xa := rfl
@[simp] theorem Thread.setStream_rgsel (t : Thread) (n : Nat) (y : Stream) : (t.setStream n y).rgsel = t.rgsel := rfl
@[simp] theorem Thread.setStream_since (t : Thread) (n : Nat) (y : Stream) : (t.setStream n y).since = t.since := rfl
@[simp] theorem Thread.setStream_seq (t : Thread) (n : Nat) (y : Stream) : (t.setStream n y).seq = t.seq := rfl
@[simp] theorem Thread.setStream_displaced (t : Thread) (n : Nat) (y : Stream) : (t.setStream n y).displaced = t.displaced := rfl
@[simp] theorem Thread.setStream_stage (t : Thread) (n : Nat) (y : Stream) : (t.setStream n y).stage = t.stage := rfl
@[simp] theorem Thread.setStream_nextId (t : Thread) (n : Nat) (y : Stream) : (t.setStream n y).nextId = t.nextId := rfl
@[simp] theorem Thread.setStream_out (t : Thread) (n : Nat) (y : Stream) : (t.setStream n y).out = t.out := rfl
@[simp] theorem Thread.setStream_pend (t : Thread) (n : Nat) (y : Stream) : (t.setStream n y).pend = t.pend := rfl
@[simp] theorem Thread.setStream_stf (t : Thread) (n : Nat) (y : Stream) : (t.setStream n y).stf = t.stf := rfl
@[simp] theorem Thread.setStream_eng (t : Thread) (n : Nat) (y : Stream) : (t.setStream n y).eng = t.eng := rfl
@[simp] theorem Thread.setStream_engines (t : Thread) (n : Nat) (y : Stream) : (t.setStream n y).engines = t.engines := rfl
@[simp] theorem Thread.setStream_guardRec (t : Thread) (n : Nat) (y : Stream) : (t.setStream n y).guardRec = t.guardRec := rfl
@[simp] theorem Thread.setStream_units (t : Thread) (n : Nat) (y : Stream) : (t.setStream n y).units = t.units := rfl
@[simp] theorem Thread.setStream_creates (t : Thread) (n : Nat) (y : Stream) : (t.setStream n y).creates = t.creates := rfl
@[simp] theorem Thread.setStream_filter (t : Thread) (n : Nat) (y : Stream) : (t.setStream n y).filter = t.filter := rfl
@[simp] theorem Thread.setStream_acks (t : Thread) (n : Nat) (y : Stream) : (t.setStream n y).acks = t.acks := rfl
@[simp] theorem Thread.setStream_stepDue (t : Thread) (n : Nat) (y : Stream) : (t.setStream n y).stepDue = t.stepDue := rfl
@[simp] theorem Thread.setStream_opened (t : Thread) (n : Nat) (y : Stream) : (t.setStream n y).opened = t.opened := rfl
@[simp] theorem Thread.setStream_solverDead (t : Thread) (n : Nat) (y : Stream) : (t.setStream n y).solverDead = t.solverDead := rfl
@[simp] theorem Thread.setStream_solverJoin (t : Thread) (n : Nat) (y : Stream) : (t.setStream n y).solverJoin = t.solverJoin := rfl
@[simp] theorem Thread.setStream_checked (t : Thread) (n : Nat) (y : Stream) : (t.setStream n y).checked = t.checked := rfl
@[simp] theorem Thread.setStream_gone (t : Thread) (n : Nat) (y : Stream) : (t.setStream n y).gone = t.gone := rfl
@[simp] theorem Thread.setStream_bypass (t : Thread) (n : Nat) (y : Stream) : (t.setStream n y).bypass = t.bypass := rfl
@[simp] theorem Thread.setStream_volatiles (t : Thread) (n : Nat) (y : Stream) : (t.setStream n y).volatiles = t.volatiles := rfl
@[simp] theorem Thread.setStream_parkPc (t : Thread) (n : Nat) (y : Stream) : (t.setStream n y).parkPc = t.parkPc := rfl
@[simp] theorem Thread.setStream_att (t : Thread) (n : Nat) (y : Stream) : (t.setStream n y).att = t.att := rfl

@[simp] theorem Thread.setC_status (t : Thread) (n : Nat) (y : Bool) : (t.setC n y).status = t.status := rfl
@[simp] theorem Thread.setC_v (t : Thread) (n : Nat) (y : Bool) : (t.setC n y).v = t.v := rfl
@[simp] theorem Thread.setC_p (t : Thread) (n : Nat) (y : Bool) : (t.setC n y).p = t.p := rfl
@[simp] theorem Thread.setC_h (t : Thread) (n : Nat) (y : Bool) : (t.setC n y).h = t.h := rfl
@[simp] theorem Thread.setC_xa (t : Thread) (n : Nat) (y : Bool) : (t.setC n y).xa = t.xa := rfl
@[simp] theorem Thread.setC_streams (t : Thread) (n : Nat) (y : Bool) : (t.setC n y).streams = t.streams := rfl
@[simp] theorem Thread.setC_rgsel (t : Thread) (n : Nat) (y : Bool) : (t.setC n y).rgsel = t.rgsel := rfl
@[simp] theorem Thread.setC_since (t : Thread) (n : Nat) (y : Bool) : (t.setC n y).since = t.since := rfl
@[simp] theorem Thread.setC_seq (t : Thread) (n : Nat) (y : Bool) : (t.setC n y).seq = t.seq := rfl
@[simp] theorem Thread.setC_displaced (t : Thread) (n : Nat) (y : Bool) : (t.setC n y).displaced = t.displaced := rfl
@[simp] theorem Thread.setC_stage (t : Thread) (n : Nat) (y : Bool) : (t.setC n y).stage = t.stage := rfl
@[simp] theorem Thread.setC_nextId (t : Thread) (n : Nat) (y : Bool) : (t.setC n y).nextId = t.nextId := rfl
@[simp] theorem Thread.setC_out (t : Thread) (n : Nat) (y : Bool) : (t.setC n y).out = t.out := rfl
@[simp] theorem Thread.setC_pend (t : Thread) (n : Nat) (y : Bool) : (t.setC n y).pend = t.pend := rfl
@[simp] theorem Thread.setC_stf (t : Thread) (n : Nat) (y : Bool) : (t.setC n y).stf = t.stf := rfl
@[simp] theorem Thread.setC_eng (t : Thread) (n : Nat) (y : Bool) : (t.setC n y).eng = t.eng := rfl
@[simp] theorem Thread.setC_engines (t : Thread) (n : Nat) (y : Bool) : (t.setC n y).engines = t.engines := rfl
@[simp] theorem Thread.setC_guardRec (t : Thread) (n : Nat) (y : Bool) : (t.setC n y).guardRec = t.guardRec := rfl
@[simp] theorem Thread.setC_units (t : Thread) (n : Nat) (y : Bool) : (t.setC n y).units = t.units := rfl
@[simp] theorem Thread.setC_creates (t : Thread) (n : Nat) (y : Bool) : (t.setC n y).creates = t.creates := rfl
@[simp] theorem Thread.setC_filter (t : Thread) (n : Nat) (y : Bool) : (t.setC n y).filter = t.filter := rfl
@[simp] theorem Thread.setC_acks (t : Thread) (n : Nat) (y : Bool) : (t.setC n y).acks = t.acks := rfl
@[simp] theorem Thread.setC_stepDue (t : Thread) (n : Nat) (y : Bool) : (t.setC n y).stepDue = t.stepDue := rfl
@[simp] theorem Thread.setC_opened (t : Thread) (n : Nat) (y : Bool) : (t.setC n y).opened = t.opened := rfl
@[simp] theorem Thread.setC_solverDead (t : Thread) (n : Nat) (y : Bool) : (t.setC n y).solverDead = t.solverDead := rfl
@[simp] theorem Thread.setC_solverJoin (t : Thread) (n : Nat) (y : Bool) : (t.setC n y).solverJoin = t.solverJoin := rfl
@[simp] theorem Thread.setC_checked (t : Thread) (n : Nat) (y : Bool) : (t.setC n y).checked = t.checked := rfl
@[simp] theorem Thread.setC_gone (t : Thread) (n : Nat) (y : Bool) : (t.setC n y).gone = t.gone := rfl
@[simp] theorem Thread.setC_bypass (t : Thread) (n : Nat) (y : Bool) : (t.setC n y).bypass = t.bypass := rfl
@[simp] theorem Thread.setC_volatiles (t : Thread) (n : Nat) (y : Bool) : (t.setC n y).volatiles = t.volatiles := rfl
@[simp] theorem Thread.setC_parkPc (t : Thread) (n : Nat) (y : Bool) : (t.setC n y).parkPc = t.parkPc := rfl
@[simp] theorem Thread.setC_att (t : Thread) (n : Nat) (y : Bool) : (t.setC n y).att = t.att := rfl

@[simp] theorem Thread.orFlags_status (t : Thread) (y : Flags) : (t.orFlags y).status = t.status := rfl
@[simp] theorem Thread.orFlags_v (t : Thread) (y : Flags) : (t.orFlags y).v = t.v := rfl
@[simp] theorem Thread.orFlags_p (t : Thread) (y : Flags) : (t.orFlags y).p = t.p := rfl
@[simp] theorem Thread.orFlags_h (t : Thread) (y : Flags) : (t.orFlags y).h = t.h := rfl
@[simp] theorem Thread.orFlags_xa (t : Thread) (y : Flags) : (t.orFlags y).xa = t.xa := rfl
@[simp] theorem Thread.orFlags_streams (t : Thread) (y : Flags) : (t.orFlags y).streams = t.streams := rfl
@[simp] theorem Thread.orFlags_rgsel (t : Thread) (y : Flags) : (t.orFlags y).rgsel = t.rgsel := rfl
@[simp] theorem Thread.orFlags_since (t : Thread) (y : Flags) : (t.orFlags y).since = t.since := rfl
@[simp] theorem Thread.orFlags_seq (t : Thread) (y : Flags) : (t.orFlags y).seq = t.seq := rfl
@[simp] theorem Thread.orFlags_displaced (t : Thread) (y : Flags) : (t.orFlags y).displaced = t.displaced := rfl
@[simp] theorem Thread.orFlags_stage (t : Thread) (y : Flags) : (t.orFlags y).stage = t.stage := rfl
@[simp] theorem Thread.orFlags_nextId (t : Thread) (y : Flags) : (t.orFlags y).nextId = t.nextId := rfl
@[simp] theorem Thread.orFlags_out (t : Thread) (y : Flags) : (t.orFlags y).out = t.out := rfl
@[simp] theorem Thread.orFlags_pend (t : Thread) (y : Flags) : (t.orFlags y).pend = t.pend := rfl
@[simp] theorem Thread.orFlags_stf (t : Thread) (y : Flags) : (t.orFlags y).stf = t.stf := rfl
@[simp] theorem Thread.orFlags_eng (t : Thread) (y : Flags) : (t.orFlags y).eng = t.eng := rfl
@[simp] theorem Thread.orFlags_engines (t : Thread) (y : Flags) : (t.orFlags y).engines = t.engines := rfl
@[simp] theorem Thread.orFlags_guardRec (t : Thread) (y : Flags) : (t.orFlags y).guardRec = t.guardRec := rfl
@[simp] theorem Thread.orFlags_units (t : Thread) (y : Flags) : (t.orFlags y).units = t.units := rfl
@[simp] theorem Thread.orFlags_creates (t : Thread) (y : Flags) : (t.orFlags y).creates = t.creates := rfl
@[simp] theorem Thread.orFlags_filter (t : Thread) (y : Flags) : (t.orFlags y).filter = t.filter := rfl
@[simp] theorem Thread.orFlags_acks (t : Thread) (y : Flags) : (t.orFlags y).acks = t.acks := rfl
@[simp] theorem Thread.orFlags_stepDue (t : Thread) (y : Flags) : (t.orFlags y).stepDue = t.stepDue := rfl
@[simp] theorem Thread.orFlags_opened (t : Thread) (y : Flags) : (t.orFlags y).opened = t.opened := rfl
@[simp] theorem Thread.orFlags_solverDead (t : Thread) (y : Flags) : (t.orFlags y).solverDead = t.solverDead := rfl
@[simp] theorem Thread.orFlags_solverJoin (t : Thread) (y : Flags) : (t.orFlags y).solverJoin = t.solverJoin := rfl
@[simp] theorem Thread.orFlags_checked (t : Thread) (y : Flags) : (t.orFlags y).checked = t.checked := rfl
@[simp] theorem Thread.orFlags_gone (t : Thread) (y : Flags) : (t.orFlags y).gone = t.gone := rfl
@[simp] theorem Thread.orFlags_bypass (t : Thread) (y : Flags) : (t.orFlags y).bypass = t.bypass := rfl
@[simp] theorem Thread.orFlags_volatiles (t : Thread) (y : Flags) : (t.orFlags y).volatiles = t.volatiles := rfl
@[simp] theorem Thread.orFlags_parkPc (t : Thread) (y : Flags) : (t.orFlags y).parkPc = t.parkPc := rfl
@[simp] theorem Thread.orFlags_att (t : Thread) (y : Flags) : (t.orFlags y).att = t.att := rfl

@[simp] theorem Thread.setModfb_status (t : Thread) : (t.setModfb).status = t.status := rfl
@[simp] theorem Thread.setModfb_v (t : Thread) : (t.setModfb).v = t.v := rfl
@[simp] theorem Thread.setModfb_p (t : Thread) : (t.setModfb).p = t.p := rfl
@[simp] theorem Thread.setModfb_h (t : Thread) : (t.setModfb).h = t.h := rfl
@[simp] theorem Thread.setModfb_xa (t : Thread) : (t.setModfb).xa = t.xa := rfl
@[simp] theorem Thread.setModfb_streams (t : Thread) : (t.setModfb).streams = t.streams := rfl
@[simp] theorem Thread.setModfb_rgsel (t : Thread) : (t.setModfb).rgsel = t.rgsel := rfl
@[simp] theorem Thread.setModfb_since (t : Thread) : (t.setModfb).since = t.since := rfl
@[simp] theorem Thread.setModfb_seq (t : Thread) : (t.setModfb).seq = t.seq := rfl
@[simp] theorem Thread.setModfb_displaced (t : Thread) : (t.setModfb).displaced = t.displaced := rfl
@[simp] theorem Thread.setModfb_stage (t : Thread) : (t.setModfb).stage = t.stage := rfl
@[simp] theorem Thread.setModfb_nextId (t : Thread) : (t.setModfb).nextId = t.nextId := rfl
@[simp] theorem Thread.setModfb_out (t : Thread) : (t.setModfb).out = t.out := rfl
@[simp] theorem Thread.setModfb_pend (t : Thread) : (t.setModfb).pend = t.pend := rfl
@[simp] theorem Thread.setModfb_stf (t : Thread) : (t.setModfb).stf = t.stf := rfl
@[simp] theorem Thread.setModfb_eng (t : Thread) : (t.setModfb).eng = t.eng := rfl
@[simp] theorem Thread.setModfb_engines (t : Thread) : (t.setModfb).engines = t.engines := rfl
@[simp] theorem Thread.setModfb_guardRec (t : Thread) : (t.setModfb).guardRec = t.guardRec := rfl
@[simp] theorem Thread.setModfb_units (t : Thread) : (t.setModfb).units = t.units := rfl
@[simp] theorem Thread.setModfb_creates (t : Thread) : (t.setModfb).creates = t.creates := rfl
@[simp] theorem Thread.setModfb_filter (t : Thread) : (t.setModfb).filter = t.filter := rfl
@[simp] theorem Thread.setModfb_acks (t : Thread) : (t.setModfb).acks = t.acks := rfl
@[simp] theorem Thread.setModfb_stepDue (t : Thread) : (t.setModfb).stepDue = t.stepDue := rfl
@[simp] theorem Thread.setModfb_opened (t : Thread) : (t.setModfb).opened = t.opened := rfl
@[simp] theorem Thread.setModfb_solverDead (t : Thread) : (t.setModfb).solverDead = t.solverDead := rfl
@[simp] theorem Thread.setModfb_solverJoin (t : Thread) : (t.setModfb).solverJoin = t.solverJoin := rfl
@[simp] theorem Thread.setModfb_checked (t : Thread) : (t.setModfb).checked = t.checked := rfl
@[simp] theorem Thread.setModfb_gone (t : Thread) : (t.setModfb).gone = t.gone := rfl
@[simp] theorem Thread.setModfb_bypass (t : Thread) : (t.setModfb).bypass = t.bypass := rfl
@[simp] theorem Thread.setModfb_volatiles (t : Thread) : (t.setModfb).volatiles = t.volatiles := rfl
@[simp] theorem Thread.setModfb_parkPc (t : Thread) : (t.setModfb).parkPc = t.parkPc := rfl
@[simp] theorem Thread.setModfb_att (t : Thread) : (t.setModfb).att = t.att := rfl

@[simp] theorem Thread.setX_status (t : Thread) (n : Nat) (y : Word) : (t.setX n y).status = t.status := by unfold Thread.setX; split <;> rfl
@[simp] theorem Thread.setX_v (t : Thread) (n : Nat) (y : Word) : (t.setX n y).v = t.v := by unfold Thread.setX; split <;> rfl
@[simp] theorem Thread.setX_p (t : Thread) (n : Nat) (y : Word) : (t.setX n y).p = t.p := by unfold Thread.setX; split <;> rfl
@[simp] theorem Thread.setX_h (t : Thread) (n : Nat) (y : Word) : (t.setX n y).h = t.h := by unfold Thread.setX; split <;> rfl
@[simp] theorem Thread.setX_xa (t : Thread) (n : Nat) (y : Word) : (t.setX n y).xa = t.xa := by unfold Thread.setX; split <;> rfl
@[simp] theorem Thread.setX_streams (t : Thread) (n : Nat) (y : Word) : (t.setX n y).streams = t.streams := by unfold Thread.setX; split <;> rfl
@[simp] theorem Thread.setX_rgsel (t : Thread) (n : Nat) (y : Word) : (t.setX n y).rgsel = t.rgsel := by unfold Thread.setX; split <;> rfl
@[simp] theorem Thread.setX_since (t : Thread) (n : Nat) (y : Word) : (t.setX n y).since = t.since := by unfold Thread.setX; split <;> rfl
@[simp] theorem Thread.setX_seq (t : Thread) (n : Nat) (y : Word) : (t.setX n y).seq = t.seq := by unfold Thread.setX; split <;> rfl
@[simp] theorem Thread.setX_displaced (t : Thread) (n : Nat) (y : Word) : (t.setX n y).displaced = t.displaced := by unfold Thread.setX; split <;> rfl
@[simp] theorem Thread.setX_stage (t : Thread) (n : Nat) (y : Word) : (t.setX n y).stage = t.stage := by unfold Thread.setX; split <;> rfl
@[simp] theorem Thread.setX_nextId (t : Thread) (n : Nat) (y : Word) : (t.setX n y).nextId = t.nextId := by unfold Thread.setX; split <;> rfl
@[simp] theorem Thread.setX_out (t : Thread) (n : Nat) (y : Word) : (t.setX n y).out = t.out := by unfold Thread.setX; split <;> rfl
@[simp] theorem Thread.setX_pend (t : Thread) (n : Nat) (y : Word) : (t.setX n y).pend = t.pend := by unfold Thread.setX; split <;> rfl
@[simp] theorem Thread.setX_stf (t : Thread) (n : Nat) (y : Word) : (t.setX n y).stf = t.stf := by unfold Thread.setX; split <;> rfl
@[simp] theorem Thread.setX_eng (t : Thread) (n : Nat) (y : Word) : (t.setX n y).eng = t.eng := by unfold Thread.setX; split <;> rfl
@[simp] theorem Thread.setX_engines (t : Thread) (n : Nat) (y : Word) : (t.setX n y).engines = t.engines := by unfold Thread.setX; split <;> rfl
@[simp] theorem Thread.setX_guardRec (t : Thread) (n : Nat) (y : Word) : (t.setX n y).guardRec = t.guardRec := by unfold Thread.setX; split <;> rfl
@[simp] theorem Thread.setX_units (t : Thread) (n : Nat) (y : Word) : (t.setX n y).units = t.units := by unfold Thread.setX; split <;> rfl
@[simp] theorem Thread.setX_creates (t : Thread) (n : Nat) (y : Word) : (t.setX n y).creates = t.creates := by unfold Thread.setX; split <;> rfl
@[simp] theorem Thread.setX_filter (t : Thread) (n : Nat) (y : Word) : (t.setX n y).filter = t.filter := by unfold Thread.setX; split <;> rfl
@[simp] theorem Thread.setX_acks (t : Thread) (n : Nat) (y : Word) : (t.setX n y).acks = t.acks := by unfold Thread.setX; split <;> rfl
@[simp] theorem Thread.setX_stepDue (t : Thread) (n : Nat) (y : Word) : (t.setX n y).stepDue = t.stepDue := by unfold Thread.setX; split <;> rfl
@[simp] theorem Thread.setX_opened (t : Thread) (n : Nat) (y : Word) : (t.setX n y).opened = t.opened := by unfold Thread.setX; split <;> rfl
@[simp] theorem Thread.setX_solverDead (t : Thread) (n : Nat) (y : Word) : (t.setX n y).solverDead = t.solverDead := by unfold Thread.setX; split <;> rfl
@[simp] theorem Thread.setX_solverJoin (t : Thread) (n : Nat) (y : Word) : (t.setX n y).solverJoin = t.solverJoin := by unfold Thread.setX; split <;> rfl
@[simp] theorem Thread.setX_checked (t : Thread) (n : Nat) (y : Word) : (t.setX n y).checked = t.checked := by unfold Thread.setX; split <;> rfl
@[simp] theorem Thread.setX_gone (t : Thread) (n : Nat) (y : Word) : (t.setX n y).gone = t.gone := by unfold Thread.setX; split <;> rfl
@[simp] theorem Thread.setX_bypass (t : Thread) (n : Nat) (y : Word) : (t.setX n y).bypass = t.bypass := by unfold Thread.setX; split <;> rfl
@[simp] theorem Thread.setX_volatiles (t : Thread) (n : Nat) (y : Word) : (t.setX n y).volatiles = t.volatiles := by unfold Thread.setX; split <;> rfl
@[simp] theorem Thread.setX_parkPc (t : Thread) (n : Nat) (y : Word) : (t.setX n y).parkPc = t.parkPc := by unfold Thread.setX; split <;> rfl
@[simp] theorem Thread.setX_att (t : Thread) (n : Nat) (y : Word) : (t.setX n y).att = t.att := by unfold Thread.setX; split <;> rfl

/-! ## Registers -/

@[simp] theorem Thread.x_zero (t : Thread) : t.x 0 = 0 := rfl

theorem Thread.x_setX (t : Thread) (n k : Nat) (y : Word) : (t.setX n y).x k = if k = n ∧ n ≠ 0 then y else t.x k := by
  unfold Thread.setX Thread.x
  by_cases hn : n = 0
  · simp [hn]
  · by_cases hk : k = 0
    · subst hk
      have : ¬ 0 = n := fun h => hn h.symm
      simp [hn, this]
    · simp [hn, hk, tget_tset]

@[simp] theorem Thread.x_setX_self (t : Thread) (n : Nat) (y : Word) (h : n ≠ 0) : (t.setX n y).x n = y := by
  simp [Thread.x_setX, h]

@[simp] theorem Thread.setX_zero (t : Thread) (y : Word) : t.setX 0 y = t := rfl

@[simp] theorem Thread.vreg_setV_self (t : Thread) (n : Nat) (y : Line) : (t.setV n y).vreg n = y := tget_tset_self _ _ _ _

@[simp] theorem Thread.preg_setP_self (t : Thread) (n : Nat) (y : Pred) : (t.setP n y).preg n = y := tget_tset_self _ _ _ _

@[simp] theorem Thread.handle_setH_self (t : Thread) (n : Nat) (y : Word) : (t.setH n y).handle n = y := tget_tset_self _ _ _ _

/-! ## Links and the step governor -/

/-- An access within a module crosses no link. -/
@[simp] theorem overLinks_self (s : State) (m : Nat) : s.overLinks m m = s := by
  simp [State.overLinks, State.hops]

/-- A step that no link holds up stands; one that has been held leaves the state in which it will be tried again. -/
theorem orHeld_clear {back t : State} (h : t.linkHeld = false) : orHeld back t = t := by simp [orHeld, h]

theorem orHeld_held {back t : State} (h : t.linkHeld = true) (hb : back.linkHeld = false) : orHeld back t = back := by simp [orHeld, h, hb]

/-- Work is let through exactly where the slope and the share of its die allow it. -/
theorem askGovernor_fst (s : State) (gdie amps : Nat) :
    (s.askGovernor gdie amps).1 = (s.slopeAllows gdie amps && s.shareAllows gdie amps) := by
  unfold State.askGovernor
  by_cases h : (s.slopeAllows gdie amps && s.shareAllows gdie amps) = true
  · simp only [h, if_true]
  · simp only [h, Bool.false_eq_true, if_false]
    split <;> simp_all


end Sys2Proof.Machine
end

