-- ==== Sys2Proof/Laws/Issue.lean ====
section
/-! SUPPORT. Everything that one issue can do (Machine/Issue.lean): the trap of an illegal sequence, the instruction guarded off, the
wait for the step governor, and the instruction that performs; and what the machine in which it performs shares with the one before. -/

namespace Sys2Proof.Machine

/-- Asking the governor leaves every thread as it is. -/
@[simp] theorem askGovernor_threads (s : State) (d a : Nat) : (s.askGovernor d a).2.threads = s.threads := by
  unfold State.askGovernor
  simp only
  repeat' split
  all_goals rfl

@[simp] theorem askVector_threads (s : State) (c : Nat) : (s.askVector c).2.threads = s.threads := by
  unfold State.askVector
  simp only
  repeat' split
  all_goals simp

@[simp] theorem governed_thread (s : State) (t : Traits) (g : Nat) : (governed s t).thread g = s.thread g := by
  unfold governed State.thread
  split <;> simp

@[simp] theorem begun_thread_other (s : State) (t : Traits) (g : Nat) (h : g ≠ s.cur) : (begun s t).thread g = s.thread g := by
  unfold begun
  simp only
  split
  · simp [State.thread_setThread, h]
  · simp

/-- A thread with HAZ and MODFB as given. -/
def Thread.flagged (h : Thread) (haz modfb : Bool) : Thread := { h with ctx := { h.ctx with haz := haz, modfb := modfb } }

@[simp] theorem Thread.flagged_x (h : Thread) (a b : Bool) (n : Nat) : (h.flagged a b).x n = h.x n := rfl
@[simp] theorem Thread.flagged_vreg (h : Thread) (a b : Bool) (n : Nat) : (h.flagged a b).vreg n = h.vreg n := rfl
@[simp] theorem Thread.flagged_preg (h : Thread) (a b : Bool) (n : Nat) : (h.flagged a b).preg n = h.preg n := rfl
@[simp] theorem Thread.flagged_creg (h : Thread) (a b : Bool) (n : Nat) : (h.flagged a b).creg n = h.creg n := rfl
@[simp] theorem Thread.flagged_handle (h : Thread) (a b : Bool) (n : Nat) : (h.flagged a b).handle n = h.handle n := rfl
@[simp] theorem Thread.flagged_stream (h : Thread) (a b : Bool) (n : Nat) : (h.flagged a b).stream n = h.stream n := rfl
@[simp] theorem Thread.flagged_stage (h : Thread) (a b : Bool) : (h.flagged a b).stage = h.stage := rfl
@[simp] theorem Thread.flagged_status (h : Thread) (a b : Bool) : (h.flagged a b).status = h.status := rfl
@[simp] theorem Thread.flagged_xa (h : Thread) (a b : Bool) : (h.flagged a b).xa = h.xa := rfl
@[simp] theorem Thread.flagged_cond (h : Thread) (a b : Bool) : (h.flagged a b).ctx.cond = h.ctx.cond := rfl
@[simp] theorem Thread.flagged_mode (h : Thread) (a b : Bool) : (h.flagged a b).ctx.mode = h.ctx.mode := rfl
@[simp] theorem Thread.flagged_ids (h : Thread) (a b : Bool) : (h.flagged a b).ctx.ids = h.ctx.ids := rfl
@[simp] theorem Thread.flagged_pc (h : Thread) (a b : Bool) : (h.flagged a b).ctx.pc = h.ctx.pc := rfl
@[simp] theorem Thread.flagged_bval (h : Thread) (a b : Bool) (i : Iss) : i.bval (h.flagged a b) = i.bval h := rfl
@[simp] theorem Thread.flagged_vB (h : Thread) (a b : Bool) (i : Iss) (w : Nat) : i.vB (h.flagged a b) w = i.vB h w := rfl

/-- The current thread, once its instruction performs: HAZ and MODFB alone may differ (R159, R235). -/
theorem begun_thread (s : State) (t : Traits) :
    (begun s t).thread s.cur =
      s.hand.flagged (s.hand.ctx.haz || hazard s t) (s.hand.ctx.modfb || fallback t s.sequence (issued s t).bv.isSome) := by
  unfold begun Thread.flagged
  simp only
  split
  · simp [State.hand]
  · rename_i h
    simp only [Bool.or_eq_true, not_or, Bool.not_eq_true] at h
    simp [State.hand, h.1, h.2]

@[simp] theorem issued_g (s : State) (t : Traits) : (issued s t).g = s.cur := rfl

/-- The choices of an issue, in the words of the statements. -/
theorem issue_cases (s : State) (t : Traits) (body : Iss → State → Res) :
    issue s t body =
      if s.hand.seq.isNone && bit s.hand.ctx.pc 63 then enter s s.cur { illegal with pc := some (wordAddr s.hand.ctx.pc) }
      else if s.sequence.rep.isSome && !t.rep then enter s s.cur illegal
      else if overwide s t then enter s s.cur illegal
      else if !guards s t then
        settle s s.cur t.m (.done (if bothGuards t s.sequence then s.modCtx s.cur fun c => { c with modfb := true } else s))
      else if t.power && !(s.askVector (coreOf s.cur)).1 then
        settle s s.cur t.m (.wait .unit (s.askVector (coreOf s.cur)).2)
      else settle (governed s t) s.cur t.m (body (issued s t) (begun s t)) := rfl

/-- An instruction that performs: its own effect, from the machine as it then stands, and what follows an effect. -/
theorem issue_performs (s : State) (t : Traits) (body : Iss → State → Res) (h : performs s t = true) :
    issue s t body = settle (governed s t) s.cur t.m (body (issued s t) (begun s t)) := by
  simp only [performs, sequenced, Bool.and_eq_true, Bool.not_eq_true', Bool.or_eq_true] at h
  obtain ⟨⟨⟨⟨h1, h2⟩, h3⟩, h4⟩, h5⟩ := h
  have h5 : (t.power && !(s.askVector (coreOf s.cur)).1) = false := by
    cases h5 with
    | inl h => simp [h]
    | inr h => simp [h]
  rw [issue_cases]
  simp only [h1, h2, h3, h4, h5, Bool.not_true, Bool.false_eq_true, if_false]

/-- An instruction guarded off performs nothing (R218); two guards leave their mark (R235). -/
theorem issue_guarded (s : State) (t : Traits) (body : Iss → State → Res) (hs : sequenced s t = true) (h : guards s t = false) :
    issue s t body = settle s s.cur t.m
      (.done (if bothGuards t s.sequence then s.modCtx s.cur fun c => { c with modfb := true } else s)) := by
  simp only [sequenced, Bool.and_eq_true, Bool.not_eq_true'] at hs
  obtain ⟨⟨h1, h2⟩, h3⟩ := hs
  rw [issue_cases]
  simp only [h1, h2, h3, h, Bool.not_false, Bool.false_eq_true, if_false, if_true]

/-- An instruction that would perform, but that the governor lets wait (R425). -/
theorem issue_held (s : State) (t : Traits) (body : Iss → State → Res) (hs : sequenced s t = true) (h : guards s t = true)
    (hp : t.power = true) (hg : (s.askVector (coreOf s.cur)).1 = false) :
    issue s t body = settle s s.cur t.m (.wait .unit (s.askVector (coreOf s.cur)).2) := by
  simp only [sequenced, Bool.and_eq_true, Bool.not_eq_true'] at hs
  obtain ⟨⟨h1, h2⟩, h3⟩ := hs
  rw [issue_cases]
  simp only [h1, h2, h3, h, hp, hg, Bool.not_true, Bool.not_false, Bool.true_and, Bool.false_eq_true, if_false, if_true]

/-- A sequence that R223 to R226 or R267 do not allow raises ILLEGAL_INSTRUCTION, and nothing is performed. -/
theorem issue_unsequenced (s : State) (t : Traits) (body : Iss → State → Res) (h : sequenced s t = false) :
    ∃ f, f.cause = Cause.illegalInstruction ∧ issue s t body = enter s s.cur f := by
  simp only [sequenced, Bool.and_eq_false_iff, Bool.not_eq_false'] at h
  rw [issue_cases]
  split
  · exact ⟨_, rfl, rfl⟩
  · split
    · exact ⟨_, rfl, rfl⟩
    · split
      · exact ⟨_, rfl, rfl⟩
      · rename_i h1 h2 h3
        obtain (h | h) | h := h
        · exact absurd h h1
        · exact absurd h h2
        · exact absurd h h3

/-- How the statements about an instruction's end are proved: its meaning is an issue, and its body, from any state whose current thread
differs in HAZ and MODFB alone, ends so. -/
theorem ends_of (i : Instr) (s : State) (t : Traits) (r : Iss → Thread → State → Res) (body : Iss → State → Res)
    (h1 : exec i s = finish s (issue s t body))
    (h2 : ∀ (j : Iss) (u : State) (h : Thread) (a b : Bool), j.g = s.cur → u.thread s.cur = h.flagged a b → body j u = r j h u) :
    Ends i s t r := by
  intro h
  rw [h1, issue_performs s t body h, h2 _ _ _ _ _ rfl (begun_thread s t)]
  rfl

/-- The same, of the very machine in which the effect begins. -/
theorem ends_issued (i : Instr) (s : State) (t : Traits) (r : Iss → Thread → State → Res) (body : Iss → State → Res)
    (h1 : exec i s = finish s (issue s t body))
    (h2 : ∀ a b, (begun s t).thread s.cur = s.hand.flagged a b → body (issued s t) (begun s t) = r (issued s t) s.hand (begun s t)) :
    Ends i s t r := by
  intro h
  rw [h1, issue_performs s t body h, h2 _ _ (begun_thread s t)]
  rfl

end Sys2Proof.Machine
end

