-- ==== Sys2Proof/Laws/PerInstr.lean ====
section
/-! SUPPORT. One statement about every instruction as syntax, constructor by constructor: its word has 32 bits. -/

namespace Sys2Proof.Laws.WordFits

/-- The number that the encoder gives an instruction lies below 2^32, so that encode cuts nothing off. -/
def Statement (i : Instr) : Prop := ∀ n, encodeNat i = some n → n < 2 ^ 32

theorem bitNat_le (b : Bool) : bitNat b ≤ 1 := by cases b <;> decide

/-- How an encoded instruction's lemma follows from the bound of its format. -/
theorem of_lt {i : Instr} {m : Nat} (h : encodeNat i = some m) (hm : m < 2 ^ 32) : Statement i := by
  intro n hn
  rw [h] at hn
  exact Option.some.inj hn ▸ hm

/-- A step of the machine has no word. -/
theorem of_none {i : Instr} (h : encodeNat i = none) : Statement i := by
  intro n hn
  rw [h] at hn
  cases hn

theorem packR_lt (op f : Nat) (o : OpR) (hop : op < 64) (hf : f < 32) : packR op f o < 2 ^ 32 := by
  unfold packR
  have := bitNat_le o.m
  have := o.g.isLt
  have := o.d.isLt
  have := o.a.isLt
  have := o.b.isLt
  omega

theorem packF_lt (op f : Nat) (o : OpF) (hop : op < 64) (hf : f < 8) : packF op f o < 2 ^ 32 := by
  unfold packF
  have := bitNat_le o.m
  have := o.g.isLt
  have := o.d.isLt
  have := o.a.isLt
  have := o.b.isLt
  have := o.t.isLt
  omega

theorem packC_lt (op : Nat) (o : OpC) (hop : op < 64) : packC op o < 2 ^ 32 := by
  unfold packC
  have := bitNat_le o.m
  have := o.g.isLt
  have := o.d.isLt
  have := o.a.isLt
  have := o.b.isLt
  have := o.c.isLt
  omega

theorem packI_lt (op : Nat) (o : OpI) (hop : op < 64) : packI op o < 2 ^ 32 := by
  unfold packI
  have := bitNat_le o.m
  have := o.g.isLt
  have := o.d.isLt
  have := o.a.isLt
  have := o.k.isLt
  omega

theorem packSh_lt (op f : Nat) (o : OpSh) (hop : op < 64) (hf : f < 4) : packSh op f o < 2 ^ 32 := by
  unfold packSh
  have := bitNat_le o.m
  have := o.g.isLt
  have := o.d.isLt
  have := o.a.isLt
  have := o.k.isLt
  omega

theorem packM_lt (op : Nat) (o : OpM) (hop : op < 64) : packM op o < 2 ^ 32 := by
  unfold packM
  have := bitNat_le o.m
  have := o.g.isLt
  have := o.d.isLt
  have := o.a.isLt
  have := o.w.isLt
  have := o.o.isLt
  have := o.x.isLt
  omega

theorem packB_lt (op : Nat) (o : OpB) (hop : op < 64) : packB op o < 2 ^ 32 := by
  unfold packB
  have := bitNat_le o.m
  have := o.g.isLt
  have := o.k.isLt
  omega

theorem packV_lt (op f : Nat) (o : OpV) (hop : op < 64) (hf : f < 16) : packV op f o < 2 ^ 32 := by
  unfold packV
  have := bitNat_le o.m
  have := o.d.isLt
  have := o.a.isLt
  have := o.b.isLt
  have := o.p.isLt
  have := o.t.isLt
  omega

theorem packVC_lt (op : Nat) (o : OpVC) (hop : op < 64) : packVC op o < 2 ^ 32 := by
  unfold packVC
  have := bitNat_le o.m
  have := o.d.isLt
  have := o.a.isLt
  have := o.b.isLt
  have := o.p.isLt
  have := o.t.isLt
  have := o.c.isLt
  omega

theorem packVM_lt (op f : Nat) (o : OpVM) (hop : op < 64) (hf : f < 4) : packVM op f o < 2 ^ 32 := by
  unfold packVM
  have := bitNat_le o.m
  have := o.d.isLt
  have := o.a.isLt
  have := o.b.isLt
  have := o.p.isLt
  have := o.w.isLt
  have := bitNat_le o.v
  have := o.e.isLt
  omega

theorem packA_lt (op f : Nat) (o : OpA) (hop : op < 64) (hf : f < 4) : packA op f o < 2 ^ 32 := by
  unfold packA
  have := bitNat_le o.m
  have := o.d.isLt
  have := o.a.isLt
  have := o.b.isLt
  have := o.w.isLt
  have := o.o.isLt
  have := o.s.isLt
  have := bitNat_le o.z
  omega

theorem packT_lt (op f : Nat) (o : OpT) (hop : op < 64) (hf : f < 16) : packT op f o < 2 ^ 32 := by
  unfold packT
  have := bitNat_le o.m
  have := o.w.isLt
  have := o.h.isLt
  have := o.a.isLt
  have := o.b.isLt
  have := o.e.isLt
  omega

theorem packHsch_lt (kind : Nat) (o : OpHsch) (hkind : kind < 8) : packHsch kind o < 2 ^ 32 := by
  unfold packHsch
  have := o.a.isLt
  have := o.k.isLt
  omega

theorem packHschK_lt (o : OpHschK) : packHschK o < 2 ^ 32 := by
  unfold packHschK
  have := o.kind.isLt
  have := o.a.isLt
  have := o.k.isLt
  omega

theorem packHmod_lt (o : OpHmod) : packHmod o < 2 ^ 32 := by
  unfold packHmod
  have := o.g.isLt
  have := o.r.isLt
  have := bitNat_le o.n
  have := o.p.isLt
  have := bitNat_le o.s
  omega

theorem packHimm_lt (o : OpHimm) : packHimm o < 2 ^ 32 := by
  unfold packHimm
  have := o.h.isLt
  omega

theorem packRep_lt (o : OpRep) : packRep o < 2 ^ 32 := by
  unfold packRep
  have := o.n.isLt
  have := bitNat_le o.d
  have := bitNat_le o.a
  have := bitNat_le o.b
  have := o.i.isLt
  omega

theorem add (o : OpR) : Statement (.add o) := of_lt rfl (packR_lt 0x01 0 o (by decide) (by decide))
theorem sub (o : OpR) : Statement (.sub o) := of_lt rfl (packR_lt 0x01 1 o (by decide) (by decide))
theorem mul (o : OpR) : Statement (.mul o) := of_lt rfl (packR_lt 0x01 2 o (by decide) (by decide))
theorem mulhS64 (o : OpR) : Statement (.mulhS64 o) := of_lt rfl (packR_lt 0x01 3 o (by decide) (by decide))
theorem mulhN64 (o : OpR) : Statement (.mulhN64 o) := of_lt rfl (packR_lt 0x01 4 o (by decide) (by decide))
theorem divS64 (o : OpR) : Statement (.divS64 o) := of_lt rfl (packR_lt 0x01 5 o (by decide) (by decide))
theorem divN64 (o : OpR) : Statement (.divN64 o) := of_lt rfl (packR_lt 0x01 6 o (by decide) (by decide))
theorem remS64 (o : OpR) : Statement (.remS64 o) := of_lt rfl (packR_lt 0x01 7 o (by decide) (by decide))
theorem remN64 (o : OpR) : Statement (.remN64 o) := of_lt rfl (packR_lt 0x01 8 o (by decide) (by decide))
theorem and (o : OpR) : Statement (.and o) := of_lt rfl (packR_lt 0x01 9 o (by decide) (by decide))
theorem or (o : OpR) : Statement (.or o) := of_lt rfl (packR_lt 0x01 10 o (by decide) (by decide))
theorem xor (o : OpR) : Statement (.xor o) := of_lt rfl (packR_lt 0x01 11 o (by decide) (by decide))
theorem andn (o : OpR) : Statement (.andn o) := of_lt rfl (packR_lt 0x01 12 o (by decide) (by decide))
theorem orn (o : OpR) : Statement (.orn o) := of_lt rfl (packR_lt 0x01 13 o (by decide) (by decide))
theorem xnor (o : OpR) : Statement (.xnor o) := of_lt rfl (packR_lt 0x01 14 o (by decide) (by decide))
theorem sll (o : OpR) : Statement (.sll o) := of_lt rfl (packR_lt 0x01 15 o (by decide) (by decide))
theorem srl (o : OpR) : Statement (.srl o) := of_lt rfl (packR_lt 0x01 16 o (by decide) (by decide))
theorem sra (o : OpR) : Statement (.sra o) := of_lt rfl (packR_lt 0x01 17 o (by decide) (by decide))
theorem rol (o : OpR) : Statement (.rol o) := of_lt rfl (packR_lt 0x01 18 o (by decide) (by decide))
theorem ror (o : OpR) : Statement (.ror o) := of_lt rfl (packR_lt 0x01 19 o (by decide) (by decide))
theorem minS64 (o : OpR) : Statement (.minS64 o) := of_lt rfl (packR_lt 0x01 20 o (by decide) (by decide))
theorem maxS64 (o : OpR) : Statement (.maxS64 o) := of_lt rfl (packR_lt 0x01 21 o (by decide) (by decide))
theorem minN64 (o : OpR) : Statement (.minN64 o) := of_lt rfl (packR_lt 0x01 22 o (by decide) (by decide))
theorem maxN64 (o : OpR) : Statement (.maxN64 o) := of_lt rfl (packR_lt 0x01 23 o (by decide) (by decide))
theorem clz (o : OpR) : Statement (.clz o) := of_lt rfl (packR_lt 0x01 24 o (by decide) (by decide))
theorem ctz (o : OpR) : Statement (.ctz o) := of_lt rfl (packR_lt 0x01 25 o (by decide) (by decide))
theorem popc (o : OpR) : Statement (.popc o) := of_lt rfl (packR_lt 0x01 26 o (by decide) (by decide))
theorem brev (o : OpR) : Statement (.brev o) := of_lt rfl (packR_lt 0x01 27 o (by decide) (by decide))
theorem bswap (o : OpR) : Statement (.bswap o) := of_lt rfl (packR_lt 0x01 28 o (by decide) (by decide))
theorem sext (o : OpR) : Statement (.sext o) := of_lt rfl (packR_lt 0x01 29 o (by decide) (by decide))
theorem abs (o : OpR) : Statement (.abs o) := of_lt rfl (packR_lt 0x01 30 o (by decide) (by decide))
theorem addi (o : OpI) : Statement (.addi o) := of_lt rfl (packI_lt 0x02 o (by decide))
theorem andi (o : OpI) : Statement (.andi o) := of_lt rfl (packI_lt 0x03 o (by decide))
theorem ori (o : OpI) : Statement (.ori o) := of_lt rfl (packI_lt 0x04 o (by decide))
theorem xori (o : OpI) : Statement (.xori o) := of_lt rfl (packI_lt 0x05 o (by decide))
theorem slli (o : OpSh) : Statement (.slli o) := of_lt rfl (packSh_lt 0x06 0 o (by decide) (by decide))
theorem srli (o : OpSh) : Statement (.srli o) := of_lt rfl (packSh_lt 0x06 1 o (by decide) (by decide))
theorem srai (o : OpSh) : Statement (.srai o) := of_lt rfl (packSh_lt 0x06 2 o (by decide) (by decide))
theorem rori (o : OpSh) : Statement (.rori o) := of_lt rfl (packSh_lt 0x06 3 o (by decide) (by decide))
theorem lea (o : OpI) : Statement (.lea o) := of_lt rfl (packI_lt 0x07 o (by decide))
theorem bfxN64 (o : OpR) : Statement (.bfxN64 o) := of_lt rfl (packR_lt 0x08 0 o (by decide) (by decide))
theorem bfxS64 (o : OpR) : Statement (.bfxS64 o) := of_lt rfl (packR_lt 0x08 1 o (by decide) (by decide))
theorem bfi (o : OpR) : Statement (.bfi o) := of_lt rfl (packR_lt 0x08 2 o (by decide) (by decide))
theorem cmpEq (o : OpR) : Statement (.cmpEq o) := of_lt rfl (packR_lt 0x09 0 o (by decide) (by decide))
theorem cmpNe (o : OpR) : Statement (.cmpNe o) := of_lt rfl (packR_lt 0x09 1 o (by decide) (by decide))
theorem cmpLtS64 (o : OpR) : Statement (.cmpLtS64 o) := of_lt rfl (packR_lt 0x09 2 o (by decide) (by decide))
theorem cmpGeS64 (o : OpR) : Statement (.cmpGeS64 o) := of_lt rfl (packR_lt 0x09 3 o (by decide) (by decide))
theorem cmpLtN64 (o : OpR) : Statement (.cmpLtN64 o) := of_lt rfl (packR_lt 0x09 4 o (by decide) (by decide))
theorem cmpGeN64 (o : OpR) : Statement (.cmpGeN64 o) := of_lt rfl (packR_lt 0x09 5 o (by decide) (by decide))
theorem cmpTst (o : OpR) : Statement (.cmpTst o) := of_lt rfl (packR_lt 0x09 6 o (by decide) (by decide))
theorem cmpTstz (o : OpR) : Statement (.cmpTstz o) := of_lt rfl (packR_lt 0x09 7 o (by decide) (by decide))
theorem cand (o : OpR) : Statement (.cand o) := of_lt rfl (packR_lt 0x09 8 o (by decide) (by decide))
theorem cor (o : OpR) : Statement (.cor o) := of_lt rfl (packR_lt 0x09 9 o (by decide) (by decide))
theorem cxor (o : OpR) : Statement (.cxor o) := of_lt rfl (packR_lt 0x09 10 o (by decide) (by decide))
theorem candn (o : OpR) : Statement (.candn o) := of_lt rfl (packR_lt 0x09 11 o (by decide) (by decide))
theorem mfcw (o : OpR) : Statement (.mfcw o) := of_lt rfl (packR_lt 0x09 12 o (by decide) (by decide))
theorem mtcw (o : OpR) : Statement (.mtcw o) := of_lt rfl (packR_lt 0x09 13 o (by decide) (by decide))
theorem fadd (o : OpF) : Statement (.fadd o) := of_lt rfl (packF_lt 0x0A 0 o (by decide) (by decide))
theorem fsub (o : OpF) : Statement (.fsub o) := of_lt rfl (packF_lt 0x0A 1 o (by decide) (by decide))
theorem fmul (o : OpF) : Statement (.fmul o) := of_lt rfl (packF_lt 0x0A 2 o (by decide) (by decide))
theorem fdiv (o : OpF) : Statement (.fdiv o) := of_lt rfl (packF_lt 0x0A 3 o (by decide) (by decide))
theorem fsqrt (o : OpF) : Statement (.fsqrt o) := of_lt rfl (packF_lt 0x0A 4 o (by decide) (by decide))
theorem fmin (o : OpF) : Statement (.fmin o) := of_lt rfl (packF_lt 0x0A 5 o (by decide) (by decide))
theorem fmax (o : OpF) : Statement (.fmax o) := of_lt rfl (packF_lt 0x0A 6 o (by decide) (by decide))
theorem fmac (o : OpF) : Statement (.fmac o) := of_lt rfl (packF_lt 0x0A 7 o (by decide) (by decide))
theorem fcmpEq (o : OpF) : Statement (.fcmpEq o) := of_lt rfl (packF_lt 0x0B 0 o (by decide) (by decide))
theorem fcmpLt (o : OpF) : Statement (.fcmpLt o) := of_lt rfl (packF_lt 0x0B 1 o (by decide) (by decide))
theorem fcmpLe (o : OpF) : Statement (.fcmpLe o) := of_lt rfl (packF_lt 0x0B 2 o (by decide) (by decide))
theorem fcmpUn (o : OpF) : Statement (.fcmpUn o) := of_lt rfl (packF_lt 0x0B 3 o (by decide) (by decide))
theorem fclass (o : OpF) : Statement (.fclass o) := of_lt rfl (packF_lt 0x0B 4 o (by decide) (by decide))
theorem fsgn (o : OpF) : Statement (.fsgn o) := of_lt rfl (packF_lt 0x0B 5 o (by decide) (by decide))
theorem fneg (o : OpF) : Statement (.fneg o) := of_lt rfl (packF_lt 0x0B 6 o (by decide) (by decide))
theorem fabs (o : OpF) : Statement (.fabs o) := of_lt rfl (packF_lt 0x0B 7 o (by decide) (by decide))
theorem fcvt (o : OpC) : Statement (.fcvt o) := of_lt rfl (packC_lt 0x0C o (by decide))
theorem br (o : OpB) : Statement (.br o) := of_lt rfl (packB_lt 0x10 o (by decide))
theorem call (o : OpB) : Statement (.call o) := of_lt rfl (packB_lt 0x11 o (by decide))
theorem jmpr (o : OpI) : Statement (.jmpr o) := of_lt rfl (packI_lt 0x12 o (by decide))
theorem loop (o : OpI) : Statement (.loop o) := of_lt rfl (packI_lt 0x13 o (by decide))
theorem migrA (o : OpR) : Statement (.migrA o) := of_lt rfl (packR_lt 0x14 0 o (by decide) (by decide))
theorem migrH (o : OpR) : Statement (.migrH o) := of_lt rfl (packR_lt 0x14 1 o (by decide) (by decide))
theorem migrC (o : OpR) : Statement (.migrC o) := of_lt rfl (packR_lt 0x14 2 o (by decide) (by decide))
theorem tcom (o : OpR) : Statement (.tcom o) := of_lt rfl (packR_lt 0x14 3 o (by decide) (by decide))
theorem tret (o : OpR) : Statement (.tret o) := of_lt rfl (packR_lt 0x14 4 o (by decide) (by decide))
theorem tretRs (o : OpR) : Statement (.tretRs o) := of_lt rfl (packR_lt 0x14 5 o (by decide) (by decide))
theorem tretDp (o : OpR) : Statement (.tretDp o) := of_lt rfl (packR_lt 0x14 6 o (by decide) (by decide))
theorem sysc (o : OpR) : Statement (.sysc o) := of_lt rfl (packR_lt 0x14 7 o (by decide) (by decide))
theorem monc (o : OpR) : Statement (.monc o) := of_lt rfl (packR_lt 0x14 8 o (by decide) (by decide))
theorem brk (o : OpR) : Statement (.brk o) := of_lt rfl (packR_lt 0x14 9 o (by decide) (by decide))
theorem mfcr (o : OpI) : Statement (.mfcr o) := of_lt rfl (packI_lt 0x15 o (by decide))
theorem mtcr (o : OpI) : Statement (.mtcr o) := of_lt rfl (packI_lt 0x16 o (by decide))
theorem feat (o : OpR) : Statement (.feat o) := of_lt rfl (packR_lt 0x17 0 o (by decide) (by decide))
theorem icinv (o : OpR) : Statement (.icinv o) := of_lt rfl (packR_lt 0x17 1 o (by decide) (by decide))
theorem isend (o : OpR) : Statement (.isend o) := of_lt rfl (packR_lt 0x17 2 o (by decide) (by decide))
theorem cancel (o : OpR) : Statement (.cancel o) := of_lt rfl (packR_lt 0x17 3 o (by decide) (by decide))
theorem ien (o : OpR) : Statement (.ien o) := of_lt rfl (packR_lt 0x17 4 o (by decide) (by decide))
theorem idis (o : OpR) : Statement (.idis o) := of_lt rfl (packR_lt 0x17 5 o (by decide) (by decide))
theorem rdcyc (o : OpR) : Statement (.rdcyc o) := of_lt rfl (packR_lt 0x17 6 o (by decide) (by decide))
theorem ldN8 (o : OpM) : Statement (.ldN8 o) := of_lt rfl (packM_lt 0x18 o (by decide))
theorem ldN16 (o : OpM) : Statement (.ldN16 o) := of_lt rfl (packM_lt 0x19 o (by decide))
theorem ldN32 (o : OpM) : Statement (.ldN32 o) := of_lt rfl (packM_lt 0x1A o (by decide))
theorem ldN64 (o : OpM) : Statement (.ldN64 o) := of_lt rfl (packM_lt 0x1B o (by decide))
theorem ldS8 (o : OpM) : Statement (.ldS8 o) := of_lt rfl (packM_lt 0x1C o (by decide))
theorem ldS16 (o : OpM) : Statement (.ldS16 o) := of_lt rfl (packM_lt 0x1D o (by decide))
theorem ldS32 (o : OpM) : Statement (.ldS32 o) := of_lt rfl (packM_lt 0x1E o (by decide))
theorem stN8 (o : OpM) : Statement (.stN8 o) := of_lt rfl (packM_lt 0x20 o (by decide))
theorem stN16 (o : OpM) : Statement (.stN16 o) := of_lt rfl (packM_lt 0x21 o (by decide))
theorem stN32 (o : OpM) : Statement (.stN32 o) := of_lt rfl (packM_lt 0x22 o (by decide))
theorem stN64 (o : OpM) : Statement (.stN64 o) := of_lt rfl (packM_lt 0x23 o (by decide))
theorem vld (o : OpVM) : Statement (.vld o) := of_lt rfl (packVM_lt 0x24 0 o (by decide) (by decide))
theorem vlds (o : OpVM) : Statement (.vlds o) := of_lt rfl (packVM_lt 0x24 1 o (by decide) (by decide))
theorem vldx (o : OpVM) : Statement (.vldx o) := of_lt rfl (packVM_lt 0x24 2 o (by decide) (by decide))
theorem vst (o : OpVM) : Statement (.vst o) := of_lt rfl (packVM_lt 0x25 0 o (by decide) (by decide))
theorem vsts (o : OpVM) : Statement (.vsts o) := of_lt rfl (packVM_lt 0x25 1 o (by decide) (by decide))
theorem vstx (o : OpVM) : Statement (.vstx o) := of_lt rfl (packVM_lt 0x25 2 o (by decide) (by decide))
theorem aadd (o : OpA) : Statement (.aadd o) := of_lt rfl (packA_lt 0x26 0 o (by decide) (by decide))
theorem aand (o : OpA) : Statement (.aand o) := of_lt rfl (packA_lt 0x26 1 o (by decide) (by decide))
theorem aor (o : OpA) : Statement (.aor o) := of_lt rfl (packA_lt 0x26 2 o (by decide) (by decide))
theorem axor (o : OpA) : Statement (.axor o) := of_lt rfl (packA_lt 0x26 3 o (by decide) (by decide))
theorem aminS (o : OpA) : Statement (.aminS o) := of_lt rfl (packA_lt 0x27 0 o (by decide) (by decide))
theorem amaxS (o : OpA) : Statement (.amaxS o) := of_lt rfl (packA_lt 0x27 1 o (by decide) (by decide))
theorem aminN (o : OpA) : Statement (.aminN o) := of_lt rfl (packA_lt 0x27 2 o (by decide) (by decide))
theorem amaxN (o : OpA) : Statement (.amaxN o) := of_lt rfl (packA_lt 0x27 3 o (by decide) (by decide))
theorem afadd (o : OpA) : Statement (.afadd o) := of_lt rfl (packA_lt 0x28 0 o (by decide) (by decide))
theorem aswp (o : OpA) : Statement (.aswp o) := of_lt rfl (packA_lt 0x28 1 o (by decide) (by decide))
theorem acas (o : OpA) : Statement (.acas o) := of_lt rfl (packA_lt 0x28 2 o (by decide) (by decide))
theorem afor (o : OpA) : Statement (.afor o) := of_lt rfl (packA_lt 0x28 3 o (by decide) (by decide))
theorem afxor (o : OpA) : Statement (.afxor o) := of_lt rfl (packA_lt 0x29 0 o (by decide) (by decide))
theorem afminS (o : OpA) : Statement (.afminS o) := of_lt rfl (packA_lt 0x29 1 o (by decide) (by decide))
theorem afmaxS (o : OpA) : Statement (.afmaxS o) := of_lt rfl (packA_lt 0x29 2 o (by decide) (by decide))
theorem affadd (o : OpA) : Statement (.affadd o) := of_lt rfl (packA_lt 0x29 3 o (by decide) (by decide))
theorem tst (o : OpT) : Statement (.tst o) := of_lt rfl (packT_lt 0x2A 0 o (by decide) (by decide))
theorem tld (o : OpT) : Statement (.tld o) := of_lt rfl (packT_lt 0x2A 1 o (by decide) (by decide))
theorem tldc (o : OpT) : Statement (.tldc o) := of_lt rfl (packT_lt 0x2A 2 o (by decide) (by decide))
theorem trel (o : OpT) : Statement (.trel o) := of_lt rfl (packT_lt 0x2A 3 o (by decide) (by decide))
theorem tqry (o : OpT) : Statement (.tqry o) := of_lt rfl (packT_lt 0x2A 4 o (by decide) (by decide))
theorem tsub (o : OpT) : Statement (.tsub o) := of_lt rfl (packT_lt 0x2A 5 o (by decide) (by decide))
theorem tunsub (o : OpT) : Statement (.tunsub o) := of_lt rfl (packT_lt 0x2A 6 o (by decide) (by decide))
theorem tmov (o : OpT) : Statement (.tmov o) := of_lt rfl (packT_lt 0x2A 7 o (by decide) (by decide))
theorem halloc (o : OpR) : Statement (.halloc o) := of_lt rfl (packR_lt 0x2B 0 o (by decide) (by decide))
theorem hfree (o : OpR) : Statement (.hfree o) := of_lt rfl (packR_lt 0x2B 1 o (by decide) (by decide))
theorem fence (o : OpR) : Statement (.fence o) := of_lt rfl (packR_lt 0x2C 0 o (by decide) (by decide))
theorem wpc (o : OpR) : Statement (.wpc o) := of_lt rfl (packR_lt 0x2C 1 o (by decide) (by decide))
theorem barArr (o : OpR) : Statement (.barArr o) := of_lt rfl (packR_lt 0x2C 2 o (by decide) (by decide))
theorem barWait (o : OpR) : Statement (.barWait o) := of_lt rfl (packR_lt 0x2C 3 o (by decide) (by decide))
theorem msend (o : OpR) : Statement (.msend o) := of_lt rfl (packR_lt 0x2C 4 o (by decide) (by decide))
theorem qput (o : OpR) : Statement (.qput o) := of_lt rfl (packR_lt 0x2C 5 o (by decide) (by decide))
theorem qget (o : OpR) : Statement (.qget o) := of_lt rfl (packR_lt 0x2C 6 o (by decide) (by decide))
theorem cwait (o : OpR) : Statement (.cwait o) := of_lt rfl (packR_lt 0x2C 7 o (by decide) (by decide))
theorem ccwait (o : OpR) : Statement (.ccwait o) := of_lt rfl (packR_lt 0x2C 8 o (by decide) (by decide))
theorem cctl (o : OpR) : Statement (.cctl o) := of_lt rfl (packR_lt 0x2C 9 o (by decide) (by decide))
theorem wtarm (o : OpR) : Statement (.wtarm o) := of_lt rfl (packR_lt 0x2C 10 o (by decide) (by decide))
theorem wlpush (o : OpR) : Statement (.wlpush o) := of_lt rfl (packR_lt 0x2C 11 o (by decide) (by decide))
theorem mwait (o : OpR) : Statement (.mwait o) := of_lt rfl (packR_lt 0x2C 12 o (by decide) (by decide))
theorem tqset (o : OpR) : Statement (.tqset o) := of_lt rfl (packR_lt 0x2C 13 o (by decide) (by decide))
theorem ftile (o : OpR) : Statement (.ftile o) := of_lt rfl (packR_lt 0x2C 14 o (by decide) (by decide))
theorem tqfree (o : OpR) : Statement (.tqfree o) := of_lt rfl (packR_lt 0x2C 15 o (by decide) (by decide))
theorem sbind (o : OpR) : Statement (.sbind o) := of_lt rfl (packR_lt 0x2D 0 o (by decide) (by decide))
theorem sunbind (o : OpR) : Statement (.sunbind o) := of_lt rfl (packR_lt 0x2D 1 o (by decide) (by decide))
theorem swait (o : OpR) : Statement (.swait o) := of_lt rfl (packR_lt 0x2D 2 o (by decide) (by decide))
theorem sget (o : OpR) : Statement (.sget o) := of_lt rfl (packR_lt 0x2D 3 o (by decide) (by decide))
theorem sput (o : OpR) : Statement (.sput o) := of_lt rfl (packR_lt 0x2D 4 o (by decide) (by decide))
theorem vsget (o : OpR) : Statement (.vsget o) := of_lt rfl (packR_lt 0x2D 5 o (by decide) (by decide))
theorem vsput (o : OpR) : Statement (.vsput o) := of_lt rfl (packR_lt 0x2D 6 o (by decide) (by decide))
theorem hxfer (o : OpR) : Statement (.hxfer o) := of_lt rfl (packR_lt 0x2D 7 o (by decide) (by decide))
theorem vadd (o : OpV) : Statement (.vadd o) := of_lt rfl (packV_lt 0x30 0 o (by decide) (by decide))
theorem vsub (o : OpV) : Statement (.vsub o) := of_lt rfl (packV_lt 0x30 1 o (by decide) (by decide))
theorem vmul (o : OpV) : Statement (.vmul o) := of_lt rfl (packV_lt 0x30 2 o (by decide) (by decide))
theorem vmulh (o : OpV) : Statement (.vmulh o) := of_lt rfl (packV_lt 0x30 3 o (by decide) (by decide))
theorem vmin (o : OpV) : Statement (.vmin o) := of_lt rfl (packV_lt 0x30 4 o (by decide) (by decide))
theorem vmax (o : OpV) : Statement (.vmax o) := of_lt rfl (packV_lt 0x30 5 o (by decide) (by decide))
theorem vand (o : OpV) : Statement (.vand o) := of_lt rfl (packV_lt 0x30 6 o (by decide) (by decide))
theorem vor (o : OpV) : Statement (.vor o) := of_lt rfl (packV_lt 0x30 7 o (by decide) (by decide))
theorem vxor (o : OpV) : Statement (.vxor o) := of_lt rfl (packV_lt 0x30 8 o (by decide) (by decide))
theorem vsll (o : OpV) : Statement (.vsll o) := of_lt rfl (packV_lt 0x30 9 o (by decide) (by decide))
theorem vsrl (o : OpV) : Statement (.vsrl o) := of_lt rfl (packV_lt 0x30 10 o (by decide) (by decide))
theorem vsra (o : OpV) : Statement (.vsra o) := of_lt rfl (packV_lt 0x30 11 o (by decide) (by decide))
theorem vadds (o : OpV) : Statement (.vadds o) := of_lt rfl (packV_lt 0x30 12 o (by decide) (by decide))
theorem vsubs (o : OpV) : Statement (.vsubs o) := of_lt rfl (packV_lt 0x30 13 o (by decide) (by decide))
theorem vabs (o : OpV) : Statement (.vabs o) := of_lt rfl (packV_lt 0x30 14 o (by decide) (by decide))
theorem vdot (o : OpV) : Statement (.vdot o) := of_lt rfl (packV_lt 0x30 15 o (by decide) (by decide))
theorem vfadd (o : OpV) : Statement (.vfadd o) := of_lt rfl (packV_lt 0x31 0 o (by decide) (by decide))
theorem vfsub (o : OpV) : Statement (.vfsub o) := of_lt rfl (packV_lt 0x31 1 o (by decide) (by decide))
theorem vfmul (o : OpV) : Statement (.vfmul o) := of_lt rfl (packV_lt 0x31 2 o (by decide) (by decide))
theorem vfdiv (o : OpV) : Statement (.vfdiv o) := of_lt rfl (packV_lt 0x31 3 o (by decide) (by decide))
theorem vfsqrt (o : OpV) : Statement (.vfsqrt o) := of_lt rfl (packV_lt 0x31 4 o (by decide) (by decide))
theorem vfmin (o : OpV) : Statement (.vfmin o) := of_lt rfl (packV_lt 0x31 5 o (by decide) (by decide))
theorem vfmax (o : OpV) : Statement (.vfmax o) := of_lt rfl (packV_lt 0x31 6 o (by decide) (by decide))
theorem vfma (o : OpV) : Statement (.vfma o) := of_lt rfl (packV_lt 0x31 7 o (by decide) (by decide))
theorem vfnma (o : OpV) : Statement (.vfnma o) := of_lt rfl (packV_lt 0x31 8 o (by decide) (by decide))
theorem vfabs (o : OpV) : Statement (.vfabs o) := of_lt rfl (packV_lt 0x31 9 o (by decide) (by decide))
theorem vfneg (o : OpV) : Statement (.vfneg o) := of_lt rfl (packV_lt 0x31 10 o (by decide) (by decide))
theorem vexp (o : OpV) : Statement (.vexp o) := of_lt rfl (packV_lt 0x32 0 o (by decide) (by decide))
theorem vexp2 (o : OpV) : Statement (.vexp2 o) := of_lt rfl (packV_lt 0x32 1 o (by decide) (by decide))
theorem vlog (o : OpV) : Statement (.vlog o) := of_lt rfl (packV_lt 0x32 2 o (by decide) (by decide))
theorem vlog2 (o : OpV) : Statement (.vlog2 o) := of_lt rfl (packV_lt 0x32 3 o (by decide) (by decide))
theorem vrcp (o : OpV) : Statement (.vrcp o) := of_lt rfl (packV_lt 0x32 4 o (by decide) (by decide))
theorem vrsqrt (o : OpV) : Statement (.vrsqrt o) := of_lt rfl (packV_lt 0x32 5 o (by decide) (by decide))
theorem vsin (o : OpV) : Statement (.vsin o) := of_lt rfl (packV_lt 0x32 6 o (by decide) (by decide))
theorem vcos (o : OpV) : Statement (.vcos o) := of_lt rfl (packV_lt 0x32 7 o (by decide) (by decide))
theorem vtanh (o : OpV) : Statement (.vtanh o) := of_lt rfl (packV_lt 0x32 8 o (by decide) (by decide))
theorem vsigm (o : OpV) : Statement (.vsigm o) := of_lt rfl (packV_lt 0x32 9 o (by decide) (by decide))
theorem vcmpEq (o : OpV) : Statement (.vcmpEq o) := of_lt rfl (packV_lt 0x33 0 o (by decide) (by decide))
theorem vcmpNe (o : OpV) : Statement (.vcmpNe o) := of_lt rfl (packV_lt 0x33 1 o (by decide) (by decide))
theorem vcmpLt (o : OpV) : Statement (.vcmpLt o) := of_lt rfl (packV_lt 0x33 2 o (by decide) (by decide))
theorem vcmpLe (o : OpV) : Statement (.vcmpLe o) := of_lt rfl (packV_lt 0x33 3 o (by decide) (by decide))
theorem vcmpGt (o : OpV) : Statement (.vcmpGt o) := of_lt rfl (packV_lt 0x33 4 o (by decide) (by decide))
theorem vcmpGe (o : OpV) : Statement (.vcmpGe o) := of_lt rfl (packV_lt 0x33 5 o (by decide) (by decide))
theorem vwhile (o : OpV) : Statement (.vwhile o) := of_lt rfl (packV_lt 0x33 6 o (by decide) (by decide))
theorem vfcmpEq (o : OpV) : Statement (.vfcmpEq o) := of_lt rfl (packV_lt 0x33 8 o (by decide) (by decide))
theorem vfcmpNe (o : OpV) : Statement (.vfcmpNe o) := of_lt rfl (packV_lt 0x33 9 o (by decide) (by decide))
theorem vfcmpLt (o : OpV) : Statement (.vfcmpLt o) := of_lt rfl (packV_lt 0x33 10 o (by decide) (by decide))
theorem vfcmpLe (o : OpV) : Statement (.vfcmpLe o) := of_lt rfl (packV_lt 0x33 11 o (by decide) (by decide))
theorem vfcmpGt (o : OpV) : Statement (.vfcmpGt o) := of_lt rfl (packV_lt 0x33 12 o (by decide) (by decide))
theorem vfcmpGe (o : OpV) : Statement (.vfcmpGe o) := of_lt rfl (packV_lt 0x33 13 o (by decide) (by decide))
theorem vfcmpUn (o : OpV) : Statement (.vfcmpUn o) := of_lt rfl (packV_lt 0x33 14 o (by decide) (by decide))
theorem pand (o : OpV) : Statement (.pand o) := of_lt rfl (packV_lt 0x34 0 o (by decide) (by decide))
theorem por (o : OpV) : Statement (.por o) := of_lt rfl (packV_lt 0x34 1 o (by decide) (by decide))
theorem pxor (o : OpV) : Statement (.pxor o) := of_lt rfl (packV_lt 0x34 2 o (by decide) (by decide))
theorem pandn (o : OpV) : Statement (.pandn o) := of_lt rfl (packV_lt 0x34 3 o (by decide) (by decide))
theorem pnot (o : OpV) : Statement (.pnot o) := of_lt rfl (packV_lt 0x34 4 o (by decide) (by decide))
theorem pall (o : OpV) : Statement (.pall o) := of_lt rfl (packV_lt 0x34 5 o (by decide) (by decide))
theorem pcnt (o : OpV) : Statement (.pcnt o) := of_lt rfl (packV_lt 0x34 6 o (by decide) (by decide))
theorem pfirst (o : OpV) : Statement (.pfirst o) := of_lt rfl (packV_lt 0x34 7 o (by decide) (by decide))
theorem vperm (o : OpV) : Statement (.vperm o) := of_lt rfl (packV_lt 0x35 0 o (by decide) (by decide))
theorem vbcast (o : OpV) : Statement (.vbcast o) := of_lt rfl (packV_lt 0x35 1 o (by decide) (by decide))
theorem vslu (o : OpV) : Statement (.vslu o) := of_lt rfl (packV_lt 0x35 2 o (by decide) (by decide))
theorem vsld (o : OpV) : Statement (.vsld o) := of_lt rfl (packV_lt 0x35 3 o (by decide) (by decide))
theorem vzip (o : OpV) : Statement (.vzip o) := of_lt rfl (packV_lt 0x35 4 o (by decide) (by decide))
theorem vunzip (o : OpV) : Statement (.vunzip o) := of_lt rfl (packV_lt 0x35 5 o (by decide) (by decide))
theorem vmvx (o : OpV) : Statement (.vmvx o) := of_lt rfl (packV_lt 0x35 6 o (by decide) (by decide))
theorem vmvv (o : OpV) : Statement (.vmvv o) := of_lt rfl (packV_lt 0x35 7 o (by decide) (by decide))
theorem vsel (o : OpV) : Statement (.vsel o) := of_lt rfl (packV_lt 0x35 8 o (by decide) (by decide))
theorem vcmpr (o : OpV) : Statement (.vcmpr o) := of_lt rfl (packV_lt 0x35 9 o (by decide) (by decide))
theorem vmov (o : OpV) : Statement (.vmov o) := of_lt rfl (packV_lt 0x35 10 o (by decide) (by decide))
theorem vlen (o : OpV) : Statement (.vlen o) := of_lt rfl (packV_lt 0x35 11 o (by decide) (by decide))
theorem vredadd (o : OpV) : Statement (.vredadd o) := of_lt rfl (packV_lt 0x36 0 o (by decide) (by decide))
theorem vredmin (o : OpV) : Statement (.vredmin o) := of_lt rfl (packV_lt 0x36 1 o (by decide) (by decide))
theorem vredmax (o : OpV) : Statement (.vredmax o) := of_lt rfl (packV_lt 0x36 2 o (by decide) (by decide))
theorem vredand (o : OpV) : Statement (.vredand o) := of_lt rfl (packV_lt 0x36 3 o (by decide) (by decide))
theorem vredor (o : OpV) : Statement (.vredor o) := of_lt rfl (packV_lt 0x36 4 o (by decide) (by decide))
theorem vredxor (o : OpV) : Statement (.vredxor o) := of_lt rfl (packV_lt 0x36 5 o (by decide) (by decide))
theorem vfredadd (o : OpV) : Statement (.vfredadd o) := of_lt rfl (packV_lt 0x36 8 o (by decide) (by decide))
theorem vfredmin (o : OpV) : Statement (.vfredmin o) := of_lt rfl (packV_lt 0x36 9 o (by decide) (by decide))
theorem vfredmax (o : OpV) : Statement (.vfredmax o) := of_lt rfl (packV_lt 0x36 10 o (by decide) (by decide))
theorem vcvt (o : OpVC) : Statement (.vcvt o) := of_lt rfl (packVC_lt 0x37 o (by decide))
theorem gmadd (o : OpR) : Statement (.gmadd o) := of_lt rfl (packR_lt 0x39 0 o (by decide) (by decide))
theorem gsch (o : OpR) : Statement (.gsch o) := of_lt rfl (packR_lt 0x39 1 o (by decide) (by decide))
theorem gdmp (o : OpR) : Statement (.gdmp o) := of_lt rfl (packR_lt 0x39 2 o (by decide) (by decide))
theorem gmsend (o : OpR) : Statement (.gmsend o) := of_lt rfl (packR_lt 0x39 3 o (by decide) (by decide))
theorem gmld (o : OpR) : Statement (.gmld o) := of_lt rfl (packR_lt 0x39 4 o (by decide) (by decide))
theorem gres (o : OpR) : Statement (.gres o) := of_lt rfl (packR_lt 0x39 5 o (by decide) (by decide))
theorem gpiv (o : OpR) : Statement (.gpiv o) := of_lt rfl (packR_lt 0x39 6 o (by decide) (by decide))
theorem gmclr (o : OpR) : Statement (.gmclr o) := of_lt rfl (packR_lt 0x39 7 o (by decide) (by decide))
theorem mxc (o : OpR) : Statement (.mxc o) := of_lt rfl (packR_lt 0x3A 0 o (by decide) (by decide))
theorem mxz (o : OpR) : Statement (.mxz o) := of_lt rfl (packR_lt 0x3A 1 o (by decide) (by decide))
theorem mxld (o : OpR) : Statement (.mxld o) := of_lt rfl (packR_lt 0x3A 2 o (by decide) (by decide))
theorem mxst (o : OpR) : Statement (.mxst o) := of_lt rfl (packR_lt 0x3A 3 o (by decide) (by decide))
theorem mxmv (o : OpR) : Statement (.mxmv o) := of_lt rfl (packR_lt 0x3A 4 o (by decide) (by decide))
theorem mxwl (o : OpR) : Statement (.mxwl o) := of_lt rfl (packR_lt 0x3A 5 o (by decide) (by decide))
theorem mxls (o : OpR) : Statement (.mxls o) := of_lt rfl (packR_lt 0x3A 6 o (by decide) (by decide))
theorem mxlr (o : OpR) : Statement (.mxlr o) := of_lt rfl (packR_lt 0x3A 7 o (by decide) (by decide))
theorem mxstat (o : OpR) : Statement (.mxstat o) := of_lt rfl (packR_lt 0x3A 8 o (by decide) (by decide))
theorem qnt (o : OpR) : Statement (.qnt o) := of_lt rfl (packR_lt 0x3A 9 o (by decide) (by decide))
theorem xaz (o : OpR) : Statement (.xaz o) := of_lt rfl (packR_lt 0x3A 10 o (by decide) (by decide))
theorem xafm (o : OpR) : Statement (.xafm o) := of_lt rfl (packR_lt 0x3A 11 o (by decide) (by decide))
theorem xaadd (o : OpR) : Statement (.xaadd o) := of_lt rfl (packR_lt 0x3A 12 o (by decide) (by decide))
theorem xarnd (o : OpR) : Statement (.xarnd o) := of_lt rfl (packR_lt 0x3A 13 o (by decide) (by decide))
theorem xasgn (o : OpR) : Statement (.xasgn o) := of_lt rfl (packR_lt 0x3A 14 o (by decide) (by decide))
theorem sqslot (o : OpR) : Statement (.sqslot o) := of_lt rfl (packR_lt 0x3B 0 o (by decide) (by decide))
theorem sqrot (o : OpR) : Statement (.sqrot o) := of_lt rfl (packR_lt 0x3B 1 o (by decide) (by decide))
theorem atts (o : OpR) : Statement (.atts o) := of_lt rfl (packR_lt 0x3B 2 o (by decide) (by decide))
theorem sqsamp (o : OpR) : Statement (.sqsamp o) := of_lt rfl (packR_lt 0x3B 3 o (by decide) (by decide))
theorem sqplay (o : OpR) : Statement (.sqplay o) := of_lt rfl (packR_lt 0x3B 4 o (by decide) (by decide))
theorem sqtrunc (o : OpR) : Statement (.sqtrunc o) := of_lt rfl (packR_lt 0x3B 5 o (by decide) (by decide))
theorem sqframe (o : OpR) : Statement (.sqframe o) := of_lt rfl (packR_lt 0x3B 6 o (by decide) (by decide))
theorem sqcur (o : OpR) : Statement (.sqcur o) := of_lt rfl (packR_lt 0x3B 7 o (by decide) (by decide))
theorem hnop (o : OpHsch) : Statement (.hnop o) := of_lt rfl (packHsch_lt 0 o (by decide))
theorem pfl1 (o : OpHsch) : Statement (.pfl1 o) := of_lt rfl (packHsch_lt 1 o (by decide))
theorem pfsl (o : OpHsch) : Statement (.pfsl o) := of_lt rfl (packHsch_lt 2 o (by decide))
theorem pfi (o : OpHsch) : Statement (.pfi o) := of_lt rfl (packHsch_lt 3 o (by decide))
theorem hmod (o : OpHmod) : Statement (.hmod o) := of_lt rfl (packHmod_lt o)
theorem himm (o : OpHimm) : Statement (.himm o) := of_lt rfl (packHimm_lt o)
theorem rep (o : OpRep) : Statement (.rep o) := of_lt rfl (packRep_lt o)
theorem trinvRange (o : TrInv) : Statement (.trinvRange o) := of_none rfl
theorem trinvJob (o : TrInv) : Statement (.trinvJob o) := of_none rfl
theorem trinvAll (o : TrInv) : Statement (.trinvAll o) := of_none rfl
theorem trinvDone (o : ModRef) : Statement (.trinvDone o) := of_none rfl
theorem jobswSuspend (o : JobRef) : Statement (.jobswSuspend o) := of_none rfl
theorem jobswResume (o : JobRef) : Statement (.jobswResume o) := of_none rfl
theorem sqstatClear (o : SliceRef) : Statement (.sqstatClear o) := of_none rfl
theorem nlkstStart (o : LinkRef) : Statement (.nlkstStart o) := of_none rfl
theorem collectiveAllreduce (o : Coll) : Statement (.collectiveAllreduce o) := of_none rfl
theorem collectiveBroadcast (o : Coll) : Statement (.collectiveBroadcast o) := of_none rfl
theorem hostToDevice (o : Coll) : Statement (.hostToDevice o) := of_none rfl
theorem deviceToHost (o : Coll) : Statement (.deviceToHost o) := of_none rfl
theorem collectiveCompletion (o : CollDone) : Statement (.collectiveCompletion o) := of_none rfl
theorem collectiveCancelNotice (o : CollRef) : Statement (.collectiveCancelNotice o) := of_none rfl
theorem collectiveTimeout (o : CollRef) : Statement (.collectiveTimeout o) := of_none rfl
theorem bringUp (o : BringUp) : Statement (.bringUp o) := of_none rfl
theorem query (o : MboxCmd) : Statement (.query o) := of_none rfl
theorem attest (o : MboxCmd) : Statement (.attest o) := of_none rfl
theorem events (o : MboxCmd) : Statement (.events o) := of_none rfl
theorem config (o : MboxCmd) : Statement (.config o) := of_none rfl
theorem monitor (o : MonitorCmd) : Statement (.monitor o) := of_none rfl
theorem fuseRevoke (o : MboxCmd) : Statement (.fuseRevoke o) := of_none rfl
theorem linkclr (o : MboxCmd) : Statement (.linkclr o) := of_none rfl
theorem qdbDoorbell (o : Doorbell) : Statement (.qdbDoorbell o) := of_none rfl
theorem nopEntry (o : QueueRef) : Statement (.nopEntry o) := of_none rfl
theorem launchEntry (o : QueueRef) : Statement (.launchEntry o) := of_none rfl
theorem graphEntry (o : QueueRef) : Statement (.graphEntry o) := of_none rfl
theorem cancelEntry (o : QueueRef) : Statement (.cancelEntry o) := of_none rfl
theorem priorityEntry (o : QueueRef) : Statement (.priorityEntry o) := of_none rfl
theorem signalEntry (o : QueueRef) : Statement (.signalEntry o) := of_none rfl
theorem entryAdmission (o : ModRef) : Statement (.entryAdmission o) := of_none rfl
theorem dandelionWake (o : WakeAt) : Statement (.dandelionWake o) := of_none rfl
theorem nolkaiMulticast (o : Multicast) : Statement (.nolkaiMulticast o) := of_none rfl
theorem rerankNotice (o : Rerank) : Statement (.rerankNotice o) := of_none rfl
theorem launchCompletion (o : ShareReport) : Statement (.launchCompletion o) := of_none rfl
theorem hostRead (o : HostAccess) : Statement (.hostRead o) := of_none rfl
theorem hostWrite (o : HostAccess) : Statement (.hostWrite o) := of_none rfl
theorem loaderChoice (o : CoreRef) : Statement (.loaderChoice o) := of_none rfl
theorem threadStart (o : SlotRef) : Statement (.threadStart o) := of_none rfl
theorem sextantBalance (o : CoreRef) : Statement (.sextantBalance o) := of_none rfl
theorem workListShipment (o : Shipment) : Statement (.workListShipment o) := of_none rfl
theorem meridianSample (o : MerRef) : Statement (.meridianSample o) := of_none rfl
theorem cancelFlood (o : CancelAt) : Statement (.cancelFlood o) := of_none rfl
theorem migrantPacketArrival (o : Packet) : Statement (.migrantPacketArrival o) := of_none rfl
theorem faultResponse (o : FaultResp) : Statement (.faultResponse o) := of_none rfl
theorem trapEntry (o : TrapReq) : Statement (.trapEntry o) := of_none rfl
theorem interruptEntry (o : IrqRef) : Statement (.interruptEntry o) := of_none rfl
theorem timerInterrupt (o : ThreadRef) : Statement (.timerInterrupt o) := of_none rfl
theorem softInterruptDelivery (o : SoftIrq) : Statement (.softInterruptDelivery o) := of_none rfl
theorem singleStep (o : ThreadRef) : Statement (.singleStep o) := of_none rfl
theorem preemption (o : CoreRef) : Statement (.preemption o) := of_none rfl
theorem contextSaveDone (o : SlotRef) : Statement (.contextSaveDone o) := of_none rfl
theorem resultReturn (o : ResultRet) : Statement (.resultReturn o) := of_none rfl
theorem lineFill (o : HomeReq) : Statement (.lineFill o) := of_none rfl
theorem speculativeStoreReceipt (o : LineWrite) : Statement (.speculativeStoreReceipt o) := of_none rfl
theorem commitInstall (o : Install) : Statement (.commitInstall o) := of_none rfl
theorem regionMerge (o : SliceRef) : Statement (.regionMerge o) := of_none rfl
theorem revoke (o : WordRef) : Statement (.revoke o) := of_none rfl
theorem deregistration (o : Dereg) : Statement (.deregistration o) := of_none rfl
theorem forwardedRead (o : HomeReq) : Statement (.forwardedRead o) := of_none rfl
theorem copySliceMiss (o : HomeReq) : Statement (.copySliceMiss o) := of_none rfl
theorem copyFillArrival (o : CopyFill) : Statement (.copyFillArrival o) := of_none rfl
theorem copyInvalidation (o : CopyInval) : Statement (.copyInvalidation o) := of_none rfl
theorem holderNotice (o : CommFlush) : Statement (.holderNotice o) := of_none rfl
theorem commutativeFlush (o : CommFlush) : Statement (.commutativeFlush o) := of_none rfl
theorem collection (o : LineRef) : Statement (.collection o) := of_none rfl
theorem fallBackAtomicGrant (o : AtomicReq) : Statement (.fallBackAtomicGrant o) := of_none rfl
theorem remoteScratchpadWrite (o : RemoteWrite) : Statement (.remoteScratchpadWrite o) := of_none rfl
theorem remoteScratchpadRead (o : RemoteRead) : Statement (.remoteScratchpadRead o) := of_none rfl
theorem sliceRetentionSleep (o : SliceRef) : Statement (.sliceRetentionSleep o) := of_none rfl
theorem sliceWake (o : SliceRef) : Statement (.sliceWake o) := of_none rfl
theorem ephemerisCreate (o : TileCreate) : Statement (.ephemerisCreate o) := of_none rfl
theorem ephemerisLoad (o : TileLoad) : Statement (.ephemerisLoad o) := of_none rfl
theorem ephemerisRelease (o : TileRelease) : Statement (.ephemerisRelease o) := of_none rfl
theorem ephemerisPin (o : TilePin) : Statement (.ephemerisPin o) := of_none rfl
theorem ephemerisUnpin (o : TileRef) : Statement (.ephemerisUnpin o) := of_none rfl
theorem ephemerisCommit (o : TileSettle) : Statement (.ephemerisCommit o) := of_none rfl
theorem ephemerisDiscard (o : TileSettle) : Statement (.ephemerisDiscard o) := of_none rfl
theorem waiterCancel (o : WaiterRef) : Statement (.waiterCancel o) := of_none rfl
theorem subscriptionRecord (o : SubReq) : Statement (.subscriptionRecord o) := of_none rfl
theorem arrivalNotice (o : Notice) : Statement (.arrivalNotice o) := of_none rfl
theorem stallResume (o : SliceRef) : Statement (.stallResume o) := of_none rfl
theorem pressureReport (o : Pressure) : Statement (.pressureReport o) := of_none rfl
theorem promotionCompletion (o : Promotion) : Statement (.promotionCompletion o) := of_none rfl
theorem frameAdmission (o : FrameReq) : Statement (.frameAdmission o) := of_none rfl
theorem streamFillElement (o : StreamRef) : Statement (.streamFillElement o) := of_none rfl
theorem streamDrainWrite (o : StreamRef) : Statement (.streamDrainWrite o) := of_none rfl
theorem heliostatLineReceive (o : Helio) : Statement (.heliostatLineReceive o) := of_none rfl
theorem matrixDispatch (o : CoreRef) : Statement (.matrixDispatch o) := of_none rfl
theorem matrixCommandCompletion (o : CoreRef) : Statement (.matrixCommandCompletion o) := of_none rfl
theorem solverOperationCompletion (o : CoreRef) : Statement (.solverOperationCompletion o) := of_none rfl
theorem msendDelivery (o : Msg) : Statement (.msendDelivery o) := of_none rfl
theorem qputDelivery (o : Msg) : Statement (.qputDelivery o) := of_none rfl
theorem mailboxMessageArrival (o : MailSend) : Statement (.mailboxMessageArrival o) := of_none rfl
theorem linkTraining (o : Training) : Statement (.linkTraining o) := of_none rfl
theorem nolkaiFlitReceipt (o : FlitIn) : Statement (.nolkaiFlitReceipt o) := of_none rfl
theorem nolkaiNak (o : Nak) : Statement (.nolkaiNak o) := of_none rfl
theorem ucieFlitReceipt (o : DieFlit) : Statement (.ucieFlitReceipt o) := of_none rfl
theorem governorGrant (o : DieRef) : Statement (.governorGrant o) := of_none rfl
theorem powerCapStart (o : PowerEvent) : Statement (.powerCapStart o) := of_none rfl
theorem powerCapEnd (o : PowerEvent) : Statement (.powerCapEnd o) := of_none rfl
theorem eventReport (o : Report) : Statement (.eventReport o) := of_none rfl
theorem nonSpeculativeHomeWrite (o : HomeWrite) : Statement (.nonSpeculativeHomeWrite o) := of_none rfl
theorem sliceStallWake (o : FrameRef) : Statement (.sliceStallWake o) := of_none rfl
theorem hschKind47 (o : OpHschK) : Statement (.hschKind47 o) := of_lt rfl (packHschK_lt o)
theorem illegalEncoding (o : BadWord) : Statement (.illegalEncoding o) := of_none rfl
theorem reset (o : ModRef) : Statement (.reset o) := of_none rfl

end Sys2Proof.Laws.WordFits
end

