-- ==== Sys2Proof/Laws/Tasks.lean ====
section
/-! SUPPORT. What the waits of Machine/Tasks.lean come to in a thread that has nothing outstanding: a release is the commit that opens
its next task, an acquire empties its core's L1, and the posting-counter waits pass. -/

namespace Sys2Proof.Machine

/-- Nothing of a thread's is in its core's buffer, so no contribution leaves it. -/
theorem flushMine_none (s : State) (g : Nat)
    (h : ((s.core (coreOf g)).comm.any fun e => e.contrib.any fun x => x.1 == g) = false) : flushMine s g = s := by
  have : ((s.core (coreOf g)).comm.filter fun e => e.contrib.any fun x => x.1 == g) = [] := by
    rw [List.filter_eq_nil_iff]
    intro e he
    rw [List.any_eq_false] at h
    simp [h e he]
  unfold flushMine flushComm
  simp only [this, List.isEmpty_nil, if_true]

theorem flushWaited_none (s : State) (g : Nat) (p : PostCtr → Bool)
    (h : ((s.core (coreOf g)).comm.any fun e => e.contrib.any fun x => x.1 == g) = false) : flushWaited s g p = s := by
  unfold flushWaited
  split
  · exact flushMine_none s g h
  · rfl

/-- What `quiet` says, part by part. -/
theorem quiet_parts {s : State} {g : Nat} (h : quiet s g = true) :
    (s.thread g).stage = .start ∧ (s.thread g).out = [] ∧ (s.thread g).ctx.pd = 0 ∧ (s.thread g).ctx.px = 0 ∧
    (s.thread g).ctx.po = 0 ∧ (s.thread g).stf = [] ∧ (s.thread g).eng = [] ∧ (s.thread g).guardRec = none ∧
    (s.thread g).units = [] ∧ (s.thread g).creates = [] ∧ (s.thread g).engines = 0 ∧ (s.thread g).pend = [] ∧
    ((s.core (coreOf g)).comm.any fun e => e.contrib.any fun x => x.1 == g) = false ∧
    s.onWay (isSpecStore g) = false ∧ lateEngines s g = false ∧ hostWrites s g = false ∧ (s.thread g).checked = false := by
  simp only [quiet, calm, Bool.and_eq_true, Bool.not_eq_true', beq_iff_eq, List.isEmpty_iff, Option.isNone_iff_eq_none] at h
  obtain ⟨⟨⟨⟨⟨⟨⟨⟨⟨⟨⟨⟨⟨⟨⟨⟨h1, hc⟩, h2⟩, h3⟩, h4⟩, h5⟩, h6⟩, h7⟩, h8⟩, h9⟩, h10⟩, h11⟩, h12⟩, h13⟩, h14⟩, h15⟩, h16⟩ := h
  exact ⟨h1, h2, h3, h4, h5, h6, h7, h8, h9, h10, h11, h12, h13, h14, h15, h16, hc⟩

theorem quiet_checked {s : State} {g : Nat} (h : quiet s g = true) : (s.thread g).checked = false :=
  (quiet_parts h).2.2.2.2.2.2.2.2.2.2.2.2.2.2.2.2

theorem ctrsZero_quiet {s : State} {g : Nat} (h : quiet s g = true) (p : PostCtr → Bool) : ctrsZero (s.thread g).ctx p = true := by
  obtain ⟨-, -, h1, h2, h3, -⟩ := quiet_parts h
  simp [ctrsZero, h1, h2, h3]

/-- The check passes, and is noted only where the instruction goes on waiting. -/
theorem checkGuard_quiet {s : State} {i : Iss} (h : quiet s i.g = true) (k : State → Res) :
    checkGuard i s k = (k s).noteChecked i.g := by
  have := (quiet_parts h).2.2.2.2.2.2.2.1
  simp [checkGuard, this, quiet_checked h]

@[simp] theorem noteChecked_done (g : Nat) (s : State) : (Res.done s).noteChecked g = .done s := rfl
@[simp] theorem noteChecked_whole (g : Nat) (s : State) : (Res.whole s).noteChecked g = .whole s := rfl
@[simp] theorem noteChecked_next (g : Nat) (pc : Word) (s : State) : (Res.next pc s).noteChecked g = .next pc s := rfl
@[simp] theorem noteChecked_jump (g : Nat) (pc : Word) (s : State) : (Res.jump pc s).noteChecked g = .jump pc s := rfl
@[simp] theorem noteChecked_trap (g : Nat) (f : FaultRec) (s : State) : (Res.trap f s).noteChecked g = .trap f s := rfl
@[simp] theorem noteChecked_call (g : Nat) (f : FaultRec) (s : State) : (Res.call f s).noteChecked g = .call f s := rfl
@[simp] theorem noteChecked_gone (g : Nat) (s : State) : (Res.gone s).noteChecked g = .gone s := rfl

theorem drainCounters_quiet {s : State} {i : Iss} (h : quiet s i.g = true) (p : PostCtr → Bool) (k : State → Res) :
    drainCounters i p s k = k s := by
  have hf := flushWaited_none s i.g p (quiet_parts h).2.2.2.2.2.2.2.2.2.2.2.2.1
  have hs := (quiet_parts h).2.2.2.2.2.1
  simp only [drainCounters, hf, surfacePosted, hs, List.find?_nil, ctrsZero_quiet h, if_true]

theorem waitCounters_quiet {s : State} {i : Iss} (h : quiet s i.g = true) (p : PostCtr → Bool) (k : State → Res) :
    waitCounters i p s k = (k s).noteChecked i.g := by
  rw [waitCounters, drainCounters_quiet h, checkGuard_quiet h]

theorem waitField_quiet {s : State} {i : Iss} (h : quiet s i.g = true) (w : Nat) (k : State → Res) : waitField i w s k = k s := by
  have h1 := (quiet_parts h).1
  simp only [waitField, h1, bne_self_eq_false, Bool.false_eq_true, if_false]
  split
  · rfl
  · exact drainCounters_quiet h _ k

/-- The check that a wait field makes passes. -/
theorem fieldGuard_quiet {s : State} {i : Iss} (h : quiet s i.g = true) (w : Nat) (k : State → Res) :
    fieldGuard i w s k = k s ∨ fieldGuard i w s k = (k s).noteChecked i.g := by
  unfold fieldGuard
  split
  · exact .inl rfl
  · exact .inr (checkGuard_quiet h k)

theorem surfaceEngine_none {s : State} {i : Iss} (h : (s.thread i.g).eng = []) (p : EngFault → Bool) (k : State → Res) :
    surfaceEngine i p s k = k s := by
  simp [surfaceEngine, h]

/-- A commit with nothing to publish opens the next task at once. -/
theorem withCommit_quiet {s : State} {i : Iss} (h : quiet s i.g = true) (own : Bool) (k : State → Res) :
    withCommit i own s k = k (s.modThread i.g (committed own)) := by
  obtain ⟨h1, h2, -, -, -, h6, h7, -, h9, h10, -, -, -, h14, h15, -, -⟩ := quiet_parts h
  simp only [withCommit, h1, h2, surfacePosted, h6, List.find?_nil, List.isEmpty_nil, Bool.not_true, h14, fillUnits, h9,
    surfaceEngine_none h7, h15, h10, if_true, Bool.false_eq_true, if_false]
  rfl

theorem withRelease_quiet {s : State} {i : Iss} (h : quiet s i.g = true) (scope : Nat) (k : State → Res) :
    withRelease i scope s k = (k (s.modThread i.g (committed false))).noteChecked i.g := by
  obtain ⟨h1, h2, -, -, -, h6, -, -, -, -, -, -, h13, -, -, h16, hc⟩ := quiet_parts h
  have hw : hostWrites (s.modThread i.g (committed false)) i.g = false := h16
  simp only [withRelease, h1, h2, hc, List.isEmpty_nil, Bool.not_true, Bool.false_eq_true, if_false, if_true, flushMine_none s i.g h13,
    surfacePosted, h6, List.find?_nil, ctrsZero_quiet h, checkGuard_quiet h, withCommit_quiet h, hw, and_false, not_false_eq_true, and_true]

theorem withAcquire_none {s : State} {i : Iss} (h : (s.thread i.g).out = []) (k : State → Res) :
    withAcquire i s k = k (acquireCore s (coreOf i.g)) := by
  simp [withAcquire, h]

@[simp] theorem committed_out (own : Bool) (t : Thread) : (committed own t).out = t.out := rfl
@[simp] theorem committed_eng (own : Bool) (t : Thread) : (committed own t).eng = t.eng := rfl
@[simp] theorem committed_engines (own : Bool) (t : Thread) : (committed own t).engines = t.engines := rfl
@[simp] theorem committed_streams (own : Bool) (t : Thread) : (committed own t).streams = t.streams := rfl
@[simp] theorem committed_status (own : Bool) (t : Thread) : (committed own t).status = t.status := rfl
@[simp] theorem committed_seq (own : Bool) (t : Thread) : (committed own t).seq = t.seq := rfl
@[simp] theorem committed_pc (own : Bool) (t : Thread) : (committed own t).ctx.pc = t.ctx.pc := rfl
@[simp] theorem committed_x (own : Bool) (t : Thread) (n : Nat) : (committed own t).x n = t.x n := rfl
@[simp] theorem committed_ids (own : Bool) (t : Thread) : (committed own t).ctx.ids = t.ctx.ids := by
  simp only [committed, reopen, openTask, Thread.advance, loopEnd, Thread.clearWord, Ctx.capture]
  repeat' split
  all_goals rfl
@[simp] theorem committed_stage (own : Bool) (t : Thread) : (committed own t).stage = .committed := rfl

/-- A release and the acquire after it, of a thread with nothing outstanding. -/
theorem withFence_quiet {s : State} {i : Iss} (h : quiet s i.g = true) (scope : Nat) (k : State → Res) :
    withFence i scope s k = (k (acquireCore (s.modThread i.g (committed false)) (coreOf i.g))).noteChecked i.g := by
  have h2 := (quiet_parts h).2.1
  rw [withFence, withRelease_quiet h, withAcquire_none (by simp [h2])]

/-! ## The machine in which an effect begins -/

theorem begun_cases (s : State) (t : Traits) (h : t.power = false) :
    begun s t = s ∨ begun s t = s.modCtx s.cur fun c => { c with haz := c.haz || hazard s t, modfb := c.modfb || fallback t s.sequence (issued s t).bv.isSome } := by
  unfold begun governed
  simp only [h, Bool.false_eq_true, if_false]
  split
  · exact .inr rfl
  · exact .inl rfl

/-- HAZ and MODFB say nothing about what is outstanding. -/
theorem quiet_begun (s : State) (t : Traits) (h : t.power = false) : quiet (begun s t) s.cur = quiet s s.cur := by
  obtain h | h := begun_cases s t h
  · rw [h]
  · rw [h]
    simp [quiet, calm, lateEngines, hostWrites, drainsOut, collOut, State.onWay, State.modCtx, State.modThread, State.core, State.modu]

end Sys2Proof.Machine
end

