-- ==== Sys2Proof/Tests/Slice0.lean ====
section
/-! SUPPORT. The model's own tests: every encoded constructor decoded from a word written out from the spec's encodings (R216, R219 to
R232 and spec/opcode_table.json), an ill-formed term for each check, small steps whose results the spec states, and for each statement
of Certificates/Slice0/Obligations.lean states and operands that meet its hypotheses. -/

namespace Sys2Proof.Tests

set_option maxRecDepth 8000
set_option Elab.async false

open Sys2Proof Sys2Proof.Machine

/-! ## Words -/

/-- R264, R265: major opcode 0x01. -/
theorem test_decode_int :
    decode 0b1_000001_10011_10101_10110_10111_00000 = .ok (.add ⟨true, 19, 21, 22, 23⟩) ∧
    decode 0b1_000001_10011_10101_10110_10111_00001 = .ok (.sub ⟨true, 19, 21, 22, 23⟩) ∧
    decode 0b1_000001_10011_10101_10110_10111_00010 = .ok (.mul ⟨true, 19, 21, 22, 23⟩) ∧
    decode 0b1_000001_10011_10101_10110_10111_00011 = .ok (.mulhS64 ⟨true, 19, 21, 22, 23⟩) ∧
    decode 0b1_000001_10011_10101_10110_10111_00100 = .ok (.mulhN64 ⟨true, 19, 21, 22, 23⟩) ∧
    decode 0b1_000001_10011_10101_10110_10111_00101 = .ok (.divS64 ⟨true, 19, 21, 22, 23⟩) ∧
    decode 0b1_000001_10011_10101_10110_10111_00110 = .ok (.divN64 ⟨true, 19, 21, 22, 23⟩) ∧
    decode 0b1_000001_10011_10101_10110_10111_00111 = .ok (.remS64 ⟨true, 19, 21, 22, 23⟩) ∧
    decode 0b1_000001_10011_10101_10110_10111_01000 = .ok (.remN64 ⟨true, 19, 21, 22, 23⟩) ∧
    decode 0b1_000001_10011_10101_10110_10111_01001 = .ok (.and ⟨true, 19, 21, 22, 23⟩) ∧
    decode 0b1_000001_10011_10101_10110_10111_01010 = .ok (.or ⟨true, 19, 21, 22, 23⟩) ∧
    decode 0b1_000001_10011_10101_10110_10111_01011 = .ok (.xor ⟨true, 19, 21, 22, 23⟩) ∧
    decode 0b1_000001_10011_10101_10110_10111_01100 = .ok (.andn ⟨true, 19, 21, 22, 23⟩) ∧
    decode 0b1_000001_10011_10101_10110_10111_01101 = .ok (.orn ⟨true, 19, 21, 22, 23⟩) ∧
    decode 0b1_000001_10011_10101_10110_10111_01110 = .ok (.xnor ⟨true, 19, 21, 22, 23⟩) ∧
    decode 0b1_000001_10011_10101_10110_10111_01111 = .ok (.sll ⟨true, 19, 21, 22, 23⟩) ∧
    decode 0b1_000001_10011_10101_10110_10111_10000 = .ok (.srl ⟨true, 19, 21, 22, 23⟩) ∧
    decode 0b1_000001_10011_10101_10110_10111_10001 = .ok (.sra ⟨true, 19, 21, 22, 23⟩) ∧
    decode 0b1_000001_10011_10101_10110_10111_10010 = .ok (.rol ⟨true, 19, 21, 22, 23⟩) ∧
    decode 0b1_000001_10011_10101_10110_10111_10011 = .ok (.ror ⟨true, 19, 21, 22, 23⟩) ∧
    decode 0b1_000001_10011_10101_10110_10111_10100 = .ok (.minS64 ⟨true, 19, 21, 22, 23⟩) ∧
    decode 0b1_000001_10011_10101_10110_10111_10101 = .ok (.maxS64 ⟨true, 19, 21, 22, 23⟩) ∧
    decode 0b1_000001_10011_10101_10110_10111_10110 = .ok (.minN64 ⟨true, 19, 21, 22, 23⟩) ∧
    decode 0b1_000001_10011_10101_10110_10111_10111 = .ok (.maxN64 ⟨true, 19, 21, 22, 23⟩) ∧
    decode 0b1_000001_10011_10101_10110_00000_11000 = .ok (.clz ⟨true, 19, 21, 22, 0⟩) ∧
    decode 0b1_000001_10011_10101_10110_00000_11001 = .ok (.ctz ⟨true, 19, 21, 22, 0⟩) ∧
    decode 0b1_000001_10011_10101_10110_00000_11010 = .ok (.popc ⟨true, 19, 21, 22, 0⟩) ∧
    decode 0b1_000001_10011_10101_10110_00000_11011 = .ok (.brev ⟨true, 19, 21, 22, 0⟩) ∧
    decode 0b1_000001_10011_10101_10110_00000_11100 = .ok (.bswap ⟨true, 19, 21, 22, 0⟩) ∧
    decode 0b1_000001_10011_10101_10110_10111_11101 = .ok (.sext ⟨true, 19, 21, 22, 23⟩) ∧
    decode 0b1_000001_10011_10101_10110_00000_11110 = .ok (.abs ⟨true, 19, 21, 22, 0⟩) :=
  by and_intros <;> rfl

/-- R267: major opcode 0x02. -/
theorem test_decode_addi :
    decode 0b1_000010_10011_10101_10110_1011010011 = .ok (.addi ⟨true, 19, 21, 22, 723⟩) :=
  rfl

/-- R267: major opcode 0x03. -/
theorem test_decode_andi :
    decode 0b1_000011_10011_10101_10110_1011010011 = .ok (.andi ⟨true, 19, 21, 22, 723⟩) :=
  rfl

/-- R267: major opcode 0x04. -/
theorem test_decode_ori :
    decode 0b1_000100_10011_10101_10110_1011010011 = .ok (.ori ⟨true, 19, 21, 22, 723⟩) :=
  rfl

/-- R267: major opcode 0x05. -/
theorem test_decode_xori :
    decode 0b1_000101_10011_10101_10110_1011010011 = .ok (.xori ⟨true, 19, 21, 22, 723⟩) :=
  rfl

/-- R267: major opcode 0x06. -/
theorem test_decode_shi :
    decode 0b1_000110_10011_10101_10110_0000_101011 = .ok (.slli ⟨true, 19, 21, 22, 43⟩) ∧
    decode 0b1_000110_10011_10101_10110_0100_101011 = .ok (.srli ⟨true, 19, 21, 22, 43⟩) ∧
    decode 0b1_000110_10011_10101_10110_1000_101011 = .ok (.srai ⟨true, 19, 21, 22, 43⟩) ∧
    decode 0b1_000110_10011_10101_10110_1100_101011 = .ok (.rori ⟨true, 19, 21, 22, 43⟩) :=
  ⟨rfl, rfl, rfl, rfl⟩

/-- R267: major opcode 0x07. -/
theorem test_decode_lea :
    decode 0b1_000111_10011_10101_00000_1011010011 = .ok (.lea ⟨true, 19, 21, 0, 723⟩) :=
  rfl

/-- R268: major opcode 0x08. -/
theorem test_decode_bitf :
    decode 0b1_001000_10011_10101_10110_10111_00000 = .ok (.bfxN64 ⟨true, 19, 21, 22, 23⟩) ∧
    decode 0b1_001000_10011_10101_10110_10111_00001 = .ok (.bfxS64 ⟨true, 19, 21, 22, 23⟩) ∧
    decode 0b1_001000_10011_10101_10110_10111_00010 = .ok (.bfi ⟨true, 19, 21, 22, 23⟩) :=
  ⟨rfl, rfl, rfl⟩

/-- R269: major opcode 0x09. -/
theorem test_decode_cmp :
    decode 0b1_001001_10011_01101_10110_10111_00000 = .ok (.cmpEq ⟨true, 19, 13, 22, 23⟩) ∧
    decode 0b1_001001_10011_01101_10110_10111_00001 = .ok (.cmpNe ⟨true, 19, 13, 22, 23⟩) ∧
    decode 0b1_001001_10011_01101_10110_10111_00010 = .ok (.cmpLtS64 ⟨true, 19, 13, 22, 23⟩) ∧
    decode 0b1_001001_10011_01101_10110_10111_00011 = .ok (.cmpGeS64 ⟨true, 19, 13, 22, 23⟩) ∧
    decode 0b1_001001_10011_01101_10110_10111_00100 = .ok (.cmpLtN64 ⟨true, 19, 13, 22, 23⟩) ∧
    decode 0b1_001001_10011_01101_10110_10111_00101 = .ok (.cmpGeN64 ⟨true, 19, 13, 22, 23⟩) ∧
    decode 0b1_001001_10011_01101_10110_10111_00110 = .ok (.cmpTst ⟨true, 19, 13, 22, 23⟩) ∧
    decode 0b1_001001_10011_01101_10110_10111_00111 = .ok (.cmpTstz ⟨true, 19, 13, 22, 23⟩) ∧
    decode 0b1_001001_10011_01101_01110_01111_01000 = .ok (.cand ⟨true, 19, 13, 14, 15⟩) ∧
    decode 0b1_001001_10011_01101_01110_01111_01001 = .ok (.cor ⟨true, 19, 13, 14, 15⟩) ∧
    decode 0b1_001001_10011_01101_01110_01111_01010 = .ok (.cxor ⟨true, 19, 13, 14, 15⟩) ∧
    decode 0b1_001001_10011_01101_01110_01111_01011 = .ok (.candn ⟨true, 19, 13, 14, 15⟩) ∧
    decode 0b1_001001_10011_10101_00000_00000_01100 = .ok (.mfcw ⟨true, 19, 21, 0, 0⟩) ∧
    decode 0b1_001001_10011_00000_10110_00000_01101 = .ok (.mtcw ⟨true, 19, 0, 22, 0⟩) :=
  by and_intros <;> rfl

/-- R270: major opcode 0x0A. -/
theorem test_decode_fpa :
    decode 0b1_001010_10011_10101_10110_10111_000_10 = .ok (.fadd ⟨true, 19, 21, 22, 23, 2⟩) ∧
    decode 0b1_001010_10011_10101_10110_10111_001_10 = .ok (.fsub ⟨true, 19, 21, 22, 23, 2⟩) ∧
    decode 0b1_001010_10011_10101_10110_10111_010_10 = .ok (.fmul ⟨true, 19, 21, 22, 23, 2⟩) ∧
    decode 0b1_001010_10011_10101_10110_10111_011_10 = .ok (.fdiv ⟨true, 19, 21, 22, 23, 2⟩) ∧
    decode 0b1_001010_10011_10101_10110_00000_100_10 = .ok (.fsqrt ⟨true, 19, 21, 22, 0, 2⟩) ∧
    decode 0b1_001010_10011_10101_10110_10111_101_10 = .ok (.fmin ⟨true, 19, 21, 22, 23, 2⟩) ∧
    decode 0b1_001010_10011_10101_10110_10111_110_10 = .ok (.fmax ⟨true, 19, 21, 22, 23, 2⟩) ∧
    decode 0b1_001010_10011_10101_10110_10111_111_10 = .ok (.fmac ⟨true, 19, 21, 22, 23, 2⟩) :=
  by and_intros <;> rfl

/-- R270: major opcode 0x0B. -/
theorem test_decode_fpb :
    decode 0b1_001011_10011_01101_10110_10111_000_10 = .ok (.fcmpEq ⟨true, 19, 13, 22, 23, 2⟩) ∧
    decode 0b1_001011_10011_01101_10110_10111_001_10 = .ok (.fcmpLt ⟨true, 19, 13, 22, 23, 2⟩) ∧
    decode 0b1_001011_10011_01101_10110_10111_010_10 = .ok (.fcmpLe ⟨true, 19, 13, 22, 23, 2⟩) ∧
    decode 0b1_001011_10011_01101_10110_10111_011_10 = .ok (.fcmpUn ⟨true, 19, 13, 22, 23, 2⟩) ∧
    decode 0b1_001011_10011_10101_10110_00000_100_10 = .ok (.fclass ⟨true, 19, 21, 22, 0, 2⟩) ∧
    decode 0b1_001011_10011_10101_10110_10111_101_10 = .ok (.fsgn ⟨true, 19, 21, 22, 23, 2⟩) ∧
    decode 0b1_001011_10011_10101_10110_00000_110_10 = .ok (.fneg ⟨true, 19, 21, 22, 0, 2⟩) ∧
    decode 0b1_001011_10011_10101_10110_00000_111_10 = .ok (.fabs ⟨true, 19, 21, 22, 0, 2⟩) :=
  by and_intros <;> rfl

/-- R271: major opcode 0x0C. -/
theorem test_decode_fcvt :
    decode 0b1_001100_10011_10101_10110_00111_00010 = .ok (.fcvt ⟨true, 19, 21, 22, 7, 2⟩) :=
  rfl

/-- R272: major opcode 0x10. -/
theorem test_decode_major_10 :
    decode 0b1_010000_10011_10100001001000110100 = .ok (.br ⟨true, 19, 660020⟩) :=
  rfl

/-- R272: major opcode 0x11. -/
theorem test_decode_major_11 :
    decode 0b1_010001_10011_10100001001000110100 = .ok (.call ⟨true, 19, 660020⟩) :=
  rfl

/-- R272: major opcode 0x12. -/
theorem test_decode_major_12 :
    decode 0b1_010010_10011_10101_10110_1011010011 = .ok (.jmpr ⟨true, 19, 21, 22, 723⟩) :=
  rfl

/-- R273: major opcode 0x13. -/
theorem test_decode_major_13 :
    decode 0b1_010011_10011_10101_10110_1011010011 = .ok (.loop ⟨true, 19, 21, 22, 723⟩) :=
  rfl

/-- R213, R276, R277, R279, R284: major opcode 0x14. -/
theorem test_decode_major_14 :
    decode 0b1_010100_10011_00001_10110_00000_00000 = .ok (.migrA ⟨true, 19, 1, 22, 0⟩) ∧
    decode 0b1_010100_10011_00001_01110_10111_00001 = .ok (.migrH ⟨true, 19, 1, 14, 23⟩) ∧
    decode 0b1_010100_10011_00001_10110_00000_00010 = .ok (.migrC ⟨true, 19, 1, 22, 0⟩) ∧
    decode 0b1_010100_10011_00000_00000_00000_00011 = .ok (.tcom ⟨true, 19, 0, 0, 0⟩) ∧
    decode 0b1_010100_10011_00000_00000_00000_00100 = .ok (.tret ⟨true, 19, 0, 0, 0⟩) ∧
    decode 0b1_010100_10011_00000_00000_00000_00101 = .ok (.tretRs ⟨true, 19, 0, 0, 0⟩) ∧
    decode 0b1_010100_10011_00000_00000_00000_00110 = .ok (.tretDp ⟨true, 19, 0, 0, 0⟩) ∧
    decode 0b1_010100_10011_00000_00000_00000_00111 = .ok (.sysc ⟨true, 19, 0, 0, 0⟩) ∧
    decode 0b1_010100_10011_00000_00000_00000_01000 = .ok (.monc ⟨true, 19, 0, 0, 0⟩) ∧
    decode 0b1_010100_10011_00000_00000_00000_01001 = .ok (.brk ⟨true, 19, 0, 0, 0⟩) :=
  by and_intros <;> rfl

/-- R278: major opcode 0x15. -/
theorem test_decode_major_15 :
    decode 0b1_010101_10011_10101_00000_1011010011 = .ok (.mfcr ⟨true, 19, 21, 0, 723⟩) :=
  rfl

/-- R278: major opcode 0x16. -/
theorem test_decode_major_16 :
    decode 0b1_010110_10011_00000_10110_1011010011 = .ok (.mtcr ⟨true, 19, 0, 22, 723⟩) :=
  rfl

/-- R280, R281, R282, R283, R285, R286: major opcode 0x17. -/
theorem test_decode_major_17 :
    decode 0b1_010111_10011_10101_10110_00000_00000 = .ok (.feat ⟨true, 19, 21, 22, 0⟩) ∧
    decode 0b1_010111_10011_00000_10110_00100_00001 = .ok (.icinv ⟨true, 19, 0, 22, 4⟩) ∧
    decode 0b1_010111_10011_10101_10110_10111_00010 = .ok (.isend ⟨true, 19, 21, 22, 23⟩) ∧
    decode 0b1_010111_10011_00000_10110_00001_00011 = .ok (.cancel ⟨true, 19, 0, 22, 1⟩) ∧
    decode 0b1_010111_10011_00000_00000_00000_00100 = .ok (.ien ⟨true, 19, 0, 0, 0⟩) ∧
    decode 0b1_010111_10011_00000_00000_00000_00101 = .ok (.idis ⟨true, 19, 0, 0, 0⟩) ∧
    decode 0b1_010111_10011_10101_00000_00000_00110 = .ok (.rdcyc ⟨true, 19, 21, 0, 0⟩) :=
  by and_intros <;> rfl

/-- R289: major opcode 0x18. -/
theorem test_decode_major_18 :
    decode 0b1_011000_10011_10101_10110_10_01_011010 = .ok (.ldN8 ⟨true, 19, 21, 22, 2, 1, 26⟩) :=
  rfl

/-- R289: major opcode 0x19. -/
theorem test_decode_major_19 :
    decode 0b1_011001_10011_10101_10110_10_01_011010 = .ok (.ldN16 ⟨true, 19, 21, 22, 2, 1, 26⟩) :=
  rfl

/-- R289: major opcode 0x1A. -/
theorem test_decode_major_1a :
    decode 0b1_011010_10011_10101_10110_10_01_011010 = .ok (.ldN32 ⟨true, 19, 21, 22, 2, 1, 26⟩) :=
  rfl

/-- R289: major opcode 0x1B. -/
theorem test_decode_major_1b :
    decode 0b1_011011_10011_10101_10110_10_01_011010 = .ok (.ldN64 ⟨true, 19, 21, 22, 2, 1, 26⟩) :=
  rfl

/-- R289: major opcode 0x1C. -/
theorem test_decode_major_1c :
    decode 0b1_011100_10011_10101_10110_10_01_011010 = .ok (.ldS8 ⟨true, 19, 21, 22, 2, 1, 26⟩) :=
  rfl

/-- R289: major opcode 0x1D. -/
theorem test_decode_major_1d :
    decode 0b1_011101_10011_10101_10110_10_01_011010 = .ok (.ldS16 ⟨true, 19, 21, 22, 2, 1, 26⟩) :=
  rfl

/-- R289: major opcode 0x1E. -/
theorem test_decode_major_1e :
    decode 0b1_011110_10011_10101_10110_10_01_011010 = .ok (.ldS32 ⟨true, 19, 21, 22, 2, 1, 26⟩) :=
  rfl

/-- R289: major opcode 0x20. -/
theorem test_decode_major_20 :
    decode 0b1_100000_10011_10101_10110_10_01_011010 = .ok (.stN8 ⟨true, 19, 21, 22, 2, 1, 26⟩) :=
  rfl

/-- R289: major opcode 0x21. -/
theorem test_decode_major_21 :
    decode 0b1_100001_10011_10101_10110_10_01_011010 = .ok (.stN16 ⟨true, 19, 21, 22, 2, 1, 26⟩) :=
  rfl

/-- R289: major opcode 0x22. -/
theorem test_decode_major_22 :
    decode 0b1_100010_10011_10101_10110_10_01_011010 = .ok (.stN32 ⟨true, 19, 21, 22, 2, 1, 26⟩) :=
  rfl

/-- R289: major opcode 0x23. -/
theorem test_decode_major_23 :
    decode 0b1_100011_10011_10101_10110_10_01_011010 = .ok (.stN64 ⟨true, 19, 21, 22, 2, 1, 26⟩) :=
  rfl

/-- R322: major opcode 0x24. -/
theorem test_decode_major_24 :
    decode 0b1_100100_10101_10110_00000_110_10_1_00_00 = .ok (.vld ⟨true, 21, 22, 0, 6, 2, true, 0⟩) ∧
    decode 0b1_100100_10101_10110_10111_110_10_1_01_10 = .ok (.vlds ⟨true, 21, 22, 23, 6, 2, true, 2⟩) ∧
    decode 0b1_100100_10101_10110_10111_110_10_1_10_10 = .ok (.vldx ⟨true, 21, 22, 23, 6, 2, true, 2⟩) :=
  ⟨rfl, rfl, rfl⟩

/-- R322: major opcode 0x25. -/
theorem test_decode_major_25 :
    decode 0b1_100101_10101_10110_00000_110_10_1_00_00 = .ok (.vst ⟨true, 21, 22, 0, 6, 2, true, 0⟩) ∧
    decode 0b1_100101_10101_10110_10111_110_10_1_01_10 = .ok (.vsts ⟨true, 21, 22, 23, 6, 2, true, 2⟩) ∧
    decode 0b1_100101_10101_10110_10111_110_10_1_10_10 = .ok (.vstx ⟨true, 21, 22, 23, 6, 2, true, 2⟩) :=
  ⟨rfl, rfl, rfl⟩

/-- R291: major opcode 0x26. -/
theorem test_decode_major_26 :
    decode 0b1_100110_00000_10110_10111_10_01_101_1_00 = .ok (.aadd ⟨true, 0, 22, 23, 2, 1, 5, true⟩) ∧
    decode 0b1_100110_00000_10110_10111_10_01_101_1_01 = .ok (.aand ⟨true, 0, 22, 23, 2, 1, 5, true⟩) ∧
    decode 0b1_100110_00000_10110_10111_10_01_101_1_10 = .ok (.aor ⟨true, 0, 22, 23, 2, 1, 5, true⟩) ∧
    decode 0b1_100110_00000_10110_10111_10_01_101_1_11 = .ok (.axor ⟨true, 0, 22, 23, 2, 1, 5, true⟩) :=
  ⟨rfl, rfl, rfl, rfl⟩

/-- R291: major opcode 0x27. -/
theorem test_decode_major_27 :
    decode 0b1_100111_00000_10110_10111_10_01_101_1_00 = .ok (.aminS ⟨true, 0, 22, 23, 2, 1, 5, true⟩) ∧
    decode 0b1_100111_00000_10110_10111_10_01_101_1_01 = .ok (.amaxS ⟨true, 0, 22, 23, 2, 1, 5, true⟩) ∧
    decode 0b1_100111_00000_10110_10111_10_01_101_1_10 = .ok (.aminN ⟨true, 0, 22, 23, 2, 1, 5, true⟩) ∧
    decode 0b1_100111_00000_10110_10111_10_01_101_1_11 = .ok (.amaxN ⟨true, 0, 22, 23, 2, 1, 5, true⟩) :=
  ⟨rfl, rfl, rfl, rfl⟩

/-- R291: major opcode 0x28. -/
theorem test_decode_major_28 :
    decode 0b1_101000_10101_10110_10111_10_01_101_1_00 = .ok (.afadd ⟨true, 21, 22, 23, 2, 1, 5, true⟩) ∧
    decode 0b1_101000_10101_10110_10111_10_01_101_1_01 = .ok (.aswp ⟨true, 21, 22, 23, 2, 1, 5, true⟩) ∧
    decode 0b1_101000_10101_10110_10111_10_01_101_1_10 = .ok (.acas ⟨true, 21, 22, 23, 2, 1, 5, true⟩) ∧
    decode 0b1_101000_10101_10110_10111_10_01_101_1_11 = .ok (.afor ⟨true, 21, 22, 23, 2, 1, 5, true⟩) :=
  ⟨rfl, rfl, rfl, rfl⟩

/-- R291: major opcode 0x29. -/
theorem test_decode_major_29 :
    decode 0b1_101001_10101_10110_10111_10_01_101_1_00 = .ok (.afxor ⟨true, 21, 22, 23, 2, 1, 5, true⟩) ∧
    decode 0b1_101001_10101_10110_10111_10_01_101_1_01 = .ok (.afminS ⟨true, 21, 22, 23, 2, 1, 5, true⟩) ∧
    decode 0b1_101001_10101_10110_10111_10_01_101_1_10 = .ok (.afmaxS ⟨true, 21, 22, 23, 2, 1, 5, true⟩) ∧
    decode 0b1_101001_10101_10110_10111_10_01_101_1_11 = .ok (.affadd ⟨true, 21, 22, 23, 2, 1, 5, true⟩) :=
  ⟨rfl, rfl, rfl, rfl⟩

/-- R41, R42, R59, R306: major opcode 0x2A. -/
theorem test_decode_major_2a :
    decode 0b1_101010_10_1001_10110_10111_11001_0000 = .ok (.tst ⟨true, 2, 9, 22, 23, 25⟩) ∧
    decode 0b1_101010_10_1001_10110_10111_11001_0001 = .ok (.tld ⟨true, 2, 9, 22, 23, 25⟩) ∧
    decode 0b1_101010_10_1001_10110_10111_11001_0010 = .ok (.tldc ⟨true, 2, 9, 22, 23, 25⟩) ∧
    decode 0b1_101010_10_1001_00000_00000_11001_0011 = .ok (.trel ⟨true, 2, 9, 0, 0, 25⟩) ∧
    decode 0b1_101010_10_1001_10110_00000_11001_0100 = .ok (.tqry ⟨true, 2, 9, 22, 0, 25⟩) ∧
    decode 0b1_101010_10_1001_10110_10111_11001_0101 = .ok (.tsub ⟨true, 2, 9, 22, 23, 25⟩) ∧
    decode 0b1_101010_10_1001_10110_00000_11001_0110 = .ok (.tunsub ⟨true, 2, 9, 22, 0, 25⟩) ∧
    decode 0b1_101010_10_1001_10110_00000_11001_0111 = .ok (.tmov ⟨true, 2, 9, 22, 0, 25⟩) :=
  by and_intros <;> rfl

/-- R62, R63: major opcode 0x2B. -/
theorem test_decode_major_2b :
    decode 0b1_101011_10011_10101_10110_00000_00000 = .ok (.halloc ⟨true, 19, 21, 22, 0⟩) ∧
    decode 0b1_101011_10011_00000_10110_00000_00001 = .ok (.hfree ⟨true, 19, 0, 22, 0⟩) :=
  ⟨rfl, rfl⟩

/-- R123, R293, R294, R296, R297, R298, R299, R300, R326: major opcode 0x2C. -/
theorem test_decode_major_2c :
    decode 0b1_101100_10011_00000_00000_00100_00000 = .ok (.fence ⟨true, 19, 0, 0, 4⟩) ∧
    decode 0b1_101100_10011_00000_00000_00111_00001 = .ok (.wpc ⟨true, 19, 0, 0, 7⟩) ∧
    decode 0b1_101100_10011_00101_10110_01111_00010 = .ok (.barArr ⟨true, 19, 5, 22, 15⟩) ∧
    decode 0b1_101100_10011_00000_10110_01111_00011 = .ok (.barWait ⟨true, 19, 0, 22, 15⟩) ∧
    decode 0b1_101100_10011_00000_10110_10111_00100 = .ok (.msend ⟨true, 19, 0, 22, 23⟩) ∧
    decode 0b1_101100_10011_00000_10110_10111_00101 = .ok (.qput ⟨true, 19, 0, 22, 23⟩) ∧
    decode 0b1_101100_10011_10101_00000_00000_00110 = .ok (.qget ⟨true, 19, 21, 0, 0⟩) ∧
    decode 0b1_101100_10011_00000_10110_10111_00111 = .ok (.cwait ⟨true, 19, 0, 22, 23⟩) ∧
    decode 0b1_101100_10011_10101_10110_10111_01000 = .ok (.ccwait ⟨true, 19, 21, 22, 23⟩) ∧
    decode 0b1_101100_10011_00000_10110_10111_01001 = .ok (.cctl ⟨true, 19, 0, 22, 23⟩) ∧
    decode 0b1_101100_10011_10101_10110_10111_01010 = .ok (.wtarm ⟨true, 19, 21, 22, 23⟩) ∧
    decode 0b1_101100_10011_10101_10110_10111_01011 = .ok (.wlpush ⟨true, 19, 21, 22, 23⟩) ∧
    decode 0b1_101100_10011_10101_10110_00000_01100 = .ok (.mwait ⟨true, 19, 21, 22, 0⟩) ∧
    decode 0b1_101100_10011_10101_10110_10111_01101 = .ok (.tqset ⟨true, 19, 21, 22, 23⟩) ∧
    decode 0b1_101100_10011_10101_10110_10111_01110 = .ok (.ftile ⟨true, 19, 21, 22, 23⟩) ∧
    decode 0b1_101100_10011_00000_10110_00000_01111 = .ok (.tqfree ⟨true, 19, 0, 22, 0⟩) :=
  by and_intros <;> rfl

/-- R301, R302: major opcode 0x2D. -/
theorem test_decode_major_2d :
    decode 0b1_101101_10011_00101_10110_00000_00000 = .ok (.sbind ⟨true, 19, 5, 22, 0⟩) ∧
    decode 0b1_101101_10011_00101_00000_00000_00001 = .ok (.sunbind ⟨true, 19, 5, 0, 0⟩) ∧
    decode 0b1_101101_10011_00101_00000_00000_00010 = .ok (.swait ⟨true, 19, 5, 0, 0⟩) ∧
    decode 0b1_101101_10011_10101_00110_00000_00011 = .ok (.sget ⟨true, 19, 21, 6, 0⟩) ∧
    decode 0b1_101101_10011_00101_10110_00000_00100 = .ok (.sput ⟨true, 19, 5, 22, 0⟩) ∧
    decode 0b1_101101_10011_10101_00110_00000_00101 = .ok (.vsget ⟨true, 19, 21, 6, 0⟩) ∧
    decode 0b1_101101_10011_00101_10110_00000_00110 = .ok (.vsput ⟨true, 19, 5, 22, 0⟩) ∧
    decode 0b1_101101_10011_10101_10110_10111_00111 = .ok (.hxfer ⟨true, 19, 21, 22, 23⟩) :=
  by and_intros <;> rfl

/-- R313, R314: major opcode 0x30. -/
theorem test_decode_major_30 :
    decode 0b1_110000_10101_10110_10111_110_010_0000 = .ok (.vadd ⟨true, 21, 22, 23, 6, 2⟩) ∧
    decode 0b1_110000_10101_10110_10111_110_010_0001 = .ok (.vsub ⟨true, 21, 22, 23, 6, 2⟩) ∧
    decode 0b1_110000_10101_10110_10111_110_010_0010 = .ok (.vmul ⟨true, 21, 22, 23, 6, 2⟩) ∧
    decode 0b1_110000_10101_10110_10111_110_010_0011 = .ok (.vmulh ⟨true, 21, 22, 23, 6, 2⟩) ∧
    decode 0b1_110000_10101_10110_10111_110_010_0100 = .ok (.vmin ⟨true, 21, 22, 23, 6, 2⟩) ∧
    decode 0b1_110000_10101_10110_10111_110_010_0101 = .ok (.vmax ⟨true, 21, 22, 23, 6, 2⟩) ∧
    decode 0b1_110000_10101_10110_10111_110_010_0110 = .ok (.vand ⟨true, 21, 22, 23, 6, 2⟩) ∧
    decode 0b1_110000_10101_10110_10111_110_010_0111 = .ok (.vor ⟨true, 21, 22, 23, 6, 2⟩) ∧
    decode 0b1_110000_10101_10110_10111_110_010_1000 = .ok (.vxor ⟨true, 21, 22, 23, 6, 2⟩) ∧
    decode 0b1_110000_10101_10110_10111_110_010_1001 = .ok (.vsll ⟨true, 21, 22, 23, 6, 2⟩) ∧
    decode 0b1_110000_10101_10110_10111_110_010_1010 = .ok (.vsrl ⟨true, 21, 22, 23, 6, 2⟩) ∧
    decode 0b1_110000_10101_10110_10111_110_010_1011 = .ok (.vsra ⟨true, 21, 22, 23, 6, 2⟩) ∧
    decode 0b1_110000_10101_10110_10111_110_010_1100 = .ok (.vadds ⟨true, 21, 22, 23, 6, 2⟩) ∧
    decode 0b1_110000_10101_10110_10111_110_010_1101 = .ok (.vsubs ⟨true, 21, 22, 23, 6, 2⟩) ∧
    decode 0b1_110000_10101_10110_00000_110_010_1110 = .ok (.vabs ⟨true, 21, 22, 0, 6, 2⟩) ∧
    decode 0b1_110000_10101_10110_10111_110_001_1111 = .ok (.vdot ⟨true, 21, 22, 23, 6, 1⟩) :=
  by and_intros <;> rfl

/-- R315: major opcode 0x31. -/
theorem test_decode_major_31 :
    decode 0b1_110001_10101_10110_10111_110_010_0000 = .ok (.vfadd ⟨true, 21, 22, 23, 6, 2⟩) ∧
    decode 0b1_110001_10101_10110_10111_110_010_0001 = .ok (.vfsub ⟨true, 21, 22, 23, 6, 2⟩) ∧
    decode 0b1_110001_10101_10110_10111_110_010_0010 = .ok (.vfmul ⟨true, 21, 22, 23, 6, 2⟩) ∧
    decode 0b1_110001_10101_10110_10111_110_010_0011 = .ok (.vfdiv ⟨true, 21, 22, 23, 6, 2⟩) ∧
    decode 0b1_110001_10101_10110_00000_110_010_0100 = .ok (.vfsqrt ⟨true, 21, 22, 0, 6, 2⟩) ∧
    decode 0b1_110001_10101_10110_10111_110_010_0101 = .ok (.vfmin ⟨true, 21, 22, 23, 6, 2⟩) ∧
    decode 0b1_110001_10101_10110_10111_110_010_0110 = .ok (.vfmax ⟨true, 21, 22, 23, 6, 2⟩) ∧
    decode 0b1_110001_10101_10110_10111_110_010_0111 = .ok (.vfma ⟨true, 21, 22, 23, 6, 2⟩) ∧
    decode 0b1_110001_10101_10110_10111_110_010_1000 = .ok (.vfnma ⟨true, 21, 22, 23, 6, 2⟩) ∧
    decode 0b1_110001_10101_10110_00000_110_010_1001 = .ok (.vfabs ⟨true, 21, 22, 0, 6, 2⟩) ∧
    decode 0b1_110001_10101_10110_00000_110_010_1010 = .ok (.vfneg ⟨true, 21, 22, 0, 6, 2⟩) :=
  by and_intros <;> rfl

/-- R316: major opcode 0x32. -/
theorem test_decode_major_32 :
    decode 0b1_110010_10101_10110_00000_110_010_0000 = .ok (.vexp ⟨true, 21, 22, 0, 6, 2⟩) ∧
    decode 0b1_110010_10101_10110_00000_110_010_0001 = .ok (.vexp2 ⟨true, 21, 22, 0, 6, 2⟩) ∧
    decode 0b1_110010_10101_10110_00000_110_010_0010 = .ok (.vlog ⟨true, 21, 22, 0, 6, 2⟩) ∧
    decode 0b1_110010_10101_10110_00000_110_010_0011 = .ok (.vlog2 ⟨true, 21, 22, 0, 6, 2⟩) ∧
    decode 0b1_110010_10101_10110_00000_110_010_0100 = .ok (.vrcp ⟨true, 21, 22, 0, 6, 2⟩) ∧
    decode 0b1_110010_10101_10110_00000_110_010_0101 = .ok (.vrsqrt ⟨true, 21, 22, 0, 6, 2⟩) ∧
    decode 0b1_110010_10101_10110_00000_110_010_0110 = .ok (.vsin ⟨true, 21, 22, 0, 6, 2⟩) ∧
    decode 0b1_110010_10101_10110_00000_110_010_0111 = .ok (.vcos ⟨true, 21, 22, 0, 6, 2⟩) ∧
    decode 0b1_110010_10101_10110_00000_110_010_1000 = .ok (.vtanh ⟨true, 21, 22, 0, 6, 2⟩) ∧
    decode 0b1_110010_10101_10110_00000_110_010_1001 = .ok (.vsigm ⟨true, 21, 22, 0, 6, 2⟩) :=
  by and_intros <;> rfl

/-- R317: major opcode 0x33. -/
theorem test_decode_major_33 :
    decode 0b1_110011_00101_10110_10111_110_010_0000 = .ok (.vcmpEq ⟨true, 5, 22, 23, 6, 2⟩) ∧
    decode 0b1_110011_00101_10110_10111_110_010_0001 = .ok (.vcmpNe ⟨true, 5, 22, 23, 6, 2⟩) ∧
    decode 0b1_110011_00101_10110_10111_110_010_0010 = .ok (.vcmpLt ⟨true, 5, 22, 23, 6, 2⟩) ∧
    decode 0b1_110011_00101_10110_10111_110_010_0011 = .ok (.vcmpLe ⟨true, 5, 22, 23, 6, 2⟩) ∧
    decode 0b1_110011_00101_10110_10111_110_010_0100 = .ok (.vcmpGt ⟨true, 5, 22, 23, 6, 2⟩) ∧
    decode 0b1_110011_00101_10110_10111_110_010_0101 = .ok (.vcmpGe ⟨true, 5, 22, 23, 6, 2⟩) ∧
    decode 0b1_110011_00101_10110_10111_110_010_0110 = .ok (.vwhile ⟨true, 5, 22, 23, 6, 2⟩) ∧
    decode 0b1_110011_00101_10110_10111_110_010_1000 = .ok (.vfcmpEq ⟨true, 5, 22, 23, 6, 2⟩) ∧
    decode 0b1_110011_00101_10110_10111_110_010_1001 = .ok (.vfcmpNe ⟨true, 5, 22, 23, 6, 2⟩) ∧
    decode 0b1_110011_00101_10110_10111_110_010_1010 = .ok (.vfcmpLt ⟨true, 5, 22, 23, 6, 2⟩) ∧
    decode 0b1_110011_00101_10110_10111_110_010_1011 = .ok (.vfcmpLe ⟨true, 5, 22, 23, 6, 2⟩) ∧
    decode 0b1_110011_00101_10110_10111_110_010_1100 = .ok (.vfcmpGt ⟨true, 5, 22, 23, 6, 2⟩) ∧
    decode 0b1_110011_00101_10110_10111_110_010_1101 = .ok (.vfcmpGe ⟨true, 5, 22, 23, 6, 2⟩) ∧
    decode 0b1_110011_00101_10110_10111_110_010_1110 = .ok (.vfcmpUn ⟨true, 5, 22, 23, 6, 2⟩) :=
  by and_intros <;> rfl

/-- R318: major opcode 0x34. -/
theorem test_decode_major_34 :
    decode 0b1_110100_00101_00110_00111_000_000_0000 = .ok (.pand ⟨true, 5, 6, 7, 0, 0⟩) ∧
    decode 0b1_110100_00101_00110_00111_000_000_0001 = .ok (.por ⟨true, 5, 6, 7, 0, 0⟩) ∧
    decode 0b1_110100_00101_00110_00111_000_000_0010 = .ok (.pxor ⟨true, 5, 6, 7, 0, 0⟩) ∧
    decode 0b1_110100_00101_00110_00111_000_000_0011 = .ok (.pandn ⟨true, 5, 6, 7, 0, 0⟩) ∧
    decode 0b1_110100_00101_00110_00000_000_000_0100 = .ok (.pnot ⟨true, 5, 6, 0, 0, 0⟩) ∧
    decode 0b1_110100_00101_00000_00000_000_000_0101 = .ok (.pall ⟨true, 5, 0, 0, 0, 0⟩) ∧
    decode 0b1_110100_10101_00110_00000_000_000_0110 = .ok (.pcnt ⟨true, 21, 6, 0, 0, 0⟩) ∧
    decode 0b1_110100_00101_00110_00000_000_000_0111 = .ok (.pfirst ⟨true, 5, 6, 0, 0, 0⟩) :=
  by and_intros <;> rfl

/-- R319: major opcode 0x35. -/
theorem test_decode_major_35 :
    decode 0b1_110101_10101_10110_10111_110_000_0000 = .ok (.vperm ⟨true, 21, 22, 23, 6, 0⟩) ∧
    decode 0b1_110101_10101_00000_10111_110_010_0001 = .ok (.vbcast ⟨true, 21, 0, 23, 6, 2⟩) ∧
    decode 0b1_110101_10101_10110_10111_110_000_0010 = .ok (.vslu ⟨true, 21, 22, 23, 6, 0⟩) ∧
    decode 0b1_110101_10101_10110_10111_110_000_0011 = .ok (.vsld ⟨true, 21, 22, 23, 6, 0⟩) ∧
    decode 0b1_110101_10101_10110_10111_110_000_0100 = .ok (.vzip ⟨true, 21, 22, 23, 6, 0⟩) ∧
    decode 0b1_110101_10101_10110_10111_110_000_0101 = .ok (.vunzip ⟨true, 21, 22, 23, 6, 0⟩) ∧
    decode 0b1_110101_10101_10110_10111_000_010_0110 = .ok (.vmvx ⟨true, 21, 22, 23, 0, 2⟩) ∧
    decode 0b1_110101_10101_10110_10111_000_010_0111 = .ok (.vmvv ⟨true, 21, 22, 23, 0, 2⟩) ∧
    decode 0b1_110101_10101_10110_10111_110_000_1000 = .ok (.vsel ⟨true, 21, 22, 23, 6, 0⟩) ∧
    decode 0b1_110101_10101_10110_00000_110_000_1001 = .ok (.vcmpr ⟨true, 21, 22, 0, 6, 0⟩) ∧
    decode 0b1_110101_10101_10110_00000_110_000_1010 = .ok (.vmov ⟨true, 21, 22, 0, 6, 0⟩) ∧
    decode 0b1_110101_10101_00000_00000_000_000_1011 = .ok (.vlen ⟨true, 21, 0, 0, 0, 0⟩) :=
  by and_intros <;> rfl

/-- R320: major opcode 0x36. -/
theorem test_decode_major_36 :
    decode 0b1_110110_10101_10110_00000_110_010_0000 = .ok (.vredadd ⟨true, 21, 22, 0, 6, 2⟩) ∧
    decode 0b1_110110_10101_10110_00000_110_010_0001 = .ok (.vredmin ⟨true, 21, 22, 0, 6, 2⟩) ∧
    decode 0b1_110110_10101_10110_00000_110_010_0010 = .ok (.vredmax ⟨true, 21, 22, 0, 6, 2⟩) ∧
    decode 0b1_110110_10101_10110_00000_110_010_0011 = .ok (.vredand ⟨true, 21, 22, 0, 6, 2⟩) ∧
    decode 0b1_110110_10101_10110_00000_110_010_0100 = .ok (.vredor ⟨true, 21, 22, 0, 6, 2⟩) ∧
    decode 0b1_110110_10101_10110_00000_110_010_0101 = .ok (.vredxor ⟨true, 21, 22, 0, 6, 2⟩) ∧
    decode 0b1_110110_10101_10110_00000_110_010_1000 = .ok (.vfredadd ⟨true, 21, 22, 0, 6, 2⟩) ∧
    decode 0b1_110110_10101_10110_00000_110_010_1001 = .ok (.vfredmin ⟨true, 21, 22, 0, 6, 2⟩) ∧
    decode 0b1_110110_10101_10110_00000_110_010_1010 = .ok (.vfredmax ⟨true, 21, 22, 0, 6, 2⟩) :=
  by and_intros <;> rfl

/-- R321: major opcode 0x37. -/
theorem test_decode_major_37 :
    decode 0b1_110111_10101_10110_00111_110_000_0110 = .ok (.vcvt ⟨true, 21, 22, 7, 6, 0, 6⟩) :=
  rfl

/-- R371, R372, R373, R374, R375, R376: major opcode 0x39. -/
theorem test_decode_major_39 :
    decode 0b1_111001_10011_10101_10110_10111_00000 = .ok (.gmadd ⟨true, 19, 21, 22, 23⟩) ∧
    decode 0b1_111001_10011_10101_10110_10111_00001 = .ok (.gsch ⟨true, 19, 21, 22, 23⟩) ∧
    decode 0b1_111001_10011_10101_10110_00000_00010 = .ok (.gdmp ⟨true, 19, 21, 22, 0⟩) ∧
    decode 0b1_111001_10011_00000_10110_10111_00011 = .ok (.gmsend ⟨true, 19, 0, 22, 23⟩) ∧
    decode 0b1_111001_10011_10101_10110_00000_00100 = .ok (.gmld ⟨true, 19, 21, 22, 0⟩) ∧
    decode 0b1_111001_10011_10101_10110_10111_00101 = .ok (.gres ⟨true, 19, 21, 22, 23⟩) ∧
    decode 0b1_111001_10011_10101_10110_00000_00110 = .ok (.gpiv ⟨true, 19, 21, 22, 0⟩) ∧
    decode 0b1_111001_10011_00000_10110_10111_00111 = .ok (.gmclr ⟨true, 19, 0, 22, 23⟩) :=
  by and_intros <;> rfl

/-- R331, R332, R346, R347, R348, R349, R350, R352, R353: major opcode 0x3A. -/
theorem test_decode_major_3a :
    decode 0b1_111010_10011_10101_10110_10111_00000 = .ok (.mxc ⟨true, 19, 21, 22, 23⟩) ∧
    decode 0b1_111010_10011_00010_00000_00000_00001 = .ok (.mxz ⟨true, 19, 2, 0, 0⟩) ∧
    decode 0b1_111010_10011_00010_10110_10111_00010 = .ok (.mxld ⟨true, 19, 2, 22, 23⟩) ∧
    decode 0b1_111010_10011_00010_10110_10111_00011 = .ok (.mxst ⟨true, 19, 2, 22, 23⟩) ∧
    decode 0b1_111010_10011_10101_00011_10111_00100 = .ok (.mxmv ⟨true, 19, 21, 3, 23⟩) ∧
    decode 0b1_111010_10011_00000_10110_00000_00101 = .ok (.mxwl ⟨true, 19, 0, 22, 0⟩) ∧
    decode 0b1_111010_10011_10101_10110_00000_00110 = .ok (.mxls ⟨true, 19, 21, 22, 0⟩) ∧
    decode 0b1_111010_10011_00000_10110_00000_00111 = .ok (.mxlr ⟨true, 19, 0, 22, 0⟩) ∧
    decode 0b1_111010_10011_10101_10110_00000_01000 = .ok (.mxstat ⟨true, 19, 21, 22, 0⟩) ∧
    decode 0b1_111010_10011_10101_10110_10111_01001 = .ok (.qnt ⟨true, 19, 21, 22, 23⟩) ∧
    decode 0b1_111010_10011_00000_00000_00000_01010 = .ok (.xaz ⟨true, 19, 0, 0, 0⟩) ∧
    decode 0b1_111010_10011_00001_10110_10111_01011 = .ok (.xafm ⟨true, 19, 1, 22, 23⟩) ∧
    decode 0b1_111010_10011_00001_10110_00000_01100 = .ok (.xaadd ⟨true, 19, 1, 22, 0⟩) ∧
    decode 0b1_111010_10011_10101_00000_00000_01101 = .ok (.xarnd ⟨true, 19, 21, 0, 0⟩) ∧
    decode 0b1_111010_10011_01101_00000_00001_01110 = .ok (.xasgn ⟨true, 19, 13, 0, 1⟩) :=
  by and_intros <;> rfl

/-- R145, R146, R147, R149, R357, R358, R361, R364: major opcode 0x3B. -/
theorem test_decode_major_3b :
    decode 0b1_111011_10011_10101_10110_10111_00000 = .ok (.sqslot ⟨true, 19, 21, 22, 23⟩) ∧
    decode 0b1_111011_10011_10101_10110_10111_00001 = .ok (.sqrot ⟨true, 19, 21, 22, 23⟩) ∧
    decode 0b1_111011_10011_10101_10110_10111_00010 = .ok (.atts ⟨true, 19, 21, 22, 23⟩) ∧
    decode 0b1_111011_10011_10101_10110_10111_00011 = .ok (.sqsamp ⟨true, 19, 21, 22, 23⟩) ∧
    decode 0b1_111011_10011_10101_10110_10111_00100 = .ok (.sqplay ⟨true, 19, 21, 22, 23⟩) ∧
    decode 0b1_111011_10011_10101_10110_10111_00101 = .ok (.sqtrunc ⟨true, 19, 21, 22, 23⟩) ∧
    decode 0b1_111011_10011_10101_10110_10111_00110 = .ok (.sqframe ⟨true, 19, 21, 22, 23⟩) ∧
    decode 0b1_111011_10011_10101_10110_10111_00111 = .ok (.sqcur ⟨true, 19, 21, 22, 23⟩) :=
  by and_intros <;> rfl

/-- R223: major opcode 0x3C. -/
theorem test_decode_major_3c :
    decode 0b0_111100_000_10110_11010010111000011 = .ok (.hnop ⟨22, 107971⟩) ∧
    decode 0b0_111100_001_10110_11010010111000011 = .ok (.pfl1 ⟨22, 107971⟩) ∧
    decode 0b0_111100_010_10110_11010010111000011 = .ok (.pfsl ⟨22, 107971⟩) ∧
    decode 0b0_111100_011_10110_11010010111000011 = .ok (.pfi ⟨22, 107971⟩) :=
  ⟨rfl, rfl, rfl, rfl⟩

/-- R222: major opcode 0x3D. -/
theorem test_decode_major_3d :
    decode 0b0_111101_10011_011_1_01_1_0000000000000 = .ok (.hmod ⟨19, 3, true, 1, true⟩) :=
  rfl

/-- R221: major opcode 0x3E. -/
theorem test_decode_major_3e :
    decode 0b0_111110_1101001011100001111010111 = .ok (.himm ⟨27640791⟩) :=
  rfl

/-- R224: major opcode 0x3F. -/
theorem test_decode_major_3f :
    decode 0b0_111111_101101_1_0_1_01_00000000000000 = .ok (.rep ⟨45, true, false, true, 1⟩) :=
  rfl

/-! ## Refusals -/

/-- One ill-formed term for each check that answers reservedField. -/
theorem test_refuses_reservedField :
    (Instr.clz ⟨true, 19, 21, 22, 1⟩).illFormed = some .reservedField ∧
    (Instr.lea ⟨true, 19, 21, 1, 723⟩).illFormed = some .reservedField ∧
    (Instr.mfcw ⟨true, 19, 21, 1, 0⟩).illFormed = some .reservedField ∧
    (Instr.mfcw ⟨true, 19, 21, 0, 1⟩).illFormed = some .reservedField ∧
    (Instr.mtcw ⟨true, 19, 1, 22, 0⟩).illFormed = some .reservedField ∧
    (Instr.mtcw ⟨true, 19, 0, 22, 1⟩).illFormed = some .reservedField ∧
    (Instr.fsqrt ⟨true, 19, 21, 22, 1, 2⟩).illFormed = some .reservedField ∧
    (Instr.migrA ⟨true, 19, 1, 22, 1⟩).illFormed = some .reservedField ∧
    (Instr.migrA ⟨true, 19, 2, 22, 0⟩).illFormed = some .reservedField ∧
    (Instr.migrH ⟨true, 19, 2, 14, 23⟩).illFormed = some .reservedField ∧
    (Instr.tcom ⟨true, 19, 1, 0, 0⟩).illFormed = some .reservedField ∧
    (Instr.tcom ⟨true, 19, 0, 1, 0⟩).illFormed = some .reservedField ∧
    (Instr.tcom ⟨true, 19, 0, 0, 1⟩).illFormed = some .reservedField ∧
    (Instr.mtcr ⟨true, 19, 1, 22, 723⟩).illFormed = some .reservedField ∧
    (Instr.icinv ⟨true, 19, 1, 22, 4⟩).illFormed = some .reservedField ∧
    (Instr.cancel ⟨true, 19, 1, 22, 1⟩).illFormed = some .reservedField ∧
    (Instr.vld ⟨true, 21, 22, 1, 6, 2, true, 0⟩).illFormed = some .reservedField ∧
    (Instr.aadd ⟨true, 1, 22, 23, 2, 1, 5, true⟩).illFormed = some .reservedField ∧
    (Instr.trel ⟨true, 2, 9, 1, 0, 25⟩).illFormed = some .reservedField ∧
    (Instr.trel ⟨true, 2, 9, 0, 1, 25⟩).illFormed = some .reservedField ∧
    (Instr.tqry ⟨true, 2, 9, 22, 1, 25⟩).illFormed = some .reservedField ∧
    (Instr.fence ⟨true, 19, 1, 0, 4⟩).illFormed = some .reservedField ∧
    (Instr.fence ⟨true, 19, 0, 1, 4⟩).illFormed = some .reservedField ∧
    (Instr.wpc ⟨true, 19, 1, 0, 7⟩).illFormed = some .reservedField ∧
    (Instr.wpc ⟨true, 19, 0, 1, 7⟩).illFormed = some .reservedField ∧
    (Instr.wpc ⟨true, 19, 0, 0, 8⟩).illFormed = some .reservedField ∧
    (Instr.barWait ⟨true, 19, 1, 22, 15⟩).illFormed = some .reservedField ∧
    (Instr.msend ⟨true, 19, 1, 22, 23⟩).illFormed = some .reservedField ∧
    (Instr.sbind ⟨true, 19, 5, 22, 1⟩).illFormed = some .reservedField ∧
    (Instr.sunbind ⟨true, 19, 5, 1, 0⟩).illFormed = some .reservedField ∧
    (Instr.sunbind ⟨true, 19, 5, 0, 1⟩).illFormed = some .reservedField ∧
    (Instr.sget ⟨true, 19, 21, 6, 1⟩).illFormed = some .reservedField ∧
    (Instr.vabs ⟨true, 21, 22, 1, 6, 2⟩).illFormed = some .reservedField ∧
    (Instr.vfsqrt ⟨true, 21, 22, 1, 6, 2⟩).illFormed = some .reservedField ∧
    (Instr.vexp ⟨true, 21, 22, 1, 6, 2⟩).illFormed = some .reservedField ∧
    (Instr.pand ⟨true, 5, 6, 7, 1, 0⟩).illFormed = some .reservedField ∧
    (Instr.pand ⟨true, 5, 6, 7, 0, 1⟩).illFormed = some .reservedField ∧
    (Instr.pnot ⟨true, 5, 6, 1, 0, 0⟩).illFormed = some .reservedField ∧
    (Instr.pnot ⟨true, 5, 6, 0, 1, 0⟩).illFormed = some .reservedField ∧
    (Instr.pnot ⟨true, 5, 6, 0, 0, 1⟩).illFormed = some .reservedField ∧
    (Instr.pall ⟨true, 5, 1, 0, 0, 0⟩).illFormed = some .reservedField ∧
    (Instr.pall ⟨true, 5, 0, 1, 0, 0⟩).illFormed = some .reservedField ∧
    (Instr.pall ⟨true, 5, 0, 0, 1, 0⟩).illFormed = some .reservedField ∧
    (Instr.pall ⟨true, 5, 0, 0, 0, 1⟩).illFormed = some .reservedField ∧
    (Instr.pcnt ⟨true, 21, 6, 1, 0, 0⟩).illFormed = some .reservedField ∧
    (Instr.pcnt ⟨true, 21, 6, 0, 1, 0⟩).illFormed = some .reservedField ∧
    (Instr.pcnt ⟨true, 21, 6, 0, 0, 1⟩).illFormed = some .reservedField ∧
    (Instr.vperm ⟨true, 21, 22, 23, 6, 1⟩).illFormed = some .reservedField ∧
    (Instr.vbcast ⟨true, 21, 1, 23, 6, 2⟩).illFormed = some .reservedField ∧
    (Instr.vmvx ⟨true, 21, 22, 23, 1, 2⟩).illFormed = some .reservedField ∧
    (Instr.vcmpr ⟨true, 21, 22, 1, 6, 0⟩).illFormed = some .reservedField ∧
    (Instr.vcmpr ⟨true, 21, 22, 0, 6, 1⟩).illFormed = some .reservedField ∧
    (Instr.vlen ⟨true, 21, 1, 0, 0, 0⟩).illFormed = some .reservedField ∧
    (Instr.vlen ⟨true, 21, 0, 1, 0, 0⟩).illFormed = some .reservedField ∧
    (Instr.vlen ⟨true, 21, 0, 0, 1, 0⟩).illFormed = some .reservedField ∧
    (Instr.vlen ⟨true, 21, 0, 0, 0, 1⟩).illFormed = some .reservedField ∧
    (Instr.vcvt ⟨true, 21, 22, 16, 6, 0, 6⟩).illFormed = some .reservedField ∧
    (Instr.vcvt ⟨true, 21, 22, 7, 6, 1, 6⟩).illFormed = some .reservedField ∧
    (Instr.mxz ⟨true, 19, 2, 1, 0⟩).illFormed = some .reservedField ∧
    (Instr.mxz ⟨true, 19, 2, 0, 1⟩).illFormed = some .reservedField ∧
    (Instr.xafm ⟨true, 19, 2, 22, 23⟩).illFormed = some .reservedField ∧
    (Instr.xasgn ⟨true, 19, 13, 1, 1⟩).illFormed = some .reservedField :=
  by and_intros <;> rfl

/-- One ill-formed term for each check that answers registerFile. -/
theorem test_refuses_registerFile :
    (Instr.cmpEq ⟨true, 19, 16, 22, 23⟩).illFormed = some .registerFile ∧
    (Instr.cand ⟨true, 19, 16, 14, 15⟩).illFormed = some .registerFile ∧
    (Instr.cand ⟨true, 19, 13, 16, 15⟩).illFormed = some .registerFile ∧
    (Instr.cand ⟨true, 19, 13, 14, 16⟩).illFormed = some .registerFile ∧
    (Instr.fcmpEq ⟨true, 19, 16, 22, 23, 2⟩).illFormed = some .registerFile ∧
    (Instr.migrH ⟨true, 19, 1, 16, 23⟩).illFormed = some .registerFile ∧
    (Instr.barArr ⟨true, 19, 5, 22, 16⟩).illFormed = some .registerFile ∧
    (Instr.barWait ⟨true, 19, 0, 22, 16⟩).illFormed = some .registerFile ∧
    (Instr.sbind ⟨true, 19, 8, 22, 0⟩).illFormed = some .registerFile ∧
    (Instr.sunbind ⟨true, 19, 8, 0, 0⟩).illFormed = some .registerFile ∧
    (Instr.sget ⟨true, 19, 21, 8, 0⟩).illFormed = some .registerFile ∧
    (Instr.vcmpEq ⟨true, 8, 22, 23, 6, 2⟩).illFormed = some .registerFile ∧
    (Instr.vfcmpEq ⟨true, 8, 22, 23, 6, 2⟩).illFormed = some .registerFile ∧
    (Instr.pand ⟨true, 8, 6, 7, 0, 0⟩).illFormed = some .registerFile ∧
    (Instr.pand ⟨true, 5, 8, 7, 0, 0⟩).illFormed = some .registerFile ∧
    (Instr.pand ⟨true, 5, 6, 8, 0, 0⟩).illFormed = some .registerFile ∧
    (Instr.pnot ⟨true, 8, 6, 0, 0, 0⟩).illFormed = some .registerFile ∧
    (Instr.pnot ⟨true, 5, 8, 0, 0, 0⟩).illFormed = some .registerFile ∧
    (Instr.pall ⟨true, 8, 0, 0, 0, 0⟩).illFormed = some .registerFile ∧
    (Instr.pcnt ⟨true, 21, 8, 0, 0, 0⟩).illFormed = some .registerFile ∧
    (Instr.mxc ⟨true, 19, 29, 22, 23⟩).illFormed = some .registerFile ∧
    (Instr.mxc ⟨true, 19, 21, 31, 23⟩).illFormed = some .registerFile ∧
    (Instr.mxc ⟨true, 19, 21, 22, 31⟩).illFormed = some .registerFile ∧
    (Instr.mxz ⟨true, 19, 4, 0, 0⟩).illFormed = some .registerFile ∧
    (Instr.mxld ⟨true, 19, 4, 22, 23⟩).illFormed = some .registerFile ∧
    (Instr.mxmv ⟨true, 19, 21, 4, 23⟩).illFormed = some .registerFile ∧
    (Instr.qnt ⟨true, 19, 21, 22, 31⟩).illFormed = some .registerFile ∧
    (Instr.xasgn ⟨true, 19, 16, 0, 1⟩).illFormed = some .registerFile ∧
    (Instr.atts ⟨true, 19, 29, 22, 23⟩).illFormed = some .registerFile :=
  by and_intros <;> rfl

/-- One ill-formed term for each check that answers typeCode. -/
theorem test_refuses_typeCode :
    (Instr.fcvt ⟨true, 19, 21, 22, 7, 8⟩).illFormed = some .typeCode ∧
    (Instr.fcvt ⟨true, 19, 21, 22, 8, 2⟩).illFormed = some .typeCode ∧
    (Instr.fcvt ⟨true, 19, 21, 22, 1, 1⟩).illFormed = some .typeCode ∧
    (Instr.fcvt ⟨true, 19, 21, 22, 5, 4⟩).illFormed = some .typeCode ∧
    (Instr.vdot ⟨true, 21, 22, 23, 6, 2⟩).illFormed = some .typeCode ∧
    (Instr.vfadd ⟨true, 21, 22, 23, 6, 4⟩).illFormed = some .typeCode ∧
    (Instr.vfsqrt ⟨true, 21, 22, 0, 6, 4⟩).illFormed = some .typeCode ∧
    (Instr.vexp ⟨true, 21, 22, 0, 6, 0⟩).illFormed = some .typeCode ∧
    (Instr.vfcmpEq ⟨true, 5, 22, 23, 6, 4⟩).illFormed = some .typeCode ∧
    (Instr.vbcast ⟨true, 21, 0, 23, 6, 4⟩).illFormed = some .typeCode ∧
    (Instr.vmvx ⟨true, 21, 22, 23, 0, 4⟩).illFormed = some .typeCode ∧
    (Instr.vcvt ⟨true, 21, 22, 7, 6, 0, 15⟩).illFormed = some .typeCode ∧
    (Instr.vcvt ⟨true, 21, 22, 15, 6, 0, 6⟩).illFormed = some .typeCode ∧
    (Instr.vcvt ⟨true, 21, 22, 1, 6, 0, 1⟩).illFormed = some .typeCode :=
  by and_intros <;> rfl

/-- One ill-formed term for each check that answers loopLength. -/
theorem test_refuses_loopLength :
    (Instr.loop ⟨true, 19, 21, 22, 256⟩).illFormed = some .loopLength :=
  rfl

/-- One ill-formed term for each check that answers scope. -/
theorem test_refuses_scope :
    (Instr.icinv ⟨true, 19, 0, 22, 7⟩).illFormed = some .scope ∧
    (Instr.ldN8 ⟨true, 19, 21, 22, 2, 1, 56⟩).illFormed = some .scope ∧
    (Instr.aadd ⟨true, 0, 22, 23, 2, 1, 7, true⟩).illFormed = some .scope ∧
    (Instr.afadd ⟨true, 21, 22, 23, 2, 1, 7, true⟩).illFormed = some .scope ∧
    (Instr.fence ⟨true, 19, 0, 0, 7⟩).illFormed = some .scope ∧
    (Instr.barArr ⟨true, 19, 7, 22, 15⟩).illFormed = some .scope :=
  by and_intros <;> rfl

/-- One ill-formed term for each check that answers selector. -/
theorem test_refuses_selector :
    (Instr.cancel ⟨true, 19, 0, 22, 4⟩).illFormed = some .selector ∧
    (Instr.xasgn ⟨true, 19, 13, 0, 3⟩).illFormed = some .selector :=
  ⟨rfl, rfl⟩

/-- One ill-formed term for each check that answers rounding. -/
theorem test_refuses_rounding :
    (Instr.hmod ⟨19, 5, true, 1, true⟩).illFormed = some .rounding :=
  rfl

/-- R220, R227, R233: bit 31 of a modifier word, an unassigned major opcode and an unassigned function code. -/
theorem test_refuses_words :
    decode 0b1_111110_0000000000000000000000001 = .error .marker ∧ decode 0 = .error .unassignedMajor ∧
    decode 0b0_000001_00000_00001_00010_00011_11111 = .error .unassignedFunction :=
  ⟨rfl, rfl, rfl⟩

/-! ## Small states and operands -/

/-- The machine with a thread ready in slot 0 of core 0, in monitor mode. -/
def ready : State := State.reset.withFetchWord 32 0

/-- The same with the thread, or its context, changed. -/
def hand (f : Thread → Thread) (s : State := ready) : State := s.modThread 0 f
def ctx (f : Ctx → Ctx) (s : State := ready) : State := s.modCtx 0 f

/-- The thread with some x registers. -/
def xs (l : List (Nat × Word)) (s : State := ready) : State := hand (fun h => l.foldl (fun h e => h.setX e.1 e.2) h) s

def user (s : State := ready) : State := ctx (fun c => { c with mode := .user }) s
def supervisor (s : State := ready) : State := ctx (fun c => { c with mode := .supervisor }) s

/-- A thread with some values in its registers. -/
def rich : State := xs [(1, 0x4008000000000000), (2, 0xF0000000000000AB), (3, 0x0805), (4, 7), (5, 64), (6, 0x3FF8000040200000)]

def allPerms : Perms := ⟨true, true, true, true⟩

/-- The same with linear addresses 0 to 255 of job 0 homed on die 0, and held there. -/
def mapped (s : State := rich) : State :=
  let s := s.modCore 0 fun c => { c with jobCache := [(0, 1)], regionCache := [(0, 0x8000000000000000)] }
  let s := s.modSlice 0 fun x => { x with lines := [(lineKey 0 0, ⟨0x40000, allPerms, 0⟩)] }
  s.modSlice 1 fun x => { x with lines := [(lineKey 0 1, ⟨0x40080, allPerms, 0⟩)] }

/-- Bytes in the scratchpad of core 0, from an offset up. -/
def scratch (off : Nat) (bs : List Byte) (s : State := rich) : State :=
  s.modCore 0 fun c => { c with scratch := Memory.write c.scratch off bs }

/-- A pointer to an offset of the own scratchpad, and of the scratchpad of the next core. -/
def own (off : Nat) : Word := .ofNat 64 (2 ^ 60 + off)
def other (off : Nat) : Word := .ofNat 64 (2 * 2 ^ 60 + 2 ^ 57 + off)


def fenced (s : State) : State := s.modCore 0 fun c => { c with guardMap := [(0, 1)] }

def bar (b : Barrier) (s : State := rich) : State := s.setBarrier 0 1 b

def arr (k : Nat) (a : Arrival) (s : State) : State := s.modCore 0 fun c => { c with arrivals := tput c.arrivals k a }

def sdesc (drain : Nat) : BitVec 512 := .ofNat 512 (2 ^ 508 + 0x1000 * 2 ^ 448 + 4 * 2 ^ 416 + 8 * 2 ^ 288 + 3 * 2 ^ 156 + drain * 2 ^ 152 + 2 * 2 ^ 144)

def strm (x : Stream) (s : State := rich) : State := hand (fun h => { h with streams := [(1, x)] }) s

def seqDesc (v busy : Nat) (rot : Nat := 0) : Nat :=
  v + busy * 2 ^ 587 + rot * 2 ^ 600 + 2 ^ 616 + 2 ^ 624 + 2 ^ 632 + 4 * 2 ^ 672 + 2 ^ 688 + 5 * 2 ^ 760 + 2 * 2 ^ 848

def withDesc (d : Nat) (s : State) : State := { mapped s with hbm := Memory.write s.hbm 0x40000 (leBytes 128 d) }

def answered (s : State) : State := hand (fun h => { h with stage := .sent }) s

def mo (f : Module → Module) (s : State := rich) : State := s.modModu 0 f

def lk (k : Link → Link) (s : State := rich) : State := s.modLink 0 1 fun l => k { l with state := .up, partner := 1, peer := 2 }

def fl : Flight := ⟨0, 0, atModule 1, .trinvDone ⟨1⟩⟩

def ids0 : Ids := ⟨0, 0, 0, 0, 0⟩

/-- Job 0 runs, its table entries stand at the foot of memory, and its linear addresses 0 to 127 hold some records. -/
def jobbed (bs : List Byte := []) : State :=
  let s := (mapped rich).modModu 0 fun m => { m with xvtbase := 0x8000 }
  { s with hbm := Memory.write (Memory.write (Memory.write (Memory.write s.hbm 0 (leBytes 16 (1 + 4 * 2 ^ 74))) 0x1000 (leBytes 8 (2 ^ 63))) 0x8000 [1]) 0x40000 bs }

/-- Queue 0 with one entry. -/
def que (entry : Nat) (k : Queue → Queue := id) (s : State := jobbed) : State :=
  hostStore (s.modQueue 0 0 fun q => k { q with v := true, qbase := 0x1000, cbase := 0x2000, tail := 1 }) 0 0 0 0x1000 (leBytes 64 entry)

def node : LaunchRec := ⟨0, 0, 0, 0, 1, .user, 5, none, none⟩

def rec1 : Nat := 2 ^ 288 + 5 * 2 ^ 274

def headed (r : LaunchRec) : State := (que 1).modModu 0 fun m => { m with heads := [(0, ⟨ids0, 0, 7, r, false, 0, 1⟩)], comp := [(3, ⟨1, true⟩)] }

def row (n : Nat) : Launch := ⟨ids0, { node with count := 2 }, 0, 0, 0, 7, false, true, n, false, false⟩

def sl (f : Slice → Slice) (s : State := mapped rich) : State := s.modSlice 0 f

/-! ## Equations with a fault or a value, decided -/

def exIs {ε α : Type} [DecidableEq ε] [DecidableEq α] : Except ε α → Except ε α → Bool
  | .ok a, .ok b => decide (a = b)
  | .error a, .error b => decide (a = b)
  | _, _ => false

theorem exOf {ε α : Type} [DecidableEq ε] [DecidableEq α] {e f : Except ε α} (h : exIs e f = true) : e = f := by
  cases e <;> cases f <;> simp_all [exIs]

theorem pairOf {β ε α : Type} [DecidableEq ε] [DecidableEq α] [DecidableEq β] {p q : β × Except ε α}
    (h : (decide (p.1 = q.1) && exIs p.2 q.2) = true) : p = q := by
  obtain ⟨h1, h2⟩ := Bool.and_eq_true _ _ ▸ h
  exact Prod.ext (of_decide_eq_true h1) (exOf h2)

def optIs {ε α : Type} [DecidableEq ε] [DecidableEq α] : Option (Except ε α) → Option (Except ε α) → Bool
  | some e, some f => exIs e f
  | none, none => true
  | _, _ => false

theorem optOf {β ε α : Type} [DecidableEq ε] [DecidableEq α] [DecidableEq β] {p q : β × Option (Except ε α)}
    (h : (decide (p.1 = q.1) && optIs p.2 q.2) = true) : p = q := by
  obtain ⟨h1, h2⟩ := Bool.and_eq_true _ _ ▸ h
  refine Prod.ext (of_decide_eq_true h1) ?_
  match p.2, q.2, h2 with
  | none, none, _ => rfl
  | some _, some _, h => exact congrArg some (exOf h)

/-- No mode is denied a write of CLSUB, which has no bits of its own. -/
theorem clsub_not_denied (mode : Nat) (cur new : Word) : deniedWrite mode 0x045 cur new = false := by
  have h : mayWrite 2 0x045 = 0 := by decide +kernel
  have w : wouldBe 0x045 cur new = cur := by
    unfold wouldBe
    rw [h]
    change cur &&& ~~~0 ||| new &&& 0 &&& ~~~0 ||| cur &&& new &&& 0 = cur
    simp
    exact BitVec.and_allOnes
  have a : actsAt 0x045 = 0 := rfl
  simp [deniedWrite, w, a]

/-! ## States and operands that meet the hypotheses of the statements -/

/-- States and operands that meet the hypotheses of IntegerArithmetic. -/
theorem meets_IntegerArithmetic :
   (let o : OpR := ⟨false, 0, 1, 2, 3⟩
    let s : State := rich
    let t : Traits := { Traits.ofR o (fx o.d) (fx o.a) (fx o.b) with sets := true }
    let ts : Traits := { t with sat := true };
    performs s ts = true) ∧
   (let o : OpR := ⟨false, 0, 1, 2, 3⟩
    let s : State := rich
    let t : Traits := { Traits.ofR o (fx o.d) (fx o.a) (fx o.b) with sets := true };
    performs s t = true) :=
  ⟨by decide +kernel, by decide +kernel⟩

/-- States and operands that meet the hypotheses of IntegerForms. -/
theorem meets_IntegerForms :
   (let o : OpR := ⟨false, 0, 1, 2, 3⟩
    let s : State := rich
    let t := Traits.ofR o (fx o.d) (fx o.a) (fx o.b);
    performs s t = true) ∧
   (let o : OpR := ⟨false, 0, 1, 2, 3⟩
    let s : State := rich
    let t := Traits.ofR o (fx o.d) (fx o.a) fnone;
    performs s t = true) ∧
   (let a : Word := 8;
    a ≠ 0) ∧
   (let n : Nat := 0;
    n < 64) ∧
   (let o : OpI := ⟨false, 0, 1, 2, 5⟩
    let s : State := rich
    let t := Traits.ofI o (fx o.d) (fx o.a);
    performs s t = true) ∧
   (let o : OpI := ⟨false, 0, 1, 2, 5⟩
    let s : State := rich;
    performs s (Traits.ofI o (fx o.d) fnone) = true) ∧
   (let o : OpSh := ⟨false, 0, 1, 2, 5⟩
    let s : State := rich;
    performs s (Traits.ofSh o 0 (fx o.d) (fx o.a)) = true) ∧
   (let o : OpSh := ⟨false, 0, 1, 2, 5⟩
    let s : State := rich;
    performs s (Traits.ofSh o 1 (fx o.d) (fx o.a)) = true) ∧
   (let o : OpSh := ⟨false, 0, 1, 2, 5⟩
    let s : State := rich;
    performs s (Traits.ofSh o 2 (fx o.d) (fx o.a)) = true) ∧
   (let o : OpSh := ⟨false, 0, 1, 2, 5⟩
    let s : State := rich;
    performs s (Traits.ofSh o 3 (fx o.d) (fx o.a)) = true) :=
  by and_intros <;> decide +kernel

/-- States and operands that meet the hypotheses of BitFields. -/
theorem meets_BitFields :
   (let o : OpR := ⟨false, 0, 1, 2, 3⟩
    let s : State := rich
    let t := Traits.ofR o (fx o.d) (fx o.a) (fx o.b);
    performs s t = true) ∧
   (let n : Nat := 0;
    n < 64) :=
  ⟨by decide +kernel, by decide +kernel⟩

/-- States and operands that meet the hypotheses of ConditionBits. -/
theorem meets_ConditionBits :
   (let o : OpR := ⟨false, 0, 1, 2, 3⟩
    let s : State := rich
    let t := Traits.ofR o (fc o.d) (fx o.a) (fx o.b);
    performs s t = true) ∧
   (let o : OpR := ⟨false, 0, 1, 2, 3⟩
    let s : State := rich
    let tc := Traits.ofR o (fc o.d) (fc o.a) (fc o.b);
    performs s tc = true) ∧
   (let o : OpR := ⟨false, 0, 1, 2, 3⟩
    let s : State := rich;
    performs s (Traits.ofR o (fx o.d) fnone fnone) = true) ∧
   (let o : OpR := ⟨false, 0, 1, 2, 3⟩
    let s : State := rich;
    performs s (Traits.ofR o fnone (fx o.a) fnone) = true) :=
  ⟨by decide +kernel, by decide +kernel, by decide +kernel, by decide +kernel⟩

/-- States and operands that meet the hypotheses of FloatingPoint. -/
theorem meets_FloatingPoint :
   (let o : OpF := ⟨false, 0, 1, 6, 1, 0⟩
    let s : State := rich
    let t : Traits := Traits.ofF o (fx o.d) (fx o.a) (fx o.b)
    let tr : Traits := { t with rounds := true };
    performs s tr = true) ∧
   (let o : OpF := ⟨false, 0, 1, 6, 1, 0⟩
    let s : State := rich
    let t1 : Traits := Traits.ofF o (fx o.d) (fx o.a) fnone;
    performs s { t1 with rounds := true } = true) ∧
   (let o : OpF := ⟨false, 0, 1, 6, 1, 0⟩
    let s : State := rich
    let t : Traits := Traits.ofF o (fx o.d) (fx o.a) (fx o.b);
    performs s t = true) ∧
   (let o : OpF := ⟨false, 0, 1, 6, 1, 0⟩
    let s : State := rich
    let t1 : Traits := Traits.ofF o (fx o.d) (fx o.a) fnone;
    performs s t1 = true) ∧
   (let o : OpF := ⟨false, 0, 1, 6, 1, 0⟩
    let s : State := rich
    let t1 : Traits := Traits.ofF o (fx o.d) (fx o.a) fnone;
    performs s { t1 with sets := false } = true) ∧
   (let k : Nat := 1
    let a : Nat := 0x3F800000
    let b : Nat := 0x7FC00001
    let x := fpVal k a
    let y := fpVal k b
    let f : Nat → Nat → Nat → Nat → FRes := fpAdd;
    k < 4 ∧ (x.isNan = true ∨ y.isNan = true) ∧ f ∈ [fpAdd, fpSub, fpMul, fpDiv]) ∧
   (let k : Nat := 1
    let a : Nat := 0x7FC00001
    let x := fpVal k a
    let q : Bool := false;
    k < 4 ∧ x = .nan q) ∧
   (let k : Nat := 1
    let a : Nat := 0x3F800000
    let b : Nat := 0x7FC00001
    let c : Nat := 0
    let x := fpVal k a
    let y := fpVal k b
    let z := fpVal k c;
    k < 4 ∧ (x.isNan = true ∨ y.isNan = true ∨ z.isNan = true)) ∧
   (let k : Nat := 1
    let a : Nat := 0x7F800000
    let b : Nat := 0x7F800000
    let x := fpVal k a
    let y := fpVal k b
    let n : Bool := false;
    k < 4 ∧ x = .inf n ∧ y = .inf n) ∧
   (let k : Nat := 1
    let a : Nat := 0x7F800000
    let b : Nat := 0xFF800000
    let x := fpVal k a
    let y := fpVal k b
    let n : Bool := false;
    k < 4 ∧ x = .inf n ∧ y = .inf (!n)) ∧
   (let k : Nat := 1
    let a : Nat := 0x7F800000
    let b : Nat := 0
    let x := fpVal k a
    let y := fpVal k b
    let n : Bool := false;
    k < 4 ∧ x = .inf n ∧ ((∃ n e, y = .fin n 0 e))) ∧
   (let k : Nat := 1
    let a : Nat := 0x7F800000
    let b : Nat := 0x7F800000
    let x := fpVal k a
    let y := fpVal k b
    let n : Bool := false
    let n' : Bool := false;
    k < 4 ∧ x = .inf n ∧ y = .inf n') ∧
   (let k : Nat := 1
    let a : Nat := 0x7F800000
    let b : Nat := 0x3F800000
    let c : Nat := 0xFF800000
    let x := fpVal k a
    let y := fpVal k b
    let z := fpVal k c
    let n : Bool := false
    let n' : Bool := false
    let m : Nat := 0x800000
    let e : Int := -23;
    k < 4 ∧ x = .inf n ∧ y = .fin n' m e ∧ 0 < m ∧ z = .inf (n == n')) ∧
   (let k : Nat := 1
    let a : Nat := 0x7F800000
    let b : Nat := 0x3F800000
    let c : Nat := 0
    let x := fpVal k a
    let y := fpVal k b
    let z := fpVal k c
    let n : Bool := false
    let n' : Bool := false
    let m : Nat := 0x800000
    let e : Int := -23;
    k < 4 ∧ x = .inf n ∧ y = .fin n' m e ∧ 0 < m ∧ z.isNan = false ∧ z ≠ .inf (n == n')) ∧
   (let k : Nat := 1
    let a : Nat := 0xBF800000
    let x := fpVal k a
    let n : Bool := true
    let m : Nat := 0x800000
    let e : Int := -23;
    k < 4 ∧ x = .fin n m e ∧ 0 < m ∧ n = true) ∧
   (let k : Nat := 1
    let a : Nat := 0x3F800000
    let b : Nat := 0
    let x := fpVal k a
    let y := fpVal k b
    let n : Bool := false
    let m : Nat := 0x800000
    let e : Int := -23
    let n' : Bool := false
    let e' : Int := -149;
    k < 4 ∧ x = .fin n m e ∧ y = .fin n' 0 e' ∧ 0 < m) ∧
   (let k : Nat := 1
    let a : Nat := 0
    let b : Nat := 0
    let x := fpVal k a
    let y := fpVal k b
    let n : Bool := false
    let m : Nat := 0
    let e : Int := -149
    let n' : Bool := false
    let e' : Int := -149;
    k < 4 ∧ x = .fin n m e ∧ y = .fin n' 0 e' ∧ m = 0) ∧
   (let k : Nat := 1
    let mode : Nat := 1
    let a : Nat := 0x3F800000
    let b : Nat := 0x40000000
    let x := fpVal k a
    let y := fpVal k b
    let n : Bool := false
    let m : Nat := 0x800000
    let e : Int := -23
    let n' : Bool := false
    let m' : Nat := 0x800000
    let e' : Int := -22;
    k < 4 ∧ x = .fin n m e ∧ y = .fin n' m' e' ∧ (fpAdd k mode a b).2.getLsbD 0 = false) ∧
   (let k : Nat := 1
    let mode : Nat := 1
    let a : Nat := 0x3F800000
    let b : Nat := 0x40000000
    let x := fpVal k a
    let y := fpVal k b
    let n : Bool := false
    let m : Nat := 0x800000
    let e : Int := -23
    let n' : Bool := false
    let m' : Nat := 0x800000
    let e' : Int := -22;
    k < 4 ∧ x = .fin n m e ∧ y = .fin n' m' e' ∧ (fpSub k mode a b).2.getLsbD 0 = false) ∧
   (let k : Nat := 1
    let mode : Nat := 1
    let a : Nat := 0x3F800000
    let b : Nat := 0x40000000
    let x := fpVal k a
    let y := fpVal k b
    let n : Bool := false
    let m : Nat := 0x800000
    let e : Int := -23
    let n' : Bool := false
    let m' : Nat := 0x800000
    let e' : Int := -22;
    k < 4 ∧ x = .fin n m e ∧ y = .fin n' m' e' ∧ (fpMul k mode a b).2.getLsbD 0 = false) ∧
   (let k : Nat := 1
    let a : Nat := 0x7FC00001
    let b : Nat := 0x7FC00001
    let x := fpVal k a
    let y := fpVal k b;
    k < 4 ∧ x.isNan = true ∧ y.isNan = true) ∧
   (let k : Nat := 1
    let a : Nat := 0x7FC00001
    let b : Nat := 0x3F800000
    let x := fpVal k a
    let y := fpVal k b;
    k < 4 ∧ x.isNan = true ∧ y.isNan = false) ∧
   (let k : Nat := 1
    let a : Nat := 0x3F800000
    let b : Nat := 0x7FC00001
    let x := fpVal k a
    let y := fpVal k b;
    k < 4 ∧ x.isNan = false ∧ y.isNan = true) ∧
   (let k : Nat := 1
    let a : Nat := 0x3F800000
    let b : Nat := 0x7F800000
    let x := fpVal k a
    let y := fpVal k b;
    k < 4 ∧ x.isNan = false ∧ y.isNan = false ∧ fpOrder x y = some .lt) ∧
   (let k : Nat := 1
    let a : Nat := 0x3F800000
    let b : Nat := 0xFF800000
    let x := fpVal k a
    let y := fpVal k b;
    k < 4 ∧ x.isNan = false ∧ y.isNan = false ∧ fpOrder x y = some .gt) ∧
   (let k : Nat := 1
    let a : Nat := 0
    let b : Nat := 0x80000000
    let x := fpVal k a
    let y := fpVal k b;
    k < 4 ∧ x.isNan = false ∧ y.isNan = false ∧ fpOrder x y = some .eq ∧ x.sign ≠ y.sign) :=
  ⟨by decide +kernel,
   by decide +kernel,
   by decide +kernel,
   by decide +kernel,
   by decide +kernel,
   ⟨by decide +kernel, by decide +kernel, by simp⟩,
   by decide +kernel,
   by decide +kernel,
   by decide +kernel,
   by decide +kernel,
   ⟨by decide +kernel, by decide +kernel, ⟨false, -149, by decide +kernel⟩⟩,
   by decide +kernel,
   by decide +kernel,
   by decide +kernel,
   by decide +kernel,
   by decide +kernel,
   by decide +kernel,
   by decide +kernel,
   by decide +kernel,
   by decide +kernel,
   by decide +kernel,
   by decide +kernel,
   by decide +kernel,
   by decide +kernel,
   by decide +kernel,
   by decide +kernel⟩

/-- States and operands that meet the hypotheses of FloatingPointCompares. -/
theorem meets_FloatingPointCompares :
   (let o : OpF := ⟨false, 0, 1, 6, 1, 1⟩
    let s : State := rich
    let t : Traits := Traits.ofF o (fc o.d) (fx o.a) (fx o.b);
    performs s t = true) ∧
   (let o : OpC := ⟨false, 0, 1, 2, 0, 1⟩
    let s : State := rich
    let t : Traits := {
        m := o.m, guard := o.g, d := fx o.d, a := fx o.a, b := fk o.b, imm := none, immB := false
        rounds := convertRounds o.c.toNat o.b.toNat, sets := true, sat := false, pol := .ignored, rep := true, narrow := false
        more := ([], []) };
    performs s t = true) ∧
   (let k : Nat := 0;
    k < 4) ∧
   (let dst : Nat := 1
    let src : Nat := 2
    let rm : Nat := 1
    let b : Nat := 0x7E00
    let digits : Int × Flags := if src = 12 then resDec8 b else resDec12 b
    let whole : Int := if src < 12 then intVal (intType src).1 (intType src).2 b else digits.1
    let x : Fv := if src < 4 then fpVal src b else if src = 14 then e8Val (b % 256) else .fin (decide (whole < 0)) whole.natAbs 0
    let q : Bool := false;
    dst ≤ 14 ∧ src ≤ 14 ∧ dst ≠ src ∧ rm ≤ 4 ∧ dst < 4 ∧ x = .nan q) ∧
   (let dst : Nat := 1
    let src : Nat := 2
    let rm : Nat := 1
    let b : Nat := 0x7C00
    let digits : Int × Flags := if src = 12 then resDec8 b else resDec12 b
    let whole : Int := if src < 12 then intVal (intType src).1 (intType src).2 b else digits.1
    let x : Fv := if src < 4 then fpVal src b else if src = 14 then e8Val (b % 256) else .fin (decide (whole < 0)) whole.natAbs 0
    let n : Bool := false;
    dst ≤ 14 ∧ src ≤ 14 ∧ dst ≠ src ∧ rm ≤ 4 ∧ dst < 4 ∧ x = .inf n) ∧
   (let dst : Nat := 1
    let src : Nat := 2
    let rm : Nat := 1
    let b : Nat := 0x3C00
    let digits : Int × Flags := if src = 12 then resDec8 b else resDec12 b
    let whole : Int := if src < 12 then intVal (intType src).1 (intType src).2 b else digits.1
    let x : Fv := if src < 4 then fpVal src b else if src = 14 then e8Val (b % 256) else .fin (decide (whole < 0)) whole.natAbs 0
    let n : Bool := false
    let m : Nat := 1024
    let e : Int := -10;
    dst ≤ 14 ∧ src ≤ 14 ∧ dst ≠ src ∧ rm ≤ 4 ∧ dst < 4 ∧ x = .fin n m e) ∧
   (let dst : Nat := 1
    let src : Nat := 2
    let rm : Nat := 1
    let b : Nat := 0x3C00
    let digits : Int × Flags := if src = 12 then resDec8 b else resDec12 b
    let whole : Int := if src < 12 then intVal (intType src).1 (intType src).2 b else digits.1
    let x : Fv := if src < 4 then fpVal src b else if src = 14 then e8Val (b % 256) else .fin (decide (whole < 0)) whole.natAbs 0;
    dst ≤ 14 ∧ src ≤ 14 ∧ dst ≠ src ∧ rm ≤ 4 ∧ dst < 4 ∧ ((dst = 0 ∧ 1 ≤ src ∧ src < 4) ∨ (dst = 1 ∧ 2 ≤ src ∧ src < 4)) ∧ x.isNan = false) ∧
   (let dst : Nat := 5
    let src : Nat := 6
    let rm : Nat := 1
    let real := decide (src < 4) || src == 14;
    dst ≤ 14 ∧ src ≤ 14 ∧ dst ≠ src ∧ rm ≤ 4 ∧ 4 ≤ dst ∧ dst < 12 ∧ real = false) ∧
   (let dst : Nat := 5
    let src : Nat := 2
    let rm : Nat := 1
    let b : Nat := 0x7E00
    let real := decide (src < 4) || src == 14
    let digits : Int × Flags := if src = 12 then resDec8 b else resDec12 b
    let whole : Int := if src < 12 then intVal (intType src).1 (intType src).2 b else digits.1
    let x : Fv := if src < 4 then fpVal src b else if src = 14 then e8Val (b % 256) else .fin (decide (whole < 0)) whole.natAbs 0;
    dst ≤ 14 ∧ src ≤ 14 ∧ dst ≠ src ∧ rm ≤ 4 ∧ 4 ≤ dst ∧ dst < 12 ∧ real = true ∧ x.isNan = true) ∧
   (let dst : Nat := 5
    let src : Nat := 2
    let rm : Nat := 1
    let b : Nat := 0x7C00
    let real := decide (src < 4) || src == 14
    let digits : Int × Flags := if src = 12 then resDec8 b else resDec12 b
    let whole : Int := if src < 12 then intVal (intType src).1 (intType src).2 b else digits.1
    let x : Fv := if src < 4 then fpVal src b else if src = 14 then e8Val (b % 256) else .fin (decide (whole < 0)) whole.natAbs 0
    let n : Bool := false;
    dst ≤ 14 ∧ src ≤ 14 ∧ dst ≠ src ∧ rm ≤ 4 ∧ 4 ≤ dst ∧ dst < 12 ∧ real = true ∧ x = .inf n) ∧
   (let dst : Nat := 5
    let src : Nat := 2
    let rm : Nat := 1
    let b : Nat := 0x3C00
    let real := decide (src < 4) || src == 14
    let digits : Int × Flags := if src = 12 then resDec8 b else resDec12 b
    let whole : Int := if src < 12 then intVal (intType src).1 (intType src).2 b else digits.1
    let x : Fv := if src < 4 then fpVal src b else if src = 14 then e8Val (b % 256) else .fin (decide (whole < 0)) whole.natAbs 0
    let n : Bool := false
    let m : Nat := 1024
    let e : Int := -10;
    dst ≤ 14 ∧ src ≤ 14 ∧ dst ≠ src ∧ rm ≤ 4 ∧ 4 ≤ dst ∧ dst < 12 ∧ real = true ∧ x = .fin n m e) ∧
   (let dst : Nat := 12
    let src : Nat := 2
    let rm : Nat := 1
    let b : Nat := 0x7E00
    let digits : Int × Flags := if src = 12 then resDec8 b else resDec12 b
    let whole : Int := if src < 12 then intVal (intType src).1 (intType src).2 b else digits.1
    let x : Fv := if src < 4 then fpVal src b else if src = 14 then e8Val (b % 256) else .fin (decide (whole < 0)) whole.natAbs 0;
    dst ≤ 14 ∧ src ≤ 14 ∧ dst ≠ src ∧ rm ≤ 4 ∧ (dst = 12 ∨ dst = 13) ∧ x.isNan = true) ∧
   (let dst : Nat := 12
    let src : Nat := 2
    let rm : Nat := 1
    let b : Nat := 0x7C00
    let digits : Int × Flags := if src = 12 then resDec8 b else resDec12 b
    let whole : Int := if src < 12 then intVal (intType src).1 (intType src).2 b else digits.1
    let x : Fv := if src < 4 then fpVal src b else if src = 14 then e8Val (b % 256) else .fin (decide (whole < 0)) whole.natAbs 0
    let n : Bool := false;
    dst ≤ 14 ∧ src ≤ 14 ∧ dst ≠ src ∧ rm ≤ 4 ∧ (dst = 12 ∨ dst = 13) ∧ x = .inf n) ∧
   (let dst : Nat := 12
    let src : Nat := 2
    let rm : Nat := 1
    let b : Nat := 0x3C00
    let digits : Int × Flags := if src = 12 then resDec8 b else resDec12 b
    let whole : Int := if src < 12 then intVal (intType src).1 (intType src).2 b else digits.1
    let x : Fv := if src < 4 then fpVal src b else if src = 14 then e8Val (b % 256) else .fin (decide (whole < 0)) whole.natAbs 0
    let n : Bool := false
    let m : Nat := 1024
    let e : Int := -10;
    dst ≤ 14 ∧ src ≤ 14 ∧ dst ≠ src ∧ rm ≤ 4 ∧ (dst = 12 ∨ dst = 13) ∧ x = .fin n m e) ∧
   (let dst : Nat := 14
    let src : Nat := 2
    let rm : Nat := 1
    let b : Nat := 0x7E00
    let digits : Int × Flags := if src = 12 then resDec8 b else resDec12 b
    let whole : Int := if src < 12 then intVal (intType src).1 (intType src).2 b else digits.1
    let x : Fv := if src < 4 then fpVal src b else if src = 14 then e8Val (b % 256) else .fin (decide (whole < 0)) whole.natAbs 0
    let q : Bool := false;
    dst ≤ 14 ∧ src ≤ 14 ∧ dst ≠ src ∧ rm ≤ 4 ∧ dst = 14 ∧ x = .nan q) ∧
   (let dst : Nat := 14
    let src : Nat := 2
    let rm : Nat := 1
    let b : Nat := 0x7C00
    let digits : Int × Flags := if src = 12 then resDec8 b else resDec12 b
    let whole : Int := if src < 12 then intVal (intType src).1 (intType src).2 b else digits.1
    let x : Fv := if src < 4 then fpVal src b else if src = 14 then e8Val (b % 256) else .fin (decide (whole < 0)) whole.natAbs 0
    let n : Bool := false;
    dst ≤ 14 ∧ src ≤ 14 ∧ dst ≠ src ∧ rm ≤ 4 ∧ dst = 14 ∧ x = .inf n) ∧
   (let dst : Nat := 14
    let src : Nat := 2
    let rm : Nat := 1
    let b : Nat := 0
    let digits : Int × Flags := if src = 12 then resDec8 b else resDec12 b
    let whole : Int := if src < 12 then intVal (intType src).1 (intType src).2 b else digits.1
    let x : Fv := if src < 4 then fpVal src b else if src = 14 then e8Val (b % 256) else .fin (decide (whole < 0)) whole.natAbs 0
    let n : Bool := false
    let m : Nat := 0
    let e : Int := -24;
    dst ≤ 14 ∧ src ≤ 14 ∧ dst ≠ src ∧ rm ≤ 4 ∧ dst = 14 ∧ x = .fin n m e ∧ m = 0) ∧
   (let dst : Nat := 14
    let src : Nat := 2
    let rm : Nat := 1
    let b : Nat := 0x3C00
    let digits : Int × Flags := if src = 12 then resDec8 b else resDec12 b
    let whole : Int := if src < 12 then intVal (intType src).1 (intType src).2 b else digits.1
    let x : Fv := if src < 4 then fpVal src b else if src = 14 then e8Val (b % 256) else .fin (decide (whole < 0)) whole.natAbs 0
    let n : Bool := false
    let m : Nat := 1024
    let e : Int := -10
    let k : Int := 0;
    dst ≤ 14 ∧ src ≤ 14 ∧ dst ≠ src ∧ rm ≤ 4 ∧ dst = 14 ∧ x = .fin n m e ∧ 0 < m ∧ 2 ^ (k - e).toNat ≤ m * 2 ^ (e - k).toNat ∧ m * 2 ^ (e - k).toNat < 2 * 2 ^ (k - e).toNat) ∧
   (let v : Int := 5;
    -84 ≤ v ∧ v ≤ 83) ∧
   (let v : Int := 5;
    -1560 ≤ v ∧ v ≤ 1559) ∧
   (let b : Nat := 0;
    b < 256) ∧
   (let b : Nat := 0x3C00;
    b < 65536) :=
  by and_intros <;> decide +kernel

namespace BranchTargetsAndLinks

def shape (list : Nat) : List Byte := leBytes 64 (2 ^ 308 + 3 * 2 ^ 416 + list * 2 ^ 448)

def loopState (p : Word) (list : Nat) : State := scratch 0x40 (leBytes 4 9) (scratch 0 (shape list) (xs [(2, p), (1, 8)]))

/-- States and operands that meet the hypotheses of BranchTargetsAndLinks. -/
theorem meets_BranchTargetsAndLinks :
   (let o : OpB := ⟨false, 0, 4⟩
    let s : State := xs [(2, 2)]
    let t : Traits := Traits.ofB o
    let target := (issued s t).pc + 4 * (issued s t).imm;
    bits target 63 57 = 0 ∧ performs s t = true) ∧
   (let o : OpB := ⟨false, 0, 0xFFFFF⟩
    let s : State := xs [(2, 2)]
    let t : Traits := Traits.ofB o
    let target := (issued s t).pc + 4 * (issued s t).imm;
    bits target 63 57 ≠ 0 ∧ performs s t = true) ∧
   (let o : OpB := ⟨false, 0, 4⟩
    let s : State := xs [(2, 2)]
    let t : Traits := { Traits.ofB o with more := ([31], []) }
    let target := (issued s t).pc + 4 * (issued s t).imm;
    bits target 63 57 = 0 ∧ performs s t = true) ∧
   (let o : OpB := ⟨false, 0, 0xFFFFF⟩
    let s : State := xs [(2, 2)]
    let t : Traits := { Traits.ofB o with more := ([31], []) }
    let target := (issued s t).pc + 4 * (issued s t).imm;
    bits target 63 57 ≠ 0 ∧ performs s t = true) ∧
   (let o : OpI := ⟨false, 0, 1, 2, 5⟩
    let s : State := ready
    let t : Traits := { Traits.ofI o (fx o.d) (fx o.a) with rep := false }
    let target := s.hand.x (issued s t).a + 4 * (issued s t).imm;
    target ≠ 0 ∧ bits target 63 57 = 0 ∧ bits target 1 0 = 0 ∧ performs s t = true) ∧
   (let o : OpI := ⟨false, 0, 1, 2, 5⟩
    let s : State := loopState (own 4) 0
    let t : Traits := { Traits.ofI o (fx o.d) (fx o.a) with rep := false }
    let target := s.hand.x (issued s t).a + 4 * (issued s t).imm;
    bits target 63 57 ≠ 0 ∧ performs s t = true) ∧
   (let o : OpI := ⟨false, 0, 1, 2, 5⟩
    let s : State := xs [(2, 2)]
    let t : Traits := { Traits.ofI o (fx o.d) (fx o.a) with rep := false }
    let target := s.hand.x (issued s t).a + 4 * (issued s t).imm;
    bits target 63 57 = 0 ∧ bits target 1 0 ≠ 0 ∧ performs s t = true) ∧
   (let o : OpI := ⟨false, 0, 1, 0, 0⟩
    let s : State := xs [(2, 2)]
    let t : Traits := { Traits.ofI o (fx o.d) (fx o.a) with rep := false }
    let target := s.hand.x (issued s t).a + 4 * (issued s t).imm;
    target = 0 ∧ quiet s s.cur = true ∧ performs s t = true) ∧
   (let o : OpI := ⟨false, 0, 1, 2, 5⟩
    let s : State := xs [(2, 2)]
    let t : Traits := { Traits.ofI o (fx o.d) (fx o.a) with rep := false, narrow := true, pol := .taken, more := ([8, 9], []) }
    let i := issued s t
    let ptr := s.hand.x i.a;
    s.onWay (isDirectWrite s.cur) = false ∧ s.hand.stage = .start ∧ ptr.toNat % 64 ≠ 0 ∧ performs s t = true) ∧
   (let o : OpI := ⟨false, 0, 1, 2, 5⟩
    let s : State := scratch 38 [0x20] (loopState (own 0) 0)
    let v : State := (readBytes (begun s { Traits.ofI o (fx o.d) (fx o.a) with rep := false, more := ([8, 9], []) }) s.cur (s.hand.x 2) 64 .load false gkLoad 0).1
    let bs : List Byte := leBytes 64 (2 * 2 ^ 308 + 3 * 2 ^ 416)
    let t : Traits := { Traits.ofI o (fx o.d) (fx o.a) with rep := false, narrow := true, pol := .taken, more := ([8, 9], []) }
    let i := issued s t
    let ptr := s.hand.x i.a
    let fields := leNat bs;
    s.onWay (isDirectWrite s.cur) = false ∧ ptr.toNat % 64 = 0 ∧ s.hand.out = [] ∧ readBytes (begun s t) s.cur ptr 64 .load false gkLoad i.pc = (v, .ok bs) ∧ v.linkHeld = false ∧ (fields / 2 ^ 308 % 16 ≠ 1 ∨ fields % 2 ^ 308 ≠ 0) ∧ performs s t = true) ∧
   (let o : OpI := ⟨false, 0, 0, 2, 5⟩
    let s : State := loopState (own 0) 0
    let v : State := (readBytes (begun s { Traits.ofI o (fx o.d) (fx o.a) with rep := false, more := ([8, 9], []) }) s.cur (s.hand.x 2) 64 .load false gkLoad 0).1
    let bs : List Byte := leBytes 64 (leNat (shape 0))
    let t : Traits := { Traits.ofI o (fx o.d) (fx o.a) with rep := false, narrow := true, pol := .taken, more := ([8, 9], []) }
    let i := issued s t
    let ptr := s.hand.x i.a
    let fields := leNat bs;
    s.onWay (isDirectWrite s.cur) = false ∧ ptr.toNat % 64 = 0 ∧ s.hand.out = [] ∧ readBytes (begun s t) s.cur ptr 64 .load false gkLoad i.pc = (v, .ok bs) ∧ v.linkHeld = false ∧ fields / 2 ^ 308 % 16 = 1 ∧ fields % 2 ^ 308 = 0 ∧ i.d = 0 ∧ performs s t = true) ∧
   (let o : OpI := ⟨false, 0, 1, 2, 5⟩
    let s : State := loopState (own 0) 0
    let v : State := (readBytes (begun s { Traits.ofI o (fx o.d) (fx o.a) with rep := false, more := ([8, 9], []) }) s.cur (s.hand.x 2) 64 .load false gkLoad 0).1
    let bs : List Byte := leBytes 64 (leNat (shape 0))
    let t : Traits := { Traits.ofI o (fx o.d) (fx o.a) with rep := false, narrow := true, pol := .taken, more := ([8, 9], []) }
    let i := issued s t
    let ptr := s.hand.x i.a
    let fields := leNat bs;
    s.onWay (isDirectWrite s.cur) = false ∧ ptr.toNat % 64 = 0 ∧ s.hand.out = [] ∧ readBytes (begun s t) s.cur ptr 64 .load false gkLoad i.pc = (v, .ok bs) ∧ v.linkHeld = false ∧ fields / 2 ^ 308 % 16 = 1 ∧ fields % 2 ^ 308 = 0 ∧ i.d ≠ 0 ∧ fields / 2 ^ 448 = 0 ∧ performs s t = true) ∧
   (let o : OpI := ⟨false, 0, 1, 2, 5⟩
    let s : State := loopState (own 0) (2 ^ 60 + 0x20)
    let v : State := (readBytes (begun s { Traits.ofI o (fx o.d) (fx o.a) with rep := false, more := ([8, 9], []) }) s.cur (s.hand.x 2) 64 .load false gkLoad 0).1
    let bs : List Byte := shape (2 ^ 60 + 0x20)
    let t : Traits := { Traits.ofI o (fx o.d) (fx o.a) with rep := false, narrow := true, pol := .taken, more := ([8, 9], []) }
    let i := issued s t
    let ptr := s.hand.x i.a
    let fields := leNat bs
    let noted (ps : List Word) (w : State) : State := notePolicy i ps w
    let w : State := (readBytes v s.cur (own 0x40) 4 .load false gkLoad 0).1
    let ns : List Byte := leBytes 4 9;
    s.onWay (isDirectWrite s.cur) = false ∧ ptr.toNat % 64 = 0 ∧ s.hand.out = [] ∧ readBytes (begun s t) s.cur ptr 64 .load false gkLoad i.pc = (v, .ok bs) ∧ v.linkHeld = false ∧ fields / 2 ^ 308 % 16 = 1 ∧ fields % 2 ^ 308 = 0 ∧ i.d ≠ 0 ∧ fields / 2 ^ 448 ≠ 0 ∧ readBytes (noted [ptr, .ofNat 64 (fields / 2 ^ 448) + 4 * s.hand.x i.d] v) s.cur (.ofNat 64 (fields / 2 ^ 448) + 4 * s.hand.x i.d) 4 .load false gkLoad i.pc = (w, .ok ns) ∧ w.linkHeld = false ∧ performs s t = true) :=
  by
  and_intros <;> first | decide +kernel | exact pairOf (by decide +kernel)

end BranchTargetsAndLinks

/-- States and operands that meet the hypotheses of CallEntriesAndReturnsByMode. -/
theorem meets_CallEntriesAndReturnsByMode :
   (let o : OpR := ⟨false, 0, 1, 2, 3⟩
    let s : State := ctx (fun c => { c with epc := 0x40, mepc := 0x80, rpc := 0x20, x := [(1, 9)] }) (supervisor rich)
    let t := ctl o (fk o.d) (fk o.a) (fk o.b)
    let user := s.hand.ctx.mode = .user
    let back := if s.hand.ctx.mode = .monitor then s.hand.ctx.mepc else s.hand.ctx.epc
    let good (pc : Word) := bits pc 63 57 = 0 ∨ bit pc 63 = true;
    (¬user) ∧ good back ∧ performs s t = true) ∧
   (let o : OpR := ⟨false, 0, 1, 2, 3⟩
    let s : State := ctx (fun c => { c with mepc := 0x0200000000000000 }) rich
    let t := ctl o (fk o.d) (fk o.a) (fk o.b)
    let user := s.hand.ctx.mode = .user
    let back := if s.hand.ctx.mode = .monitor then s.hand.ctx.mepc else s.hand.ctx.epc
    let good (pc : Word) := bits pc 63 57 = 0 ∨ bit pc 63 = true;
    (¬user) ∧ (¬good back) ∧ performs s t = true) ∧
   (let o : OpR := ⟨false, 0, 1, 2, 3⟩
    let s : State := ctx (fun c => { c with epc := 0x40, mepc := 0x80, rpc := 0x20, x := [(1, 9)] }) (supervisor rich)
    let t := ctl o (fk o.d) (fk o.a) (fk o.b)
    let user := s.hand.ctx.mode = .user
    let good (pc : Word) := bits pc 63 57 = 0 ∨ bit pc 63 = true;
    (¬user) ∧ good s.hand.ctx.rpc ∧ performs s t = true) ∧
   (let h : Thread := rich.hand
    let c := h.ctx;
    c.mode = .monitor) ∧
   (let h : Thread := (supervisor rich).hand
    let c := h.ctx;
    c.mode ≠ .monitor) :=
  by and_intros <;> decide +kernel

namespace TrapEntrySaves

def live (s : State) : State := ctx (fun c => { c with cause := ⟨true, false, 5, 0, 0, 0, 0, 0⟩, svec := 0x100, mvec := 0x200, imask := 5 }) s

def mlive (s : State) : State := ctx (fun c => { c with mcause := ⟨true, false, 5, 0, 0, 0, 0, 0⟩, svec := 0x100, mvec := 0x200 }) s

/-- States and operands that meet the hypotheses of TrapEntrySaves. -/
theorem meets_TrapEntrySaves :
   (let s : State := ctx (fun c => { c with svec := 0x100, mvec := 0x200, ie := true }) (user rich)
    let g : Nat := 0
    let f : FaultRec := mkFault .alignment 3 0x1234
    let h := s.thread g
    let c := h.ctx
    let up := c.mode = .monitor ∨ f.cause = .monitorCall;
    (¬up) ∧ c.cause.live = false) ∧
   (let s : State := ctx (fun c => { c with mvec := 0x200, ie := true }) rich
    let g : Nat := 0
    let f : FaultRec := mkFault .alignment 3 0x1234
    let h := s.thread g
    let c := h.ctx
    let up := c.mode = .monitor ∨ f.cause = .monitorCall;
    up ∧ c.mcause.live = false) ∧
   (let s : State := live (user rich)
    let g : Nat := 0
    let f : FaultRec := mkFault .alignment 3 0x1234
    let h := s.thread g
    let c := h.ctx
    let up := c.mode = .monitor ∨ f.cause = .monitorCall;
    (¬up) ∧ c.cause.live = true ∧ c.mcause.live = false) ∧
   (let s : State := live (mlive (user rich))
    let g : Nat := 0
    let f : FaultRec := mkFault .alignment 3 0x1234
    let h := s.thread g
    let c := h.ctx
    let up := c.mode = .monitor ∨ f.cause = .monitorCall;
    (up ∨ c.cause.live = true) ∧ c.mcause.live = true) :=
  ⟨by decide +kernel, by decide +kernel, by decide +kernel, by decide +kernel⟩

end TrapEntrySaves

/-- States and operands that meet the hypotheses of CommitsAndFencesOfAQuietThread. -/
theorem meets_CommitsAndFencesOfAQuietThread :
   (let o : OpR := ⟨false, 0, 0, 1, 3⟩
    let s : State := xs [(1, 0x40)] (mapped rich)
    let t := ctl o (fk o.d) (fk o.a) (fk o.b);
    quiet s s.cur = true ∧ performs s t = true) ∧
   (let o : OpR := ⟨false, 0, 0, 1, 3⟩
    let s : State := xs [(1, 0x40)] (mapped rich)
    let tf := Traits.ofR o (fk o.d) (fk o.a) (fk o.b);
    quiet s s.cur = true ∧ performs s tf = true) ∧
   (let o : OpR := ⟨false, 0, 0, 1, 3⟩
    let s : State := xs [(1, 0x5000000000000000)]
    let ti := ctl o (fk o.d) (fx o.a) (fk o.b)
    let ptr := s.hand.x (issued s ti).a
    let space := bits ptr 63 60
    let far := 4 ≤ space ∨ bits ptr 59 57 ≠ 0 ∧ space ≠ 2;
    quiet s s.cur = true ∧ far ∧ performs s ti = true) ∧
   (let o : OpR := ⟨false, 0, 0, 1, 3⟩
    let s : State := xs [(1, own 0)]
    let ti := ctl o (fk o.d) (fx o.a) (fk o.b)
    let ptr := s.hand.x (issued s ti).a
    let space := bits ptr 63 60
    let far := 4 ≤ space ∨ bits ptr 59 57 ≠ 0 ∧ space ≠ 2;
    quiet s s.cur = true ∧ (¬far) ∧ (space = 1 ∨ space = 2) ∧ performs s ti = true) ∧
   (let o : OpR := ⟨false, 0, 0, 1, 3⟩
    let s : State := xs [(1, 0x40)] (mapped rich)
    let ti := ctl o (fk o.d) (fx o.a) (fk o.b)
    let ptr := s.hand.x (issued s ti).a
    let space := bits ptr 63 60
    let far := 4 ≤ space ∨ bits ptr 59 57 ≠ 0 ∧ space ≠ 2
    let a : Nat := 0x40;
    quiet s s.cur = true ∧ (¬far) ∧ space ≠ 1 ∧ space ≠ 2 ∧ (begun s ti).resolve s.cur ptr .load = .ok (.linear a) ∧ performs s ti = true) ∧
   (let o : OpR := ⟨false, 0, 0, 1, 3⟩
    let s : State := xs [(1, 3 * 2 ^ 60)]
    let ti := ctl o (fk o.d) (fx o.a) (fk o.b)
    let ptr := s.hand.x (issued s ti).a
    let space := bits ptr 63 60
    let far := 4 ≤ space ∨ bits ptr 59 57 ≠ 0 ∧ space ≠ 2
    let k : Nat := 0;
    quiet s s.cur = true ∧ (¬far) ∧ space = 3 ∧ (begun s ti).resolve s.cur ptr .load = .error k ∧ performs s ti = true) :=
  by
  and_intros <;> first | decide +kernel | exact exOf (by decide +kernel)

/-- States and operands that meet the hypotheses of MigrationLeavesInAPacket. -/
theorem meets_MigrationLeavesInAPacket :
   (let o : OpR := ⟨false, 0, 1, 1, 0⟩
    let s : State := xs [(1, 5)] (mapped rich)
    let ta := ctl o (fk o.d) (fx o.a) (fk o.b)
    let core := (s.hand.x (issued s ta).a).toNat;
    quiet s s.cur = true ∧ enginesIdle s s.cur = true ∧ offJob s s.cur core = false ∧ performs s ta = true) ∧
   (let o : OpR := ⟨false, 0, 1, 1, 0⟩
    let s : State := xs [(1, 5)] (mapped rich)
    let ta := ctl o (fk o.d) (fx o.a) (fk o.b)
    let dest : Nat := 0
    let near : Bool := true;
    quiet s s.cur = true ∧ enginesIdle s s.cur = true ∧ migrTarget s s.cur (s.hand.x (issued s ta).a) = .ok (dest, near) ∧ performs s ta = true) ∧
   (let o : OpR := ⟨false, 0, 1, 1, 0⟩
    let s : State := hand (fun h => { h with h := [(1, 5 * 2 ^ 24 + 9)] }) rich
    let th := ctl o (fk o.d) ⟨o.a.toNat, .h⟩ (fx o.b)
    let handle := s.hand.handle (issued s th).a
    let module := if (issued s th).b = 0 ∧ (issued s th).bv.isNone then moduleOf (coreOf s.cur) else ((issued s th).bval s.hand).toNat;
    quiet s s.cur = true ∧ enginesIdle s s.cur = true ∧ tileOperandBad s s.cur module handle = false ∧ performs s th = true) :=
  ⟨by decide +kernel,
   ⟨by decide +kernel, by decide +kernel, exOf (by decide +kernel), by decide +kernel⟩,
   by decide +kernel⟩

/-- States and operands that meet the hypotheses of SendsAndQueries. -/
theorem meets_SendsAndQueries :
   (let o : OpR := ⟨false, 0, 5, 1, 2⟩
    let s : State := xs [(1, 5), (2, 30)]
    let t := ctl o (fx o.d) (fx o.a) (fx o.b)
    let core := (s.hand.x (issued s t).a).toNat
    let slot := ((issued s t).bval s.hand).toNat;
    (offJob s s.cur core = true ∨ 15 < slot) ∧ performs s t = true) ∧
   (let o : OpR := ⟨false, 0, 5, 1, 2⟩
    let s : State := xs [(1, 5), (2, 3)] (mapped rich)
    let t := ctl o (fx o.d) (fx o.a) (fx o.b)
    let core := (s.hand.x (issued s t).a).toNat
    let slot := ((issued s t).bval s.hand).toNat;
    offJob s s.cur core = false ∧ slot ≤ 15 ∧ s.hand.out.length < 16 ∧ performs s t = true) ∧
   (let o : OpR := ⟨false, 0, 5, 1, 2⟩
    let s : State := user (xs [(1, 2 ^ 20), (2, 3)])
    let tc := ctl o (fk o.d) (fx o.a) (fk o.b)
    let v := (s.hand.x (issued s tc).a).toNat
    let level := o.b.toNat
    let fits := v < (if level < 2 then 2 ^ 16 else 2 ^ 8);
    (¬fits) ∧ performs s tc = true) ∧
   (let o : OpR := ⟨false, 0, 5, 1, 2⟩
    let s : State := user (xs [(1, 3), (2, 3)])
    let tc := ctl o (fk o.d) (fx o.a) (fk o.b)
    let c := s.hand.ctx
    let v := (s.hand.x (issued s tc).a).toNat
    let level := o.b.toNat
    let fits := v < (if level < 2 then 2 ^ 16 else 2 ^ 8);
    fits ∧ cancelAllowed c.mode c.ids level v = false ∧ performs s tc = true) ∧
   (let o : OpR := ⟨false, 0, 5, 1, 2⟩
    let s : State := xs [(1, 5), (2, 3)] (mapped rich)
    let tc := ctl o (fk o.d) (fx o.a) (fk o.b)
    let c := s.hand.ctx
    let v := (s.hand.x (issued s tc).a).toNat
    let level := o.b.toNat
    let key := cancelKey c.ids level v
    let fits := v < (if level < 2 then 2 ^ 16 else 2 ^ 8);
    fits ∧ cancelAllowed c.mode c.ids level v = true ∧ keyCovers key c.ids = false ∧ performs s tc = true) ∧
   (let o : OpR := ⟨false, 0, 5, 1, 2⟩
    let s : State := xs [(1, 0), (2, 3)]
    let tc := ctl o (fk o.d) (fx o.a) (fk o.b)
    let c := s.hand.ctx
    let v := (s.hand.x (issued s tc).a).toNat
    let level := o.b.toNat
    let key := cancelKey c.ids level v
    let fits := v < (if level < 2 then 2 ^ 16 else 2 ^ 8);
    fits ∧ cancelAllowed c.mode c.ids level v = true ∧ keyCovers key c.ids = true ∧ performs s tc = true) ∧
   (let o : OpR := ⟨false, 0, 5, 1, 2⟩
    let s : State := xs [(1, 5), (2, 3)] (mapped rich)
    let tf := ctl o (fx o.d) (fx o.a) (fk o.b);
    performs s tf = true) ∧
   (let o : OpR := ⟨false, 0, 5, 1, 2⟩
    let s : State := xs [(1, 5), (2, 3)] (mapped rich);
    performs s (ctl o (fx o.d) (fk o.a) (fk o.b)) = true) ∧
   (let n : Nat := 11;
    10 < n) :=
  by and_intros <;> decide +kernel

/-- States and operands that meet the hypotheses of ControlRegisterReads. -/
theorem meets_ControlRegisterReads :
   (let o : OpI := ⟨false, 0, 5, 0, 0x3FF⟩
    let s : State := rich
    let t : Traits := { Traits.ofI o (fx o.d) (fk o.a) with narrow := true }
    let n := registerNumber (issued s t) o;
    isRegister n = false ∧ performs s t = true) ∧
   (let o : OpI := ⟨false, 0, 5, 0, 0x004⟩
    let s : State := user rich
    let t : Traits := { Traits.ofI o (fx o.d) (fk o.a) with narrow := true }
    let n := registerNumber (issued s t) o;
    isRegister n = true ∧ s.hand.ctx.mode.code < readMode n ∧ performs s t = true) ∧
   (let o : OpI := ⟨false, 0, 5, 0, 0x004⟩
    let s : State := rich
    let t : Traits := { Traits.ofI o (fx o.d) (fk o.a) with narrow := true }
    let n := registerNumber (issued s t) o;
    inThread n = true ∧ readMode n ≤ s.hand.ctx.mode.code ∧ performs s t = true) ∧
   (let o : OpI := ⟨false, 0, 5, 0, 0x0C5⟩
    let s : State := rich
    let t : Traits := { Traits.ofI o (fx o.d) (fk o.a) with narrow := true }
    let n := registerNumber (issued s t) o
    let u := begun s t;
    isRegister n = true ∧ inThread n = false ∧ readMode n ≤ s.hand.ctx.mode.code ∧ s.hand.out.length < 16 ∧ (((n = 0x080 ∨ n = 0x081) → sliceAhead u (coreOf s.cur) (selSlice u s.cur) = false)) ∧ performs s t = true) ∧
   (let k : Nat := 3;
    k < 16) ∧
   (let s : State := rich
    let g : Nat := 0
    let n : Nat := 4
    let k : Nat := 3
    let v : Word := 0x40
    let w := wouldBe n (readOwn s g n) v
    let r := (s.thread g).rgsel.toNat;
    inThread n = true ∧ inThread k = true ∧ (n ≠ 0x008 ∨ (1 ≤ r ∧ r ≤ 10 ∧ (r = 10 → w.toNat < 2 ^ 16)))) ∧
   (let n : Nat := 4
    let k : Nat := 3;
    inThread n = true ∧ inThread k = true ∧ k ≠ n ∧ ((n ≠ 0x005 ∨ k ≠ 0x000)) ∧ ((n ≠ 0x007 ∨ k ≠ 0x008))) :=
  by and_intros <;> decide +kernel

namespace ControlRegisterWrites

def coll : List Byte := leBytes 64 (8 * 2 ^ 296)

/-- States and operands that meet the hypotheses of ControlRegisterWrites. -/
theorem meets_ControlRegisterWrites :
   (let o : OpI := ⟨false, 0, 0, 2, 0x3FF⟩
    let s : State := rich
    let t : Traits := { Traits.ofI o (fk o.d) (fx o.a) with narrow := true }
    let n := registerNumber (issued s t) o;
    isRegister n = false ∧ performs s t = true) ∧
   (let o : OpI := ⟨false, 0, 0, 2, 0x004⟩
    let s : State := user rich
    let t : Traits := { Traits.ofI o (fk o.d) (fx o.a) with narrow := true }
    let n := registerNumber (issued s t) o
    let v := if n = 0x008 then restartOf s.hand (s.hand.x (issued s t).a) else s.hand.x (issued s t).a
    let u := begun s t
    let mode := s.hand.ctx.mode.code;
    inThread n = true ∧ deniedWrite mode n (readOwn u s.cur n) v = true ∧ performs s t = true) ∧
   (let o : OpI := ⟨false, 0, 0, 2, 0x004⟩
    let s : State := rich
    let t : Traits := { Traits.ofI o (fk o.d) (fx o.a) with narrow := true }
    let n := registerNumber (issued s t) o
    let v := if n = 0x008 then restartOf s.hand (s.hand.x (issued s t).a) else s.hand.x (issued s t).a
    let u := begun s t
    let mode := s.hand.ctx.mode.code;
    inThread n = true ∧ deniedWrite mode n (readOwn u s.cur n) v = false ∧ performs s t = true) ∧
   (let o : OpI := ⟨false, 0, 0, 2, 0x103⟩
    let s : State := xs [(2, 0xFFFFFFFFFFFF)]
    let t : Traits := { Traits.ofI o (fk o.d) (fx o.a) with narrow := true }
    let n := registerNumber (issued s t) o
    let v := if n = 0x008 then restartOf s.hand (s.hand.x (issued s t).a) else s.hand.x (issued s t).a
    let u := begun s t
    let m := moduleOf (coreOf s.cur)
    let bad := (quietOnly n && jobRuns u m s.cur) || badValue u (dieOf (coreOf s.cur)) n v;
    isRegister n = true ∧ inThread n = false ∧ s.hand.stage = .start ∧ bad = true ∧ performs s t = true) ∧
   (let o : OpI := ⟨false, 0, 0, 2, 0x0C8⟩
    let s : State := user rich
    let t : Traits := { Traits.ofI o (fk o.d) (fx o.a) with narrow := true }
    let n := registerNumber (issued s t) o
    let v := if n = 0x008 then restartOf s.hand (s.hand.x (issued s t).a) else s.hand.x (issued s t).a
    let u := begun s t
    let mode := s.hand.ctx.mode.code
    let m := moduleOf (coreOf s.cur)
    let bad := (quietOnly n && jobRuns u m s.cur) || badValue u (dieOf (coreOf s.cur)) n v;
    isRegister n = true ∧ inThread n = false ∧ s.hand.stage = .start ∧ bad = false ∧ deniedWrite mode n (readUnit u s.cur n).1 v = true ∧ performs s t = true) ∧
   (let o : OpI := ⟨false, 0, 0, 2, 0x0C8⟩
    let s : State := rich
    let t : Traits := { Traits.ofI o (fk o.d) (fx o.a) with narrow := true }
    let n := registerNumber (issued s t) o
    let v := if n = 0x008 then restartOf s.hand (s.hand.x (issued s t).a) else s.hand.x (issued s t).a
    let u := begun s t
    let mode := s.hand.ctx.mode.code
    let m := moduleOf (coreOf s.cur)
    let bad := (quietOnly n && jobRuns u m s.cur) || badValue u (dieOf (coreOf s.cur)) n v;
    isRegister n = true ∧ inThread n = false ∧ quiet s s.cur = true ∧ bad = false ∧ deniedWrite mode n (readUnit u s.cur n).1 v = false ∧ n ≠ 0x045 ∧ ((n = 0x103 → (u.modu m).trBusy = false)) ∧ ((n = 0x104 → (u.modu m).jsBusy = false)) ∧ performs s t = true) ∧
   (let o : OpI := ⟨false, 0, 0, 2, 0x045⟩
    let s : State := xs [(2, own 0x40)] (scratch 0x40 coll)
    let t : Traits := { Traits.ofI o (fk o.d) (fx o.a) with narrow := true }
    let n := registerNumber (issued s t) o
    let v := if n = 0x008 then restartOf s.hand (s.hand.x (issued s t).a) else s.hand.x (issued s t).a
    let u := begun s t
    let mode := s.hand.ctx.mode.code
    let m := moduleOf (coreOf s.cur)
    let own := wouldBe n (readOwn u s.cur n) v
    let bad := (quietOnly n && jobRuns u m s.cur) || badValue u (dieOf (coreOf s.cur)) n v
    let w : State := (readBytes (begun s (Traits.ofI o (fk o.d) (fx o.a))) s.cur (s.hand.x 2) 64 .load false gkLoad 0).1
    let bs : List Byte := coll
    let c := readColl w (issued s t) v (leNat bs);
    isRegister n = true ∧ inThread n = false ∧ quiet s s.cur = true ∧ bad = false ∧ deniedWrite mode n (readUnit u s.cur n).1 v = false ∧ n = 0x045 ∧ clsubFault u s.cur v = none ∧ s.onWay (isDirectWrite s.cur) = false ∧ readBytes u s.cur v 64 .load false gkLoad (issued s t).pc = (w, .ok bs) ∧ w.linkHeld = false ∧ collFault w c (leNat bs) (w.thread s.cur).ctx.mode = none ∧ performs s t = true) :=
  ⟨by decide +kernel,
   by decide +kernel,
   by decide +kernel,
   by decide +kernel,
   by decide +kernel,
   by decide +kernel,
   by
    refine ⟨?_, ?_, ?_, ?_, clsub_not_denied _ _ _, ?_, ?_, ?_, pairOf (by decide +kernel), ?_, ?_, ?_⟩ <;> decide +kernel⟩

end ControlRegisterWrites

/-- States and operands that meet the hypotheses of SequenceWords. -/
theorem meets_SequenceWords :
   (let s : State := rich
    let h := s.hand
    let q := s.sequence
    let pc := h.ctx.pc;
    (¬(h.seq = none ∧ bit pc 63 = true)) ∧ q.nmod < 2) ∧
   (let s : State := hand fun h => { h with seq := some ⟨0, none, 5, 3, none, 2, 0, false⟩ }
    let h := s.hand
    let q := s.sequence
    let pc := h.ctx.pc;
    (¬(h.seq = none ∧ bit pc 63 = true)) ∧ 2 ≤ q.nmod) ∧
   (let s : State := rich
    let h := s.hand
    let q := s.sequence
    let pc := h.ctx.pc;
    (¬(h.seq = none ∧ bit pc 63 = true)) ∧ q.nimm < 3) ∧
   (let s : State := hand fun h => { h with seq := some ⟨0, none, 5, 3, none, 2, 0, false⟩ }
    let h := s.hand
    let q := s.sequence
    let pc := h.ctx.pc;
    (¬(h.seq = none ∧ bit pc 63 = true)) ∧ 3 ≤ q.nimm) ∧
   (let s : State := rich
    let h := s.hand
    let pc := h.ctx.pc
    let o : OpRep := ⟨5, true, false, false, 1⟩
    let k := if bit pc 63 then bits pc 62 57 else 0;
    h.seq = none ∧ k ≤ o.n.toNat) ∧
   (let s : State := ctx fun c => { c with pc := 0x8400000000000010 }
    let h := s.hand
    let pc := h.ctx.pc
    let o : OpRep := ⟨1, true, false, false, 1⟩
    let k := if bit pc 63 then bits pc 62 57 else 0;
    h.seq = none ∧ o.n.toNat < k) ∧
   (let s : State := rich
    let h := s.hand;
    h.seq = none ∧ bit h.ctx.pc 63 = false) ∧
   (let s : State := hand fun h => { h with seq := some ⟨0, none, 5, 3, none, 2, 0, false⟩ }
    let h := s.hand
    let o : OpHsch := ⟨2, 8⟩
    let p : OpHschK := ⟨4, 2, 8⟩
    let i : Instr := .hnop ⟨2, 8⟩;
    h.seq ≠ none ∧ i ∈ [.hnop o, .pfl1 o, .pfsl o, .pfi o, .hschKind47 p]) :=
  by
  and_intros <;> first | decide +kernel | simp

/-- States and operands that meet the hypotheses of LoadsBringTheirBytes. -/
theorem meets_LoadsBringTheirBytes :
   (let l : (OpM → Instr) × Nat × Bool := (.ldN64, 8, false)
    let o : OpM := ⟨false, 0, 5, 1, 0, 0, 0⟩
    let s : State := xs [(1, own 0x40), (2, 7)]
    let n := l.2.1
    let t := Traits.ofM o (fx o.d) (fx o.a)
    let i := issued s t
    let c := coreOf s.cur
    let ptr := mEa i o s.hand n
    let off : Nat := 0x40;
    l ∈ loads ∧ quiet s s.cur = true ∧ s.hand.volatiles = 0 ∧ (begun s t).target s.cur ptr n .load = .ok (.own off) ∧ ptr.toNat % n = 0 ∧ guarded (s.core c) off n = false ∧ scratchPoisoned (s.core c) off n = false ∧ performs s t = true) ∧
   (let l : (OpM → Instr) × Nat × Bool := (.ldN64, 8, false)
    let o : OpM := ⟨false, 0, 5, 1, 0, 0, 0⟩
    let s : State := xs [(1, other 0x40), (2, 7)] rich
    let n := l.2.1
    let t := Traits.ofM o (fx o.d) (fx o.a)
    let i := issued s t
    let ptr := mEa i o s.hand n
    let core : Nat := 1
    let off : Nat := 0x40;
    l ∈ loads ∧ quiet s s.cur = true ∧ s.hand.volatiles = 0 ∧ (begun s t).target s.cur ptr n .load = .ok (.remote core off) ∧ ptr.toNat % n = 0 ∧ performs s t = true) ∧
   (let l : (OpM → Instr) × Nat × Bool := (.ldN64, 8, false)
    let o : OpM := ⟨false, 0, 5, 1, 0, 0, 0⟩
    let s : State := xs [(1, 0x40), (2, 7)] (mapped rich)
    let n := l.2.1
    let t := Traits.ofM o (fx o.d) (fx o.a)
    let i := issued s t
    let c := coreOf s.cur
    let ptr := mEa i o s.hand n
    let from_ (tgt : Target) (w : State) : State :=
        let w := noteFallback i (o.o == 2 || strayPolicy i o tgt) w
        if o.o = 2 then acquireCore (w.modThread s.cur (committed false)) c else w
    let a : Nat := 0x40
    let ps : List Piece := [⟨0x40, 0, 8, 0⟩];
    l ∈ loads ∧ quiet s s.cur = true ∧ s.hand.volatiles = 0 ∧ (begun s t).target s.cur ptr n .load = .ok (.linear a) ∧ ((o.o = 0 ∨ ptr.toNat % n = 0)) ∧ place (from_ (.linear a) (begun s t)) s.cur a n = .ok ps ∧ performs s t = true) ∧
   (let l : (OpM → Instr) × Nat × Bool := (.ldN64, 8, false)
    let o : OpM := ⟨false, 0, 5, 1, 0, 0, 0⟩
    let s : State := hand (fun h => { h with stage := .sent }) rich
    let t := Traits.ofM o (fx o.d) (fx o.a);
    l ∈ loads ∧ s.hand.stage = .sent ∧ s.hand.out = [] ∧ performs s t = true) :=
  ⟨by
    refine ⟨by simp [loads], ?_, ?_, exOf (by decide +kernel), ?_, ?_, ?_, ?_⟩ <;> decide +kernel,
   by
    refine ⟨by simp [loads], ?_, ?_, exOf (by decide +kernel), ?_, ?_⟩ <;> decide +kernel,
   by
    refine ⟨by simp [loads], ?_, ?_, exOf (by decide +kernel), ?_, exOf (by decide +kernel), ?_⟩ <;> decide +kernel,
   ⟨by simp [loads], by decide +kernel, by decide +kernel, by decide +kernel⟩⟩

/-- States and operands that meet the hypotheses of StoresWriteTheirBytes. -/
theorem meets_StoresWriteTheirBytes :
   (let l : (OpM → Instr) × Nat := (.stN64, 8)
    let o : OpM := ⟨false, 0, 5, 1, 0, 0, 0⟩
    let s : State := xs [(1, own 0x40), (2, 7)]
    let n := l.2
    let t := Traits.ofM o (fx o.d) (fx o.a)
    let i := issued s t
    let c := coreOf s.cur
    let ptr := mEa i o s.hand n
    let off : Nat := 0x40;
    l ∈ stores ∧ quiet s s.cur = true ∧ s.hand.volatiles = 0 ∧ (begun s t).target s.cur ptr n .store = .ok (.own off) ∧ ptr.toNat % n = 0 ∧ guarded (s.core c) off n = false ∧ performs s t = true) ∧
   (let l : (OpM → Instr) × Nat := (.stN64, 8)
    let o : OpM := ⟨false, 0, 5, 1, 0, 0, 0⟩
    let s : State := xs [(1, other 0x40), (2, 7)] rich
    let n := l.2
    let t := Traits.ofM o (fx o.d) (fx o.a)
    let i := issued s t
    let ptr := mEa i o s.hand n
    let core : Nat := 1
    let off : Nat := 0x40;
    l ∈ stores ∧ quiet s s.cur = true ∧ s.hand.volatiles = 0 ∧ (begun s t).target s.cur ptr n .store = .ok (.remote core off) ∧ ptr.toNat % n = 0 ∧ performs s t = true) ∧
   (let l : (OpM → Instr) × Nat := (.stN64, 8)
    let o : OpM := ⟨false, 0, 5, 1, 0, 0, 0⟩
    let s : State := xs [(1, 0x40), (2, 7)] (mapped rich)
    let n := l.2
    let t := Traits.ofM o (fx o.d) (fx o.a)
    let i := issued s t
    let c := coreOf s.cur
    let ptr := mEa i o s.hand n
    let from_ (tgt : Target) (w : State) : State :=
        let w := noteFallback i (o.o == 1 || strayPolicy i o tgt) w
        if o.o = 1 then acquireCore (w.modThread s.cur (committed false)) c
        else if o.o = 2 then w.modThread s.cur (committed false) else w
    let a : Nat := 0x40
    let ps : List Piece := [⟨0x40, 0, 8, 0⟩];
    l ∈ stores ∧ quiet s s.cur = true ∧ s.hand.volatiles = 0 ∧ (begun s t).target s.cur ptr n .store = .ok (.linear a) ∧ ((o.o = 0 ∨ ptr.toNat % n = 0)) ∧ place (from_ (.linear a) (begun s t)) s.cur a n = .ok ps ∧ ps.length ≤ 2 ∧ o.o = 0 ∧ performs s t = true) ∧
   (let l : (OpM → Instr) × Nat := (.stN64, 8)
    let o : OpM := ⟨false, 0, 5, 1, 0, 1, 0⟩
    let s : State := xs [(1, 0x40), (2, 7)] (mapped rich)
    let n := l.2
    let t := Traits.ofM o (fx o.d) (fx o.a)
    let i := issued s t
    let c := coreOf s.cur
    let ptr := mEa i o s.hand n
    let from_ (tgt : Target) (w : State) : State :=
        let w := noteFallback i (o.o == 1 || strayPolicy i o tgt) w
        if o.o = 1 then acquireCore (w.modThread s.cur (committed false)) c
        else if o.o = 2 then w.modThread s.cur (committed false) else w
    let settled (ps : List Piece) (w : State) : State :=
        if o.o = 3 ∧ (ps.any (ownSpec w s.cur)) = true then w.modThread s.cur (committed false) else w
    let a : Nat := 0x40
    let ps : List Piece := [⟨0x40, 0, 8, 0⟩];
    l ∈ stores ∧ quiet s s.cur = true ∧ s.hand.volatiles = 0 ∧ (begun s t).target s.cur ptr n .store = .ok (.linear a) ∧ ((o.o = 0 ∨ ptr.toNat % n = 0)) ∧ place (from_ (.linear a) (begun s t)) s.cur a n = .ok ps ∧ ps.length ≤ 2 ∧ o.o ≠ 0 ∧ (ps.any fun p => loadOut (settled ps (from_ (.linear a) (begun s t))) s.cur s.hand.ctx.ids.job (p.addr / 128)) = false ∧ performs s t = true) :=
  ⟨by
    refine ⟨by simp [stores], ?_, ?_, exOf (by decide +kernel), ?_, ?_, ?_⟩ <;> decide +kernel,
   by
    refine ⟨by simp [stores], ?_, ?_, exOf (by decide +kernel), ?_, ?_⟩ <;> decide +kernel,
   by
    refine ⟨by simp [stores], ?_, ?_, exOf (by decide +kernel), ?_, exOf (by decide +kernel), ?_, ?_, ?_⟩ <;> decide +kernel,
   by
    refine ⟨by simp [stores], ?_, ?_, exOf (by decide +kernel), ?_, exOf (by decide +kernel), ?_, ?_, ?_, ?_⟩ <;> decide +kernel⟩

/-- States and operands that meet the hypotheses of MemoryTraps. -/
theorem meets_MemoryTraps :
   (let o : OpM := ⟨false, 0, 5, 1, 0, 0, 0⟩
    let s : State := xs [(1, own 0xC00000), (2, 7)] rich
    let t := Traits.ofM o (fx o.d) (fx o.a)
    let i := issued s t
    let l : (OpM → Instr) × Nat × Bool := (.ldN64, 8, false)
    let ptr := mEa i o s.hand l.2.1
    let k : Nat := 7;
    quiet s s.cur = true ∧ l ∈ loads ∧ (begun s t).target s.cur ptr l.2.1 .load = .error k ∧ performs s t = true) ∧
   (let o : OpM := ⟨false, 0, 5, 1, 0, 1, 0⟩
    let s : State := xs [(1, own 0x41), (2, 7)]
    let t := Traits.ofM o (fx o.d) (fx o.a)
    let i := issued s t
    let scratch (tgt : Target) : Prop := match tgt with
        | .linear _ => False
        | _ => True
    let l : (OpM → Instr) × Nat × Bool := (.ldN64, 8, false)
    let ptr := mEa i o s.hand l.2.1
    let tgt : Target := .own 0x41;
    quiet s s.cur = true ∧ l ∈ loads ∧ (begun s t).target s.cur ptr l.2.1 .load = .ok tgt ∧ (scratch tgt ∨ o.o ≠ 0) ∧ ptr.toNat % l.2.1 ≠ 0 ∧ performs s t = true) ∧
   (let o : OpM := ⟨false, 0, 5, 1, 0, 0, 0⟩
    let s : State := xs [(1, own 0x40), (2, 7)] (fenced rich)
    let t := Traits.ofM o (fx o.d) (fx o.a)
    let i := issued s t
    let c := coreOf s.cur
    let l : (OpM → Instr) × Nat × Bool := (.ldN64, 8, false)
    let ptr := mEa i o s.hand l.2.1
    let off : Nat := 0x40;
    quiet s s.cur = true ∧ l ∈ loads ∧ (begun s t).target s.cur ptr l.2.1 .load = .ok (.own off) ∧ ptr.toNat % l.2.1 = 0 ∧ guarded (s.core c) off l.2.1 = true ∧ o.o = 0 ∧ performs s t = true) ∧
   (let o : OpM := ⟨false, 0, 5, 1, 0, 0, 0⟩
    let s : State := xs [(1, own 0xC00000), (2, 7)] rich
    let t := Traits.ofM o (fx o.d) (fx o.a)
    let i := issued s t
    let l : (OpM → Instr) × Nat := (.stN64, 8)
    let ptr := mEa i o s.hand l.2
    let k : Nat := 7;
    quiet s s.cur = true ∧ l ∈ stores ∧ (begun s t).target s.cur ptr l.2 .store = .error k ∧ performs s t = true) ∧
   (let o : OpM := ⟨false, 0, 5, 1, 0, 1, 0⟩
    let s : State := xs [(1, own 0x41), (2, 7)]
    let t := Traits.ofM o (fx o.d) (fx o.a)
    let i := issued s t
    let scratch (tgt : Target) : Prop := match tgt with
        | .linear _ => False
        | _ => True
    let l : (OpM → Instr) × Nat := (.stN64, 8)
    let ptr := mEa i o s.hand l.2
    let tgt : Target := .own 0x41;
    quiet s s.cur = true ∧ l ∈ stores ∧ (begun s t).target s.cur ptr l.2 .store = .ok tgt ∧ (scratch tgt ∨ o.o ≠ 0) ∧ ptr.toNat % l.2 ≠ 0 ∧ performs s t = true) ∧
   (let o : OpM := ⟨false, 0, 5, 1, 0, 0, 0⟩
    let s : State := xs [(1, own 0x40), (2, 7)] (fenced rich)
    let t := Traits.ofM o (fx o.d) (fx o.a)
    let i := issued s t
    let c := coreOf s.cur
    let l : (OpM → Instr) × Nat := (.stN64, 8)
    let ptr := mEa i o s.hand l.2
    let off : Nat := 0x40;
    quiet s s.cur = true ∧ l ∈ stores ∧ (begun s t).target s.cur ptr l.2 .store = .ok (.own off) ∧ ptr.toNat % l.2 = 0 ∧ guarded (s.core c) off l.2 = true ∧ o.o = 0 ∧ performs s t = true) :=
  by
  and_intros <;> first | decide +kernel | exact exOf (by decide +kernel) | simp [loads] | simp [stores]

/-- States and operands that meet the hypotheses of AtomicsByClass. -/
theorem meets_AtomicsByClass :
   (let l : (OpA → Instr) × AtomicOp × Bool := (.aadd, .add, true)
    let o : OpA := ⟨false, 5, 1, 2, 0, 0, 0, true⟩
    let s : State := xs [(1, other 0x40), (2, 7)] rich
    let op := l.2.1
    let comm := l.2.2
    let n := if o.z then 8 else 4
    let t : Traits := { Traits.ofA o (if comm then fnone else fx o.d) (fx o.a) (fx o.b) with rounds := op == .fadd, sets := op == .fadd }
    let i := issued s t
    let ptr := s.hand.x i.a
    let k : Nat := 8;
    l ∈ atomics ∧ quiet s s.cur = true ∧ s.hand.volatiles = 0 ∧ (begun s t).target s.cur ptr n .atomic = .error k ∧ performs s t = true) ∧
   (let l : (OpA → Instr) × AtomicOp × Bool := (.aadd, .add, true)
    let o : OpA := ⟨false, 5, 1, 2, 0, 0, 0, true⟩
    let s : State := xs [(1, own 0x41), (2, 7)]
    let op := l.2.1
    let comm := l.2.2
    let n := if o.z then 8 else 4
    let t : Traits := { Traits.ofA o (if comm then fnone else fx o.d) (fx o.a) (fx o.b) with rounds := op == .fadd, sets := op == .fadd }
    let i := issued s t
    let ptr := s.hand.x i.a
    let tgt : Target := .own 0x41;
    l ∈ atomics ∧ quiet s s.cur = true ∧ s.hand.volatiles = 0 ∧ (begun s t).target s.cur ptr n .atomic = .ok tgt ∧ ptr.toNat % n ≠ 0 ∧ performs s t = true) ∧
   (let l : (OpA → Instr) × AtomicOp × Bool := (.aadd, .add, true)
    let o : OpA := ⟨false, 5, 1, 2, 0, 0, 0, true⟩
    let s : State := xs [(1, own 0x40), (2, 7)]
    let op := l.2.1
    let comm := l.2.2
    let n := if o.z then 8 else 4
    let t : Traits := { Traits.ofA o (if comm then fnone else fx o.d) (fx o.a) (fx o.b) with rounds := op == .fadd, sets := op == .fadd }
    let i := issued s t
    let c := coreOf s.cur
    let ptr := s.hand.x i.a
    let off : Nat := 0x40;
    l ∈ atomics ∧ quiet s s.cur = true ∧ s.hand.volatiles = 0 ∧ (begun s t).target s.cur ptr n .atomic = .ok (.own off) ∧ ptr.toNat % n = 0 ∧ guarded (s.core c) off n = false ∧ scratchPoisoned (s.core c) off n = false ∧ performs s t = true) ∧
   (let l : (OpA → Instr) × AtomicOp × Bool := (.aadd, .add, true)
    let o : OpA := ⟨false, 5, 1, 2, 0, 0, 0, true⟩
    let s : State := xs [(1, 0x40), (2, 7)] (mapped rich)
    let op := l.2.1
    let comm := l.2.2
    let n := if o.z then 8 else 4
    let t : Traits := { Traits.ofA o (if comm then fnone else fx o.d) (fx o.a) (fx o.b) with rounds := op == .fadd, sets := op == .fadd }
    let i := issued s t
    let c := coreOf s.cur
    let ptr := s.hand.x i.a
    let from_ (tgt : Target) (w : State) : State :=
        let w := noteFallback i ((comm && o.o == 1) || (tgt.scratch && i.pol != 0)) w
        if o.o = 2 then w.modThread s.cur (committed false)
        
        else if comm = true ∧ o.o = 1 then acquireCore (w.modThread s.cur (committed false)) c else w
    let a : Nat := 0x40
    let p : Piece := ⟨0x40, 0, 8, 0⟩
    let w := from_ (.linear a) (begun s t);
    l ∈ atomics ∧ quiet s s.cur = true ∧ s.hand.volatiles = 0 ∧ (begun s t).target s.cur ptr n .atomic = .ok (.linear a) ∧ ptr.toNat % n = 0 ∧ o.o = 0 ∧ place w s.cur a n = .ok [p] ∧ loadOut w s.cur s.hand.ctx.ids.job (p.addr / 128) = false ∧ comm = true ∧ performs s t = true) ∧
   (let l : (OpA → Instr) × AtomicOp × Bool := (.afadd, .add, false)
    let o : OpA := ⟨false, 5, 1, 2, 0, 0, 0, true⟩
    let s : State := xs [(1, 0x40), (2, 7)] (mapped rich)
    let op := l.2.1
    let comm := l.2.2
    let n := if o.z then 8 else 4
    let t : Traits := { Traits.ofA o (if comm then fnone else fx o.d) (fx o.a) (fx o.b) with rounds := op == .fadd, sets := op == .fadd }
    let i := issued s t
    let c := coreOf s.cur
    let ptr := s.hand.x i.a
    let from_ (tgt : Target) (w : State) : State :=
        let w := noteFallback i ((comm && o.o == 1) || (tgt.scratch && i.pol != 0)) w
        if o.o = 2 then w.modThread s.cur (committed false)
        
        else if comm = true ∧ o.o = 1 then acquireCore (w.modThread s.cur (committed false)) c else w
    let a : Nat := 0x40
    let p : Piece := ⟨0x40, 0, 8, 0⟩
    let w := from_ (.linear a) (begun s t);
    l ∈ atomics ∧ quiet s s.cur = true ∧ s.hand.volatiles = 0 ∧ (begun s t).target s.cur ptr n .atomic = .ok (.linear a) ∧ ptr.toNat % n = 0 ∧ o.o = 0 ∧ place w s.cur a n = .ok [p] ∧ loadOut w s.cur s.hand.ctx.ids.job (p.addr / 128) = false ∧ comm = false) ∧
   (let n : Nat := 8;
    (n = 4 ∨ n = 8)) :=
  by
  and_intros <;> first | decide +kernel | exact exOf (by decide +kernel) | simp [atomics]

/-- States and operands that meet the hypotheses of BarrierPhasesAndWaits. -/
theorem meets_BarrierPhasesAndWaits :
   (let o : OpR := ⟨false, 0, 5, 1, 1⟩
    let s : State := bar ⟨0, 3, 0, 0⟩
    let t := Traits.ofR o (fk o.d) (fx o.a) (fk o.b)
    let c := coreOf s.cur
    let n := o.b.toNat
    let b := s.barrier c n
    let job := s.hand.ctx.ids.job;
    quiet s s.cur = true ∧ b.owner = job ∧ b.count ≠ 0 ∧ performs s t = true) ∧
   (let o : OpR := ⟨false, 0, 5, 1, 1⟩
    let s : State := bar ⟨1, 3, 0, 0⟩
    let t := Traits.ofR o (fk o.d) (fx o.a) (fk o.b)
    let c := coreOf s.cur
    let n := o.b.toNat
    let b := s.barrier c n
    let job := s.hand.ctx.ids.job;
    quiet s s.cur = true ∧ b.owner ≠ job ∧ performs s t = true) ∧
   (let o : OpR := ⟨false, 0, 5, 1, 1⟩
    let s : State := bar ⟨0, 0, 0, 0⟩
    let t := Traits.ofR o (fk o.d) (fx o.a) (fk o.b)
    let c := coreOf s.cur
    let n := o.b.toNat
    let b := s.barrier c n
    let job := s.hand.ctx.ids.job;
    quiet s s.cur = true ∧ b.owner = job ∧ b.count = 0 ∧ performs s t = true) ∧
   (let o : OpR := ⟨false, 0, 5, 1, 1⟩
    let s : State := bar ⟨0, 3, 0, 0⟩ (xs [(1, 0xFFFF)])
    let t := Traits.ofR o (fk o.d) (fx o.a) (fk o.b)
    let i := issued s t
    let c := coreOf s.cur
    let n := o.b.toNat
    let b := s.barrier c n
    let job := s.hand.ctx.ids.job;
    quiet s s.cur = true ∧ b.owner = job ∧ b.passed ((s.hand.x i.a).toNat % 2 ^ 16) = true ∧ performs s t = true) ∧
   (let o : OpR := ⟨false, 0, 5, 1, 1⟩
    let s : State := bar ⟨0, 3, 0, 0⟩
    let t := Traits.ofR o (fk o.d) (fx o.a) (fk o.b)
    let i := issued s t
    let c := coreOf s.cur
    let n := o.b.toNat
    let b := s.barrier c n
    let job := s.hand.ctx.ids.job;
    quiet s s.cur = true ∧ b.owner = job ∧ b.passed ((s.hand.x i.a).toNat % 2 ^ 16) = false ∧ performs s t = true) ∧
   (let b : Barrier := ⟨0, 3, 2, 5⟩;
    b.arrived + 1 = b.count) ∧
   (let b : Barrier := ⟨0, 3, 1, 5⟩;
    b.arrived + 1 ≠ b.count) ∧
   (let b : Barrier := ⟨0, 3, 0, 0⟩
    let n : Nat := 0xFFFF;
    b.phase = .ofNat 16 n + 1) :=
  by and_intros <;> decide +kernel

/-- States and operands that meet the hypotheses of MessagesReachTheirCore. -/
theorem meets_MessagesReachTheirCore :
   (let o : OpR := ⟨false, 0, 5, 1, 2⟩
    let s : State := xs [(1, 2 ^ 44)]
    let t := Traits.ofR o (fk o.d) (fx o.a) (fx o.b)
    let a := s.hand.x (issued s t).a
    let core := bits a 43 25;
    quiet s s.cur = true ∧ (bits a 63 44 ≠ 0 ∨ offJob s s.cur core = true) ∧ performs s t = true) ∧
   (let o : OpR := ⟨false, 0, 5, 1, 2⟩
    let s : State := xs [(1, 4)]
    let t := Traits.ofR o (fk o.d) (fx o.a) (fx o.b)
    let a := s.hand.x (issued s t).a
    let core := bits a 43 25
    let off := bits a 18 0;
    quiet s s.cur = true ∧ bits a 63 44 = 0 ∧ offJob s s.cur core = false ∧ off % 8 ≠ 0 ∧ performs s t = true) ∧
   (let o : OpR := ⟨false, 0, 5, 1, 2⟩
    let s : State := xs [(1, 8 + 2 ^ 25), (2, 9)]
    let t := Traits.ofR o (fk o.d) (fx o.a) (fx o.b)
    let a := s.hand.x (issued s t).a
    let core := bits a 43 25
    let off := bits a 18 0;
    quiet s s.cur = true ∧ bits a 63 44 = 0 ∧ offJob s s.cur core = false ∧ off % 8 = 0 ∧ performs s t = true) ∧
   (let o : OpR := ⟨false, 0, 5, 1, 2⟩
    let s : State := xs [(1, 2 ^ 44)]
    let t := Traits.ofR o (fk o.d) (fx o.a) (fx o.b)
    let a := s.hand.x (issued s t).a;
    quiet s s.cur = true ∧ (bits a 63 19 ≠ 0 ∨ offJob s s.cur (bits a 18 0) = true) ∧ performs s t = true) ∧
   (let o : OpR := ⟨false, 0, 5, 1, 2⟩
    let s : State := xs [(1, 4)]
    let t := Traits.ofR o (fk o.d) (fx o.a) (fx o.b)
    let a := s.hand.x (issued s t).a;
    quiet s s.cur = true ∧ bits a 63 19 = 0 ∧ offJob s s.cur (bits a 18 0) = false ∧ performs s t = true) ∧
   (let o : OpR := ⟨false, 0, 5, 1, 2⟩
    let s : State := xs [(1, 2 ^ 44)]
    let tg := Traits.ofR o (fx o.d) (fk o.a) (fk o.b);
    quiet s s.cur = true ∧ (s.core (coreOf s.cur)).rq = [] ∧ performs s tg = true) ∧
   (let o : OpR := ⟨false, 0, 5, 1, 2⟩
    let s : State := rich.modCore 0 fun c => { c with rq := [5, 6] }
    let tg := Traits.ofR o (fx o.d) (fk o.a) (fk o.b)
    let w : Word := 5
    let rest : List Word := [6];
    quiet s s.cur = true ∧ (s.core (coreOf s.cur)).rq = w :: rest ∧ queueAhead (begun s tg) s.cur = false ∧ performs s tg = true) :=
  by and_intros <;> decide +kernel

/-- States and operands that meet the hypotheses of CounterControlAndWaits. -/
theorem meets_CounterControlAndWaits :
   (let o : OpR := ⟨false, 0, 5, 1, 2⟩
    let s : State := xs [(1, 2 ^ 40), (2, 2 ^ 40)]
    let t := Traits.ofR o (fk o.d) (fx o.a) (fx o.b)
    let a := s.hand.x (issued s t).a
    let b := (issued s t).bval s.hand;
    cctlBad a b = true ∧ performs s t = true) ∧
   (let o : OpR := ⟨false, 0, 5, 1, 2⟩
    let s : State := xs [(1, 2), (2, 3)] (user rich)
    let t := Traits.ofR o (fk o.d) (fx o.a) (fx o.b)
    let a := s.hand.x (issued s t).a
    let b := (issued s t).bval s.hand;
    cctlBad a b = false ∧ s.hand.ctx.mode = .user ∧ performs s t = true) ∧
   (let o : OpR := ⟨false, 0, 5, 1, 2⟩
    let s : State := xs [(1, 2), (2, 3)]
    let t := Traits.ofR o (fk o.d) (fx o.a) (fx o.b)
    let a := s.hand.x (issued s t).a
    let b := (issued s t).bval s.hand;
    ((cctlBad a b = false ∧ s.hand.ctx.mode ≠ .user)) ∧ bits b 7 6 = 0 ∧ performs s t = true) ∧
   (let o : OpR := ⟨false, 0, 5, 1, 2⟩
    let s : State := xs [(1, 2), (2, 0x40)]
    let t := Traits.ofR o (fk o.d) (fx o.a) (fx o.b)
    let a := s.hand.x (issued s t).a
    let b := (issued s t).bval s.hand;
    ((cctlBad a b = false ∧ s.hand.ctx.mode ≠ .user)) ∧ bits b 7 6 = 1 ∧ bit a 8 = false ∧ performs s t = true) ∧
   (let o : OpR := ⟨false, 0, 5, 1, 2⟩
    let s : State := xs [(1, 0x102), (2, 0x40)]
    let t := Traits.ofR o (fk o.d) (fx o.a) (fx o.b)
    let a := s.hand.x (issued s t).a
    let b := (issued s t).bval s.hand;
    ((cctlBad a b = false ∧ s.hand.ctx.mode ≠ .user)) ∧ bits b 7 6 = 1 ∧ bit a 8 = true ∧ performs s t = true) ∧
   (let o : OpR := ⟨false, 0, 5, 1, 2⟩
    let s : State := xs [(1, 2), (2, 131)]
    let t := Traits.ofR o (fk o.d) (fx o.a) (fx o.b)
    let a := s.hand.x (issued s t).a
    let b := (issued s t).bval s.hand;
    ((cctlBad a b = false ∧ s.hand.ctx.mode ≠ .user)) ∧ bits b 7 6 = 2 ∧ performs s t = true) ∧
   (let o : OpR := ⟨false, 0, 5, 1, 2⟩
    let s : State := xs [(1, 2 ^ 40), (2, 2 ^ 40)]
    let t := Traits.ofR o (fk o.d) (fx o.a) (fx o.b)
    let a := s.hand.x (issued s t).a
    let b := (issued s t).bval s.hand;
    quiet s s.cur = true ∧ (bits a 63 6 ≠ 0 ∨ bits b 63 32 ≠ 0) ∧ performs s t = true) ∧
   (let o : OpR := ⟨false, 0, 5, 1, 2⟩
    let s : State := arr 2 ⟨5, 1⟩ (xs [(1, 2), (2, 5)])
    let t := Traits.ofR o (fk o.d) (fx o.a) (fx o.b)
    let a := s.hand.x (issued s t).a
    let b := (issued s t).bval s.hand
    let job := s.hand.ctx.ids.job
    let k := tget Arrival.zero (s.core (coreOf s.cur)).arrivals (bits a 5 0);
    quiet s s.cur = true ∧ bits a 63 6 = 0 ∧ bits b 63 32 = 0 ∧ k.owner ≠ job ∧ performs s t = true) ∧
   (let o : OpR := ⟨false, 0, 5, 1, 2⟩
    let s : State := xs [(1, 2), (2, 3)] (user rich)
    let t := Traits.ofR o (fk o.d) (fx o.a) (fx o.b)
    let a := s.hand.x (issued s t).a
    let b := (issued s t).bval s.hand
    let job := s.hand.ctx.ids.job
    let k := tget Arrival.zero (s.core (coreOf s.cur)).arrivals (bits a 5 0);
    quiet s s.cur = true ∧ bits a 63 6 = 0 ∧ bits b 63 32 = 0 ∧ k.owner = job ∧ k.value < b.toNat ∧ performs s t = true) ∧
   (let o : OpR := ⟨false, 0, 5, 1, 2⟩
    let s : State := xs [(1, 2), (2, 0)]
    let t := Traits.ofR o (fk o.d) (fx o.a) (fx o.b)
    let a := s.hand.x (issued s t).a
    let b := (issued s t).bval s.hand
    let job := s.hand.ctx.ids.job
    let k := tget Arrival.zero (s.core (coreOf s.cur)).arrivals (bits a 5 0);
    quiet s s.cur = true ∧ bits a 63 6 = 0 ∧ bits b 63 32 = 0 ∧ k.owner = job ∧ b.toNat ≤ k.value ∧ performs s t = true) ∧
   (let o : OpR := ⟨false, 0, 5, 1, 2⟩
    let s : State := xs [(1, 2 ^ 40), (2, 2 ^ 40)]
    let tc := Traits.ofR o (fx o.d) (fx o.a) (fx o.b)
    let bc := (issued s tc).bval s.hand
    let ac := s.hand.x (issued s tc).a;
    quiet s s.cur = true ∧ (bits ac 63 12 ≠ 0 ∨ bits bc 63 32 ≠ 0) ∧ performs s tc = true) ∧
   (let o : OpR := ⟨false, 0, 5, 1, 2⟩
    let s : State := xs [(1, 2), (2, 3)] (user rich)
    let tc := Traits.ofR o (fx o.d) (fx o.a) (fx o.b)
    let bc := (issued s tc).bval s.hand
    let ac := s.hand.x (issued s tc).a
    let job := s.hand.ctx.ids.job
    let m := moduleOf (coreOf s.cur)
    let kc := s.compCtr m job (bits ac 11 0);
    quiet s s.cur = true ∧ bits ac 63 12 = 0 ∧ bits bc 63 32 = 0 ∧ kc.value < bc.toNat ∧ performs s tc = true) ∧
   (let o : OpR := ⟨false, 0, 5, 1, 2⟩
    let s : State := xs [(1, 2), (2, 0)]
    let tc := Traits.ofR o (fx o.d) (fx o.a) (fx o.b)
    let bc := (issued s tc).bval s.hand
    let ac := s.hand.x (issued s tc).a
    let job := s.hand.ctx.ids.job
    let m := moduleOf (coreOf s.cur)
    let kc := s.compCtr m job (bits ac 11 0);
    quiet s s.cur = true ∧ bits ac 63 12 = 0 ∧ bits bc 63 32 = 0 ∧ bc.toNat ≤ kc.value ∧ performs s tc = true) ∧
   (let o : OpR := ⟨false, 0, 5, 1, 2⟩
    let s : State := xs [(1, 2 ^ 40), (2, 2 ^ 40)]
    let tm := Traits.ofR o (fx o.d) (fx o.a) (fk o.b)
    let am := s.hand.x (issued s tm).a;
    quiet s s.cur = true ∧ bits am 63 4 ≠ 0 ∧ performs s tm = true) ∧
   (let o : OpR := ⟨false, 0, 5, 1, 2⟩
    let s : State := hand (fun h => { h with status := .waiting (.meridian 2 1) }) (xs [(1, 2)])
    let tm := Traits.ofR o (fx o.d) (fx o.a) (fk o.b)
    let am := s.hand.x (issued s tm).a
    let m := moduleOf (coreOf s.cur)
    let km := s.meridian m (bits am 3 0)
    let c : Nat := 2
    let e : Nat := 1;
    quiet s s.cur = true ∧ bits am 63 4 = 0 ∧ s.hand.status = .waiting (.meridian c e) ∧ km.ends.toNat ≠ e ∧ performs s tm = true) ∧
   (let o : OpR := ⟨false, 0, 5, 1, 2⟩
    let s : State := (xs [(1, 2)]).modModu 0 fun m => { m with mer := [(2, ⟨true, 0, 11, false, 3, 0, false⟩)] }
    let tm := Traits.ofR o (fx o.d) (fx o.a) (fk o.b)
    let am := s.hand.x (issued s tm).a
    let job := s.hand.ctx.ids.job
    let m := moduleOf (coreOf s.cur)
    let km := s.meridian m (bits am 3 0);
    quiet s s.cur = true ∧ bits am 63 4 = 0 ∧ s.hand.status = .ready ∧ km.v = true ∧ km.job.toNat = job ∧ performs s tm = true) :=
  by and_intros <;> decide +kernel

namespace WaitingTasks

def fullWt : Table WtEntry := (List.range 64).map fun n => (n, ⟨0x40, 0, 4, 0, ⟨0, 0, 0, 0, 0⟩, .user, 0, false, 0, 0, none⟩)

/-- States and operands that meet the hypotheses of WaitingTasks. -/
theorem meets_WaitingTasks :
   (let o : OpR := ⟨false, 0, 3, 1, 2⟩
    let s : State := xs [(3, 0), (1, 0x40)]
    let t := Traits.ofR o (fx o.d) (fx o.a) (fx o.b)
    let i := issued s t
    let h := s.hand
    let d := h.x i.d;
    h.stage = .start ∧ ((bits d 31 0 = 0 ∨ bits d 39 38 = 3 ∨ bits d 63 40 ≠ 0)) ∧ performs s t = true) ∧
   (let o : OpR := ⟨false, 0, 3, 1, 2⟩
    let s : State := arr 0 ⟨0, 3⟩ (xs [(3, 4), (1, 0x40)])
    let t := Traits.ofR o (fx o.d) (fx o.a) (fx o.b)
    let i := issued s t
    let c := coreOf s.cur
    let h := s.hand
    let d := h.x i.d
    let owner := (tget Arrival.zero (s.core c).arrivals (bits d 37 32)).owner;
    h.stage = .start ∧ (¬(bits d 31 0 = 0 ∨ bits d 39 38 = 3 ∨ bits d 63 40 ≠ 0)) ∧ (¬(bits d 39 38 ≤ h.ctx.mode.code ∧ owner = h.ctx.ids.job)) ∧ performs s t = true) ∧
   (let o : OpR := ⟨false, 0, 3, 1, 2⟩
    let s : State := xs [(3, 4 + 2 ^ 39), (1, 0x40)]
    let t := Traits.ofR o (fx o.d) (fx o.a) (fx o.b)
    let i := issued s t
    let c := coreOf s.cur
    let h := s.hand
    let d := h.x i.d
    let pc := h.x i.a
    let owner := (tget Arrival.zero (s.core c).arrivals (bits d 37 32)).owner
    let n : Nat := 0;
    (¬(bits d 31 0 = 0 ∨ bits d 39 38 = 3 ∨ bits d 63 40 ≠ 0)) ∧ ((bits d 39 38 ≤ h.ctx.mode.code ∧ owner = h.ctx.ids.job)) ∧ (¬(bits pc 63 57 ≠ 0 ∨ bits pc 1 0 ≠ 0)) ∧ firstFree (s.core c).wt 0 Config.waitingTasks = some n ∧ performs s t = true) ∧
   (let o : OpR := ⟨false, 0, 3, 1, 2⟩
    let s : State := xs [(3, 4), (1, 0x40)] (rich.modCore 0 fun c => { c with wt := fullWt })
    let t := Traits.ofR o (fx o.d) (fx o.a) (fx o.b)
    let i := issued s t
    let c := coreOf s.cur
    let h := s.hand
    let d := h.x i.d
    let pc := h.x i.a
    let owner := (tget Arrival.zero (s.core c).arrivals (bits d 37 32)).owner;
    (¬(bits d 31 0 = 0 ∨ bits d 39 38 = 3 ∨ bits d 63 40 ≠ 0)) ∧ ((bits d 39 38 ≤ h.ctx.mode.code ∧ owner = h.ctx.ids.job)) ∧ (¬(bits pc 63 57 ≠ 0 ∨ bits pc 1 0 ≠ 0)) ∧ firstFree (s.core c).wt 0 Config.waitingTasks = none ∧ performs s t = true) ∧
   (let o : OpR := ⟨false, 0, 3, 1, 2⟩
    let s : State := xs [(3, 4 + 2 ^ 39), (1, 0x40)]
    let t := Traits.ofR o (fx o.d) (fx o.a) (fx o.b)
    let i := issued s t
    let h := s.hand
    let d := h.x i.d;
    h.stage = .start ∧ ((bits d 17 16 = 3 ∨ bits d 63 18 ≠ 0)) ∧ performs s t = true) ∧
   (let o : OpR := ⟨false, 0, 3, 1, 2⟩
    let s : State := xs [(3, 4 + 2 ^ 16), (1, 0x40)] (user rich)
    let t := Traits.ofR o (fx o.d) (fx o.a) (fx o.b)
    let i := issued s t
    let h := s.hand
    let d := h.x i.d;
    h.stage = .start ∧ (¬(bits d 17 16 = 3 ∨ bits d 63 18 ≠ 0)) ∧ h.ctx.mode.code < bits d 17 16 ∧ performs s t = true) ∧
   (let o : OpR := ⟨false, 0, 3, 1, 2⟩
    let s : State := xs [(3, 0), (1, 0x40)]
    let t := Traits.ofR o (fx o.d) (fx o.a) (fx o.b)
    let i := issued s t
    let c := coreOf s.cur
    let h := s.hand
    let d := h.x i.d
    let pc := h.x i.a;
    (¬(bits d 17 16 = 3 ∨ bits d 63 18 ≠ 0)) ∧ bits d 17 16 ≤ h.ctx.mode.code ∧ (¬(bits pc 63 57 ≠ 0 ∨ bits pc 1 0 ≠ 0)) ∧ (s.core c).work.length < Config.workList ∧ performs s t = true) :=
  by and_intros <;> decide +kernel

end WaitingTasks

namespace TileQueues

def tqs (n : Nat) (d : TqDesc) (s : State) : State := s.modCluster 0 fun c => { c with tq := [(n, d)], gen := 7 }

/-- States and operands that meet the hypotheses of TileQueues. -/
theorem meets_TileQueues :
   (let o : OpR := ⟨false, 0, 5, 1, 2⟩
    let s : State := xs [(1, 100 + 70 * 2 ^ 32), (2, 16 + 32 * 2 ^ 16)]
    let t := Traits.ofR o (fx o.d) (fx o.a) (fx o.b)
    let i := issued s t
    let a := s.hand.x i.a
    let b := i.bval s.hand
    let cl := clusterOf (coreOf s.cur)
    let x := s.cluster cl
    let d : TqDesc := ⟨bits a 31 0, bits a 63 32, bits b 15 0, bits b 31 16, s.hand.ctx.ids.job, 0, 0⟩
    let n : Nat := 0;
    s.hand.out.length < 16 ∧ bits b 63 32 = 0 ∧ d.m ≠ 0 ∧ d.n ≠ 0 ∧ d.tm ≠ 0 ∧ d.tn ≠ 0 ∧ d.total < 2 ^ 31 ∧ firstFree x.tq 0 Config.tileQueue = some n ∧ performs s t = true) ∧
   (let o : OpR := ⟨false, 0, 5, 1, 2⟩
    let s : State := tqs 3 ⟨100, 70, 16, 32, 0, 7, 3⟩ (xs [(1, 3 + 7 * 256)])
    let t := Traits.ofR o (fx o.d) (fx o.a) (fx o.b)
    let tf := { t with imm := none }
    let cl := clusterOf (coreOf s.cur)
    let x := s.cluster cl
    let f := issued s tf
    let af := s.hand.x f.a
    let e : TqDesc := ⟨100, 70, 16, 32, 0, 7, 3⟩;
    s.hand.out.length < 16 ∧ ticketBad af = false ∧ tfind x.tq (bits af 2 0) = some e ∧ e.job = s.hand.ctx.ids.job ∧ e.gen = bits af 23 8 ∧ e.k < e.total ∧ performs s tf = true) ∧
   (let o : OpR := ⟨false, 0, 5, 1, 2⟩
    let s : State := tqs 3 ⟨100, 70, 16, 32, 0, 7, 21⟩ (xs [(1, 3 + 7 * 256)])
    let t := Traits.ofR o (fx o.d) (fx o.a) (fx o.b)
    let tf := { t with imm := none }
    let cl := clusterOf (coreOf s.cur)
    let x := s.cluster cl
    let f := issued s tf
    let af := s.hand.x f.a
    let e : TqDesc := ⟨100, 70, 16, 32, 0, 7, 21⟩;
    s.hand.out.length < 16 ∧ ticketBad af = false ∧ tfind x.tq (bits af 2 0) = some e ∧ e.job = s.hand.ctx.ids.job ∧ ((e.gen ≠ bits af 23 8 ∨ e.total ≤ e.k)) ∧ performs s tf = true) ∧
   (let o : OpR := ⟨false, 0, 5, 1, 2⟩
    let s : State := tqs 3 ⟨100, 70, 16, 32, 0, 7, 3⟩ (xs [(1, 3 + 7 * 256)])
    let tq := Traits.ofR o (fk o.d) (fx o.a) (fk o.b)
    let aq := s.hand.x (issued s tq).a;
    s.hand.out.length < 16 ∧ ticketBad aq = false ∧ performs s tq = true) ∧
   (let d : TqDesc := ⟨100, 70, 16, 32, 0, 7, 3⟩
    let k : Nat := 0;
    d.m < 2 ^ 32 ∧ d.n < 2 ^ 32 ∧ 0 < d.tm ∧ 0 < d.tn ∧ d.tm < 2 ^ 16 ∧ d.tn < 2 ^ 16 ∧ k < d.total ∧ d.total < 2 ^ 31) :=
  by and_intros <;> decide +kernel

end TileQueues

namespace TileFormsAskTheirHome

def handles (l : List (Nat × Word)) (s : State) : State := hand (fun h => { h with h := l }) s

/-- States and operands that meet the hypotheses of TileFormsAskTheirHome. -/
theorem meets_TileFormsAskTheirHome :
   (let o : OpT := ⟨false, 0, 3, 1, 2, 0⟩
    let s : State := hand (fun h => { h with stage := .answered 9 }) rich
    let t := Traits.ofT o (fx o.a) (fx o.b)
    let tt : Traits := { t with pol := .taken }
    let h := s.hand.handle o.h.toNat
    let f : Word := 9;
    s.hand.stage = .answered f ∧ performs s tt = true) ∧
   (let o : OpT := ⟨false, 0, 3, 1, 2, 0⟩
    let s : State := hand (fun h => { h with stage := .answered 9 }) rich
    let t := Traits.ofT o (fx o.a) (fx o.b)
    let h := s.hand.handle o.h.toNat
    let f : Word := 9;
    s.hand.stage = .answered f ∧ performs s t = true) ∧
   (let o : OpT := ⟨false, 0, 3, 1, 2, 0⟩
    let s : State := hand (fun h => { h with stage := .answered 9 }) rich
    let t := Traits.ofT o (fx o.a) (fx o.b)
    let h := s.hand.handle o.h.toNat
    let f : Word := 9;
    (s.hand.stage = .answered f ∨ s.hand.stage = .sent) ∧ s.hand.out = [] ∧ performs s t = true) ∧
   (let o : OpT := ⟨false, 0, 3, 1, 2, 0⟩
    let s : State := handles [(3, 7)] rich
    let tk := Traits.ofT o (fk o.a) (fk o.b)
    let h := s.hand.handle o.h.toNat
    let m := tileModule s s.cur o;
    quiet s s.cur = true ∧ tileOperandBad s s.cur m h = true ∧ performs s tk = true) ∧
   (let o : OpT := ⟨false, 0, 3, 1, 2, 0⟩
    let s : State := handles [(3, 7)] rich
    let ta := Traits.ofT o (fx o.a) (fk o.b)
    let h := s.hand.handle o.h.toNat
    let m := tileModule s s.cur o;
    quiet s s.cur = true ∧ tileOperandBad s s.cur m h = true ∧ performs s ta = true) ∧
   (let o : OpT := ⟨false, 0, 3, 1, 2, 0⟩
    let s : State := handles [(3, 5 * 2 ^ 24 + 9)] (xs [(1, own 0x80), (2, 4)] (scratch 0x80 [1, 2, 3]))
    let t := Traits.ofT o (fx o.a) (fx o.b)
    let tt : Traits := { t with pol := .taken }
    let i := issued s t
    let h := s.hand.handle o.h.toNat
    let m := tileModule s s.cur o
    let b := i.bval s.hand
    let a := s.hand.x i.a
    let w : State := (readBytes (begun s t) s.cur a (classBytes (bits b 19 16)) .tile false gkLoad i.pc).1
    let bs : List Byte := [1, 2, 3] ++ List.replicate 125 0;
    quiet s s.cur = true ∧ tileOperandBad s s.cur m h = false ∧ bits b 63 21 = 0 ∧ bits b 15 0 ≠ 0 ∧ bits b 19 16 ≤ 9 ∧ a.toNat % 128 = 0 ∧ tileSource (begun s tt) s.cur (classBytes (bits b 19 16)) a = none ∧ s.onWay (isDirectWrite s.cur) = false ∧ readBytes (notePolicy (issued s tt) [a] (begun s tt)) s.cur a (classBytes (bits b 19 16)) .tile false gkLoad i.pc = (w, .ok bs) ∧ w.linkHeld = false ∧ performs s tt = true) ∧
   (let o : OpT := ⟨false, 0, 3, 1, 2, 0⟩
    let s : State := handles [(3, 5 * 2 ^ 24 + 9)] (xs [(1, own 0x80), (2, 128 * 65536)])
    let t := Traits.ofT o (fx o.a) (fx o.b)
    let i := issued s t
    let h := s.hand.handle o.h.toNat
    let m := tileModule s s.cur o
    let b := i.bval s.hand
    let a := s.hand.x i.a
    let pos : Nat := 0x80
    let l : (OpT → Instr) × Bool := (.tld, false);
    quiet s s.cur = true ∧ tileOperandBad s s.cur m h = false ∧ bits b 63 32 = 0 ∧ bits b 15 0 % 128 = 0 ∧ bits b 31 16 % 128 = 0 ∧ bits b 15 0 + bits b 31 16 ≤ 65536 ∧ tileDest s.cur (bits b 31 16) a = .ok pos ∧ l ∈ [(.tld, false), (.tldc, true)] ∧ performs s t = true) ∧
   (let o : OpT := ⟨false, 0, 3, 1, 2, 0⟩
    let s : State := handles [(3, 5 * 2 ^ 24 + 9)] (xs [(1, own 0x80), (2, 4)] (scratch 0x80 [1, 2, 3]))
    let tk := Traits.ofT o (fk o.a) (fk o.b)
    let h := s.hand.handle o.h.toNat
    let m := tileModule s s.cur o;
    quiet s s.cur = true ∧ tileOperandBad s s.cur m h = false ∧ performs s tk = true) ∧
   (let o : OpT := ⟨false, 0, 3, 1, 2, 0⟩
    let s : State := handles [(3, 5 * 2 ^ 24 + 9)] (xs [(1, 0x40), (2, 20)])
    let ta := Traits.ofT o (fx o.a) (fk o.b)
    let c := coreOf s.cur
    let h := s.hand.handle o.h.toNat
    let m := tileModule s s.cur o
    let ref := tileRef m s.hand.ctx.ids.job h
    let aa := s.hand.x (issued s ta).a;
    quiet s s.cur = true ∧ tileOperandBad s s.cur m h = false ∧ tileOnWay (begun s ta) s.cur ref.gslice = false ∧ linkDown (begun s ta) (moduleOf c) m = false ∧ ((begun s ta).overLinks (moduleOf c) m).linkHeld = false ∧ bits aa 63 25 = 0 ∧ performs s ta = true) ∧
   (let o : OpT := ⟨false, 0, 3, 1, 2, 0⟩
    let s : State := handles [(3, 5 * 2 ^ 24 + 9)] (xs [(1, 0x40), (2, 20)])
    let t := Traits.ofT o (fx o.a) (fx o.b)
    let i := issued s t
    let c := coreOf s.cur
    let h := s.hand.handle o.h.toNat
    let m := tileModule s s.cur o
    let b := i.bval s.hand
    let a := s.hand.x i.a;
    quiet s s.cur = true ∧ tileOperandBad s s.cur m h = false ∧ bits a 63 25 = 0 ∧ s.ofJob (moduleOf c) s.hand.ctx.ids.job (moduleOf (bits a 24 6)) = true ∧ serial (bits h 23 0) (bits b 23 0) < 2 ^ 23 ∧ performs s t = true) ∧
   (let o : OpT := ⟨false, 0, 3, 1, 2, 0⟩
    let s : State := handles [(3, 5 * 2 ^ 24 + 9)] (xs [(1, 0x105), (2, 4)])
    let ta := Traits.ofT o (fx o.a) (fk o.b)
    let c := coreOf s.cur
    let h := s.hand.handle o.h.toNat
    let m := tileModule s s.cur o
    let aa := s.hand.x (issued s ta).a;
    quiet s s.cur = true ∧ tileOperandBad s s.cur m h = false ∧ bits aa 63 9 = 0 ∧ bits aa 7 6 = 0 ∧ (tget Arrival.zero (s.core c).arrivals (bits aa 5 0)).owner = s.hand.ctx.ids.job ∧ performs s ta = true) :=
  by
  and_intros <;> first | decide +kernel | exact exOf (by decide +kernel) | exact pairOf (by decide +kernel) | simp

end TileFormsAskTheirHome

namespace HeapGivesAndTakesBack

def heaped (s : State) : State :=
  { s with hbm := Memory.write s.hbm 0 (leBytes 16 (2 ^ 127 + 3 * 2 ^ 64 + 64 * 2 ^ 32)) }

def used (s : State) : State := s.modModu 0 fun m => { m with heap := [(0, ⟨[(0x30000, 1)]⟩)] }

/-- States and operands that meet the hypotheses of HeapGivesAndTakesBack. -/
theorem meets_HeapGivesAndTakesBack :
   (let o : OpR := ⟨false, 0, 5, 1, 2⟩
    let s : State := xs [(1, 200)] (heaped rich)
    let t := Traits.ofR o (fx o.d) (fx o.a) (fk o.b)
    let c := coreOf s.cur
    let job := s.hand.ctx.ids.job
    let n := s.hand.x (issued s t).a
    let w : State := (heapAlloc (begun s t) c job n.toNat).1
    let a : Word := 0x30000;
    s.hand.out.length < 16 ∧ heapAlloc (begun s t) c job n.toNat = (w, some a) ∧ performs s t = true) ∧
   (let o : OpR := ⟨false, 0, 5, 1, 2⟩
    let s : State := xs [(1, 200)] { rich with hbm := Memory.write rich.hbm 0 (leBytes 16 (2 ^ 127 + 2 ^ 126 + 3 * 2 ^ 64)) }
    let t := Traits.ofR o (fx o.d) (fx o.a) (fk o.b)
    let c := coreOf s.cur
    let job := s.hand.ctx.ids.job
    let n := s.hand.x (issued s t).a
    let w : State := (heapAlloc (begun s t) c job n.toNat).1;
    s.hand.out.length < 16 ∧ heapAlloc (begun s t) c job n.toNat = (w, none) ∧ performs s t = true) ∧
   (let o : OpR := ⟨false, 0, 5, 1, 2⟩
    let s : State := xs [(1, 0)]
    let tf := Traits.ofR o (fk o.d) (fx o.a) (fk o.b)
    let p := s.hand.x (issued s tf).a;
    p = 0 ∧ performs s tf = true) ∧
   (let o : OpR := ⟨false, 0, 5, 1, 2⟩
    let s : State := xs [(1, 0x30000)] (used (heaped rich))
    let tf := Traits.ofR o (fk o.d) (fx o.a) (fk o.b)
    let c := coreOf s.cur
    let m := moduleOf c
    let job := s.hand.ctx.ids.job
    let p := s.hand.x (issued s tf).a
    let used := (tget Arena.empty (s.modu m).heap job).used
    let inside := ∃ start size, heapOf (s.heapEntry m job) = some (start, size) ∧ start ≤ p.toNat ∧ p.toNat < start + 64 * size;
    p ≠ 0 ∧ quiet s s.cur = true ∧ inside ∧ (tfind used p.toNat).isSome = true ∧ performs s tf = true) ∧
   (let o : OpR := ⟨false, 0, 5, 1, 2⟩
    let s : State := xs [(1, 200)] (heaped rich)
    let tf := Traits.ofR o (fk o.d) (fx o.a) (fk o.b)
    let c := coreOf s.cur
    let m := moduleOf c
    let job := s.hand.ctx.ids.job
    let p := s.hand.x (issued s tf).a
    let used := (tget Arena.empty (s.modu m).heap job).used
    let inside := ∃ start size, heapOf (s.heapEntry m job) = some (start, size) ∧ start ≤ p.toNat ∧ p.toNat < start + 64 * size;
    p ≠ 0 ∧ quiet s s.cur = true ∧ (¬(inside ∧ (tfind used p.toNat).isSome = true)) ∧ performs s tf = true) ∧
   (let n : Nat := 65536
    let k : Nat := 1;
    0 < n ∧ n ≤ 65536 ∧ k < heapClass n 0 9) :=
  ⟨by decide +kernel,
   by decide +kernel,
   by decide +kernel,
   by
    refine ⟨?_, ?_, ⟨(heapOf (State.heapEntry (used (heaped rich)) 0 0)).get!.1, (heapOf (State.heapEntry (used (heaped rich)) 0 0)).get!.2, by decide +kernel⟩, ?_, ?_⟩ <;> decide +kernel,
   ⟨by decide +kernel, by decide +kernel, fun h => absurd h.2 (by decide +kernel), by decide +kernel⟩,
   by decide +kernel⟩

end HeapGivesAndTakesBack

/-- States and operands that meet the hypotheses of StreamElementsInOrder. -/
theorem meets_StreamElementsInOrder :
   (let o : OpR := ⟨false, 0, 1, 1, 0⟩
    let s : State := strm ⟨.fill, false, sdesc 0, 1, 2, [(9, none)], 0⟩
    let tb : Traits := { Traits.ofR o (fs o.d) (fx o.a) (fk o.b) with pol := .taken }
    let p := s.hand.x (issued s tb).a
    let k : Nat := 6;
    calm s s.cur = true ∧ (begun s tb).target s.cur p 64 .load = .error k ∧ performs s tb = true) ∧
   (let o : OpR := ⟨false, 0, 1, 1, 0⟩
    let s : State := xs [(1, own 0x41)]
    let tb : Traits := { Traits.ofR o (fs o.d) (fx o.a) (fk o.b) with pol := .taken }
    let p := s.hand.x (issued s tb).a
    let tgt : Target := .own 0x41;
    calm s s.cur = true ∧ (begun s tb).target s.cur p 64 .load = .ok tgt ∧ p.toNat % 64 ≠ 0 ∧ performs s tb = true) ∧
   (let o : OpR := ⟨false, 0, 1, 1, 0⟩
    let s : State := xs [(1, own 0x40)] (scratch 0x40 (leBytes 64 5))
    let tb : Traits := { Traits.ofR o (fs o.d) (fx o.a) (fk o.b) with pol := .taken }
    let p := s.hand.x (issued s tb).a
    let st (n : Nat) := s.hand.stream n
    let idle (n : Nat) := (st n).drains = true → (st n).buf = []
    let base (n : Nat) (u : State) : State := if ((st n).drains = true ∧ 0 < (st n).next) then (acquireCore u (coreOf s.cur)).stage s.cur .sent else u
    let tgt : Target := .own 0x40
    let w : State := (readBytes (begun s tb) s.cur p 64 .load false gkLoad (issued s tb).pc).1
    let bs : List Byte := leBytes 64 5
    let d : BitVec 512 := .ofNat 512 (leNat bs);
    calm s s.cur = true ∧ p.toNat % 64 = 0 ∧ idle (issued s tb).d ∧ s.onWay (isDirectWrite s.cur) = false ∧ (begun s tb).target s.cur p 64 .load = .ok tgt ∧ readBytes (notePolicy (issued s tb) [p] (base (issued s tb).d (begun s tb))) s.cur p 64 .load false gkLoad (issued s tb).pc = (w, .ok bs) ∧ w.linkHeld = false ∧ streamBad s.cur d = true ∧ performs s tb = true) ∧
   (let o : OpR := ⟨false, 0, 1, 1, 0⟩
    let s : State := xs [(1, own 0x40)] (scratch 0x40 (leBytes 64 (sdesc 0).toNat))
    let tb : Traits := { Traits.ofR o (fs o.d) (fx o.a) (fk o.b) with pol := .taken }
    let p := s.hand.x (issued s tb).a
    let st (n : Nat) := s.hand.stream n
    let idle (n : Nat) := (st n).drains = true → (st n).buf = []
    let base (n : Nat) (u : State) : State := if ((st n).drains = true ∧ 0 < (st n).next) then (acquireCore u (coreOf s.cur)).stage s.cur .sent else u
    let tgt : Target := .own 0x40
    let w : State := (readBytes (begun s tb) s.cur p 64 .load false gkLoad (issued s tb).pc).1
    let bs : List Byte := leBytes 64 (sdesc 0).toNat
    let d : BitVec 512 := .ofNat 512 (leNat bs);
    calm s s.cur = true ∧ p.toNat % 64 = 0 ∧ idle (issued s tb).d ∧ s.onWay (isDirectWrite s.cur) = false ∧ (begun s tb).target s.cur p 64 .load = .ok tgt ∧ readBytes (notePolicy (issued s tb) [p] (base (issued s tb).d (begun s tb))) s.cur p 64 .load false gkLoad (issued s tb).pc = (w, .ok bs) ∧ w.linkHeld = false ∧ streamBad s.cur d = false ∧ performs s tb = true) ∧
   (let o : OpR := ⟨false, 0, 1, 1, 0⟩
    let s : State := xs [(1, own 0x41)]
    let tu := Traits.ofR o (fs o.d) (fk o.a) (fk o.b)
    let st (n : Nat) := s.hand.stream n
    let idle (n : Nat) := (st n).drains = true → (st n).buf = [];
    calm s s.cur = true ∧ idle (issued s tu).d ∧ performs s tu = true) ∧
   (let o : OpR := ⟨false, 0, 1, 1, 0⟩
    let s : State := strm ⟨.drain, true, sdesc 1, 1, 2, [(9, none)], 0⟩
    let tu := Traits.ofR o (fs o.d) (fk o.a) (fk o.b)
    let st (n : Nat) := s.hand.stream n
    let idle (n : Nat) := (st n).drains = true → (st n).buf = [];
    calm s s.cur = true ∧ (¬ idle (issued s tu).d) ∧ performs s tu = true) ∧
   (let o : OpR := ⟨false, 0, 1, 1, 0⟩
    let s : State := strm ⟨.fill, false, sdesc 0, 1, 2, [(9, none)], 0⟩
    let tg := Traits.ofR o (fx o.d) (fs o.a) (fk o.b)
    let st (n : Nat) := s.hand.stream n
    let l : Line := 9
    let rest : List (Line × Option FaultRec) := []
    let x : Stream := ⟨.fill, false, sdesc 0, 1, 2, [(9, none)], 0⟩;
    calm s s.cur = true ∧ x = st (issued s tg).a ∧ x.mode = .fill ∧ streamEsize x.desc ≤ 3 ∧ x.buf = (l, none) :: rest ∧ performs s tg = true) ∧
   (let o : OpR := ⟨false, 0, 1, 1, 0⟩
    let s : State := strm ⟨.fill, false, sdesc 0, 1, 2, [(9, none)], 0⟩
    let tv := Traits.ofR o (fv o.d) (fs o.a) (fk o.b)
    let st (n : Nat) := s.hand.stream n
    let l : Line := 9
    let rest : List (Line × Option FaultRec) := []
    let x : Stream := ⟨.fill, false, sdesc 0, 1, 2, [(9, none)], 0⟩;
    calm s s.cur = true ∧ x = st (issued s tv).a ∧ x.mode = .fill ∧ x.buf = (l, none) :: rest ∧ performs s tv = true) ∧
   (let o : OpR := ⟨false, 0, 1, 1, 0⟩
    let s : State := strm ⟨.drain, true, sdesc 1, 1, 2, [(9, none)], 0⟩
    let tp := Traits.ofR o (fs o.d) (fx o.a) (fk o.b)
    let st (n : Nat) := s.hand.stream n
    let x : Stream := ⟨.drain, true, sdesc 1, 1, 2, [(9, none)], 0⟩;
    calm s s.cur = true ∧ x = st (issued s tp).d ∧ x.mode = .drain ∧ streamEsize x.desc ≤ 3 ∧ x.buf.length < drainRoom x.desc ∧ performs s tp = true) ∧
   (let o : OpR := ⟨false, 0, 1, 1, 0⟩
    let s : State := strm ⟨.drain, true, sdesc 1, 1, 2, [(9, none)], 0⟩
    let tw := Traits.ofR o (fs o.d) (fv o.a) (fk o.b)
    let st (n : Nat) := s.hand.stream n
    let x : Stream := ⟨.drain, true, sdesc 1, 1, 2, [(9, none)], 0⟩;
    calm s s.cur = true ∧ x = st (issued s tw).d ∧ x.mode = .drain ∧ x.buf.length < drainRoom x.desc ∧ performs s tw = true) ∧
   (let o : OpR := ⟨false, 0, 1, 1, 0⟩
    let s : State := xs [(1, own 0x41)]
    let tg := Traits.ofR o (fx o.d) (fs o.a) (fk o.b)
    let st (n : Nat) := s.hand.stream n;
    calm s s.cur = true ∧ (st (issued s tg).a).mode = .unbound ∧ performs s tg = true) ∧
   (let o : OpR := ⟨false, 0, 1, 1, 0⟩
    let s : State := xs [(1, own 0x41)]
    let tp := Traits.ofR o (fs o.d) (fx o.a) (fk o.b)
    let st (n : Nat) := s.hand.stream n;
    calm s s.cur = true ∧ (st (issued s tp).d).mode = .unbound ∧ performs s tp = true) :=
  by
  and_intros <;> first | decide +kernel | exact exOf (by decide +kernel) | exact pairOf (by decide +kernel)

/-- States and operands that meet the hypotheses of HeliostatTransfers. -/
theorem meets_HeliostatTransfers :
   (let o : OpR := ⟨false, 0, 3, 1, 2⟩
    let s : State := xs [(1, 0x40), (2, 4), (3, 5)]
    let t := Traits.ofR o (fx o.d) (fx o.a) (fx o.b)
    let i := issued s t
    let b := i.bval s.hand
    let d := s.hand.x i.d;
    quiet s s.cur = true ∧ ((bits b 63 32 % 8 ≠ 0 ∨ bits b 31 25 ≠ 0 ∨ bits b 18 0 % 8 ≠ 0 ∨ bits d 63 32 = 0 ∨ bits d 63 32 % 8 ≠ 0 ∨ bits d 31 0 = 0 ∨ hpBad s.hand.ctx.hpat = true)) ∧ performs s t = true) ∧
   (let o : OpR := ⟨false, 0, 3, 1, 2⟩
    let s : State := arr 0 ⟨0, 3⟩ (xs [(1, 0x40), (2, 0x40 + 64 * 2 ^ 32), (3, 2 + 16 * 2 ^ 32)])
    let t := Traits.ofR o (fx o.d) (fx o.a) (fx o.b)
    let i := issued s t
    let b := i.bval s.hand
    let d := s.hand.x i.d
    let c := coreOf s.cur
    let owner := (tget Arrival.zero (s.core c).arrivals (bits b 24 19)).owner;
    quiet s s.cur = true ∧ (¬(bits b 63 32 % 8 ≠ 0 ∨ bits b 31 25 ≠ 0 ∨ bits b 18 0 % 8 ≠ 0 ∨ bits d 63 32 = 0 ∨ bits d 63 32 % 8 ≠ 0 ∨ bits d 31 0 = 0 ∨ hpBad s.hand.ctx.hpat = true)) ∧ owner ≠ s.hand.ctx.ids.job ∧ performs s t = true) ∧
   (let o : OpR := ⟨false, 0, 3, 1, 2⟩
    let s : State := xs [(1, 0x5000000000000000), (2, 0x40 + 64 * 2 ^ 32), (3, 2 + 16 * 2 ^ 32)] (mapped rich)
    let t := Traits.ofR o (fx o.d) (fx o.a) (fx o.b)
    let i := issued s t
    let a := s.hand.x i.a
    let b := i.bval s.hand
    let d := s.hand.x i.d
    let c := coreOf s.cur
    let owner := (tget Arrival.zero (s.core c).arrivals (bits b 24 19)).owner
    let far := 2 ≤ bits a 63 60 ∧ ¬(bits a 63 60 = 2 ∧ bits a 59 57 = c % 8);
    quiet s s.cur = true ∧ (¬(bits b 63 32 % 8 ≠ 0 ∨ bits b 31 25 ≠ 0 ∨ bits b 18 0 % 8 ≠ 0 ∨ bits d 63 32 = 0 ∨ bits d 63 32 % 8 ≠ 0 ∨ bits d 31 0 = 0 ∨ hpBad s.hand.ctx.hpat = true)) ∧ owner = s.hand.ctx.ids.job ∧ far ∧ performs s t = true) ∧
   (let o : OpR := ⟨false, 0, 3, 1, 2⟩
    let s : State := xs [(1, 0x41), (2, 0x40 + 64 * 2 ^ 32), (3, 2 + 16 * 2 ^ 32)] (mapped rich)
    let t := Traits.ofR o (fx o.d) (fx o.a) (fx o.b)
    let i := issued s t
    let a := s.hand.x i.a
    let b := i.bval s.hand
    let d := s.hand.x i.d
    let c := coreOf s.cur
    let owner := (tget Arrival.zero (s.core c).arrivals (bits b 24 19)).owner
    let far := 2 ≤ bits a 63 60 ∧ ¬(bits a 63 60 = 2 ∧ bits a 59 57 = c % 8);
    quiet s s.cur = true ∧ (¬(bits b 63 32 % 8 ≠ 0 ∨ bits b 31 25 ≠ 0 ∨ bits b 18 0 % 8 ≠ 0 ∨ bits d 63 32 = 0 ∨ bits d 63 32 % 8 ≠ 0 ∨ bits d 31 0 = 0 ∨ hpBad s.hand.ctx.hpat = true)) ∧ owner = s.hand.ctx.ids.job ∧ (¬far) ∧ a.toNat % 8 ≠ 0 ∧ performs s t = true) ∧
   (let o : OpR := ⟨false, 0, 3, 1, 2⟩
    let s : State := xs [(1, 0x40), (2, 0x40 + 64 * 2 ^ 32), (3, 2 + 16 * 2 ^ 32)] (mapped rich)
    let t := Traits.ofR o (fx o.d) (fx o.a) (fx o.b)
    let i := issued s t
    let a := s.hand.x i.a
    let b := i.bval s.hand
    let d := s.hand.x i.d
    let c := coreOf s.cur
    let owner := (tget Arrival.zero (s.core c).arrivals (bits b 24 19)).owner
    let far := 2 ≤ bits a 63 60 ∧ ¬(bits a 63 60 = 2 ∧ bits a 59 57 = c % 8);
    quiet s s.cur = true ∧ (¬(bits b 63 32 % 8 ≠ 0 ∨ bits b 31 25 ≠ 0 ∨ bits b 18 0 % 8 ≠ 0 ∨ bits d 63 32 = 0 ∨ bits d 63 32 % 8 ≠ 0 ∨ bits d 31 0 = 0 ∨ hpBad s.hand.ctx.hpat = true)) ∧ owner = s.hand.ctx.ids.job ∧ (¬far) ∧ a.toNat % 8 = 0 ∧ performs s t = true) ∧
   (let h : BitVec 55 := .ofNat 55 (5 * 2 ^ 48 + 2 ^ 40 + 3 * 2 ^ 30 + 2 * 2 ^ 20 + 16);
    hpBad h = false) :=
  by and_intros <;> decide +kernel

namespace VectorIntegers

/-- Vectors of mixed elements; predicate 1 leaves a few elements out. -/
def vecs (s : State := rich) : State := hand (fun h =>
  ((((h.setV 1 (.ofNat 1024 5)).setV 2 (.ofNat 1024 (0x3F80000040200000BF000000FF800001 * (2 ^ 512 + 2 ^ 200 + 3)))).setV 3
    (.ofNat 1024 (0x40400000800000007F8000007FC00000 * (2 ^ 640 + 2 ^ 96 + 1)))).setP 1 (.ofNat 128 (2 ^ 128 - 1 - 0xFF00F0)))) s

/-- States and operands that meet the hypotheses of VectorIntegers. -/
theorem meets_VectorIntegers :
   (let o : OpV := ⟨false, 1, 2, 3, 1, 2⟩
    let s : State := vecs
    let t := Traits.ofV o (fv o.d) (fv o.a) (fv o.b)
    let tb := { t with sets := true, sat := true };
    performs s tb = true) ∧
   (let o : OpV := ⟨false, 1, 2, 3, 1, 2⟩
    let s : State := vecs
    let t := Traits.ofV o (fv o.d) (fv o.a) (fv o.b);
    performs s t = true) ∧
   (let o : OpV := ⟨false, 1, 2, 3, 1, 2⟩
    let s : State := vecs
    let t := Traits.ofV o (fv o.d) (fv o.a) (fv o.b)
    let tv := { t with sets := true };
    performs s tv = true) ∧
   (let o : OpV := ⟨false, 1, 2, 3, 1, 2⟩
    let s : State := vecs;
    performs s (Traits.ofV o (fv o.d) (fv o.a) fnone) = true) :=
  ⟨by decide +kernel, by decide +kernel, by decide +kernel, by decide +kernel⟩

end VectorIntegers

namespace VectorFloatingPoint

/-- Vectors of mixed elements; predicate 1 leaves a few elements out. -/
def vecs (s : State := rich) : State := hand (fun h =>
  ((((h.setV 1 (.ofNat 1024 5)).setV 2 (.ofNat 1024 (0x7FA00001FF8000007F80000080000000 * (2 ^ 512 + 2 ^ 256 + 1)))).setV 3
    (.ofNat 1024 (0x40400000800000007F8000007FC00000 * (2 ^ 640 + 2 ^ 96 + 1)))).setP 1 (.ofNat 128 (2 ^ 128 - 1 - 0xFF00F0)))) s

/-- States and operands that meet the hypotheses of VectorFloatingPoint. -/
theorem meets_VectorFloatingPoint :
   (let o : OpV := ⟨false, 1, 2, 3, 1, 2⟩
    let s : State := vecs
    let t := { Traits.ofV o (fv o.d) (fv o.a) (fv o.b) with sets := true, rounds := false }
    let tr := { t with rounds := true };
    performs s tr = true) ∧
   (let o : OpV := ⟨false, 1, 2, 3, 1, 2⟩
    let s : State := vecs
    let tu := { Traits.ofV o (fv o.d) (fv o.a) fnone with sets := true, rounds := false };
    performs s { tu with rounds := true } = true) ∧
   (let o : OpV := ⟨false, 1, 2, 3, 1, 2⟩
    let s : State := vecs
    let t := { Traits.ofV o (fv o.d) (fv o.a) (fv o.b) with sets := true, rounds := false };
    performs s t = true) ∧
   (let o : OpV := ⟨false, 1, 2, 3, 0, 1⟩
    let s : State := vecs
    let tu := { Traits.ofV o (fv o.d) (fv o.a) fnone with sets := true, rounds := false };
    performs s tu = true) ∧
   (let o : OpVC := ⟨false, 1, 2, 0, 0, 0, 1⟩
    let s : State := vecs
    let dst := o.c.toNat
    let src := o.b.toNat
    let t : Traits := {
        m := o.m, guard := 0, d := fv o.d, a := fv o.a, b := fk o.b, imm := none, immB := false
        rounds := convertRounds dst src, sets := convertSets dst src, sat := decide (4 ≤ dst ∧ dst < 12), pol := .ignored, rep := true, narrow := false
        more := ([], []), power := true };
    performs s t = true) :=
  by and_intros <;> decide +kernel

end VectorFloatingPoint

/-- States and operands that meet the hypotheses of SpecialFunctionValues. -/
theorem meets_SpecialFunctionValues :
   (let n : Nat := 0
    let a : Nat := 0x7FC00000
    let q : Bool := false;
    n < 10 ∧ fpVal 1 a = .nan q) ∧
   (let n : Nat := 0;
    n < 2) ∧
   (let n : Nat := 2;
    (n = 2 ∨ n = 3)) ∧
   (let n : Nat := 2
    let a : Nat := 0xBF800000
    let m : Nat := 0x800000
    let e : Int := -23;
    (n = 2 ∨ n = 3 ∨ n = 5) ∧ fpVal 1 a = .fin true m e ∧ 0 < m) ∧
   (let a : Nat := 0x3F800000
    let neg : Bool := false
    let m : Nat := 0x800000
    let e : Int := -23
    let v : Int := 1;
    fpVal 1 a = .fin neg m e ∧ 0 < m ∧ integerOf neg m e = some v ∧ -149 ≤ v ∧ v ≤ 127) ∧
   (let a : Nat := 0x3F800000
    let m : Nat := 0x800000
    let e : Int := -23
    let k : Int := 0;
    fpVal 1 a = .fin false m e ∧ 0 < m ∧ powerOf m e = some k) ∧
   (let n : Nat := 0
    let a : Nat := 0x3F800000
    let neg : Bool := false
    let m : Nat := 0x800000
    let e : Int := -23;
    n < 10 ∧ fpVal 1 a = .fin neg m e ∧ specialFinite n neg m e = none) :=
  by and_intros <;> decide +kernel

namespace VectorPredicates

/-- Vectors of mixed elements; predicate 1 leaves a few elements out. -/
def vecs (s : State := rich) : State := hand (fun h =>
  ((((h.setV 1 (.ofNat 1024 5)).setV 2 (.ofNat 1024 (0x3F80000040200000BF000000FF800001 * (2 ^ 512 + 2 ^ 200 + 3)))).setV 3
    (.ofNat 1024 (0x40400000800000007F8000007FC00000 * (2 ^ 640 + 2 ^ 96 + 1)))).setP 1 (.ofNat 128 (2 ^ 128 - 1 - 0xFF00F0)))) s

/-- States and operands that meet the hypotheses of VectorPredicates. -/
theorem meets_VectorPredicates :
   (let o : OpV := ⟨false, 1, 2, 3, 1, 2⟩
    let s : State := vecs
    let t := Traits.ofV o (fp o.d) (fv o.a) (fv o.b);
    performs s t = true) ∧
   (let o : OpV := ⟨false, 1, 2, 3, 1, 2⟩
    let s : State := vecs
    let tw := Traits.ofV o (fp o.d) (fx o.a) (fx o.b);
    performs s tw = true) ∧
   (let o : OpV := ⟨false, 1, 2, 3, 1, 2⟩
    let s : State := vecs
    let t := Traits.ofV o (fp o.d) (fv o.a) (fv o.b)
    let tf := { t with sets := true };
    performs s tf = true) ∧
   (let o : OpV := ⟨false, 1, 2, 3, 1, 2⟩
    let s : State := vecs
    let ta : Field := (fp o.a)
    let tb : Field := (fp o.b);
    performs s (Traits.ofV o (fp o.d) ta tb) = true) ∧
   (let o : OpV := ⟨false, 1, 2, 3, 1, 2⟩
    let s : State := vecs
    let ta : Field := (fp o.a)
    let tb : Field := fnone;
    performs s (Traits.ofV o (fp o.d) ta tb) = true) ∧
   (let o : OpV := ⟨false, 1, 2, 3, 1, 2⟩
    let s : State := vecs
    let ta : Field := fnone
    let tb : Field := fnone;
    performs s (Traits.ofV o (fp o.d) ta tb) = true) ∧
   (let o : OpV := ⟨false, 1, 2, 3, 1, 2⟩
    let s : State := vecs;
    performs s (Traits.ofV o (fx o.d) (fp o.a) fnone) = true) :=
  by and_intros <;> decide +kernel

end VectorPredicates

namespace VectorPermutesAndReductions

/-- Vectors of mixed elements; predicate 1 leaves a few elements out. -/
def vecs (s : State := rich) : State := hand (fun h =>
  ((((h.setV 1 (.ofNat 1024 5)).setV 2 (.ofNat 1024 (0x3F80000040200000BF000000FF800001 * (2 ^ 512 + 2 ^ 200 + 3)))).setV 3
    (.ofNat 1024 (0x40400000800000007F8000007FC00000 * (2 ^ 640 + 2 ^ 96 + 1)))).setP 1 (.ofNat 128 (2 ^ 128 - 1 - 0xFF00F0)))) s

/-- States and operands that meet the hypotheses of VectorPermutesAndReductions. -/
theorem meets_VectorPermutesAndReductions :
   (let o : OpV := ⟨false, 1, 2, 3, 1, 2⟩
    let s : State := vecs
    let t := Traits.ofV o (fv o.d) (fv o.a) (fv o.b);
    performs s t = true) ∧
   (let o : OpV := ⟨false, 1, 2, 3, 1, 2⟩
    let s : State := vecs;
    performs s (Traits.ofV o (fv o.d) fnone (fx o.b)) = true) ∧
   (let o : OpV := ⟨false, 1, 2, 3, 1, 2⟩
    let s : State := vecs
    let tx := Traits.ofV o (fv o.d) (fv o.a) (fx o.b);
    performs s tx = true) ∧
   (let o : OpV := ⟨false, 1, 2, 3, 1, 2⟩
    let s : State := vecs
    let t1 := Traits.ofV o (fv o.d) (fv o.a) fnone;
    performs s t1 = true) ∧
   (let o : OpV := ⟨false, 1, 2, 3, 1, 2⟩
    let s : State := vecs;
    performs s (Traits.ofV o (fx o.d) (fv o.a) (fx o.b)) = true) ∧
   (let o : OpV := ⟨false, 1, 2, 3, 1, 2⟩
    let s : State := vecs
    let w := 8 * 2 ^ o.t.toNat
    let n (i : Iss) (h : Thread) : Nat := (i.bval h).toNat
    let tv := Traits.ofV o (fv o.d) (fx o.a) (fx o.b)
    let i := issued s tv;
    1024 / w ≤ n i s.hand ∧ performs s tv = true) ∧
   (let o : OpV := ⟨false, 1, 2, 3, 1, 2⟩
    let s : State := xs [(3, 2)] vecs
    let w := 8 * 2 ^ o.t.toNat
    let n (i : Iss) (h : Thread) : Nat := (i.bval h).toNat
    let tv := Traits.ofV o (fv o.d) (fx o.a) (fx o.b)
    let i := issued s tv;
    n i s.hand < 1024 / w) ∧
   (let o : OpV := ⟨false, 1, 2, 3, 1, 2⟩
    let s : State := vecs;
    performs s (Traits.ofV o (fx o.d) fnone fnone) = true) ∧
   (let o : OpV := ⟨false, 1, 2, 3, 1, 2⟩
    let s : State := vecs
    let t := Traits.ofV o (fx o.d) (fv o.a) fnone;
    performs s t = true) ∧
   (let o : OpV := ⟨false, 1, 2, 3, 1, 2⟩
    let s : State := vecs
    let t := Traits.ofV o (fx o.d) (fv o.a) fnone
    let tf := { t with sets := true }
    let ts : Traits := { tf with rounds := true };
    performs s ts = true) ∧
   (let o : OpV := ⟨false, 1, 2, 3, 1, 2⟩
    let s : State := vecs
    let t := Traits.ofV o (fx o.d) (fv o.a) fnone
    let tf := { t with sets := true }
    let ts : Traits := { tf with rounds := false };
    performs s ts = true) :=
  by and_intros <;> decide +kernel

end VectorPermutesAndReductions

namespace VectorMemory

/-- Vectors of mixed elements; predicate 1 leaves a few elements out. -/
def vecs (s : State := rich) : State := hand (fun h =>
  ((((h.setV 1 (.ofNat 1024 5)).setV 2 (.ofNat 1024 (0x3F80000040200000BF000000FF800001 * (2 ^ 512 + 2 ^ 200 + 3)))).setV 3
    (.ofNat 1024 (0x40400000800000007F8000007FC00000 * (2 ^ 640 + 2 ^ 96 + 1)))).setP 1 (.ofNat 128 (2 ^ 128 - 1 - 0xFF00F0)))) s

/-- Pointers into the own scratchpad, one stride and a vector of offsets. -/
def vmem (p : Word) (s : State := rich) : State := xs [(2, p), (3, 24)] (vecs (scratch 0x40 (leBytes 64 0x123456789ABCDEF0FEDCBA9876543210) s))

/-- States and operands that meet the hypotheses of VectorMemory. -/
theorem meets_VectorMemory :
   (let o : OpVM := ⟨false, 1, 2, 3, 1, 0, false, 3⟩
    let s : State := vmem (own 0x40)
    let form (b : Field) : Traits := Traits.ofVM o (fv o.d) (fx o.a) b
    let size (k : VKind) : Nat := if k = .contiguous then 1 else 2 ^ o.e.toNat
    let l : Instr × Instr × VKind × Field := (.vlds o, .vsts o, .strided, fx o.b)
    let k := l.2.2.1
    let t := form l.2.2.2
    let i := issued s t
    let e := size k
    let els := activeAddrs i s.hand k o.p e
    let rs : List (Nat × Word × Target) := ((resolveAll (begun s t) s.cur .load e els).toOption.getD [])
    let acc : List (VAcc × List Piece) := ((placeAll (begun s t) s.cur (accesses o.v k e rs)).toOption.getD []);
    quiet s s.cur = true ∧ s.hand.volatiles = 0 ∧ l ∈ [(.vld o, .vst o, .contiguous, fnone), (.vlds o, .vsts o, .strided, fx o.b), (.vldx o, .vstx o, .indexed, fv o.b)] ∧ resolveAll (begun s t) s.cur .load e els = .ok rs ∧ (if k = .contiguous then baseMisaligned (begun s t) s.cur .load o.v (s.hand.x i.a) (!els.isEmpty) else misaligned o.v e rs) = none ∧ placeAll (begun s t) s.cur (accesses o.v k e rs) = .ok acc ∧ acc ≠ [] ∧ o.v = false ∧ performs s t = true) ∧
   (let o : OpVM := ⟨false, 1, 2, 3, 1, 0, false, 3⟩
    let s : State := vmem 0x40 (mapped rich)
    let form (b : Field) : Traits := Traits.ofVM o (fv o.d) (fx o.a) b
    let size (k : VKind) : Nat := if k = .contiguous then 1 else 2 ^ o.e.toNat
    let l : Instr × Instr × VKind × Field := (.vlds o, .vsts o, .strided, fx o.b)
    let k := l.2.2.1
    let t := form l.2.2.2
    let i := issued s t
    let e := size k
    let els := activeAddrs i s.hand k o.p e
    let rs : List (Nat × Word × Target) := ((resolveAll (begun s t) s.cur .load e els).toOption.getD [])
    let acc : List (VAcc × List Piece) := ((placeAll (begun s t) s.cur (accesses o.v k e rs)).toOption.getD []);
    quiet s s.cur = true ∧ s.hand.volatiles = 0 ∧ l ∈ [(.vld o, .vst o, .contiguous, fnone), (.vlds o, .vsts o, .strided, fx o.b), (.vldx o, .vstx o, .indexed, fv o.b)] ∧ resolveAll (begun s t) s.cur .load e els = .ok rs ∧ (if k = .contiguous then baseMisaligned (begun s t) s.cur .load o.v (s.hand.x i.a) (!els.isEmpty) else misaligned o.v e rs) = none ∧ placeAll (begun s t) s.cur (accesses o.v k e rs) = .ok acc ∧ acc ≠ [] ∧ o.v = false ∧ (acc.any fun x => !x.1.own) = true) ∧
   (let o : OpVM := ⟨false, 1, 2, 3, 1, 0, true, 3⟩
    let s : State := vmem (own 0x40)
    let form (b : Field) : Traits := Traits.ofVM o (fv o.d) (fx o.a) b
    let size (k : VKind) : Nat := if k = .contiguous then 1 else 2 ^ o.e.toNat
    let l : Instr × Instr × VKind × Field := (.vlds o, .vsts o, .strided, fx o.b)
    let k := l.2.2.1
    let t := form l.2.2.2
    let i := issued s t
    let e := size k
    let els := activeAddrs i s.hand k o.p e
    let rs : List (Nat × Word × Target) := ((resolveAll (begun s t) s.cur .load e els).toOption.getD [])
    let acc : List (VAcc × List Piece) := ((placeAll (begun s t) s.cur (accesses o.v k e rs)).toOption.getD []);
    quiet s s.cur = true ∧ s.hand.volatiles = 0 ∧ l ∈ [(.vld o, .vst o, .contiguous, fnone), (.vlds o, .vsts o, .strided, fx o.b), (.vldx o, .vstx o, .indexed, fv o.b)] ∧ resolveAll (begun s t) s.cur .load e els = .ok rs ∧ (if k = .contiguous then baseMisaligned (begun s t) s.cur .load o.v (s.hand.x i.a) (!els.isEmpty) else misaligned o.v e rs) = none ∧ placeAll (begun s t) s.cur (accesses o.v k e rs) = .ok acc ∧ acc ≠ [] ∧ o.v = true ∧ performs s t = true) ∧
   (let o : OpVM := ⟨false, 1, 2, 3, 1, 0, false, 3⟩
    let s : State := vmem (own 0x40)
    let form (b : Field) : Traits := Traits.ofVM o (fv o.d) (fx o.a) b
    let size (k : VKind) : Nat := if k = .contiguous then 1 else 2 ^ o.e.toNat
    let l : Instr × Instr × VKind × Field := (.vlds o, .vsts o, .strided, fx o.b)
    let k := l.2.2.1
    let t := form l.2.2.2
    let i := issued s t
    let e := size k
    let els := activeAddrs i s.hand k o.p e
    let rs : List (Nat × Word × Target) := ((resolveAll (begun s t) s.cur .store e els).toOption.getD [])
    let acc : List (VAcc × List Piece) := ((placeAll (begun s t) s.cur (accesses o.v k e rs)).toOption.getD []);
    quiet s s.cur = true ∧ s.hand.volatiles = 0 ∧ l ∈ [(.vld o, .vst o, .contiguous, fnone), (.vlds o, .vsts o, .strided, fx o.b), (.vldx o, .vstx o, .indexed, fv o.b)] ∧ resolveAll (begun s t) s.cur .store e els = .ok rs ∧ (if k = .contiguous then baseMisaligned (begun s t) s.cur .store o.v (s.hand.x i.a) (!els.isEmpty) else misaligned o.v e rs) = none ∧ placeAll (begun s t) s.cur (accesses o.v k e rs) = .ok acc ∧ acc ≠ [] ∧ o.v = false) ∧
   (let o : OpVM := ⟨false, 1, 2, 3, 1, 0, true, 3⟩
    let s : State := vmem (own 0x40)
    let form (b : Field) : Traits := Traits.ofVM o (fv o.d) (fx o.a) b
    let size (k : VKind) : Nat := if k = .contiguous then 1 else 2 ^ o.e.toNat
    let l : Instr × Instr × VKind × Field := (.vlds o, .vsts o, .strided, fx o.b)
    let k := l.2.2.1
    let t := form l.2.2.2
    let i := issued s t
    let e := size k
    let els := activeAddrs i s.hand k o.p e
    let rs : List (Nat × Word × Target) := ((resolveAll (begun s t) s.cur .store e els).toOption.getD [])
    let acc : List (VAcc × List Piece) := ((placeAll (begun s t) s.cur (accesses o.v k e rs)).toOption.getD []);
    quiet s s.cur = true ∧ s.hand.volatiles = 0 ∧ l ∈ [(.vld o, .vst o, .contiguous, fnone), (.vlds o, .vsts o, .strided, fx o.b), (.vldx o, .vstx o, .indexed, fv o.b)] ∧ resolveAll (begun s t) s.cur .store e els = .ok rs ∧ (if k = .contiguous then baseMisaligned (begun s t) s.cur .store o.v (s.hand.x i.a) (!els.isEmpty) else misaligned o.v e rs) = none ∧ placeAll (begun s t) s.cur (accesses o.v k e rs) = .ok acc ∧ acc ≠ [] ∧ o.v = true ∧ performs s t = true) ∧
   (let o : OpVM := ⟨false, 1, 2, 3, 1, 0, false, 3⟩
    let s : State := vmem 0xF000000000000000
    let form (b : Field) : Traits := Traits.ofVM o (fv o.d) (fx o.a) b
    let size (k : VKind) : Nat := if k = .contiguous then 1 else 2 ^ o.e.toNat
    let l : Instr × Instr × VKind × Field := (.vlds o, .vsts o, .strided, fx o.b)
    let k := l.2.2.1
    let t := form l.2.2.2
    let i := issued s t
    let e := size k
    let els := activeAddrs i s.hand k o.p e
    let f : FaultRec := xlate 6 0xF000000000000000;
    quiet s s.cur = true ∧ s.hand.volatiles = 0 ∧ l ∈ [(.vld o, .vst o, .contiguous, fnone), (.vlds o, .vsts o, .strided, fx o.b), (.vldx o, .vstx o, .indexed, fv o.b)] ∧ resolveAll (begun s t) s.cur .load e els = .error f ∧ performs s t = true) ∧
   (let o : OpVM := ⟨false, 1, 2, 3, 1, 0, false, 3⟩
    let s : State := vmem 0xF000000000000000
    let form (b : Field) : Traits := Traits.ofVM o (fv o.d) (fx o.a) b
    let size (k : VKind) : Nat := if k = .contiguous then 1 else 2 ^ o.e.toNat
    let l : Instr × Instr × VKind × Field := (.vlds o, .vsts o, .strided, fx o.b)
    let k := l.2.2.1
    let t := form l.2.2.2
    let i := issued s t
    let e := size k
    let els := activeAddrs i s.hand k o.p e
    let f : FaultRec := xlate 6 0xF000000000000000;
    quiet s s.cur = true ∧ s.hand.volatiles = 0 ∧ l ∈ [(.vld o, .vst o, .contiguous, fnone), (.vlds o, .vsts o, .strided, fx o.b), (.vldx o, .vstx o, .indexed, fv o.b)] ∧ resolveAll (begun s t) s.cur .store e els = .error f ∧ performs s t = true) :=
  by
  and_intros <;> first | decide +kernel | exact exOf (by decide +kernel) | simp

end VectorMemory

namespace MatrixCommandsAndLeases

def leased (s : State) : State := modAcc s 0 1 fun a => { a with holders := [0] }

def fullDeps (s : State) : State := s.modCore 0 fun c => { c with deps := List.replicate 16 ⟨0, 0, 0, false, 0, 0, 0, [], [], false, [], false, false, none⟩ }

def zeroCmd : Nat := wholeCmd 1 1 64 0 false

/-- Registers 4 to 7 hold the command, 8 to 11 are zero. -/
def cmdRegs (s : State) : State := xs [(4, .ofNat 64 (zeroCmd % 2 ^ 64)), (5, .ofNat 64 (zeroCmd / 2 ^ 64 % 2 ^ 64)), (6, 0), (7, 0), (8, 0), (9, 0), (10, 0), (11, 0)] s

/-- States and operands that meet the hypotheses of MatrixCommandsAndLeases. -/
theorem meets_MatrixCommandsAndLeases :
   (let o : OpR := ⟨false, 0, 4, 8, 10⟩
    let s : State := cmdRegs rich
    let tc := { Traits.ofR o (fx o.d) (fx o.a) (fx o.b) with imm := none, group := (3, 1, 1) }
    let x (n : Nat) : Nat := (s.hand.x n).toNat
    let ic := issued s tc
    let t : Traits := tc
    let c : BitVec 512 := (.ofNat 512 (x ic.d + x (ic.d + 1) * 2 ^ 64 + x (ic.d + 2) * 2 ^ 128 + x (ic.d + 3) * 2 ^ 192 + x ic.a * 2 ^ 256 + x (ic.a + 1) * 2 ^ 320 + x ic.b * 2 ^ 384 + x (ic.b + 1) * 2 ^ 448))
    let f : FaultRec := denied;
    ic.d ≤ 28 ∧ ic.a ≤ 30 ∧ ic.b ≤ 30 ∧ cmdFault s s.cur c = some f ∧ performs s t = true) ∧
   (let o : OpR := ⟨false, 0, 4, 8, 10⟩
    let s : State := cmdRegs (leased rich)
    let core := coreOf s.cur
    let tc := { Traits.ofR o (fx o.d) (fx o.a) (fx o.b) with imm := none, group := (3, 1, 1) }
    let x (n : Nat) : Nat := (s.hand.x n).toNat
    let ic := issued s tc
    let t : Traits := tc
    let c : BitVec 512 := (.ofNat 512 (x ic.d + x (ic.d + 1) * 2 ^ 64 + x (ic.d + 2) * 2 ^ 128 + x (ic.d + 3) * 2 ^ 192 + x ic.a * 2 ^ 256 + x (ic.a + 1) * 2 ^ 320 + x ic.b * 2 ^ 384 + x (ic.b + 1) * 2 ^ 448));
    ic.d ≤ 28 ∧ ic.a ≤ 30 ∧ ic.b ≤ 30 ∧ cmdFault s s.cur c = none ∧ ((s.core core).deps.length < 16) ∧ performs s t = true) ∧
   (let o : OpR := ⟨false, 0, 4, 8, 10⟩
    let s : State := cmdRegs (fullDeps (leased rich))
    let core := coreOf s.cur
    let tc := { Traits.ofR o (fx o.d) (fx o.a) (fx o.b) with imm := none, group := (3, 1, 1) }
    let x (n : Nat) : Nat := (s.hand.x n).toNat
    let ic := issued s tc
    let t : Traits := tc
    let c : BitVec 512 := (.ofNat 512 (x ic.d + x (ic.d + 1) * 2 ^ 64 + x (ic.d + 2) * 2 ^ 128 + x (ic.d + 3) * 2 ^ 192 + x ic.a * 2 ^ 256 + x (ic.a + 1) * 2 ^ 320 + x ic.b * 2 ^ 384 + x (ic.b + 1) * 2 ^ 448));
    ic.d ≤ 28 ∧ ic.a ≤ 30 ∧ ic.b ≤ 30 ∧ cmdFault s s.cur c = none ∧ (¬((s.core core).deps.length < 16)) ∧ performs s t = true) ∧
   (let o : OpR := ⟨false, 0, 4, 8, 10⟩
    let s : State := cmdRegs rich
    let tc := { Traits.ofR o (fx o.d) (fx o.a) (fx o.b) with imm := none, group := (3, 1, 1) }
    let tz := Traits.ofR o (fa o.d) (fk o.a) (fk o.b)
    let ic := issued s tc
    let t : Traits := tz
    let c : BitVec 512 := (.ofNat 512 (wholeCmd 1 (issued s tz).d 64 0 false))
    let f : FaultRec := badOperand;
    cmdFault s s.cur c = some f ∧ performs s t = true) ∧
   (let o : OpR := ⟨false, 0, 1, 2, 3⟩
    let s : State := cmdRegs (leased rich)
    let core := coreOf s.cur
    let tc := { Traits.ofR o (fx o.d) (fx o.a) (fx o.b) with imm := none, group := (3, 1, 1) }
    let tz := Traits.ofR o (fa o.d) (fk o.a) (fk o.b)
    let ic := issued s tc
    let t : Traits := tz
    let c : BitVec 512 := (.ofNat 512 (wholeCmd 1 (issued s tz).d 64 0 false));
    cmdFault s s.cur c = none ∧ ((s.core core).deps.length < 16) ∧ performs s t = true) ∧
   (let o : OpR := ⟨false, 0, 1, 2, 3⟩
    let s : State := cmdRegs (fullDeps (leased rich))
    let core := coreOf s.cur
    let tc := { Traits.ofR o (fx o.d) (fx o.a) (fx o.b) with imm := none, group := (3, 1, 1) }
    let tz := Traits.ofR o (fa o.d) (fk o.a) (fk o.b)
    let ic := issued s tc
    let t : Traits := tz
    let c : BitVec 512 := (.ofNat 512 (wholeCmd 1 (issued s tz).d 64 0 false));
    cmdFault s s.cur c = none ∧ (¬((s.core core).deps.length < 16)) ∧ performs s t = true) ∧
   (let o : OpR := ⟨false, 0, 4, 8, 10⟩
    let s : State := cmdRegs rich
    let tc := { Traits.ofR o (fx o.d) (fx o.a) (fx o.b) with imm := none, group := (3, 1, 1) }
    let tm := Traits.ofR o (fa o.d) (fx o.a) (fx o.b)
    let ic := issued s tc
    let m := issued s tm
    let b := m.bval s.hand
    let l : Instr × Nat := (.mxld o, 2)
    let t : Traits := tm
    let c : BitVec 512 := (.ofNat 512 (wholeCmd l.2 m.d (if bits b 27 24 = 0 then 32 else 64) (bits b 27 24) (bit b 38) + bits b 37 32 * 2 ^ 122 + (s.hand.x m.a).toNat * 2 ^ 256 + bits b 23 0 * 2 ^ 320))
    let f : FaultRec := badOperand;
    bits b 31 28 = 0 ∧ bits b 63 39 = 0 ∧ l ∈ [(.mxld o, 2), (.mxst o, 3)] ∧ cmdFault s s.cur c = some f ∧ performs s t = true) ∧
   (let o : OpR := ⟨false, 0, 1, 2, 3⟩
    let s : State := cmdRegs (leased rich)
    let core := coreOf s.cur
    let tc := { Traits.ofR o (fx o.d) (fx o.a) (fx o.b) with imm := none, group := (3, 1, 1) }
    let tm := Traits.ofR o (fa o.d) (fx o.a) (fx o.b)
    let ic := issued s tc
    let m := issued s tm
    let b := m.bval s.hand
    let l : Instr × Nat := (.mxld o, 2)
    let t : Traits := tm
    let c : BitVec 512 := (.ofNat 512 (wholeCmd l.2 m.d (if bits b 27 24 = 0 then 32 else 64) (bits b 27 24) (bit b 38) + bits b 37 32 * 2 ^ 122 + (s.hand.x m.a).toNat * 2 ^ 256 + bits b 23 0 * 2 ^ 320));
    bits b 31 28 = 0 ∧ bits b 63 39 = 0 ∧ l ∈ [(.mxld o, 2), (.mxst o, 3)] ∧ cmdFault s s.cur c = none ∧ ((s.core core).deps.length < 16) ∧ performs s t = true) ∧
   (let o : OpR := ⟨false, 0, 1, 2, 3⟩
    let s : State := cmdRegs (fullDeps (leased rich))
    let core := coreOf s.cur
    let tc := { Traits.ofR o (fx o.d) (fx o.a) (fx o.b) with imm := none, group := (3, 1, 1) }
    let tm := Traits.ofR o (fa o.d) (fx o.a) (fx o.b)
    let ic := issued s tc
    let m := issued s tm
    let b := m.bval s.hand
    let l : Instr × Nat := (.mxld o, 2)
    let t : Traits := tm
    let c : BitVec 512 := (.ofNat 512 (wholeCmd l.2 m.d (if bits b 27 24 = 0 then 32 else 64) (bits b 27 24) (bit b 38) + bits b 37 32 * 2 ^ 122 + (s.hand.x m.a).toNat * 2 ^ 256 + bits b 23 0 * 2 ^ 320));
    bits b 31 28 = 0 ∧ bits b 63 39 = 0 ∧ l ∈ [(.mxld o, 2), (.mxst o, 3)] ∧ cmdFault s s.cur c = none ∧ (¬((s.core core).deps.length < 16)) ∧ performs s t = true) ∧
   (let o : OpR := ⟨false, 0, 1, 2, 3⟩
    let s : State := cmdRegs rich
    let tw := { Traits.ofR o (fk o.d) (fx o.a) (fk o.b) with pol := .taken }
    let p := s.hand.x (issued s tw).a;
    p.toNat % 64 ≠ 0 ∧ performs s tw = true) ∧
   (let o : OpR := ⟨false, 0, 1, 2, 3⟩
    let s : State := xs [(2, own 0x40), (3, 3), (1, 2 ^ 20)] (leased (scratch 0x40 (leBytes 64 zeroCmd)))
    let core := coreOf s.cur
    let tw := { Traits.ofR o (fk o.d) (fx o.a) (fk o.b) with pol := .taken }
    let p := s.hand.x (issued s tw).a
    let w : State := (readBytes (begun s tw) s.cur p 64 .load false gkLoad (issued s tw).pc).1
    let bs : List Byte := leBytes 64 zeroCmd;
    p.toNat % 64 = 0 ∧ s.hand.out.length < 16 ∧ ((s.core core).deps.length < 16) ∧ s.onWay (isDirectWrite s.cur) = false ∧ readBytes (notePolicy (issued s tw) [p] (begun s tw)) s.cur p 64 .load false gkLoad (issued s tw).pc = (w, .ok bs) ∧ w.linkHeld = false ∧ cmdFault w s.cur (.ofNat 512 (leNat bs)) = none ∧ performs s tw = true) ∧
   (let o : OpR := ⟨false, 0, 4, 8, 10⟩
    let s : State := hand (fun h => { h with stage := .sent }) rich
    let tv := Traits.ofR o (fv o.d) (fa o.a) (fx o.b);
    s.hand.stage = .sent ∧ s.hand.out = [] ∧ performs s tv = true) ∧
   (let o : OpR := ⟨false, 0, 4, 8, 10⟩
    let s : State := hand (fun h => { h with stage := .sent }) rich
    let ts := { Traits.ofR o (fx o.d) (fx o.a) (fx o.b) with imm := none };
    s.hand.stage = .sent ∧ s.hand.out = [] ∧ performs s ts = true) ∧
   (let o : OpR := ⟨false, 0, 1, 2, 3⟩
    let s : State := cmdRegs rich
    let tv := Traits.ofR o (fv o.d) (fa o.a) (fx o.b)
    let v := issued s tv
    let sel := v.bval s.hand
    let badSel := if bit sel 7 then bits sel 63 10 ≠ 0 ∨ bits sel 6 5 ≠ 0 else bits sel 63 8 ≠ 0;
    s.hand.stage ≠ .sent ∧ badSel ∧ performs s tv = true) ∧
   (let o : OpR := ⟨false, 0, 4, 8, 10⟩
    let s : State := cmdRegs rich
    let tv := Traits.ofR o (fv o.d) (fa o.a) (fx o.b)
    let v := issued s tv
    let sel := v.bval s.hand
    let badSel := if bit sel 7 then bits sel 63 10 ≠ 0 ∨ bits sel 6 5 ≠ 0 else bits sel 63 8 ≠ 0;
    s.hand.stage ≠ .sent ∧ (¬badSel) ∧ holdsTile s s.cur v.a = false ∧ performs s tv = true) ∧
   (let o : OpR := ⟨false, 0, 1, 1, 3⟩
    let s : State := xs [(2, own 0x41), (3, 1)] (leased rich)
    let tv := Traits.ofR o (fv o.d) (fa o.a) (fx o.b)
    let v := issued s tv
    let sel := v.bval s.hand
    let badSel := if bit sel 7 then bits sel 63 10 ≠ 0 ∨ bits sel 6 5 ≠ 0 else bits sel 63 8 ≠ 0;
    s.hand.stage ≠ .sent ∧ (¬badSel) ∧ holdsTile s s.cur v.a = true ∧ s.hand.out.length < 16 ∧ performs s tv = true) ∧
   (let o : OpR := ⟨false, 0, 4, 8, 10⟩
    let s : State := cmdRegs rich
    let tl := Traits.ofR o (fx o.d) (fx o.a) (fk o.b)
    let al := s.hand.x (issued s tl).a;
    bits al 63 5 = 0 ∧ performs s tl = true) ∧
   (let o : OpR := ⟨false, 0, 4, 8, 10⟩
    let s : State := cmdRegs rich
    let tr := Traits.ofR o (fk o.d) (fx o.a) (fk o.b)
    let ar := s.hand.x (issued s tr).a;
    bits ar 63 4 = 0 ∧ performs s tr = true) ∧
   (let o : OpR := ⟨false, 0, 1, 2, 3⟩
    let s : State := cmdRegs rich
    let ts := { Traits.ofR o (fx o.d) (fx o.a) (fx o.b) with imm := none }
    let as_ := s.hand.x (issued s ts).a;
    s.hand.stage ≠ .sent ∧ bits as_ 63 6 ≠ 0 ∧ performs s ts = true) ∧
   (let o : OpR := ⟨false, 0, 1, 2, 3⟩
    let s : State := xs [(2, 0x11), (3, 5)] (modAcc rich 0 0 fun a => { a with pend := 1 })
    let core := coreOf s.cur
    let ts := { Traits.ofR o (fx o.d) (fx o.a) (fx o.b) with imm := none }
    let as_ := s.hand.x (issued s ts).a
    let ready := readyMask (s.core core) as_;
    s.hand.stage ≠ .sent ∧ bits as_ 63 6 = 0 ∧ bit as_ 4 = true ∧ ready ≠ .ofNat 4 (bits as_ 3 0) ∧ performs s ts = true) ∧
   (let o : OpR := ⟨false, 0, 4, 8, 10⟩
    let s : State := cmdRegs rich
    let core := coreOf s.cur
    let ts := { Traits.ofR o (fx o.d) (fx o.a) (fx o.b) with imm := none }
    let as_ := s.hand.x (issued s ts).a
    let ready := readyMask (s.core core) as_;
    s.hand.stage ≠ .sent ∧ bits as_ 63 6 = 0 ∧ ((bit as_ 4 = false ∨ ready = .ofNat 4 (bits as_ 3 0))) ∧ s.hand.eng = [] ∧ s.hand.out.length < 16 ∧ performs s ts = true) :=
  by
  and_intros <;> first | decide +kernel | exact pairOf (by decide +kernel) | simp

end MatrixCommandsAndLeases

namespace QuantiserBlocksAndOutliers

def qv (l : Line) (b : Word) : State := hand (fun h => h.setV 2 l) (xs [(4, b), (5, 7)])

/-- States and operands that meet the hypotheses of QuantiserBlocksAndOutliers. -/
theorem meets_QuantiserBlocksAndOutliers :
   (let o : OpR := ⟨false, 0, 1, 2, 4⟩
    let s : State := qv (.ofNat 1024 0x3F80000040400000) (255 * 2 ^ 12)
    let t := { Traits.ofR o (fv o.d) (fv o.a) (fx o.b) with group := (0, 0, 1) }
    let i := issued s t
    let b := i.bval s.hand
    let b1 := s.hand.x (i.b + 1)
    let hoff := bits b 38 20
    let target := bits b 63 45
    let src := if bit b 0 then 3 else 1
    let thr := bits b 19 12
    let w := if bit b 0 then 16 else 32
    let els := (List.range 32).map fun k => elementOf w (s.hand.vreg i.a) k
    let xs := els.map (fpVal src)
    let n := (xs.filter (outlier thr)).length;
    ((i.b ≤ 30 ∧ bits b 11 2 = 0 ∧ bits b1 63 32 = 0 ∧ offJob s s.cur target = false ∧ hoff + 256 ≤ Config.scratchBytes ∧ hoff % 8 = 0)) ∧ n = 0 ∧ performs s t = true) ∧
   (let o : OpR := ⟨false, 0, 1, 2, 4⟩
    let s : State := qv (.ofNat 1024 0x3F80000049400000) (130 * 2 ^ 12)
    let t := { Traits.ofR o (fv o.d) (fv o.a) (fx o.b) with group := (0, 0, 1) }
    let i := issued s t
    let b := i.bval s.hand
    let b1 := s.hand.x (i.b + 1)
    let hoff := bits b 38 20
    let target := bits b 63 45
    let src := if bit b 0 then 3 else 1
    let thr := bits b 19 12
    let w := if bit b 0 then 16 else 32
    let els := (List.range 32).map fun k => elementOf w (s.hand.vreg i.a) k
    let xs := els.map (fpVal src)
    let n := (xs.filter (outlier thr)).length;
    ((i.b ≤ 30 ∧ bits b 11 2 = 0 ∧ bits b1 63 32 = 0 ∧ offJob s s.cur target = false ∧ hoff + 256 ≤ Config.scratchBytes ∧ hoff % 8 = 0)) ∧ n ≠ 0 ∧ quiet s s.cur = true ∧ performs s t = true) ∧
   (let fmt : Nat := 12
    let thr : Nat := 200
    let xs : List Fv := List.replicate 32 (fpVal 1 0x7F000000)
    let k : Nat := 0
    let x : Fv := fpVal 1 0x7F000000;
    (fmt = 12 ∨ fmt = 13) ∧ xs.length = 32 ∧ thr < 256 ∧ xs[k]? = some x ∧ (outlier thr x = true ∨ x.isNan = true)) :=
  ⟨by decide +kernel, by decide +kernel, by decide +kernel⟩

end QuantiserBlocksAndOutliers

/-- States and operands that meet the hypotheses of ExactAccumulator. -/
theorem meets_ExactAccumulator :
   (let o : OpR := ⟨false, 0, 3, 1, 2⟩
    let s : State := xs [(1, 0x4008000000000000), (2, 0xC000000000000001)]
    let tz := Traits.ofR o (fk o.d) (fk o.a) (fk o.b);
    performs s tz = true) ∧
   (let o : OpR := ⟨false, 0, 3, 1, 2⟩
    let s : State := xs [(1, 0x4008000000000000), (2, 0xC000000000000001)]
    let tf := { Traits.ofR o (fk o.d) (fx o.a) (fx o.b) with sets := true };
    performs s tf = true) ∧
   (let o : OpR := ⟨false, 0, 3, 1, 2⟩
    let s : State := xs [(1, 0x4008000000000000), (2, 0xC000000000000001)]
    let ta := { Traits.ofR o (fk o.d) (fx o.a) (fk o.b) with sets := true };
    performs s ta = true) ∧
   (let o : OpR := ⟨false, 0, 3, 1, 2⟩
    let s : State := xs [(1, 0x4008000000000000), (2, 0xC000000000000001)]
    let tr := { Traits.ofR o (fx o.d) (fk o.a) (fk o.b) with rounds := true, sets := true };
    performs s tr = true) ∧
   (let o : OpR := ⟨false, 0, 3, 1, 2⟩
    let s : State := xs [(1, 0x4008000000000000), (2, 0xC000000000000001)]
    let tg := { Traits.ofR o (fc o.d) (fk o.a) (fk o.b) with sets := true };
    performs s tg = true) ∧
   (let x : Xa := Xa.zero
    let n : Bool := false
    let m : Nat := 3
    let e : Int := -2148
    let d : Int := (m : Int) * 2 ^ (e + 2148).toNat
    let y := x.int + (if n then -d else d);
    -2148 ≤ e ∧ -2 ^ 4219 ≤ y ∧ y < 2 ^ 4219) ∧
   (let x : Xa := ⟨false, false, false, false, .ofNat 4220 (2 ^ 4219 - 1)⟩
    let n : Bool := false
    let m : Nat := 3
    let e : Int := -2148
    let d : Int := (m : Int) * 2 ^ (e + 2148).toNat
    let y := x.int + (if n then -d else d);
    -2148 ≤ e ∧ (¬(-2 ^ 4219 ≤ y ∧ y < 2 ^ 4219))) ∧
   (let a : Nat := 0x4008000000000000
    let b : Nat := 0x3FF0000000000000
    let n : Bool := false
    let m : Nat := 0x18000000000000 * 0x10000000000000
    let e : Int := -103;
    exactMul (fpVal 0 a) (fpVal 0 b) = .fin n m e) :=
  by and_intros <;> decide +kernel

/-- States and operands that meet the hypotheses of SequenceCursors. -/
theorem meets_SequenceCursors :
   (let o : OpR := ⟨false, 0, 5, 1, 2⟩
    let s : State := answered rich
    let t := Traits.ofR o (fx o.d) (fx o.a) (fx o.b);
    ((s.hand.stage = .sent ∨ ∃ x, s.hand.stage = .answered x)) ∧ s.hand.out = [] ∧ performs s t = true) ∧
   (let o : OpR := ⟨false, 0, 5, 1, 2⟩
    let s : State := answered rich
    let t := Traits.ofR o (fx o.d) (fx o.a) (fx o.b)
    let tf := { t with imm := none, group := (0, 0, 1) }
    let j := issued s tf;
    ((s.hand.stage = .sent ∨ ∃ x, s.hand.stage = .answered x)) ∧ s.hand.out = [] ∧ j.b ≤ 30 ∧ performs s tf = true) ∧
   (let o : OpR := ⟨false, 0, 5, 1, 2⟩
    let s : State := xs [(1, 0), (2, 2)] (withDesc (seqDesc 1 1) rich)
    let t := Traits.ofR o (fx o.d) (fx o.a) (fx o.b)
    let i := issued s t
    let core := coreOf s.cur
    let b := i.bval s.hand
    let opened (c : SqAt) (u : State) : State := (u.noteEntries c.core c.job c.addr).modThread s.cur (committed false)
    let c : SqAt := ⟨0, 0, 0, false, 0, 0, 0⟩
    let v : State := (sqFetch (opened c (begun s t)) c).1
    let d : Line := .ofNat 1024 (seqDesc 1 1)
    let l : Instr × (SqAt → Nat → Word → State → SqRes) := (.sqsamp o, fun c id pc s => sqSample c id pc b.toNat s);
    quiet s s.cur = true ∧ sqAt (begun s t) i = .ok c ∧ b.toNat ≤ sqLast ∧ linkDown (opened c (begun s t)) (moduleOf core) c.module = false ∧ sqFetch ((opened c (begun s t)).overLinks (moduleOf core) c.module) c = (v, .ok d) ∧ v.linkHeld = false ∧ l ∈ [(.sqsamp o, fun c id pc s => sqSample c id pc b.toNat s), (.sqplay o, fun c _ _ s => sqSetPlayback c b.toNat s), (.sqtrunc o, fun c _ _ s => sqTruncate c b.toNat s)] ∧ sqBusy d = true ∧ sqBad d = false ∧ performs s t = true) ∧
   (let o : OpR := ⟨false, 0, 5, 1, 2⟩
    let s : State := xs [(1, 0), (2, 2)] (withDesc (seqDesc 1 0) rich)
    let t := Traits.ofR o (fx o.d) (fx o.a) (fx o.b)
    let i := issued s t
    let core := coreOf s.cur
    let b := i.bval s.hand
    let opened (c : SqAt) (u : State) : State := (u.noteEntries c.core c.job c.addr).modThread s.cur (committed false)
    let c : SqAt := ⟨0, 0, 0, false, 0, 0, 0⟩
    let v : State := (sqFetch (opened c (begun s t)) c).1
    let d : Line := .ofNat 1024 (seqDesc 1 0)
    let l : Instr × (SqAt → Nat → Word → State → SqRes) := (.sqsamp o, fun c id pc s => sqSample c id pc b.toNat s)
    let q := expect v i (.regs [i.d] []) 1 false c.ptr
    let a := l.2 c q.2 i.rpc q.1;
    quiet s s.cur = true ∧ sqAt (begun s t) i = .ok c ∧ b.toNat ≤ sqLast ∧ linkDown (opened c (begun s t)) (moduleOf core) c.module = false ∧ sqFetch ((opened c (begun s t)).overLinks (moduleOf core) c.module) c = (v, .ok d) ∧ v.linkHeld = false ∧ l ∈ [(.sqsamp o, fun c id pc s => sqSample c id pc b.toNat s), (.sqplay o, fun c _ _ s => sqSetPlayback c b.toNat s), (.sqtrunc o, fun c _ _ s => sqTruncate c b.toNat s)] ∧ (sqBusy d = false ∨ sqBad d = true) ∧ a.1.linkHeld = false ∧ performs s t = true) ∧
   (let o : OpR := ⟨false, 0, 5, 1, 2⟩
    let s : State := xs [(1, 0), (2, 2)] (withDesc (seqDesc 1 0) rich)
    let t := Traits.ofR o (fx o.d) (fx o.a) (fx o.b)
    let tf := { t with imm := none, group := (0, 0, 1) }
    let j := issued s tf
    let core := coreOf s.cur
    let f := (s.hand.x j.b).toNat
    let opened (c : SqAt) (u : State) : State := (u.noteEntries c.core c.job c.addr).modThread s.cur (committed false)
    let c : SqAt := ⟨0, 0, 0, false, 0, 0, 0⟩;
    quiet s s.cur = true ∧ j.b ≤ 30 ∧ f ≤ sqLast ∧ sqAt (begun s tf) j = .ok c ∧ linkDown (opened c (begun s tf)) (moduleOf core) c.module = false ∧ performs s tf = true) ∧
   (let o : OpR := ⟨false, 0, 5, 1, 2⟩
    let s : State := xs [(1, 0), (2, 2)] (withDesc (seqDesc 1 0) rich)
    let t := Traits.ofR o (fx o.d) (fx o.a) (fx o.b)
    let i := issued s t
    let b := i.bval s.hand
    let bad : Bool := (decide (bits b 63 2 ≠ 0) || bits b 1 0 == 3)
    let good : Line → Bool := (fun _ => true)
    let c : SqAt := ⟨0, 0, 0, false, 0, 0, 0⟩
    let w : State := (readBytes ((begun s t).noteEntries c.core c.job c.addr) s.cur c.ptr 128 .load false gkLoad i.pc).1
    let bs : List Byte := leBytes 128 (seqDesc 1 0);
    sqAt (begun s t) i = .ok c ∧ bad = false ∧ s.hand.stage = .start ∧ s.hand.out = [] ∧ s.onWay (isDirectWrite s.cur) = false ∧ readBytes ((begun s t).noteEntries c.core c.job c.addr) s.cur c.ptr 128 .load false gkLoad i.pc = (w, .ok bs) ∧ w.linkHeld = false ∧ good (lineOf bs) = true ∧ performs s t = true) ∧
   (let o : OpR := ⟨false, 0, 5, 1, 2⟩
    let s : State := answered rich
    let t := Traits.ofR o (fx o.d) (fx o.a) (fx o.b);
    s.hand.stage = .sent ∧ s.hand.out = [] ∧ performs s t = true) ∧
   (let o : OpR := ⟨false, 0, 5, 1, 2⟩
    let s : State := xs [(1, 0), (2, 2)] (withDesc (seqDesc 1 0) rich)
    let t := Traits.ofR o (fx o.d) (fx o.a) (fx o.b)
    let i := issued s t
    let b := i.bval s.hand
    let bad : Bool := (decide (sqLast < b.toNat))
    let good : Line → Bool := (fun d => !sqBad d)
    let c : SqAt := ⟨0, 0, 0, false, 0, 0, 0⟩
    let w : State := (readBytes ((begun s t).noteEntries c.core c.job c.addr) s.cur c.ptr 128 .load false gkLoad i.pc).1
    let bs : List Byte := leBytes 128 (seqDesc 1 0);
    sqAt (begun s t) i = .ok c ∧ bad = false ∧ s.hand.stage = .start ∧ s.hand.out = [] ∧ s.onWay (isDirectWrite s.cur) = false ∧ readBytes ((begun s t).noteEntries c.core c.job c.addr) s.cur c.ptr 128 .load false gkLoad i.pc = (w, .ok bs) ∧ w.linkHeld = false ∧ good (lineOf bs) = true ∧ performs s t = true) ∧
   (let o : OpR := ⟨false, 0, 5, 1, 2⟩
    let s : State := xs [(1, 0), (2, 2)] (withDesc (seqDesc 0 0) rich)
    let t := Traits.ofR o (fx o.d) (fx o.a) (fx o.b)
    let i := issued s t
    let b := i.bval s.hand
    let c : SqAt := ⟨0, 0, 0, false, 0, 0, 0⟩
    let w : State := (readBytes ((begun s t).noteEntries c.core c.job c.addr) s.cur c.ptr 128 .load false gkLoad i.pc).1
    let bs : List Byte := leBytes 128 (seqDesc 0 0);
    sqAt (begun s t) i = .ok c ∧ b.toNat ≤ sqLast ∧ s.hand.stage = .start ∧ s.hand.out = [] ∧ s.onWay (isDirectWrite s.cur) = false ∧ readBytes ((begun s t).noteEntries c.core c.job c.addr) s.cur c.ptr 128 .load false gkLoad i.pc = (w, .ok bs) ∧ w.linkHeld = false ∧ sqBad (lineOf bs) = true ∧ performs s t = true) :=
  by
  and_intros <;> first | decide +kernel | exact exOf (by decide +kernel) | exact pairOf (by decide +kernel) | simp

namespace SequenceEngine

def run0 (todo : List Nat) : AttRun := ⟨.ofNat 1024 (seqDesc 1 0), 0, todo, ⟨[], [], []⟩⟩

def running (todo : List Nat) (s : State := withDesc (seqDesc 1 0) rich) : State := hand (fun h => { h with att := some (run0 todo) }) s

def run1 : AttRun := ⟨.ofNat 1024 (seqDesc 1 0 + 2 ^ 589 + 2 ^ 848), 0, [2], ⟨[], [], []⟩⟩

/-- A row of an attention step, and a query. -/
def attRow1 : AttRow := ⟨0, List.replicate 63 0 ++ [0x3F80], List.replicate 64 0x3F80⟩

def query1 : List Nat := List.replicate 64 0x4000

def prods1 : List Fv := (query1.zip (rotate 257 0 0 attRow1.key).1).map fun p => exactMul (fpVal 3 p.1) (fpVal 3 p.2)

def sum1 : Fv := prods1.tail.foldl (exactAdd 1) (prods1.headD (.nan false))

/-- States and operands that meet the hypotheses of SequenceEngine. -/
theorem meets_SequenceEngine :
   (let o : OpR := ⟨false, 0, 4, 1, 2⟩
    let s : State := xs [(2, 2 ^ 50), (3, 0)]
    let t := { Traits.ofR o (fv o.d) (fv o.a) (fx o.b) with imm := none, sets := true, group := (0, 0, 1) }
    let i := issued s t
    let p := s.hand.x i.b
    let q := s.hand.x (i.b + 1)
    let cfg := bits q 15 0;
    s.hand.out.length < 16 ∧ i.b ≤ 30 ∧ ((bits p 63 48 ≠ 0 ∨ sqLast < bits p 47 0 ∨ bits q 63 29 ≠ 0 ∨ bit q 16 = true ∨ rotKfmt cfg = 3)) ∧ performs s t = true) ∧
   (let o : OpR := ⟨false, 0, 4, 1, 2⟩
    let s : State := xs [(2, 5), (3, 0x0104)]
    let t := { Traits.ofR o (fv o.d) (fv o.a) (fx o.b) with imm := none, sets := true, group := (0, 0, 1) }
    let i := issued s t
    let p := s.hand.x i.b
    let q := s.hand.x (i.b + 1)
    let cfg := bits q 15 0;
    s.hand.out.length < 16 ∧ i.b ≤ 30 ∧ (¬(bits p 63 48 ≠ 0 ∨ sqLast < bits p 47 0 ∨ bits q 63 29 ≠ 0 ∨ bit q 16 = true ∨ rotKfmt cfg = 3)) ∧ performs s t = true) ∧
   (let o : OpR := ⟨false, 0, 4, 1, 2⟩
    let s : State := answered rich
    let t := { Traits.ofR o (fv o.d) (fx o.a) (fx o.b) with group := (3, 0, 0) }
    let i := issued s t;
    i.d ≤ 28 ∧ s.hand.att = none ∧ s.hand.stage = .sent ∧ s.hand.out = [] ∧ performs s t = true) ∧
   (let o : OpR := ⟨false, 0, 4, 1, 2⟩
    let s : State := xs [(1, 0), (2, 0)] (withDesc (seqDesc 0 0) rich)
    let t := { Traits.ofR o (fv o.d) (fx o.a) (fx o.b) with group := (3, 0, 0) }
    let i := issued s t
    let b := i.bval s.hand
    let c : SqAt := ⟨0, 0, 0, false, 0, 0, 0⟩
    let u : State := (readBytes ((begun s t).noteEntries c.core c.job c.addr) s.cur c.ptr 128 .load true gkLoad i.pc).1
    let bs : List Byte := leBytes 128 (seqDesc 0 0)
    let d := lineOf bs;
    i.d ≤ 28 ∧ s.hand.att = none ∧ s.hand.stage = .start ∧ s.hand.out = [] ∧ bits b 15 14 = 0 ∧ bits b 63 48 = 0 ∧ s.onWay (isDirectWrite s.cur) = false ∧ sqAt (begun s t) i = .ok c ∧ readBytes ((begun s t).noteEntries c.core c.job c.addr) s.cur c.ptr 128 .load true gkLoad i.pc = (u, .ok bs) ∧ u.linkHeld = false ∧ sqBad d = true ∧ performs s t = true) ∧
   (let o : OpR := ⟨false, 0, 4, 1, 2⟩
    let s : State := xs [(1, 0), (2, 7)] (withDesc (seqDesc 1 0) rich)
    let t := { Traits.ofR o (fv o.d) (fx o.a) (fx o.b) with group := (3, 0, 0) }
    let i := issued s t
    let b := i.bval s.hand
    let layer := bits b 7 0
    let head := bits b 13 8
    let c : SqAt := ⟨0, 0, 0, false, 0, 0, 0⟩
    let u : State := (readBytes ((begun s t).noteEntries c.core c.job c.addr) s.cur c.ptr 128 .load true gkLoad i.pc).1
    let bs : List Byte := leBytes 128 (seqDesc 1 0)
    let d := lineOf bs;
    i.d ≤ 28 ∧ s.hand.att = none ∧ s.hand.stage = .start ∧ s.hand.out = [] ∧ bits b 15 14 = 0 ∧ bits b 63 48 = 0 ∧ s.onWay (isDirectWrite s.cur) = false ∧ sqAt (begun s t) i = .ok c ∧ readBytes ((begun s t).noteEntries c.core c.job c.addr) s.cur c.ptr 128 .load true gkLoad i.pc = (u, .ok bs) ∧ u.linkHeld = false ∧ sqBad d = false ∧ ((1 < rotKfmt (sqRotcfg d) ∨ sqLayers d ≤ layer ∨ min (sqKrow d) (sqVrow d) ≤ head ∨ sqPages d ≤ bits b 47 16)) ∧ performs s t = true) ∧
   (let o : OpR := ⟨false, 0, 4, 1, 2⟩
    let s : State := xs [(1, 0), (2, 4 * 2 ^ 16)] (withDesc (seqDesc 1 0) rich)
    let t := { Traits.ofR o (fv o.d) (fx o.a) (fx o.b) with group := (3, 0, 0) }
    let i := issued s t
    let b := i.bval s.hand
    let layer := bits b 7 0
    let head := bits b 13 8
    let c : SqAt := ⟨0, 0, 0, false, 0, 0, 0⟩
    let u : State := (readBytes ((begun s t).noteEntries c.core c.job c.addr) s.cur c.ptr 128 .load true gkLoad i.pc).1
    let bs : List Byte := leBytes 128 (seqDesc 1 0)
    let d := lineOf bs;
    i.d ≤ 28 ∧ s.hand.att = none ∧ s.hand.stage = .start ∧ s.hand.out = [] ∧ bits b 15 14 = 0 ∧ bits b 63 48 = 0 ∧ s.onWay (isDirectWrite s.cur) = false ∧ sqAt (begun s t) i = .ok c ∧ readBytes ((begun s t).noteEntries c.core c.job c.addr) s.cur c.ptr 128 .load true gkLoad i.pc = (u, .ok bs) ∧ u.linkHeld = false ∧ sqBad d = false ∧ (¬(1 < rotKfmt (sqRotcfg d) ∨ sqLayers d ≤ layer ∨ min (sqKrow d) (sqVrow d) ≤ head ∨ sqPages d ≤ bits b 47 16)) ∧ performs s t = true) ∧
   (let o : OpR := ⟨false, 0, 4, 1, 2⟩
    let s : State := xs [(2, 0x0104)] (running [0])
    let t := { Traits.ofR o (fv o.d) (fx o.a) (fx o.b) with group := (3, 0, 0) }
    let i := issued s t
    let b := i.bval s.hand
    let layer := bits b 7 0
    let head := bits b 13 8
    let a : AttRun := run0 [0]
    let slot : Nat := 0
    let rest : List Nat := []
    let r := attSlot i (sliceModule a.gslice) s.hand.ctx.ids.job a.desc layer head slot a.read (begun s t);
    i.d ≤ 28 ∧ s.hand.att = some a ∧ a.todo = slot :: rest ∧ r.1.linkHeld = false ∧ r.2.2 = none ∧ performs s t = true) ∧
   (let o : OpR := ⟨false, 0, 4, 1, 2⟩
    let s : State := hand (fun h => { h with att := some run1 }) rich
    let t := { Traits.ofR o (fv o.d) (fx o.a) (fx o.b) with group := (3, 0, 0) }
    let i := issued s t
    let b := i.bval s.hand
    let layer := bits b 7 0
    let head := bits b 13 8
    let a : AttRun := run1
    let slot : Nat := 2
    let rest : List Nat := []
    let r := attSlot i (sliceModule a.gslice) s.hand.ctx.ids.job a.desc layer head slot a.read (begun s t)
    let e : FaultRec := ((attSlot i (sliceModule a.gslice) s.hand.ctx.ids.job a.desc layer head slot a.read (begun s t)).2.2.getD (sqFault kSeqDesc 0));
    i.d ≤ 28 ∧ s.hand.att = some a ∧ a.todo = slot :: rest ∧ r.1.linkHeld = false ∧ r.2.2 = some e ∧ performs s t = true) ∧
   (let o : OpR := ⟨false, 0, 4, 1, 2⟩
    let s : State := running []
    let t := { Traits.ofR o (fv o.d) (fx o.a) (fx o.b) with group := (3, 0, 0) }
    let i := issued s t
    let a : AttRun := run0 [];
    i.d ≤ 28 ∧ s.hand.att = some a ∧ a.todo = [] ∧ performs s t = true) ∧
   (let cfg : Nat := 4;
    (rotLb cfg = 0 ∨ rotLen cfg = 0)) ∧
   (let lb : Nat := 0
    let i : Nat := 0
    let rl : Nat := 1;
    0 < rl ∧ 2 * lb * i % rl = 0) ∧
   (let cfg : Nat := 257
    let p : Nat := 0
    let e0 : Nat := 0
    let i : Nat := 0
    let els : List Nat := [0x3F80, 0x4000]
    let t := kfmtType (rotKfmt cfg)
    let cs := orreryAngle (rotLb cfg) ((e0 + 2 * i) % rotLen cfg / 2) (rotLen cfg) p
    let x := fpVal t (els.getD (2 * i) 0)
    let y := fpVal t (els.getD (2 * i + 1) 0)
    let a : Fv := (exactMul x (fpVal 1 cs.1))
    let b : Fv := (exactMul y (fpVal 1 cs.2).neg)
    let n : Bool := false
    let m : Nat := 1073741824
    let e : Int := -30
    let n' : Bool := true
    let m' : Nat := 0
    let e' : Int := -155
    let g : Bool := false
    let k : Nat := 45671926166590716193865151022383844364247891968
    let d : Int := -155;
    rotLb cfg ≠ 0 ∧ rotLen cfg ≠ 0 ∧ 2 * i + 1 < els.length ∧ a = .fin n m e ∧ b = .fin n' m' e' ∧ exactAdd 1 a b = .fin g k d) ∧
   (let cfg : Nat := 257
    let p : Nat := 0
    let e0 : Nat := 0
    let i : Nat := 0
    let els : List Nat := [0x3F80, 0x4000]
    let t := kfmtType (rotKfmt cfg)
    let cs := orreryAngle (rotLb cfg) ((e0 + 2 * i) % rotLen cfg / 2) (rotLen cfg) p
    let x := fpVal t (els.getD (2 * i) 0)
    let y := fpVal t (els.getD (2 * i + 1) 0)
    let a : Fv := (exactMul x (fpVal 1 cs.2))
    let b : Fv := (exactMul y (fpVal 1 cs.1))
    let n : Bool := false
    let m : Nat := 0
    let e : Int := -156
    let n' : Bool := false
    let m' : Nat := 1073741824
    let e' : Int := -29
    let g : Bool := false
    let k : Nat := 182687704666362864775460604089535377456991567872
    let d : Int := -156;
    rotLb cfg ≠ 0 ∧ rotLen cfg ≠ 0 ∧ 2 * i + 1 < els.length ∧ a = .fin n m e ∧ b = .fin n' m' e' ∧ exactAdd 1 a b = .fin g k d) ∧
   (let cfg : Nat := 257
    let i : Nat := 0
    let els : List Nat := [0x7FC0, 0x4000]
    let t := kfmtType (rotKfmt cfg)
    let x := fpVal t (els.getD (2 * i) 0);
    rotLb cfg ≠ 0 ∧ rotLen cfg ≠ 0 ∧ 2 * i + 1 < els.length ∧ x.isNan = true) ∧
   (let t : Nat := 3
    let cfg : Nat := 257
    let head : Nat := 0
    let q : List Nat := query1
    let row : AttRow := attRow1
    let vs := (q.zip (rotate cfg row.pos (64 * head) row.key).1).map fun p => (fpVal t p.1, fpVal t p.2)
    let p : Fv := (prods1.headD (.nan false))
    let rest : List Fv := prods1.tail
    let g : Bool := (match sum1 with | .fin g _ _ => g | _ => false)
    let m : Nat := (match sum1 with | .fin _ m _ => m | _ => 0)
    let e : Int := (match sum1 with | .fin _ _ e => e | _ => 0);
    (vs.map fun p => exactMul p.1 p.2) = p :: rest ∧ rest.foldl (exactAdd 1) p = .fin g m e) ∧
   (let gen : Nat := 5
    let epoch : Nat := 1
    let rows : List AttRow := [];
    ((∀ r ∈ rows, r.val.length = 64)) ∧ gen < 2 ^ 48 ∧ epoch < 2 ^ 16 ∧ rows = []) ∧
   (let gen : Nat := 5
    let epoch : Nat := 1
    let rows : List AttRow := [attRow1]
    let row : AttRow := attRow1
    let rest : List AttRow := []
    let e : Nat := 3;
    ((∀ r ∈ rows, r.val.length = 64)) ∧ gen < 2 ^ 48 ∧ epoch < 2 ^ 16 ∧ rows = row :: rest ∧ e < 64) ∧
   (let gen : Nat := 5
    let epoch : Nat := 1
    let rows : List AttRow := [attRow1]
    let v3 : Line := 2 ^ 83
    let old (n : Nat) : Nat := (lanes 32 v3).getD n 0
    let n : Nat := 19;
    ((∀ r ∈ rows, r.val.length = 64)) ∧ gen < 2 ^ 48 ∧ epoch < 2 ^ 16 ∧ 19 ≤ n ∧ n < 24 ∧ (old 2).testBit n = true) ∧
   (let gen : Nat := 5
    let epoch : Nat := 1
    let rows : List AttRow := [attRow1]
    let n : Nat := 24;
    ((∀ r ∈ rows, r.val.length = 64)) ∧ gen < 2 ^ 48 ∧ epoch < 2 ^ 16 ∧ 24 ≤ n) ∧
   (let gen : Nat := 5
    let epoch : Nat := 1
    let rows : List AttRow := [attRow1]
    let n : Nat := 6;
    ((∀ r ∈ rows, r.val.length = 64)) ∧ gen < 2 ^ 48 ∧ epoch < 2 ^ 16 ∧ 6 ≤ n) :=
  by
  and_intros <;> first | decide +kernel | exact exOf (by decide +kernel) | exact pairOf (by decide +kernel)

end SequenceEngine

namespace GaussianMessages

/-- The head of a slot: dimension d, V. -/
def gslotOf (d v : Nat) : List Byte := leBytes 384 ((2 ^ 60 + d * 2 ^ 56 + v * 2 ^ 55) * 2 ^ (8 * 0x160) + 5 + 2 ^ (64 * 8))

def gtwo (c : Word) : State := xs [(1, own 0x200), (2, own 0x400), (3, c)] (scratch 0x200 (gslotOf 3 1) (scratch 0x400 (gslotOf 2 1)))

def gsame (c : Word) : State := xs [(1, own 0x200), (2, own 0x400), (3, c)] (scratch 0x200 (gslotOf 2 1) (scratch 0x400 (gslotOf 2 1)))

theorem notOwn {e : Type} (x : Except e Target) (h : (match x with | .ok (.own _) => false | _ => true) = true) : ∀ f, x ≠ .ok (.own f) := by
  rintro f rfl
  cases h

/-- States and operands that meet the hypotheses of GaussianMessages. -/
theorem meets_GaussianMessages :
   (let o : OpR := ⟨false, 0, 1, 2, 3⟩
    let s : State := xs [(1, own 0x200), (2, own 0x400), (3, 8)]
    let t3 := Traits.ofR o (fx o.d) (fx o.a) (fx o.b)
    let x (t : Traits) (n : Iss → Nat) : Word := s.hand.x (n (issued s t))
    let c3 := (issued s t3).bval s.hand
    let d3 := x t3 Iss.d
    let a3 := x t3 Iss.a;
    s.hand.out.length < 16 ∧ (s.core (coreOf s.cur)).solver.length < Config.solverQueue ∧ (slotFault (begun s t3) s.cur [d3, a3] = none) ∧ bits c3 63 4 = 0 ∧ performs s t3 = true) ∧
   (let o : OpR := ⟨false, 0, 1, 2, 3⟩
    let s : State := xs [(1, own 0x200), (2, own 0x400), (3, 8)]
    let t3 := Traits.ofR o (fx o.d) (fx o.a) (fx o.b)
    let x (t : Traits) (n : Iss → Nat) : Word := s.hand.x (n (issued s t))
    let c3 := (issued s t3).bval s.hand
    let d3 := x t3 Iss.d
    let a3 := x t3 Iss.a;
    s.hand.out.length < 16 ∧ (s.core (coreOf s.cur)).solver.length < Config.solverQueue ∧ (slotFault (begun s t3) s.cur [d3, a3] = none) ∧ bits c3 63 24 = 0 ∧ bit c3 7 = false ∧ performs s t3 = true) ∧
   (let o : OpR := ⟨false, 0, 1, 2, 3⟩
    let s : State := xs [(1, own 0x200), (2, own 0x400), (3, 8)]
    let t2 := Traits.ofR o (fx o.d) (fx o.a) (fk o.b)
    let x (t : Traits) (n : Iss → Nat) : Word := s.hand.x (n (issued s t));
    s.hand.out.length < 16 ∧ (s.core (coreOf s.cur)).solver.length < Config.solverQueue ∧ (slotFault (begun s t2) s.cur [x t2 Iss.d, x t2 Iss.a] = none) ∧ performs s t2 = true) ∧
   (let o : OpR := ⟨false, 0, 1, 2, 3⟩
    let s : State := xs [(1, own 0x200), (2, own 0x400), (3, 0x200)]
    let ts := Traits.ofR o (fk o.d) (fx o.a) (fx o.b)
    let x (t : Traits) (n : Iss → Nat) : Word := s.hand.x (n (issued s t))
    let cs := (issued s ts).bval s.hand
    let as_ := x ts Iss.a
    let target := bits cs 43 25;
    s.hand.out.length < 16 ∧ (s.core (coreOf s.cur)).solver.length < Config.solverQueue ∧ quiet s s.cur = true ∧ (slotFault (begun s ts) s.cur [as_] = none) ∧ bits cs 63 44 = 0 ∧ offJob s s.cur target = false ∧ bits cs 18 0 ≤ 0x7FE80 ∧ bits cs 18 0 % 128 = 0 ∧ performs s ts = true) ∧
   (let o : OpR := ⟨false, 0, 1, 2, 3⟩
    let s : State := xs [(1, own 0x200), (2, own 0x400), (3, 8)]
    let t2 := Traits.ofR o (fx o.d) (fx o.a) (fk o.b)
    let tl := { t2 with pol := .taken }
    let x (t : Traits) (n : Iss → Nat) : Word := s.hand.x (n (issued s t));
    s.hand.out.length < 16 ∧ (s.core (coreOf s.cur)).solver.length < Config.solverQueue ∧ (slotFault (begun s tl) s.cur [x tl Iss.d] = none) ∧ (x tl Iss.a).toNat % 128 = 0 ∧ performs s tl = true) ∧
   (let o : OpR := ⟨false, 0, 1, 2, 3⟩
    let s : State := xs [(1, own 0x200), (2, own 0x400), (3, own 0x800)]
    let t3 := Traits.ofR o (fx o.d) (fx o.a) (fx o.b)
    let tr := { t3 with imm := none }
    let x (t : Traits) (n : Iss → Nat) : Word := s.hand.x (n (issued s t));
    s.hand.out.length < 16 ∧ (s.core (coreOf s.cur)).solver.length < Config.solverQueue ∧ (slotFault (begun s tr) s.cur [x tr Iss.a, x tr Iss.b] = none) ∧ performs s tr = true) ∧
   (let o : OpR := ⟨false, 0, 1, 2, 3⟩
    let s : State := xs [(1, own 0x200), (2, own 0x400), (3, 8)]
    let t2 := Traits.ofR o (fx o.d) (fx o.a) (fk o.b)
    let x (t : Traits) (n : Iss → Nat) : Word := s.hand.x (n (issued s t));
    s.hand.out.length < 16 ∧ (s.core (coreOf s.cur)).solver.length < Config.solverQueue ∧ (slotFault (begun s t2) s.cur [x t2 Iss.a] = none) ∧ performs s t2 = true) ∧
   (let o : OpR := ⟨false, 0, 1, 2, 3⟩
    let s : State := xs [(1, own 0x200), (2, own 0x400), (3, 8)]
    let ts := Traits.ofR o (fk o.d) (fx o.a) (fx o.b)
    let x (t : Traits) (n : Iss → Nat) : Word := s.hand.x (n (issued s t))
    let cs := (issued s ts).bval s.hand
    let as_ := x ts Iss.a;
    s.hand.out.length < 16 ∧ (s.core (coreOf s.cur)).solver.length < Config.solverQueue ∧ (slotFault (begun s ts) s.cur [as_] = none) ∧ bits cs 63 16 = 0 ∧ bits cs 7 4 = 0 ∧ 1 ≤ bits cs 3 0 ∧ bits cs 3 0 ≤ 8 ∧ performs s ts = true) ∧
   (let o : OpR := ⟨false, 0, 1, 2, 3⟩
    let s : State := xs [(1, own 0x200), (2, own 0x400), (3, own 0x800)]
    let t3 := Traits.ofR o (fx o.d) (fx o.a) (fx o.b)
    let c3 := (issued s t3).bval s.hand;
    s.hand.out.length < 16 ∧ (s.core (coreOf s.cur)).solver.length < Config.solverQueue ∧ bits c3 63 4 ≠ 0 ∧ s.hand.stage = .start ∧ performs s t3 = true) ∧
   (let o : OpR := ⟨false, 0, 1, 2, 3⟩
    let s : State := rich
    let t2 := Traits.ofR o (fx o.d) (fx o.a) (fk o.b)
    let p : Word := 0x40;
    s.hand.out.length < 16 ∧ (s.core (coreOf s.cur)).solver.length < Config.solverQueue ∧ ((∀ f, (begun s t2).resolve s.cur p .load ≠ .ok (.own f)))) ∧
   (let o : OpR := ⟨false, 0, 1, 2, 3⟩
    let s : State := xs [(1, own 0x200), (2, own 0x400), (3, 8)]
    let t2 := Traits.ofR o (fx o.d) (fx o.a) (fk o.b)
    let off (p : Word) : Nat := bits p 18 0
    let p : Word := own 0x41;
    s.hand.out.length < 16 ∧ (s.core (coreOf s.cur)).solver.length < Config.solverQueue ∧ p.toNat % 128 ≠ 0 ∧ slotPtr (begun s t2) s.cur p = .ok (off p)) ∧
   (let o : OpR := ⟨false, 0, 1, 2, 3⟩
    let s : State := gtwo 0
    let core := coreOf s.cur
    let t3 := Traits.ofR o (fx o.d) (fx o.a) (fx o.b)
    let x (t : Traits) (n : Iss → Nat) : Word := s.hand.x (n (issued s t))
    let off (p : Word) : Nat := bits p 18 0
    let c3 := (issued s t3).bval s.hand
    let slot (p : Word) : GSlot := gslot (Memory.read (s.core core).scratch (off p) 384)
    let dst := slot (x t3 Iss.d)
    let src := slot (x t3 Iss.a);
    s.hand.out.length < 16 ∧ (s.core (coreOf s.cur)).solver = [] ∧ s.hand.solverDead = false ∧ performs s t3 = true ∧ ((slotPtr s s.cur (x t3 Iss.d) = .ok (off (x t3 Iss.d)) ∧ (x t3 Iss.d).toNat % 128 = 0 ∧ guarded (s.core core) (off (x t3 Iss.d)) 384 = false ∧ scratchPoisoned (s.core core) (off (x t3 Iss.d)) 384 = false)) ∧ ((slotPtr s s.cur (x t3 Iss.a) = .ok (off (x t3 Iss.a)) ∧ (x t3 Iss.a).toNat % 128 = 0 ∧ guarded (s.core core) (off (x t3 Iss.a)) 384 = false ∧ scratchPoisoned (s.core core) (off (x t3 Iss.a)) 384 = false)) ∧ bits c3 63 4 = 0 ∧ dst.bad = false ∧ src.bad = false ∧ bits c3 2 0 + src.d ≤ dst.d) ∧
   (let o : OpR := ⟨false, 0, 1, 2, 3⟩
    let s : State := gtwo 0x09
    let core := coreOf s.cur
    let t3 := Traits.ofR o (fx o.d) (fx o.a) (fx o.b)
    let x (t : Traits) (n : Iss → Nat) : Word := s.hand.x (n (issued s t))
    let off (p : Word) : Nat := bits p 18 0
    let c3 := (issued s t3).bval s.hand
    let slot (p : Word) : GSlot := gslot (Memory.read (s.core core).scratch (off p) 384)
    let src := slot (x t3 Iss.a)
    let m := src.source
    let k := bits c3 2 0
    let n := bits c3 6 3
    let te := bits c3 15 8
    let w := gsweep (fun pv => pivotLow pv || pivotSmall te (gdiag m.d m.vals) pv)
        ((List.range m.d).filter fun i => !decide (k ≤ i ∧ i < k + n)) (List.range m.d) m.vals 0 [];
    s.hand.out.length < 16 ∧ (s.core (coreOf s.cur)).solver = [] ∧ s.hand.solverDead = false ∧ performs s t3 = true ∧ ((slotPtr s s.cur (x t3 Iss.d) = .ok (off (x t3 Iss.d)) ∧ (x t3 Iss.d).toNat % 128 = 0 ∧ guarded (s.core core) (off (x t3 Iss.d)) 384 = false ∧ scratchPoisoned (s.core core) (off (x t3 Iss.d)) 384 = false)) ∧ ((slotPtr s s.cur (x t3 Iss.a) = .ok (off (x t3 Iss.a)) ∧ (x t3 Iss.a).toNat % 128 = 0 ∧ guarded (s.core core) (off (x t3 Iss.a)) 384 = false ∧ scratchPoisoned (s.core core) (off (x t3 Iss.a)) 384 = false)) ∧ bits c3 63 24 = 0 ∧ bit c3 7 = false ∧ src.bad = false ∧ n ≠ 0 ∧ k + n ≤ m.d ∧ w.2.2.2 = none) ∧
   (let o : OpR := ⟨false, 0, 1, 2, 3⟩
    let s : State := gsame 0
    let core := coreOf s.cur
    let t2 := Traits.ofR o (fx o.d) (fx o.a) (fk o.b)
    let x (t : Traits) (n : Iss → Nat) : Word := s.hand.x (n (issued s t))
    let off (p : Word) : Nat := bits p 18 0
    let slot (p : Word) : GSlot := gslot (Memory.read (s.core core).scratch (off p) 384)
    let new := slot (x t2 Iss.d)
    let old := slot (x t2 Iss.a);
    s.hand.out.length < 16 ∧ (s.core (coreOf s.cur)).solver = [] ∧ s.hand.solverDead = false ∧ performs s t2 = true ∧ ((slotPtr s s.cur (x t2 Iss.d) = .ok (off (x t2 Iss.d)) ∧ (x t2 Iss.d).toNat % 128 = 0 ∧ guarded (s.core core) (off (x t2 Iss.d)) 384 = false ∧ scratchPoisoned (s.core core) (off (x t2 Iss.d)) 384 = false)) ∧ ((slotPtr s s.cur (x t2 Iss.a) = .ok (off (x t2 Iss.a)) ∧ (x t2 Iss.a).toNat % 128 = 0 ∧ guarded (s.core core) (off (x t2 Iss.a)) 384 = false ∧ scratchPoisoned (s.core core) (off (x t2 Iss.a)) 384 = false)) ∧ new.bad = false ∧ old.bad = false ∧ ((old.v = true → old.d = new.d))) ∧
   (let o : OpR := ⟨false, 0, 1, 2, 3⟩
    let s : State := gtwo 0
    let core := coreOf s.cur
    let ts := Traits.ofR o (fk o.d) (fx o.a) (fx o.b)
    let x (t : Traits) (n : Iss → Nat) : Word := s.hand.x (n (issued s t))
    let off (p : Word) : Nat := bits p 18 0
    let cs := (issued s ts).bval s.hand
    let slot (p : Word) : GSlot := gslot (Memory.read (s.core core).scratch (off p) 384);
    s.hand.out.length < 16 ∧ (s.core (coreOf s.cur)).solver = [] ∧ s.hand.solverDead = false ∧ performs s ts = true ∧ quiet s s.cur = true ∧ ((slotPtr s s.cur (x ts Iss.a) = .ok (off (x ts Iss.a)) ∧ (x ts Iss.a).toNat % 128 = 0 ∧ guarded (s.core core) (off (x ts Iss.a)) 384 = false ∧ scratchPoisoned (s.core core) (off (x ts Iss.a)) 384 = false)) ∧ bits cs 63 44 = 0 ∧ offJob s s.cur (bits cs 43 25) = false ∧ bits cs 18 0 ≤ 0x7FE80 ∧ bits cs 18 0 % 128 = 0 ∧ (slot (x ts Iss.a)).bad = false) ∧
   (let o : OpR := ⟨false, 0, 1, 2, 3⟩
    let s : State := xs [(1, own 0x200), (2, own 0x400), (3, 8)]
    let core := coreOf s.cur
    let t2 := Traits.ofR o (fx o.d) (fx o.a) (fk o.b)
    let tl := { t2 with pol := .taken }
    let x (t : Traits) (n : Iss → Nat) : Word := s.hand.x (n (issued s t))
    let off (p : Word) : Nat := bits p 18 0;
    s.hand.out.length < 16 ∧ (s.core (coreOf s.cur)).solver = [] ∧ s.hand.solverDead = false ∧ performs s tl = true ∧ ((slotPtr s s.cur (x t2 Iss.d) = .ok (off (x t2 Iss.d)) ∧ (x t2 Iss.d).toNat % 128 = 0 ∧ guarded (s.core core) (off (x t2 Iss.d)) 384 = false ∧ scratchPoisoned (s.core core) (off (x t2 Iss.d)) 384 = false)) ∧ (x t2 Iss.a).toNat % 128 = 0 ∧ ((slotPtr s s.cur (x t2 Iss.a) = .ok (off (x t2 Iss.a)) ∧ (x t2 Iss.a).toNat % 128 = 0 ∧ guarded (s.core core) (off (x t2 Iss.a)) 384 = false ∧ scratchPoisoned (s.core core) (off (x t2 Iss.a)) 384 = false))) ∧
   (let o : OpR := ⟨false, 0, 1, 2, 3⟩
    let s : State := xs [(1, own 0x200), (2, own 0x400), (3, own 0x800)]
    let core := coreOf s.cur
    let t3 := Traits.ofR o (fx o.d) (fx o.a) (fx o.b)
    let tr := { t3 with imm := none }
    let x (t : Traits) (n : Iss → Nat) : Word := s.hand.x (n (issued s t))
    let off (p : Word) : Nat := bits p 18 0
    let slot (p : Word) : GSlot := gslot (Memory.read (s.core core).scratch (off p) 384)
    let a := slot (x tr Iss.a)
    let b := slot (x tr Iss.b);
    s.hand.out.length < 16 ∧ (s.core (coreOf s.cur)).solver = [] ∧ s.hand.solverDead = false ∧ performs s tr = true ∧ ((slotPtr s s.cur (x tr Iss.a) = .ok (off (x tr Iss.a)) ∧ (x tr Iss.a).toNat % 128 = 0 ∧ guarded (s.core core) (off (x tr Iss.a)) 384 = false ∧ scratchPoisoned (s.core core) (off (x tr Iss.a)) 384 = false)) ∧ ((slotPtr s s.cur (x tr Iss.b) = .ok (off (x tr Iss.b)) ∧ (x tr Iss.b).toNat % 128 = 0 ∧ guarded (s.core core) (off (x tr Iss.b)) 384 = false ∧ scratchPoisoned (s.core core) (off (x tr Iss.b)) 384 = false)) ∧ (a.v = false ∨ b.v = false)) ∧
   (let o : OpR := ⟨false, 0, 1, 2, 3⟩
    let s : State := gsame (own 0x400)
    let core := coreOf s.cur
    let t3 := Traits.ofR o (fx o.d) (fx o.a) (fx o.b)
    let tr := { t3 with imm := none }
    let x (t : Traits) (n : Iss → Nat) : Word := s.hand.x (n (issued s t))
    let off (p : Word) : Nat := bits p 18 0
    let slot (p : Word) : GSlot := gslot (Memory.read (s.core core).scratch (off p) 384)
    let a := slot (x tr Iss.a)
    let b := slot (x tr Iss.b);
    s.hand.out.length < 16 ∧ (s.core (coreOf s.cur)).solver = [] ∧ s.hand.solverDead = false ∧ performs s tr = true ∧ ((slotPtr s s.cur (x tr Iss.a) = .ok (off (x tr Iss.a)) ∧ (x tr Iss.a).toNat % 128 = 0 ∧ guarded (s.core core) (off (x tr Iss.a)) 384 = false ∧ scratchPoisoned (s.core core) (off (x tr Iss.a)) 384 = false)) ∧ ((slotPtr s s.cur (x tr Iss.b) = .ok (off (x tr Iss.b)) ∧ (x tr Iss.b).toNat % 128 = 0 ∧ guarded (s.core core) (off (x tr Iss.b)) 384 = false ∧ scratchPoisoned (s.core core) (off (x tr Iss.b)) 384 = false)) ∧ a.v = true ∧ b.v = true ∧ a.bad = false ∧ b.bad = false ∧ a.d = b.d) ∧
   (let o : OpR := ⟨false, 0, 1, 2, 3⟩
    let s : State := gtwo 0
    let core := coreOf s.cur
    let t2 := Traits.ofR o (fx o.d) (fx o.a) (fk o.b)
    let x (t : Traits) (n : Iss → Nat) : Word := s.hand.x (n (issued s t))
    let off (p : Word) : Nat := bits p 18 0
    let slot (p : Word) : GSlot := gslot (Memory.read (s.core core).scratch (off p) 384);
    s.hand.out.length < 16 ∧ (s.core (coreOf s.cur)).solver = [] ∧ s.hand.solverDead = false ∧ performs s t2 = true ∧ ((slotPtr s s.cur (x t2 Iss.a) = .ok (off (x t2 Iss.a)) ∧ (x t2 Iss.a).toNat % 128 = 0 ∧ guarded (s.core core) (off (x t2 Iss.a)) 384 = false ∧ scratchPoisoned (s.core core) (off (x t2 Iss.a)) 384 = false)) ∧ (slot (x t2 Iss.a)).bad = false) ∧
   (let o : OpR := ⟨false, 0, 1, 2, 3⟩
    let s : State := xs [(1, own 0x200), (2, own 0x400), (3, 8)]
    let core := coreOf s.cur
    let ts := Traits.ofR o (fk o.d) (fx o.a) (fx o.b)
    let x (t : Traits) (n : Iss → Nat) : Word := s.hand.x (n (issued s t))
    let off (p : Word) : Nat := bits p 18 0
    let cs := (issued s ts).bval s.hand;
    s.hand.out.length < 16 ∧ (s.core (coreOf s.cur)).solver = [] ∧ s.hand.solverDead = false ∧ performs s ts = true ∧ ((slotPtr s s.cur (x ts Iss.a) = .ok (off (x ts Iss.a)) ∧ (x ts Iss.a).toNat % 128 = 0 ∧ guarded (s.core core) (off (x ts Iss.a)) 384 = false ∧ scratchPoisoned (s.core core) (off (x ts Iss.a)) 384 = false)) ∧ bits cs 63 16 = 0 ∧ bits cs 7 4 = 0 ∧ 1 ≤ bits cs 3 0 ∧ bits cs 3 0 ≤ 8) :=
  ⟨by decide +kernel,
   by decide +kernel,
   by decide +kernel,
   by decide +kernel,
   by decide +kernel,
   by decide +kernel,
   by decide +kernel,
   by decide +kernel,
   by decide +kernel,
   ⟨by decide +kernel, by decide +kernel, notOwn _ (by decide +kernel)⟩,
   ⟨by decide +kernel, by decide +kernel, by decide +kernel, exOf (by decide +kernel)⟩,
   by
    refine ⟨?_, ?_, ?_, ?_, ⟨exOf (by decide +kernel), by decide +kernel, by decide +kernel, by decide +kernel⟩, ⟨exOf (by decide +kernel), by decide +kernel, by decide +kernel, by decide +kernel⟩, ?_, ?_, ?_, ?_⟩ <;> decide +kernel,
   by
    refine ⟨?_, ?_, ?_, ?_, ⟨exOf (by decide +kernel), by decide +kernel, by decide +kernel, by decide +kernel⟩, ⟨exOf (by decide +kernel), by decide +kernel, by decide +kernel, by decide +kernel⟩, ?_, ?_, ?_, ?_, ?_, ?_⟩ <;> decide +kernel,
   by
    refine ⟨?_, ?_, ?_, ?_, ⟨exOf (by decide +kernel), by decide +kernel, by decide +kernel, by decide +kernel⟩, ⟨exOf (by decide +kernel), by decide +kernel, by decide +kernel, by decide +kernel⟩, ?_, ?_, ?_⟩ <;> decide +kernel,
   by
    refine ⟨?_, ?_, ?_, ?_, ?_, ⟨exOf (by decide +kernel), by decide +kernel, by decide +kernel, by decide +kernel⟩, ?_, ?_, ?_, ?_, ?_⟩ <;> decide +kernel,
   by
    refine ⟨?_, ?_, ?_, ?_, ⟨exOf (by decide +kernel), by decide +kernel, by decide +kernel, by decide +kernel⟩, ?_, ⟨exOf (by decide +kernel), by decide +kernel, by decide +kernel, by decide +kernel⟩⟩ <;> decide +kernel,
   by
    refine ⟨?_, ?_, ?_, ?_, ⟨exOf (by decide +kernel), by decide +kernel, by decide +kernel, by decide +kernel⟩, ⟨exOf (by decide +kernel), by decide +kernel, by decide +kernel, by decide +kernel⟩, ?_⟩ <;> decide +kernel,
   by
    refine ⟨?_, ?_, ?_, ?_, ⟨exOf (by decide +kernel), by decide +kernel, by decide +kernel, by decide +kernel⟩, ⟨exOf (by decide +kernel), by decide +kernel, by decide +kernel, by decide +kernel⟩, ?_, ?_, ?_, ?_, ?_⟩ <;> decide +kernel,
   by
    refine ⟨?_, ?_, ?_, ?_, ⟨exOf (by decide +kernel), by decide +kernel, by decide +kernel, by decide +kernel⟩, ?_⟩ <;> decide +kernel,
   by
    refine ⟨?_, ?_, ?_, ?_, ⟨exOf (by decide +kernel), by decide +kernel, by decide +kernel, by decide +kernel⟩, ?_, ?_, ?_, ?_⟩ <;> decide +kernel⟩

end GaussianMessages

/-- States and operands that meet the hypotheses of ModuleUpkeep. -/
theorem meets_ModuleUpkeep :
   (let f : (TrInv → Instr) × TrScope := (Instr.trinvRange, TrScope.range);
    f ∈ [(Instr.trinvRange, TrScope.range), (.trinvJob, .job), (.trinvAll, .all)]) ∧
   (let s : State := mo fun m => { m with mer := [(2, { MerCh.off with v := true })] }
    let o : MerRef := ⟨0, 2⟩;
    (tget MerCh.off (s.modu o.module).mer o.ch).v = true) ∧
   (let s : State := rich.modDie 0 fun d => { d with waitSince := some 0 }
    let o : DieRef := ⟨0⟩
    let n : Nat := 0;
    (s.die o.gdie).waitSince = some n ∧ (s.cores.all fun c => c.2.sequencer.isEmpty) = true) ∧
   (let s : State := rich.modDie 0 fun d => { d with rises := [(0, 100)] }
    let gdie : Nat := 0
    let amps : Nat := 1
    let d := s.die gdie
    let within := d.rises.filter fun e => decide (s.now < e.1 + 1100);
    ((within = [] ∨ ampsOf within + amps ≤ 32000)) ∧ ((s.current gdie = 0 ∨ s.current gdie + amps ≤ currentLimit (s.modu (dieModule gdie)))) ∧ within ≠ []) ∧
   (let s : State := rich.modDie 0 fun d => { d with rises := [(0, 32000)] }
    let gdie : Nat := 0
    let amps : Nat := 5
    let d := s.die gdie
    let within := d.rises.filter fun e => decide (s.now < e.1 + 1100);
    (¬((within = [] ∨ ampsOf within + amps ≤ 32000) ∧ (s.current gdie = 0 ∨ s.current gdie + amps ≤ currentLimit (s.modu (dieModule gdie)))))) ∧
   (let x : Module := { rich.modu 0 with capping := true };
    x.capping = true) ∧
   (let s : State := rich
    let o : PowerEvent := ⟨0, 9000⟩;
    (s.modu o.module).capping = false ∧ min (s.modu o.module).pwrcap.toNat 8000 < o.watts) ∧
   (let s : State := mo fun m => { m with capping := true }
    let o : PowerEvent := ⟨0, 100⟩;
    (s.modu o.module).capping = true ∧ o.watts ≤ min (s.modu o.module).pwrcap.toNat 8000) ∧
   (let s : State := rich
    let o : Training := ⟨0, 1, 2, 3, true, true, true⟩;
    ((s.link o.module o.link).state = .down ∨ (s.link o.module o.link).state = .training)) ∧
   (let s : State := lk fun l => { l with buf := [(0, some fl), (5, some fl)] }
    let o : FlitIn := ⟨0, 1, 5, false, true, false⟩
    let e : Nat × Option Flight := (5, some fl)
    let k := s.link o.module o.link;
    o.xon = false ∧ k.state = .up ∧ (k.buf.find? fun e => e.1 == o.seq) = some e ∧ o.crc = false) ∧
   (let s : State := lk fun l => { l with buf := [(0, some fl), (5, some fl)] }
    let o : FlitIn := ⟨0, 1, 5, true, true, false⟩
    let e : Nat × Option Flight := (5, some fl)
    let k := s.link o.module o.link;
    o.xon = false ∧ k.state = .up ∧ (k.buf.find? fun e => e.1 == o.seq) = some e ∧ o.crc = true ∧ o.seq ≠ k.recvSeq) ∧
   (let s : State := lk fun l => { l with buf := [(0, none), (5, none)] }
    let o : FlitIn := ⟨0, 1, 0, true, true, false⟩
    let e : Nat × Option Flight := (0, none)
    let k := s.link o.module o.link;
    o.xon = false ∧ k.state = .up ∧ (k.buf.find? fun e => e.1 == o.seq) = some e ∧ o.crc = true ∧ o.seq = k.recvSeq ∧ e.2 = none) ∧
   (let s : State := lk fun l => { l with buf := [(0, some fl), (5, some fl)] }
    let o : FlitIn := ⟨0, 1, 0, true, true, false⟩
    let e : Nat × Option Flight := (0, some fl)
    let k := s.link o.module o.link
    let f : Flight := fl;
    o.xon = false ∧ k.state = .up ∧ (k.buf.find? fun e => e.1 == o.seq) = some e ∧ o.crc = true ∧ o.seq = k.recvSeq ∧ o.room = true ∧ e.2 = some f ∧ placeModule f.dst = k.partner) ∧
   (let s : State := lk fun l => { l with buf := [(5, some fl)], tries := 8 }
    let o : Nak := ⟨0, 1, 5⟩
    let k := s.link o.module o.link
    let again := k.buf.dropWhile fun e => e.1 != o.seq;
    k.state = .up ∧ again.isEmpty = false ∧ 8 ≤ k.tries) ∧
   (let s : State := lk fun l => { l with buf := [(0, some fl), (5, some fl)] }
    let o : Nak := ⟨0, 1, 5⟩
    let k := s.link o.module o.link
    let again := k.buf.dropWhile fun e => e.1 != o.seq;
    k.state = .up ∧ again.isEmpty = false ∧ k.tries < 8) ∧
   (let o : DieFlit := ⟨0, 1, 0, true⟩;
    edgeExists o.gdie o.edge = false) ∧
   (let o : DieFlit := ⟨0, 0, 0, true⟩;
    edgeExists o.gdie o.edge = true ∧ o.good = true) ∧
   (let s : State := rich
    let o : DieFlit := ⟨0, 0, 0, false⟩
    let n := tget 0 (s.die o.gdie).edgeTries o.edge;
    edgeExists o.gdie o.edge = true ∧ o.good = false ∧ n < 8) ∧
   (let s : State := rich.modDie 0 fun d => { d with edgeTries := [(1, 8), (0, 8)] }
    let o : DieFlit := ⟨0, 0, 0, false⟩
    let n := tget 0 (s.die o.gdie).edgeTries o.edge;
    edgeExists o.gdie o.edge = true ∧ o.good = false ∧ 8 ≤ n ∧ s.agenda[o.n]? = none) :=
  ⟨by simp,
   by decide +kernel,
   by decide +kernel,
   ⟨.inr (by decide +kernel), .inl (by decide +kernel), by decide +kernel⟩,
   by decide +kernel,
   by decide +kernel,
   by decide +kernel,
   by decide +kernel,
   by decide +kernel,
   by decide +kernel,
   by decide +kernel,
   by decide +kernel,
   by decide +kernel,
   by decide +kernel,
   by decide +kernel,
   by decide +kernel,
   by decide +kernel,
   by decide +kernel,
   by decide +kernel⟩

namespace QueueEngine

/-- The head of queue 0 waits; its record, read again, is the one at address 0. -/
def waits (d : Nat) (v : CompCtr) : State := (que 1 id (jobbed (leBytes 64 d))).modModu 0 fun m => { m with heads := [(0, ⟨ids0, 0, 7, node, false, 0, 2⟩)], comp := [(3, v)] }

/-- States and operands that meet the hypotheses of QueueEngine. -/
theorem meets_QueueEngine :
   (let s : State := rich
    let m : Nat := 0
    let q : Nat := 0
    let k := s.queue m q
    let v : Word := 1
    let ahead := (BitVec.ofNat 16 (bits v 15 0) - k.head).toNat;
    k.held = [] ∧ (¬(BitVec.ofNat 16 (bits v 15 0) ≠ k.tail ∧ (ahead < (k.tail - k.head).toNat ∨ 2 ^ k.log.toNat < ahead)))) ∧
   (let s : State := rich
    let m : Nat := 0
    let q : Nat := 0
    let k := s.queue m q
    let v : Word := 40
    let ahead := (BitVec.ofNat 16 (bits v 15 0) - k.head).toNat;
    k.held = [] ∧ ((BitVec.ofNat 16 (bits v 15 0) ≠ k.tail ∧ (ahead < (k.tail - k.head).toNat ∨ 2 ^ k.log.toNat < ahead)))) ∧
   (let s : State := rich
    let m : Nat := 0
    let q : Nat := 0
    let k := s.queue m q
    let i : (QueueRef → Instr) × (QueueRef → Event) := (Instr.nopEntry, Event.nopEntry);
    i ∈ [(Instr.nopEntry, Event.nopEntry), (.launchEntry, .launchEntry), (.graphEntry, .graphEntry), (.cancelEntry, .cancelEntry), (.priorityEntry, .priorityEntry), (.signalEntry, .signalEntry)] ∧ (k.v = false ∨ k.head = k.tail)) ∧
   (let s : State := que 0x101
    let m : Nat := 0
    let q : Nat := 0
    let k := s.queue m q
    let o : QueueRef := ⟨m, q⟩
    let e := entryAt s m q k.head.toNat
    let i : (QueueRef → Instr) × (QueueRef → Event) := (Instr.nopEntry, Event.nopEntry);
    i ∈ [(Instr.nopEntry, Event.nopEntry), (.launchEntry, .launchEntry), (.graphEntry, .graphEntry), (.cancelEntry, .cancelEntry), (.priorityEntry, .priorityEntry), (.signalEntry, .signalEntry)] ∧ k.v = true ∧ k.head ≠ k.tail ∧ entryEvent s m q = i.2 o ∧ entryBad k e = true) ∧
   (let s : State := que 1
    let m : Nat := 0
    let q : Nat := 0
    let k := s.queue m q
    let o : QueueRef := ⟨m, q⟩
    let e := entryAt s m q k.head.toNat;
    ((k.v = true ∧ k.head ≠ k.tail ∧ entryEvent s m q = (.nopEntry o) ∧ entryBad k e = false))) ∧
   (let s : State := que (1 + 2 ^ 16) id rich
    let m : Nat := 0
    let q : Nat := 0
    let k := s.queue m q
    let o : QueueRef := ⟨m, q⟩
    let e := entryAt s m q k.head.toNat
    let job := k.job.toNat;
    ((k.v = true ∧ k.head ≠ k.tail ∧ entryEvent s m q = (.launchEntry o) ∧ entryBad k e = false)) ∧ jobStopped s m job = true) ∧
   (let s : State := que (1 + 2 ^ 16 + 64 * 2 ^ 64) id (jobbed (leBytes 64 1 ++ leBytes 64 rec1))
    let m : Nat := 0
    let q : Nat := 0
    let k := s.queue m q
    let o : QueueRef := ⟨m, q⟩
    let e := entryAt s m q k.head.toNat
    let job := k.job.toNat
    let u : State := (engineRecord s m job (.ofNat 64 (recField e 127 64))).1
    let d : Nat := rec1
    let r : LaunchRec := node;
    ((k.v = true ∧ k.head ≠ k.tail ∧ entryEvent s m q = (.launchEntry o) ∧ entryBad k e = false)) ∧ jobStopped s m job = false ∧ engineRecord s m job (.ofNat 64 (recField e 127 64)) = (u, .ok d) ∧ launchRecord u m k (recField e 7 0) d = some r ∧ u.linkHeld = false) ∧
   (let s : State := que (1 + 2 * 2 ^ 16) id (jobbed (leBytes 64 1 ++ leBytes 64 rec1))
    let m : Nat := 0
    let q : Nat := 0
    let k := s.queue m q
    let o : QueueRef := ⟨m, q⟩
    let e := entryAt s m q k.head.toNat
    let job := k.job.toNat
    let u : State := (engineRecord s m job (.ofNat 64 (recField e 127 64))).1
    let d : Nat := 1
    let w : State := (readNodes m k (recField e 7 0) (.ofNat 64 (recField e 127 64)) 0 (recField d 8 0) u).1
    let ns : List (Nat × LaunchRec) := [(0, node)];
    ((k.v = true ∧ k.head ≠ k.tail ∧ entryEvent s m q = (.graphEntry o) ∧ entryBad k e = false)) ∧ jobStopped s m job = false ∧ engineRecord s m job (.ofNat 64 (recField e 127 64)) = (u, .ok d) ∧ headerBad d = false ∧ readNodes m k (recField e 7 0) (.ofNat 64 (recField e 127 64)) 0 (recField d 8 0) u = (w, some ns) ∧ w.linkHeld = false) ∧
   (let s : State := que (1 + 3 * 2 ^ 16)
    let m : Nat := 0
    let q : Nat := 0
    let k := s.queue m q
    let o : QueueRef := ⟨m, q⟩
    let e := entryAt s m q k.head.toNat;
    ((k.v = true ∧ k.head ≠ k.tail ∧ entryEvent s m q = (.cancelEntry o) ∧ entryBad k e = false)) ∧ k.busy = false) ∧
   (let s : State := que (1 + 3 * 2 ^ 16) (fun k => { k with busy := true })
    let m : Nat := 0
    let q : Nat := 0
    let k := s.queue m q
    let o : QueueRef := ⟨m, q⟩
    let e := entryAt s m q k.head.toNat;
    ((k.v = true ∧ k.head ≠ k.tail ∧ entryEvent s m q = (.cancelEntry o) ∧ entryBad k e = false)) ∧ k.busy = true) ∧
   (let s : State := que (1 + 4 * 2 ^ 16 + 5 * 2 ^ 192)
    let m : Nat := 0
    let q : Nat := 0
    let k := s.queue m q
    let o : QueueRef := ⟨m, q⟩
    let e := entryAt s m q k.head.toNat;
    ((k.v = true ∧ k.head ≠ k.tail ∧ entryEvent s m q = (.priorityEntry o) ∧ entryBad k e = false)) ∧ k.busy = false ∧ (s.modu m).launches = []) ∧
   (let s : State := que (1 + 4 * 2 ^ 16) (fun k => { k with busy := true })
    let m : Nat := 0
    let q : Nat := 0
    let k := s.queue m q
    let o : QueueRef := ⟨m, q⟩
    let e := entryAt s m q k.head.toNat;
    ((k.v = true ∧ k.head ≠ k.tail ∧ entryEvent s m q = (.priorityEntry o) ∧ entryBad k e = false)) ∧ k.busy = true) ∧
   (let s : State := que (2 + 5 * 2 ^ 16) (fun k => { k with fmt := 2 })
    let m : Nat := 0
    let q : Nat := 0
    let k := s.queue m q
    let o : QueueRef := ⟨m, q⟩
    let e := entryAt s m q k.head.toNat;
    ((k.v = true ∧ k.head ≠ k.tail ∧ entryEvent s m q = (.signalEntry o) ∧ entryBad k e = false))) ∧
   (let s : State := rich
    let m : Nat := 0
    let q : Nat := 0
    let k := s.queue m q;
    k.held = [] ∧ (k.ctail - k.chead).toNat < 2 ^ k.log.toNat) ∧
   (let s : State := rich
    let m : Nat := 0
    let l := (eligibleHeads s m).filter fun a => admits s m a.queue;
    l = []) ∧
   (let s : State := headed { node with depa := some (3, 1) }
    let m : Nat := 0
    let l := (eligibleHeads s m).filter fun a => admits s m a.queue
    let a : Admit := ⟨0, ids0, 0, 7, { node with depa := some (3, 1) }, none, true, false⟩;
    (l.find? fun a => a.canc) = some a) ∧
   (let s : State := waits (rec1 + 2 ^ 273 + 3 * 2 ^ 261 + 2 ^ 229) ⟨0, false⟩
    let m : Nat := 0
    let l := (eligibleHeads s m).filter fun a => admits s m a.queue
    let a : Admit := ⟨0, ids0, 0, 7, node, none, false, false⟩
    let u : State := (admitRecord s m a).1
    let d : LaunchRec := ((admitRecord s m a).2.getD node);
    (l.find? fun a => a.canc) = none ∧ bestHead s m l = some a ∧ (s.modu m).launches.length < Config.launchTable ∧ admitRecord s m a = (u, some d) ∧ u.linkHeld = false ∧ dependence u m a.ids.job d = none) ∧
   (let s : State := waits rec1 ⟨1, false⟩
    let m : Nat := 0
    let l := (eligibleHeads s m).filter fun a => admits s m a.queue
    let a : Admit := ⟨0, ids0, 0, 7, node, none, false, false⟩
    let u : State := (admitRecord s m a).1
    let d : LaunchRec := ((admitRecord s m a).2.getD node);
    (l.find? fun a => a.canc) = none ∧ bestHead s m l = some a ∧ (s.modu m).launches.length < Config.launchTable ∧ admitRecord s m a = (u, some d) ∧ u.linkHeld = false ∧ dependence u m a.ids.job d = some false) ∧
   (let s : State := waits (rec1 + 2 ^ 273 + 3 * 2 ^ 261 + 2 ^ 229) ⟨1, true⟩
    let m : Nat := 0
    let l := (eligibleHeads s m).filter fun a => admits s m a.queue
    let a : Admit := ⟨0, ids0, 0, 7, node, none, false, false⟩
    let u : State := (admitRecord s m a).1
    let d : LaunchRec := ((admitRecord s m a).2.getD node);
    (l.find? fun a => a.canc) = none ∧ bestHead s m l = some a ∧ (s.modu m).launches.length < Config.launchTable ∧ admitRecord s m a = (u, some d) ∧ u.linkHeld = false ∧ dependence u m a.ids.job d = some true) ∧
   (let s : State := headed node
    let m : Nat := 0
    let q : Nat := 0
    let k := s.queue m q
    let e := entryAt s m q k.head.toNat
    let job := k.job.toNat
    let l := (eligibleHeads s m).filter fun a => admits s m a.queue
    let a : Admit := ⟨0, ids0, 0, 7, node, none, false, false⟩
    let u : State := (engineRecord s m job (.ofNat 64 (recField e 127 64))).1;
    (l.find? fun a => a.canc) = none ∧ bestHead s m l = some a ∧ (s.modu m).launches.length < Config.launchTable ∧ admitRecord s m a = (u, none) ∧ u.linkHeld = false) ∧
   (let s : State := (headed node).modModu 0 fun m => { m with launches := List.replicate 16384 (row 0) }
    let m : Nat := 0
    let l := (eligibleHeads s m).filter fun a => admits s m a.queue
    let a : Admit := ⟨0, ids0, 0, 7, node, none, false, false⟩;
    (l.find? fun a => a.canc) = none ∧ bestHead s m l = some a ∧ Config.launchTable ≤ (s.modu m).launches.length) ∧
   (let s : State := headed node
    let m : Nat := 0
    let l := (eligibleHeads s m).filter fun a => admits s m a.queue
    let a : Admit := ⟨0, ids0, 0, 7, node, none, false, false⟩
    let b : Admit := ⟨0, ids0, 0, 7, node, none, false, false⟩;
    (l.find? fun a => a.canc) = none ∧ bestHead s m l = some a ∧ b ∈ l) ∧
   (let s : State := (waits rec1 ⟨1, false⟩).modCore 0 fun c => { c with cancels := [⟨0, ids0⟩] }
    let m : Nat := 0
    let h : Nat × Head := (0, ⟨ids0, 0, 7, node, false, 0, 2⟩);
    h ∈ (s.modu m).heads ∧ coveredAt s m h.2.ids = true) ∧
   (let m : Nat := 0;
    m < 64) ∧
   (let m : Nat := 0
    let w : Dandelion := ⟨ids0, 0x40, 0, 0, 0, 2, .user, 0⟩
    let c : Nat := 1;
    w.first ≤ c ∧ c < w.first + w.count ∧ moduleOf c = m) ∧
   (let m : Nat := 0
    let n : Rerank := ⟨0, ids0, 3⟩;
    n.module = m) ∧
   (let s : State := rich
    let m : Nat := 0
    let l := (eligibleHeads s m).filter fun a => admits s m a.queue
    let h : ShareReport := ⟨ids0, 0, 0⟩;
    h.ids.home = m ∧ ((s.modu m).launches.find? fun l => l.waked && l.ids == h.ids) = none) ∧
   (let s : State := (headed node).modModu 0 fun m => { m with launches := List.replicate 16384 (row 0) }
    let m : Nat := 0
    let l := (eligibleHeads s m).filter fun a => admits s m a.queue
    let h : ShareReport := ⟨ids0, 0, 0⟩
    let l : Launch := row 0
    let r : Launch := 
        { l with reports := l.reports + 1, rejected := l.rejected || h.status == 2, cancelled := l.cancelled || h.status == 1 };
    h.ids.home = m ∧ ((s.modu m).launches.find? fun l => l.waked && l.ids == h.ids) = some l ∧ r.reports < l.recd.count) ∧
   (let s : State := (que 1).modModu 0 fun m => { m with launches := [row 1] }
    let m : Nat := 0
    let l := (eligibleHeads s m).filter fun a => admits s m a.queue
    let h : ShareReport := ⟨ids0, 0, 0⟩
    let l : Launch := row 1
    let r : Launch := 
        { l with reports := l.reports + 1, rejected := l.rejected || h.status == 2, cancelled := l.cancelled || h.status == 1 };
    h.ids.home = m ∧ ((s.modu m).launches.find? fun l => l.waked && l.ids == h.ids) = some l ∧ l.recd.count ≤ r.reports) :=
  by
  and_intros <;> first | decide +kernel | exact pairOf (by decide +kernel) | simp

end QueueEngine

namespace HostAccesses

def up4 (s : State) : State := mo (fun m => { m with step := 4 }) s

/-- States and operands that meet the hypotheses of HostAccesses. -/
theorem meets_HostAccesses :
   (let s : State := rich
    let o : HostAccess := ⟨0, 0, 0, 0, 0xFFF00, 8, []⟩
    let x := s.modu o.module;
    x.step < 4 ∧ (x.stuck = false ∨ o.bar ≠ 4)) ∧
   (let s : State := up4 (rich)
    let o : HostAccess := ⟨0, 0, 0, 4, 0x20, 4, []⟩
    let x := s.modu o.module;
    (x.stuck = true ∨ 4 ≤ x.step) ∧ o.bar = 4) ∧
   (let s : State := up4 (rich)
    let o : HostAccess := ⟨0, 0, 0, 0, 0xFFF00, 8, []⟩
    let x := s.modu o.module;
    4 ≤ x.step ∧ o.bar = 0 ∧ o.off = 0xFFF00 ∧ o.size = 8) ∧
   (let s : State := up4 (rich)
    let o : HostAccess := ⟨0, 0, 0, 0, 0, 8, []⟩
    let x := s.modu o.module
    let q : Nat := 0
    let v : Nat × Word := (0, (s.queue o.module q).qbase);
    4 ≤ x.step ∧ o.bar = 0 ∧ o.size = 8 ∧ ((blockQueue x o.port (o.off / 32) = some q ∧ o.off < 0xF0000 ∧ o.off % 8 = 0 ∧ ((s.queue o.module q).func.toNat = o.func ∨ o.func = 0))) ∧ v ∈ [(0, (s.queue o.module q).qbase), (1, (s.queue o.module q).cbase), (2, packQcfg (s.queue o.module q)), (3, packQdb (s.queue o.module q))] ∧ o.off % 32 / 8 = v.1) ∧
   (let s : State := up4 (rich)
    let o : HostAccess := ⟨0, 0, 1, 0, 0, 8, []⟩
    let x := s.modu o.module
    let q : Nat := 0;
    4 ≤ x.step ∧ o.bar = 0 ∧ o.size = 8 ∧ o.off < 0xF0000 ∧ o.off % 8 = 0 ∧ blockQueue x o.port (o.off / 32) = some q ∧ o.func ≠ 0 ∧ (s.queue o.module q).func.toNat ≠ o.func) ∧
   (let s : State := up4 (rich)
    let o : HostAccess := ⟨0, 0, 0, 0, 0, 8, leBytes 8 0x1234⟩
    let x := s.modu o.module
    let q : Nat := 0;
    4 ≤ x.step ∧ o.bar = 0 ∧ o.data.length = 8 ∧ ((blockQueue x o.port (o.off / 32) = some q ∧ o.off < 0xF0000 ∧ o.off % 8 = 0 ∧ ((s.queue o.module q).func.toNat = o.func ∨ o.func = 0))) ∧ o.off % 32 / 8 = 0) ∧
   (let s : State := up4 (rich)
    let o : HostAccess := ⟨0, 0, 0, 0, 8, 8, leBytes 8 0x1234⟩
    let x := s.modu o.module
    let q : Nat := 0;
    4 ≤ x.step ∧ o.bar = 0 ∧ o.data.length = 8 ∧ ((blockQueue x o.port (o.off / 32) = some q ∧ o.off < 0xF0000 ∧ o.off % 8 = 0 ∧ ((s.queue o.module q).func.toNat = o.func ∨ o.func = 0))) ∧ o.off % 32 / 8 = 1) ∧
   (let s : State := up4 (rich)
    let o : HostAccess := ⟨0, 0, 0, 0, 16, 8, leBytes 8 0x1234⟩
    let x := s.modu o.module
    let q : Nat := 0
    let v := wordOf o.data
    let old := s.queue o.module q
    let new := writeQcfg old (o.func == 0) v;
    4 ≤ x.step ∧ o.bar = 0 ∧ o.data.length = 8 ∧ ((blockQueue x o.port (o.off / 32) = some q ∧ o.off < 0xF0000 ∧ o.off % 8 = 0 ∧ ((s.queue o.module q).func.toNat = o.func ∨ o.func = 0))) ∧ o.off % 32 / 8 = 2 ∧ ((old.v = false ∧ (new.v = false ∨ jobOpen s o.module new.job.toNat = true)) ∨ (old.v = true ∧ new.v = true ∧ new.job = old.job ∧ o.module < 64))) ∧
   (let s : State := up4 (rich)
    let o : HostAccess := ⟨0, 0, 0, 0, 16, 8, leBytes 8 (2 ^ 63 + 5 * 2 ^ 44 + 3 * 2 ^ 48)⟩
    let x := s.modu o.module
    let q : Nat := 0
    let v := wordOf o.data
    let old := s.queue o.module q
    let new := writeQcfg old (o.func == 0) v;
    4 ≤ x.step ∧ o.bar = 0 ∧ o.data.length = 8 ∧ ((blockQueue x o.port (o.off / 32) = some q ∧ o.off < 0xF0000 ∧ o.off % 8 = 0 ∧ ((s.queue o.module q).func.toNat = o.func ∨ o.func = 0))) ∧ o.off % 32 / 8 = 2 ∧ new.v = true ∧ jobOpen s o.module new.job.toNat = false) ∧
   (let s : State := up4 (rich)
    let o : HostAccess := ⟨0, 0, 0, 0, 24, 8, leBytes 8 0x1234⟩
    let x := s.modu o.module
    let q : Nat := 0;
    4 ≤ x.step ∧ o.bar = 0 ∧ o.data.length = 8 ∧ ((blockQueue x o.port (o.off / 32) = some q ∧ o.off < 0xF0000 ∧ o.off % 8 = 0 ∧ ((s.queue o.module q).func.toNat = o.func ∨ o.func = 0))) ∧ o.off % 32 / 8 = 3 ∧ (s.queue o.module q).func.toNat = o.func) ∧
   (let s : State := up4 (rich)
    let o : HostAccess := ⟨0, 0, 0, 0, 0xFFF00, 8, []⟩
    let x := s.modu o.module
    let v : Word := 3 * 2 ^ 44;
    4 ≤ x.step ∧ bits v 47 44 < 4) ∧
   (let s : State := up4 (rich)
    let o : HostAccess := ⟨0, 0, 0, 0, 0xFFF00, 8, []⟩
    let x := s.modu o.module
    let v : Word := 2 ^ 63 + 5 * 2 ^ 44;
    4 ≤ x.step ∧ 4 ≤ bits v 47 44) ∧
   (let s : State := up4 (rich)
    let o : HostAccess := ⟨0, 0, 0, 0, 0xF0000, 8, leBytes 8 0x1234⟩
    let x := s.modu o.module;
    4 ≤ x.step ∧ o.bar = 0 ∧ o.data.length = 8 ∧ 0xF0000 ≤ o.off ∧ o.off < 0xF0080 ∧ o.off % 8 = 0 ∧ o.func = 0) ∧
   (let s : State := up4 (rich)
    let o : HostAccess := ⟨0, 0, 1, 0, 0xF0000, 8, leBytes 8 0x1234⟩
    let x := s.modu o.module;
    4 ≤ x.step ∧ o.bar = 0 ∧ o.data.length = 8 ∧ 0xF0000 ≤ o.off ∧ o.off < 0xF0080 ∧ o.off % 8 = 0 ∧ o.func ≠ 0) ∧
   (let s : State := up4 (mo fun m => { m with mbox := { m.mbox with go := true } })
    let o : HostAccess := ⟨0, 0, 0, 4, 0x20, 4, []⟩
    let x := s.modu o.module;
    4 ≤ x.step ∧ o.bar = 4 ∧ x.mbox.go = true) ∧
   (let s : State := up4 (rich)
    let o : HostAccess := ⟨0, 0, 0, 4, 0, 0, leBytes 8 (2 ^ 63 + 2)⟩
    let x := s.modu o.module
    let v := wordOf o.data;
    4 ≤ x.step ∧ o.bar = 4 ∧ x.mbox.go = false ∧ o.off = 0 ∧ o.data.length = 8 ∧ bit (wordOf o.data) 63 = true ∧ (bits v 7 0 ≠ 1 ∨ bits v 15 8 = 0 ∨ 7 < bits v 15 8)) ∧
   (let s : State := up4 (rich)
    let o : HostAccess := ⟨0, 0, 0, 4, 0, 0, leBytes 8 (2 ^ 63 + 0x101)⟩
    let x := s.modu o.module
    let v := wordOf o.data
    let c : Nat × (MboxCmd → Event) := (1, Event.query);
    4 ≤ x.step ∧ o.bar = 4 ∧ x.mbox.go = false ∧ o.off = 0 ∧ o.data.length = 8 ∧ bit (wordOf o.data) 63 = true ∧ c ∈ [(1, Event.query), (2, .attest), (3, .events), (4, .config), (6, .fuseRevoke), (7, .linkclr)] ∧ bits v 7 0 = 1 ∧ bits v 15 8 = c.1) ∧
   (let s : State := up4 (rich)
    let o : HostAccess := ⟨0, 0, 0, 4, 0, 8, leBytes 8 (2 ^ 63 + 0x501)⟩
    let x := s.modu o.module
    let v := wordOf o.data;
    4 ≤ x.step ∧ o.bar = 4 ∧ x.mbox.go = false ∧ o.off = 0 ∧ o.data.length = 8 ∧ bit (wordOf o.data) 63 = true ∧ bits v 7 0 = 1 ∧ bits v 15 8 = 5) ∧
   (let s : State := up4 (rich)
    let o : HostAccess := ⟨0, 0, 0, 2, 16, 8, []⟩
    let x := s.modu o.module
    let w := hostAperture s o;
    4 ≤ x.step ∧ o.bar = 2 ∧ ownsAperture o w = false) ∧
   (let s : State := up4 ((jobbed).modModu 0 fun m => { m with apc := [(0, 2 ^ 63)], readBuf := [(bufKey 0 0 0 0, 5)] })
    let o : HostAccess := ⟨0, 0, 0, 2, 16, 8, []⟩
    let x := s.modu o.module
    let w := hostAperture s o
    let l : Line := 5
    let g : Nat := 0;
    4 ≤ x.step ∧ o.bar = 2 ∧ ownsAperture o w = true ∧ o.off % 128 + o.size ≤ 128 ∧ 0 < o.size ∧ apertureHome s o.module w (windowAddr o w) = .ok g ∧ tfind x.readBuf (bufKey o.port (apcJob w) (sliceDie g) (windowAddr o w / 128)) = some l) ∧
   (let s : State := up4 (mo fun m => { m with apc := [(0, 2 ^ 63)], readBuf := [(bufKey 0 0 0 0, 5)] })
    let o : HostAccess := ⟨0, 0, 0, 2, 16, 8, []⟩
    let x := s.modu o.module
    let w := hostAperture s o
    let f : Nat × Nat := (((splitLines (windowAddr o (hostAperture s o)) o.size).findSome? (pieceFails s o (hostAperture s o))).getD (0, 0));
    4 ≤ x.step ∧ o.bar = 2 ∧ ownsAperture o w = true ∧ (splitLines (windowAddr o w) o.size).findSome? (pieceFails s o w) = some f) ∧
   (let s : State := up4 ((jobbed).modModu 0 fun m => { m with apc := [(0, 2 ^ 63)], readBuf := [(bufKey 0 0 0 0, 5)] })
    let o : HostAccess := ⟨0, 0, 0, 2, 16, 8, leBytes 8 7⟩
    let x := s.modu o.module
    let w := hostAperture s o
    let g : Nat := 0
    let u : State := (homeWrite (s.modModu o.module fun y => { y with readBuf := tdel y.readBuf (bufKey o.port (apcJob (hostAperture s o)) (sliceDie g) (windowAddr o (hostAperture s o) / 128)) }) g (apcJob (hostAperture s o)) (windowAddr o (hostAperture s o) / 128) false (maskFrom (o.off % 128) o.size) (lineAt (o.off % 128) o.data)).1
    let p : Unit := ();
    4 ≤ x.step ∧ o.bar = 2 ∧ ownsAperture o w = true ∧ o.off % 128 + o.size ≤ 128 ∧ 0 < o.size ∧ o.data.length = o.size ∧ apertureHome s o.module w (windowAddr o w) = .ok g ∧ pieceFails s o w (windowAddr o w, 0, o.size) = none ∧ homeWrite (s.modModu o.module fun y => { y with readBuf := tdel y.readBuf (bufKey o.port (apcJob w) (sliceDie g) (windowAddr o w / 128)) }) g (apcJob w) (windowAddr o w / 128) false (maskFrom (o.off % 128) o.size) (lineAt (o.off % 128) o.data) = (u, .ok p)) :=
  by
  and_intros <;> first | decide +kernel | exact exOf (by decide +kernel) | exact pairOf (by decide +kernel) | simp

end HostAccesses

namespace FirmwareCommandsAndReset

def im : Image := ⟨0, 0, 0, [], 0, 0⟩

def ev (n : Nat) : EvRec := { EvRec.ofReport ⟨0, 5, none, 0, 1, 0, 0, 0⟩ with seq := n }

/-- States and operands that meet the hypotheses of FirmwareCommandsAndReset. -/
theorem meets_FirmwareCommandsAndReset :
   (let o : MboxCmd := ⟨0, 2, 0⟩
    let i : MboxCmd → Instr := Instr.query;
    i ∈ [Instr.query, .attest, .events, .config, .fuseRevoke, .linkclr] ∧ o.ver ≠ 1) ∧
   (let s : State := rich
    let o : MboxCmd := ⟨0, 1, 0⟩
    let m := o.module
    let x := s.modu m;
    o.ver = 1 ∧ x.heldEv = []) ∧
   (let o : MboxCmd := ⟨0, 2, 0⟩
    let m := o.module
    let c : MonitorCmd := ⟨0, 1, im⟩;
    c.module = m ∧ c.ver = 1) ∧
   (let o : MboxCmd := ⟨0, 2, 0⟩
    let m := o.module
    let c : MonitorCmd := ⟨0, 3, im⟩;
    c.module = m ∧ c.ver ≠ 1) ∧
   (let o : MboxCmd := ⟨0, 1, 0⟩
    let k : Nat := 0;
    k < 2 ∧ o.ver = 1 ∧ o.arg.toNat % 256 = k) ∧
   (let s : State := mo fun m => { m with links := [(3, { Link.down with state := .failed })] }
    let o : MboxCmd := ⟨0, 1, 3⟩
    let m := o.module;
    o.ver = 1 ∧ (s.link m (o.arg.toNat % 32)).state = .failed) ∧
   (let s : State := rich
    let o : MboxCmd := ⟨0, 1, 0⟩
    let m := o.module;
    o.ver = 1 ∧ (s.link m (o.arg.toNat % 32)).state ≠ .failed) ∧
   (let s : State := rich
    let o : MboxCmd := ⟨0, 2, 0⟩
    let m := o.module
    let x := s.modu m
    let r : Report := ⟨0, 5, none, 0, 1, 0, 0, 0⟩;
    r.module = m ∧ x.ring.length < Config.eventRing ∧ r.job = none) ∧
   (let s : State := mo fun m => { m with ring := List.replicate Config.eventRing (ev 0) }
    let o : MboxCmd := ⟨0, 2, 0⟩
    let m := o.module
    let x := s.modu m
    let r : Report := ⟨0, 5, none, 0, 1, 0, 0, 0⟩;
    r.module = m ∧ Config.eventRing ≤ x.ring.length ∧ x.heldEv = []) ∧
   (let s : State := mo fun m => { m with ring := List.replicate Config.eventRing (ev 0), heldEv := [ev 0] }
    let o : MboxCmd := ⟨0, 2, 0⟩
    let m := o.module
    let x := s.modu m
    let r : Report := ⟨0, 5, none, 0, 1, 0, 0, 0⟩
    let e := EvRec.ofReport r
    let h : EvRec := ev 0;
    r.module = m ∧ Config.eventRing ≤ x.ring.length ∧ x.heldEv = [h] ∧ EvRec.folds h e = true) ∧
   (let s : State := rich
    let d : Nat := 0
    let cls : Nat := 2
    let idx : Nat := 3
    let a : Word := 0
    let u := s.modDie d fun y => { y with errsel := .ofNat 12 (cls * 128 + idx) }
    let t := befall u (.soft d cls idx a);
    idx < classSize cls ∧ bits (errCount t d) 47 32 ≠ 0) ∧
   (let s : State := rich.modDie 0 fun y => { y with errs := [(259, 0xFFFF00000000)] }
    let d : Nat := 0
    let cls : Nat := 2
    let idx : Nat := 3
    let a : Word := 0
    let u := s.modDie d fun y => { y with errsel := .ofNat 12 (cls * 128 + idx) }
    let t := befall u (.soft d cls idx a);
    idx < classSize cls ∧ bits (errCount t d) 47 32 = 0) ∧
   (let n : Nat := 0
    let k : Nat := 0;
    n < 0x10000 ∧ k < 8) ∧
   (let s : State := mo fun m => { m with step := 3 }
    let o : MboxCmd := ⟨0, 2, 0⟩
    let m := o.module
    let x := s.modu m;
    (x.step ≠ 0 ∨ x.stuck = true)) ∧
   (let s : State := rich
    let o : MboxCmd := ⟨0, 2, 0⟩
    let m := o.module
    let x := s.modu m
    let f : Found := ⟨im, [(0, 0)], true, true⟩
    let bad := f.badEdges.filter fun e => edgeExists e.1 e.2;
    x.step = 0 ∧ x.stuck = false ∧ bad ≠ []) ∧
   (let s : State := rich
    let o : MboxCmd := ⟨0, 2, 0⟩
    let m := o.module
    let x := s.modu m
    let f : Found := ⟨im, [], false, true⟩
    let bad := f.badEdges.filter fun e => edgeExists e.1 e.2;
    x.step = 0 ∧ x.stuck = false ∧ bad = [] ∧ (f.stacksOk = false ∨ boundsOk s m = false)) ∧
   (let s : State := rich
    let o : MboxCmd := ⟨0, 2, 0⟩
    let m := o.module
    let x := s.modu m
    let f : Found := ⟨im, [], true, false⟩
    let bad := f.badEdges.filter fun e => edgeExists e.1 e.2;
    x.step = 0 ∧ x.stuck = false ∧ bad = [] ∧ f.stacksOk = true ∧ boundsOk s m = true ∧ f.pcie = false) ∧
   (let s : State := rich
    let o : MboxCmd := ⟨0, 2, 0⟩
    let m := o.module
    let x := s.modu m
    let f : Found := ⟨im, [], true, true⟩
    let bad := f.badEdges.filter fun e => edgeExists e.1 e.2;
    x.step = 0 ∧ x.stuck = false ∧ bad = [] ∧ f.stacksOk = true ∧ boundsOk s m = true ∧ f.pcie = true) ∧
   (let s : State := rich
    let o : MboxCmd := ⟨0, 2, 0⟩
    let m := o.module
    let x := s.modu m;
    (x.step ≠ 4 ∨ x.stuck = true ∨ x.monImage = none)) ∧
   (let s : State := mo fun m => { m with step := 4, monImage := some im }
    let o : MboxCmd := ⟨0, 2, 0⟩
    let m := o.module
    let x := s.modu m
    let i : Image := im;
    x.step = 4 ∧ x.stuck = false ∧ x.monImage = some i) :=
  by
  and_intros <;> first | decide +kernel | simp

end FirmwareCommandsAndReset

namespace CollectiveSteps

def co (mask : Nat) (src dst : Word) : Coll := ⟨0, 0, 0, 0, false, 0, own 0x40, src, dst, .ofNat 64 mask, 8, 7, 1, 0, 6, 3, 0, 0, 0⟩

def joinedBy (c : Coll) (s : State := rich) : State := s.modModu c.module fun m => { m with colls := [⟨c, 0⟩] }

/-- States and operands that meet the hypotheses of CollectiveSteps. -/
theorem meets_CollectiveSteps :
   (let s : State := rich
    let c : Coll := co 3 (own 0) (own 0x400)
    let joined : State := (s.modModu c.module fun x => { x with colls := x.colls ++ [⟨c, s.now⟩] }).later (collTimeout s c.module)
        (fromModule c.module) (atModule c.module) (.collectiveTimeout ⟨c.module, c.job, c.tag⟩)
    let i : Coll → Instr := Instr.collectiveAllreduce;
    i ∈ [Instr.collectiveAllreduce, .collectiveBroadcast] ∧ ((∀ w, w ∈ collWaits joined c.job c.tag → collJoined joined w.c = none))) ∧
   (let s : State := joinedBy { co 3 (own 0) (own 0x400) with module := 1, bytes := 16 }
    let c : Coll := co 3 (own 0) (own 0x400)
    let joined : State := (s.modModu c.module fun x => { x with colls := x.colls ++ [⟨c, s.now⟩] }).later (collTimeout s c.module)
        (fromModule c.module) (atModule c.module) (.collectiveTimeout ⟨c.module, c.job, c.tag⟩)
    let i : Coll → Instr := Instr.collectiveAllreduce
    let w : CollWait := (collWaits joined c.job c.tag).headD ⟨c, 0⟩
    let rest : List CollWait := (collWaits joined c.job c.tag).tail
    let ws : List CollWait := (collJoined joined w.c).getD [];
    i ∈ [Instr.collectiveAllreduce, .collectiveBroadcast] ∧ collWaits joined c.job c.tag = w :: rest ∧ collJoined joined w.c = some ws ∧ (ws.any fun y => !sameHeader y.c w.c) = true) ∧
   (let s : State := rich
    let c : Coll := co 1 (own 0) (own 0x400)
    let joined : State := (s.modModu c.module fun x => { x with colls := x.colls ++ [⟨c, s.now⟩] }).later (collTimeout s c.module)
        (fromModule c.module) (atModule c.module) (.collectiveTimeout ⟨c.module, c.job, c.tag⟩)
    let i : Coll → Instr := Instr.collectiveAllreduce
    let w : CollWait := (collWaits joined c.job c.tag).headD ⟨c, 0⟩
    let rest : List CollWait := (collWaits joined c.job c.tag).tail
    let ws : List CollWait := (collJoined joined w.c).getD [];
    i ∈ [Instr.collectiveAllreduce, .collectiveBroadcast] ∧ collWaits joined c.job c.tag = w :: rest ∧ collJoined joined w.c = some ws ∧ (ws.any fun y => !sameHeader y.c w.c) = false ∧ collLinks joined w.c = true ∧ (runCollective joined w.c ws).linkHeld = false) ∧
   (let s : State := joinedBy { co 3 (own 0) (own 0x400) with module := 1 }
    let c : Coll := co 3 (own 0) (own 0x400)
    let joined : State := (s.modModu c.module fun x => { x with colls := x.colls ++ [⟨c, s.now⟩] }).later (collTimeout s c.module)
        (fromModule c.module) (atModule c.module) (.collectiveTimeout ⟨c.module, c.job, c.tag⟩)
    let i : Coll → Instr := Instr.collectiveAllreduce
    let w : CollWait := (collWaits joined c.job c.tag).headD ⟨c, 0⟩
    let rest : List CollWait := (collWaits joined c.job c.tag).tail
    let ws : List CollWait := (collJoined joined w.c).getD [];
    i ∈ [Instr.collectiveAllreduce, .collectiveBroadcast] ∧ collWaits joined c.job c.tag = w :: rest ∧ collJoined joined w.c = some ws ∧ (ws.any fun y => !sameHeader y.c w.c) = false ∧ collLinks joined w.c = false) ∧
   (let s : State := rich
    let c : Coll := co 3 (own 0) (own 0x400)
    let u : State := (collWrite s c (hostBytes s c.module (collPort c) (collFunc c) c.src.toNat c.bytes)).1
    let n : Nat := 8
    let f : Option FaultRec := none;
    collWrite s c (hostBytes s c.module (collPort c) (collFunc c) c.src.toNat c.bytes) = (u, n, f) ∧ u.linkHeld = false) ∧
   (let s : State := rich
    let c : Coll := co 3 (own 0) (own 0x400)
    let u : State := (collRead s c).1
    let bs : List Byte := List.replicate 8 0;
    collRead s c = (u, .ok bs) ∧ u.linkHeld = false) ∧
   (let s : State := rich
    let c : Coll := co 1 0xF000000000000000 (own 0x400)
    let u : State := (collRead s c).1
    let f : FaultRec := match (collRead s c).2 with | .error f => f | .ok _ => denied;
    collRead s c = (u, .error f) ∧ u.linkHeld = false) ∧
   (let s : State := rich
    let c : Coll := co 3 (own 0) (own 0x400)
    let code : Nat := 1
    let flags : Nat := 2
    let written : Nat := 8
    let f : Option FaultRec := none
    let u : State := (underMode s c.gti c.user (fun t => writeBytes t c.gti c.desc (bytesOf 8 (collStatus ⟨c, code, flags, written, f⟩)) .store gkStore)).1
    let d : CollDone := ⟨c, code, flags, written, f⟩;
    code < 5 ∧ c.gti < 2 ^ 34 ∧ (tfind u.threads c.gti).isSome = true ∧ underMode s c.gti c.user (fun t => writeBytes t c.gti c.desc (bytesOf 8 (collStatus d)) .store gkStore) = (u, .ok ()) ∧ u.linkHeld = false) ∧
   (let code : Nat := 1
    let flags : Nat := 2
    let written : Nat := 8;
    code < 16 ∧ flags < 16 ∧ written < 2 ^ 24) ∧
   (let s : State := rich
    let c : Coll := { co 3 (own 0) (own 0x400) with kind := 2 };
    1 < c.kind ∧ c.gti < 2 ^ 34 ∧ (tfind s.threads c.gti).isSome = true) ∧
   (let s : State := rich
    let c : Coll := co 3 (own 0) (own 0x400)
    let o : CollRef := ⟨0, 0, 7⟩;
    o.module = c.module ∧ collWaitAt s o.job o.tag o.module = none) ∧
   (let s : State := joinedBy (co 1 (own 0) (own 0x400))
    let c : Coll := co 1 (own 0) (own 0x400)
    let o : CollRef := ⟨0, 0, 7⟩
    let w : CollWait := ⟨c, 0⟩;
    o.module = c.module ∧ collWaitAt s o.job o.tag o.module = some w ∧ w.c = c) ∧
   (let s : State := joinedBy (co 3 (own 0) (own 0x400))
    let c : Coll := co 3 (own 0) (own 0x400)
    let o : CollRef := ⟨0, 0, 7⟩
    let w : CollWait := ⟨co 3 (own 0) (own 0x400), 0⟩;
    o.module = c.module ∧ collWaitAt s o.job o.tag o.module = some w ∧ s.now < w.since + collTimeout s o.module ∧ ((∀ y ∈ collWaits s o.job o.tag, collJoined s y.c = none)) ∧ w.c.module = o.module) ∧
   (let s : State := { joinedBy (co 1 (own 0) (own 0x400)) with now := 2 ^ 40 }
    let c : Coll := co 1 (own 0) (own 0x400)
    let o : CollRef := ⟨0, 0, 7⟩
    let w : CollWait := ⟨c, 0⟩;
    o.module = c.module ∧ collWaitAt s o.job o.tag o.module = some w ∧ w.since + collTimeout s o.module ≤ s.now) :=
  by
  and_intros <;> first | decide +kernel | exact pairOf (by decide +kernel) | simp

end CollectiveSteps

namespace ThreadEvents

def out1 (d : Dest) (n : Nat) (st : TStatus := .ready) : State := hand (fun h => { h with status := st, nextId := n, out := [⟨6, d, 1, [], none, 0x40, false, 0, 0⟩] }) (user rich)

/-- States and operands that meet the hypotheses of ThreadEvents. -/
theorem meets_ThreadEvents :
   (let s : State := out1 (.x 5 4 true) 9
    let g : Nat := 0
    let h := s.thread g
    let awaited (e : Outst) : Bool := e.id + 1 == h.nextId && match h.status with
        | .waiting .answer | .waiting (.tile _ _ _) | .waiting (.stall _ _) => true
        | _ => false
    let e : Outst := ⟨6, .x 5 4 true, 1, [], none, 0x40, false, 0, 0⟩
    let n : Nat := 4
    let sign : Bool := true
    let d : Nat := 5
    let bs : List Byte := [1, 2, 3, 0x80];
    g < 2 ^ 33 ∧ (tfind s.threads g).isSome = true ∧ ((h.out = [e] ∧ e.parts = 1 ∧ e.fault = none)) ∧ e.dest = .x d n sign ∧ e.buf = [] ∧ bs.length = n ∧ awaited e = false ∧ ((n = 1 ∨ n = 2 ∨ n = 4 ∨ n = 8))) ∧
   (let s : State := out1 (.regs [5] []) 9
    let g : Nat := 0
    let h := s.thread g
    let awaited (e : Outst) : Bool := e.id + 1 == h.nextId && match h.status with
        | .waiting .answer | .waiting (.tile _ _ _) | .waiting (.stall _ _) => true
        | _ => false
    let e : Outst := ⟨6, .regs [5] [], 1, [], none, 0x40, false, 0, 0⟩
    let d : Nat := 5;
    g < 2 ^ 33 ∧ (tfind s.threads g).isSome = true ∧ ((h.out = [e] ∧ e.parts = 1 ∧ e.fault = none)) ∧ e.dest = .regs [d] [] ∧ awaited e = false) ∧
   (let s : State := out1 (.regs [5] []) 7 (.waiting .answer)
    let g : Nat := 0
    let h := s.thread g
    let e : Outst := ⟨6, .regs [5] [], 1, [], none, 0x40, false, 0, 0⟩;
    g < 2 ^ 33 ∧ (tfind s.threads g).isSome = true ∧ ((h.out = [e] ∧ e.parts = 1 ∧ e.fault = none)) ∧ h.status = .waiting .answer ∧ e.id + 1 = h.nextId) ∧
   (let s : State := user rich
    let g : Nat := 0
    let h := s.thread g;
    g < 2 ^ 33 ∧ (tfind s.threads g).isSome = true ∧ h.out = []) ∧
   (let s : State := out1 (.x 5 4 true) 9
    let g : Nat := 0
    let h := s.thread g
    let e : Outst := ⟨6, .x 5 4 true, 1, [], none, 0x40, false, 0, 0⟩;
    g < 2 ^ 33 ∧ (tfind s.threads g).isSome = true ∧ ((h.out = [e] ∧ e.parts = 1 ∧ e.fault = none)) ∧ e.task = h.ctx.task) ∧
   (let s : State := user rich
    let g : Nat := 0
    let h := s.thread g
    let f : FaultRec := { mkFault .translation 0 0x1234 with pc := some 0x40 };
    g < 2 ^ 33 ∧ (tfind s.threads g).isSome = true ∧ h.stf = [] ∧ f.task = h.ctx.task) ∧
   (let s : State := hand (fun h => { h with gone := [5], ctx := { h.ctx with cause := { h.ctx.cause with disc := true, task := 5 } } }) (user rich)
    let g : Nat := 0
    let h := s.thread g
    let f : FaultRec := { mkFault .translation 0 0x1234 with pc := some 0x40, task := 5 };
    g < 2 ^ 33 ∧ (tfind s.threads g).isSome = true ∧ f.task ≠ h.ctx.task ∧ h.gone.contains f.task = true ∧ ((h.ctx.cause.disc = true ∧ h.ctx.cause.task = f.task))) ∧
   (let s : State := hand (fun h => { h with gone := [5], ctx := { h.ctx with mcause := { h.ctx.mcause with disc := true, task := 5 } } }) (user rich)
    let g : Nat := 0
    let h := s.thread g
    let f : FaultRec := { mkFault .translation 0 0x1234 with pc := some 0x40, task := 5 };
    g < 2 ^ 33 ∧ (tfind s.threads g).isSome = true ∧ f.task ≠ h.ctx.task ∧ h.gone.contains f.task = true ∧ (¬(h.ctx.cause.disc = true ∧ h.ctx.cause.task = f.task)) ∧ ((h.ctx.mcause.disc = true ∧ h.ctx.mcause.task = f.task))) ∧
   (let s : State := hand (fun h => { h with gone := [5] }) (user rich)
    let g : Nat := 0
    let h := s.thread g
    let f : FaultRec := { mkFault .translation 0 0x1234 with pc := some 0x40, task := 5 };
    g < 2 ^ 33 ∧ (tfind s.threads g).isSome = true ∧ f.task ≠ h.ctx.task ∧ h.gone.contains f.task = true ∧ (¬(h.ctx.cause.disc = true ∧ h.ctx.cause.task = f.task)) ∧ (¬(h.ctx.mcause.disc = true ∧ h.ctx.mcause.task = f.task))) ∧
   (let s : State := hand (fun h => { h with pend := [{ mkFault .translation 0 0x1234 with pc := some 0x40 }] }) (user rich)
    let g : Nat := 0
    let h := s.thread g
    let f : FaultRec := { mkFault .translation 0 0x1234 with pc := some 0x40 };
    g < 2 ^ 33 ∧ (tfind s.threads g).isSome = true ∧ h.pend = [f]) ∧
   (let s : State := user rich
    let g : Nat := 0
    let h := s.thread g
    let i : Instr × Cause := (Instr.singleStep ⟨g⟩, Cause.singleStep);
    g < 2 ^ 33 ∧ (tfind s.threads g).isSome = true ∧ i ∈ [(Instr.singleStep ⟨g⟩, Cause.singleStep), (.interruptEntry ⟨g, 2⟩, .interrupt)] ∧ h.pend = [] ∧ canAbandon s g = false ∧ h.ctx.mode ≠ .monitor ∧ h.ctx.cause.live = false) ∧
   (let s : State := user rich
    let g : Nat := 0
    let h := s.thread g
    let o : SoftIrq := ⟨0, 0, 5, 0, 0, 0⟩;
    g < 2 ^ 33 ∧ (tfind s.threads g).isSome = true ∧ o.core * 16 + o.slot = g ∧ ((h.status ≠ .absent ∧ h.ctx.ids.job = o.job))) ∧
   (let s : State := user rich
    let g : Nat := 0
    let h := s.thread g
    let o : SoftIrq := ⟨0, 0, 5, 0, 0, 3⟩;
    g < 2 ^ 33 ∧ (tfind s.threads g).isSome = true ∧ o.core * 16 + o.slot = g ∧ (¬(h.status ≠ .absent ∧ h.ctx.ids.job = o.job))) ∧
   (let s : State := user rich
    let g : Nat := 0
    let o : Msg := ⟨0, 7, 0, 2, 0x40, 9, .pd, 0x40, 0⟩
    let k := tget Arrival.zero (s.core o.core).arrivals o.ctr;
    g < 2 ^ 33 ∧ (tfind s.threads g).isSome = true ∧ o.gti = g ∧ k.owner ≠ o.job) ∧
   (let s : State := user rich
    let g : Nat := 0
    let o : Msg := ⟨0, 0, 0, 2, 0x40, 9, .pd, 0x40, 0⟩
    let k := tget Arrival.zero (s.core o.core).arrivals o.ctr;
    g < 2 ^ 33 ∧ (tfind s.threads g).isSome = true ∧ o.gti = g ∧ k.owner = o.job ∧ guarded (s.core o.core) o.pos 8 = false) ∧
   (let s : State := user rich
    let g : Nat := 0
    let o : Msg := ⟨0, 7, 0, 2, 0x40, 9, .pd, 0x40, 0⟩;
    g < 2 ^ 33 ∧ (tfind s.threads g).isSome = true ∧ o.gti = g ∧ (s.core o.core).rqOwner ≠ o.job) ∧
   (let s : State := user rich
    let g : Nat := 0
    let o : Msg := ⟨0, 0, 0, 2, 0x40, 9, .pd, 0x40, 0⟩;
    g < 2 ^ 33 ∧ (tfind s.threads g).isSome = true ∧ o.gti = g ∧ (s.core o.core).rqOwner = o.job ∧ (s.core o.core).rq.length < Config.recvQueue ∧ (s.core o.core).saved = []) ∧
   (let s : State := (user rich).modCore 0 fun c => { c with rq := List.replicate Config.recvQueue 0 }
    let g : Nat := 0
    let o : Msg := ⟨0, 0, 0, 2, 0x40, 9, .pd, 0x40, 0⟩;
    g < 2 ^ 33 ∧ (tfind s.threads g).isSome = true ∧ o.gti = g ∧ (s.core o.core).rqOwner = o.job ∧ Config.recvQueue ≤ (s.core o.core).rq.length) ∧
   (let s : State := arr 4 ⟨0, 9⟩ (user rich)
    let g : Nat := 0
    let h := s.thread g
    let core := coreOf g
    let n : Nat := 4;
    g < 2 ^ 33 ∧ (tfind s.threads g).isSome = true ∧ (tget Arrival.zero (s.core core).arrivals n).owner ≠ h.ctx.ids.job) :=
  by
  and_intros <;> first | decide +kernel | simp

end ThreadEvents

namespace CoreTables

def shp (ext : Nat) (slots : Nat := 2) : Nat := slots * 2 ^ 315 + 2 ^ 308 + ext * 2 ^ 416

def wk (first count : Nat) : Dandelion := ⟨ids0, 0x40, 0, 0, first, count, .user, 0⟩

def shaped (d : Nat) : State := jobbed (leBytes 64 d)

def wl (n : Nat) (s : State := rich) : State := s.modCore 0 fun c => { c with work := List.replicate n ⟨0x40, 0, 0, ids0, .user, 0⟩ }

def loading (st src : Nat) : State := rich.modCore 0 fun c => { c with leases := tput c.leases 1 ⟨st, 3, 3, ids0, src⟩ }

def pkt (c : Bool) (fmt : Nat) (t : Word) : Packet := ⟨Ctx.zero, false, [], t, 0, 0, 3, fmt, false, c⟩

/-- A thread that waits for an empty receive queue, a save area, and a suspended job. -/
def savable1 : State :=
  let s := hand (fun h => { h with status := .waiting .queue }) rich
  let s := (s.modDie 0 fun d => { d with psV := true }).modModu 0 fun m => { m with suspended := [0] }
  s.modCore 0 fun c => { c with leases := [(0, ⟨2, 3, 3, ids0, 0⟩)] }

/-- States and operands that meet the hypotheses of CoreTables. -/
theorem meets_CoreTables :
   (let core : Nat := 0
    let w : Dandelion := wk 4 2;
    core < 2 ^ 29 ∧ (¬(w.first ≤ core ∧ core < w.first + w.count))) ∧
   (let s : State := rich.modCore 0 fun c => { c with shares := List.replicate 64 ⟨wk 0 2, 0, 1, 1, 2, [], 0⟩ }
    let core : Nat := 0
    let c := s.core core
    let cancelled (ids : Ids) : Bool := cancelledAt s (moduleOf core) ids
    let w : Dandelion := wk 0 2;
    core < 2 ^ 29 ∧ ((w.first ≤ core ∧ core < w.first + w.count)) ∧ sharesFull c = true ∧ cancelled w.ids = false) ∧
   (let s : State := rich.modCore 0 fun c => { c with cancels := [⟨0, ids0⟩] }
    let core : Nat := 0
    let c := s.core core
    let cancelled (ids : Ids) : Bool := cancelledAt s (moduleOf core) ids
    let w : Dandelion := wk 0 2;
    core < 2 ^ 29 ∧ ((w.first ≤ core ∧ core < w.first + w.count)) ∧ cancelled w.ids = true) ∧
   (let s : State := shaped (shp 1 0)
    let core : Nat := 0
    let c := s.core core
    let cancelled (ids : Ids) : Bool := cancelledAt s (moduleOf core) ids
    let w : Dandelion := wk 0 2
    let u : State := (readRecord (s.home core w.ids.job) (moduleOf core) w.ids.job (w.mode == .user) w.shape s).1
    let d : Nat := shp 1 0;
    core < 2 ^ 29 ∧ ((w.first ≤ core ∧ core < w.first + w.count)) ∧ sharesFull c = false ∧ cancelled w.ids = false ∧ readRecord (s.home core w.ids.job) (moduleOf core) w.ids.job (w.mode == .user) w.shape s = (u, .ok d) ∧ u.linkHeld = false ∧ shapeBad d = true) ∧
   (let s : State := shaped (shp 0)
    let core : Nat := 0
    let c := s.core core
    let cancelled (ids : Ids) : Bool := cancelledAt s (moduleOf core) ids
    let w : Dandelion := wk 0 2
    let u : State := (readRecord (s.home core w.ids.job) (moduleOf core) w.ids.job (w.mode == .user) w.shape s).1
    let d : Nat := shp 0
    let h := shareOf d (core - w.first) w.count;
    core < 2 ^ 29 ∧ ((w.first ≤ core ∧ core < w.first + w.count)) ∧ sharesFull c = false ∧ cancelled w.ids = false ∧ readRecord (s.home core w.ids.job) (moduleOf core) w.ids.job (w.mode == .user) w.shape s = (u, .ok d) ∧ u.linkHeld = false ∧ shapeBad d = false ∧ h.2.1 = 0) ∧
   (let s : State := shaped (shp 9)
    let core : Nat := 0
    let c := s.core core
    let cancelled (ids : Ids) : Bool := cancelledAt s (moduleOf core) ids
    let w : Dandelion := wk 0 2
    let u : State := (readRecord (s.home core w.ids.job) (moduleOf core) w.ids.job (w.mode == .user) w.shape s).1
    let d : Nat := shp 9
    let h := shareOf d (core - w.first) w.count;
    core < 2 ^ 29 ∧ ((w.first ≤ core ∧ core < w.first + w.count)) ∧ sharesFull c = false ∧ cancelled w.ids = false ∧ readRecord (s.home core w.ids.job) (moduleOf core) w.ids.job (w.mode == .user) w.shape s = (u, .ok d) ∧ u.linkHeld = false ∧ shapeBad d = false ∧ h.2.1 ≠ 0) ∧
   (let s : State := shaped (shp 1 0)
    let core : Nat := 0
    let c := s.core core
    let cancelled (ids : Ids) : Bool := cancelledAt s (moduleOf core) ids
    let w : Dandelion := wk 0 2
    let u : State := (readRecord (s.home core w.ids.job) (moduleOf core) w.ids.job (w.mode == .user) w.shape s).1
    let d : Nat := shp 1 0;
    core < 2 ^ 29 ∧ ((w.first ≤ core ∧ core < w.first + w.count)) ∧ sharesFull c = false ∧ cancelled w.ids = false ∧ readRecord (s.home core w.ids.job) (moduleOf core) w.ids.job (w.mode == .user) w.shape s = (u, .ok d) ∧ u.linkHeld = false ∧ recField d 314 314 = 0) ∧
   (let s : State := rich
    let core : Nat := 0;
    core < 2 ^ 29 ∧ (freeSlot s.reportAll core = none ∨ candidates s.reportAll core = [])) ∧
   (let s : State := wl 1
    let core : Nat := 0
    let slot : Nat := 0
    let k : Candidate := ⟨0, .work 0⟩
    let q : Candidate := ⟨0, .work 0⟩;
    core < 2 ^ 29 ∧ freeSlot s.reportAll core = some slot ∧ best (candidates s.reportAll core) = some k ∧ q ∈ candidates s.reportAll core) ∧
   (let s : State := loading 1 2
    let core : Nat := 0
    let slot : Nat := 1;
    core < 2 ^ 29 ∧ slot < 16 ∧ (s.lease (core * 16 + slot)).state = 1 ∧ (s.lease (core * 16 + slot)).source ≤ 2) ∧
   (let s : State := loading 1 4
    let core : Nat := 0
    let slot : Nat := 1;
    core < 2 ^ 29 ∧ slot < 16 ∧ (s.lease (core * 16 + slot)).state = 1 ∧ (s.lease (core * 16 + slot)).source = 4) ∧
   (let s : State := rich
    let core : Nat := 0
    let slot : Nat := 1;
    core < 2 ^ 29 ∧ (s.lease (core * 16 + slot)).state ≠ 1 ∧ slot < 16) ∧
   (let s : State := wl 1
    let core : Nat := 0
    let c := s.core core
    let d : Nat := 1
    let least := (s.die (dieOf core)).sxMin.toNat
    let n := c.work.length;
    core < 2 ^ 29 ∧ lowest s (neighbours core) = some d ∧ c.work ≠ [] ∧ (least = 0 ∨ n - occupancy s d < least)) ∧
   (let s : State := wl 20
    let core : Nat := 0
    let c := s.core core
    let d : Nat := 1
    let least := (s.die (dieOf core)).sxMin.toNat
    let n := c.work.length;
    core < 2 ^ 29 ∧ lowest s (neighbours core) = some d ∧ c.work ≠ [] ∧ least ≠ 0 ∧ least ≤ n - occupancy s d) ∧
   (let s : State := wl 1
    let core : Nat := 0
    let c := s.core core
    let d : Nat := 1
    let e : Nat := 2;
    core < 2 ^ 29 ∧ lowest s (neighbours core) = some d ∧ c.work ≠ [] ∧ e ∈ neighbours core) ∧
   (let core : Nat := 0
    let w : Shipment := ⟨8, 0, [⟨0x40, 0, 0, ids0, .user, 0⟩]⟩;
    core < 2 ^ 29 ∧ w.target = core ∧ w.source ≠ core) ∧
   (let s : State := rich.modCore 0 fun c => { c with quarantine := some (pkt true 1 0) }
    let core : Nat := 0
    let c := s.core core
    let cancelled (ids : Ids) : Bool := cancelledAt s (moduleOf core) ids
    let p : Packet := pkt false 1 0
    let slot := if (s.modu (moduleOf core)).suspended.contains p.ctx.ids.job then none else freeSlot s core;
    core < 2 ^ 29 ∧ p.dest = core ∧ p.near = false ∧ cancelled p.ctx.ids = false ∧ (c.quarantine.isSome = true ∨ (p.corrupt = false ∧ p.fmt = 1 ∧ slot = none ∧ Config.runQueue ≤ c.runq.length))) ∧
   (let s : State := rich
    let core : Nat := 0
    let c := s.core core
    let cancelled (ids : Ids) : Bool := cancelledAt s (moduleOf core) ids
    let p : Packet := pkt true 1 0;
    core < 2 ^ 29 ∧ p.dest = core ∧ p.near = false ∧ cancelled p.ctx.ids = false ∧ c.quarantine = none ∧ (p.corrupt = true ∨ p.fmt ≠ 1)) ∧
   (let s : State := rich
    let core : Nat := 0
    let c := s.core core
    let cancelled (ids : Ids) : Bool := cancelledAt s (moduleOf core) ids
    let p : Packet := pkt false 1 0
    let slot := if (s.modu (moduleOf core)).suspended.contains p.ctx.ids.job then none else freeSlot s core
    let n : Nat := 0;
    core < 2 ^ 29 ∧ p.dest = core ∧ p.near = false ∧ cancelled p.ctx.ids = false ∧ c.quarantine = none ∧ p.corrupt = false ∧ p.fmt = 1 ∧ p.trem = 0 ∧ slot = some n) ∧
   (let s : State := savable1
    let core : Nat := 0
    let c := s.core core
    let cancelled (ids : Ids) : Bool := cancelledAt s (moduleOf core) ids
    let p : Packet := pkt false 1 0
    let slot := if (s.modu (moduleOf core)).suspended.contains p.ctx.ids.job then none else freeSlot s core;
    core < 2 ^ 29 ∧ p.dest = core ∧ p.near = false ∧ cancelled p.ctx.ids = false ∧ c.quarantine = none ∧ p.corrupt = false ∧ p.fmt = 1 ∧ p.trem = 0 ∧ slot = none ∧ c.runq.length < Config.runQueue) ∧
   (let s : State := rich
    let core : Nat := 0
    let k : CancelKey := ⟨0, ⟨0, 5, 0, 0, 9⟩⟩;
    core < 2 ^ 29 ∧ levelLive s k = false) ∧
   (let s : State := rich
    let core : Nat := 0
    let k : CancelKey := ⟨0, ids0⟩;
    core < 2 ^ 29 ∧ levelLive s k = true) ∧
   (let s : State := savable1
    let core : Nat := 0
    let f : Nat := 0
    let slot : Nat := 0;
    core < 2 ^ 29 ∧ freeFrame s core = some f ∧ victim s core = some slot) ∧
   (let s : State := rich
    let core : Nat := 0;
    core < 2 ^ 29 ∧ preemptDue s core = false) ∧
   (let s : State := rich.modCore 0 fun c => { c with saved := [(0, ⟨.stall 0 5, 0, 3, 3⟩)] }
    let core : Nat := 0
    let c := s.core core
    let f : Nat := 0
    let x : Saved := ⟨.stall 0 5, 0, 3, 3⟩;
    core < 2 ^ 29 ∧ tfind c.saved f = some x ∧ ((∃ a b, x.wake = .stall a b)) ∧ c.saved.map (·.1) = [f]) :=
  by
  and_intros <;> first | decide +kernel | exact pairOf (by decide +kernel) | exact ⟨0, 5, by decide +kernel⟩

end CoreTables

namespace HomeSteps

def rd : HomeReq := ⟨0, 3, 0, 0, true, 0, 8, 8, 0, false, false, false, false, none, 0, 0, 0⟩

def lw (own : Bool) : LineWrite := ⟨0, 0, own, 0, 0, .ofNat 128 0xFF00, .ofNat 1024 (0x77 * 2 ^ 64), 0, .pd, 0, 0, false, 0, 0⟩

def at_ : AtomicReq := ⟨0, 3, 0, true, 0, 8, 8, .add, 5, 0, 0, false, false, 0, 0, 0⟩

/-- The page of line 0 cannot be touched in user mode. -/
def barred : State := sl fun x => { x with lines := tput x.lines (lineKey 0 0) ⟨0x40000, ⟨true, true, true, false⟩, 0⟩ }

def held : State := sl fun x => { x with spec := [⟨0, 0, 0, true, 0, .ofNat 128 0xFF00, .ofNat 1024 (0x77 * 2 ^ 64)⟩] }

def regd (c : Nat) (s : State := mapped rich) : State := sl (fun x => { x with regs := tput x.regs (wordKey 0 1) ⟨c, true⟩, regOrder := [wordKey 0 1] }) s

def inst : Install := ⟨0, 0, 0, 0, 0, 0⟩

def ck : CommKey := ⟨0, 1, .add, 8⟩

/-- States and operands that meet the hypotheses of HomeSteps. -/
theorem meets_HomeSteps :
   (let s : State := sl (fun x => { x with asleep := true })
    let g : Nat := 0
    let x : Instr × Event := (Instr.lineFill rd, Event.lineFill rd)
    let r : HomeReq := rd
    let w : LineWrite := lw true
    let c : Install := inst
    let a : AtomicReq := at_;
    r.gslice = g ∧ w.gslice = g ∧ c.gslice = g ∧ a.gslice = g ∧ x ∈ [(Instr.lineFill r, Event.lineFill r), (.forwardedRead r, .forwardedRead r), (.speculativeStoreReceipt w, .speculativeStoreReceipt w), (.commitInstall c, .commitInstall c), (.fallBackAtomicGrant a, .fallBackAtomicGrant a)] ∧ (s.slice g).asleep = true) ∧
   (let s : State := { (mapped rich).modDie 0 (fun d => { d with slcfg := 17 }) with now := 2 ^ 20 }
    let r : SliceRef := ⟨0⟩
    let n := (s.die (sliceDie r.gslice)).slcfg.toNat;
    ((s.slice r.gslice).asleep = false) ∧ n ≠ 0 ∧ (s.slice r.gslice).lastServed + 2 ^ max 16 n ≤ s.now) ∧
   (let s : State := mapped rich
    let r : SliceRef := ⟨0⟩
    let n := (s.die (sliceDie r.gslice)).slcfg.toNat;
    (n = 0 ∨ s.now < (s.slice r.gslice).lastServed + 2 ^ max 16 n)) ∧
   (let s : State := rich
    let r : HomeReq := rd
    let k : Nat := (match readFill s r with | .ok _ => 0 | .error k => k);
    ((s.slice r.gslice).asleep = false) ∧ r.copy = none ∧ readFill s r = .error k) ∧
   (let s : State := barred
    let r : HomeReq := rd
    let job := r.job
    let line := r.addr / 128
    let l : HomeLine := ⟨0x40000, ⟨true, true, true, false⟩, 0⟩;
    ((s.slice r.gslice).asleep = false) ∧ r.copy = none ∧ tfind (s.slice r.gslice).lines (lineKey job line) = some l ∧ permOk l.perms r.user false false = false) ∧
   (let s : State := mapped rich
    let r : HomeReq := rd
    let u : State := (match readFill s r with | .ok p => p.1 | .error _ => s)
    let h : HomeLine := (match readFill s r with | .ok p => p.2 | .error _ => ⟨0, allPerms, 0⟩)
    let job := r.job
    let line := r.addr / 128;
    ((s.slice r.gslice).asleep = false) ∧ r.copy = none ∧ readFill s r = .ok (u, h) ∧ ((u.badLine h.frame = false ∧ collectDue u r.gslice job line (readWords r) = false)) ∧ forwardDue u r.gslice job line (some r.core) (readWords r) = false) ∧
   (let s : State := regd 3
    let r : HomeReq := rd
    let u : State := (match readFill s r with | .ok p => p.1 | .error _ => s)
    let h : HomeLine := (match readFill s r with | .ok p => p.2 | .error _ => ⟨0, allPerms, 0⟩)
    let job := r.job
    let line := r.addr / 128;
    ((s.slice r.gslice).asleep = false) ∧ r.copy = none ∧ readFill s r = .ok (u, h) ∧ ((u.badLine h.frame = false ∧ collectDue u r.gslice job line (readWords r) = false)) ∧ forwardDue u r.gslice job line (some r.core) (readWords r) = true) ∧
   (let s : State := sl (fun x => { x with comm := [⟨ck, 1, 0, 0⟩] })
    let r : HomeReq := rd
    let u : State := (match readFill s r with | .ok p => p.1 | .error _ => s)
    let h : HomeLine := (match readFill s r with | .ok p => p.2 | .error _ => ⟨0, allPerms, 0⟩)
    let job := r.job
    let line := r.addr / 128;
    ((s.slice r.gslice).asleep = false) ∧ r.copy = none ∧ readFill s r = .ok (u, h) ∧ u.badLine h.frame = false ∧ collectDue u r.gslice job line (readWords r) = true) ∧
   (let s : State := mapped rich
    let g : Nat := 0
    let job : Nat := 0
    let line : Nat := 0
    let ok : Perms → Bool := (fun _ => true)
    let once : Bool := false
    let u : State := (match homeFill s g job line ok once with | .ok p => p.1 | .error _ => s)
    let h : HomeLine := (match homeFill s g job line ok once with | .ok p => p.2 | .error _ => ⟨0, allPerms, 0⟩);
    homeFill s g job line ok once = .ok (u, h) ∧ ((residents (s.slice g) line).1.length + (residents (s.slice g) line).2.length ≤ linearWays s g)) ∧
   (let s : State := sl (fun x => { x with copies := [(0, ⟨false, false, 5, allPerms, 0, []⟩)] })
    let r : HomeReq := { rd with copy := some 0 }
    let cs : Nat := 0
    let key := lineKey r.job (r.addr / 128)
    let v := s.serve cs
    let c : CopyLine := ⟨false, false, 5, allPerms, 0, []⟩;
    r.copy = some cs ∧ ((s.slice cs).asleep = false) ∧ tfind (v.slice cs).copies key = some c ∧ c.filling = false) ∧
   (let s : State := mapped rich
    let r : HomeReq := { rd with copy := some 0 }
    let cs : Nat := 0
    let key := lineKey r.job (r.addr / 128)
    let v := s.serve cs;
    r.copy = some cs ∧ ((s.slice cs).asleep = false) ∧ tfind (v.slice cs).copies key = none) ∧
   (let s : State := sl (fun x => { x with copies := [(0, ⟨true, false, 5, allPerms, 0, []⟩)] })
    let f : CopyFill := ⟨0, 0, 0, 5, allPerms, none⟩
    let c : CopyLine := ⟨true, false, 5, allPerms, 0, []⟩
    let v := s.serve f.gslice
    let key := lineKey f.job f.line;
    ((s.slice f.gslice).asleep = false) ∧ tfind (v.slice f.gslice).copies key = some c ∧ c.filling = true ∧ c.waiting = [] ∧ f.fault = none) ∧
   (let s : State := mapped rich
    let v : CopyInval := ⟨.copy 0, 16, 0, 0, 128⟩
    let cs : Nat := 0;
    v.sharer = .copy cs ∧ ((s.slice cs).asleep = false)) ∧
   (let s : State := mapped rich
    let w : LineWrite := lw true
    let u : State := (match storeCheck s w.gslice w.job w.line w.user w.once with | .ok u => u | .error _ => s);
    ((s.slice w.gslice).asleep = false) ∧ storeCheck s w.gslice w.job w.line w.user w.once = .ok u ∧ u.hasThread w.gti = true ∧ (u.thread w.gti).ctx.task = w.task) ∧
   (let s : State := rich
    let w : LineWrite := lw true
    let k : Nat := (match storeCheck s w.gslice w.job w.line w.user w.once with | .ok _ => 0 | .error k => k);
    ((s.slice w.gslice).asleep = false) ∧ storeCheck s w.gslice w.job w.line w.user w.once = .error k) ∧
   (let s : State := mapped rich
    let c : Install := inst
    let p : SpecLine := ⟨0, 0, 0, true, 0, .ofNat 128 0xFF00, .ofNat 1024 (0x77 * 2 ^ 64)⟩
    let found := (s.slice c.gslice).spec.find? fun p => p.gti == c.gti && p.task == c.task && p.job == c.job && p.line == c.line;
    ((s.slice c.gslice).asleep = false) ∧ found = none) ∧
   (let s : State := held
    let c : Install := inst
    let p : SpecLine := ⟨0, 0, 0, true, 0, .ofNat 128 0xFF00, .ofNat 1024 (0x77 * 2 ^ 64)⟩
    let found := (s.slice c.gslice).spec.find? fun p => p.gti == c.gti && p.task == c.task && p.job == c.job && p.line == c.line
    let u : State := (match homeFill s c.gslice c.job c.line (fun q => permOk q p.user true false) false with | .ok p => p.1 | .error _ => s)
    let h : HomeLine := (match homeFill s c.gslice c.job c.line (fun q => permOk q p.user true false) false with | .ok p => p.2 | .error _ => ⟨0, allPerms, 0⟩)
    let v := settleRegd c.core c.job c.line p.mask c.gslice 16 u
    let n := writeNeeds v c.gslice c.job c.line (if sliceDie c.gslice = dieOf c.core then some c.core else none) (touched p.mask 16);
    ((s.slice c.gslice).asleep = false) ∧ found = some p ∧ homeFill s c.gslice c.job c.line (fun q => permOk q p.user true false) false = .ok (u, h) ∧ n.2 = []) ∧
   (let s : State := regd 3 held
    let c : Install := inst
    let p : SpecLine := ⟨0, 0, 0, true, 0, .ofNat 128 0xFF00, .ofNat 1024 (0x77 * 2 ^ 64)⟩
    let found := (s.slice c.gslice).spec.find? fun p => p.gti == c.gti && p.task == c.task && p.job == c.job && p.line == c.line
    let u : State := (match homeFill s c.gslice c.job c.line (fun q => permOk q p.user true false) false with | .ok p => p.1 | .error _ => s)
    let h : HomeLine := (match homeFill s c.gslice c.job c.line (fun q => permOk q p.user true false) false with | .ok p => p.2 | .error _ => ⟨0, allPerms, 0⟩)
    let v := settleRegd c.core c.job c.line p.mask c.gslice 16 u
    let n := writeNeeds v c.gslice c.job c.line (if sliceDie c.gslice = dieOf c.core then some c.core else none) (touched p.mask 16);
    ((s.slice c.gslice).asleep = false) ∧ found = some p ∧ homeFill s c.gslice c.job c.line (fun q => permOk q p.user true false) false = .ok (u, h) ∧ n.2 ≠ []) ∧
   (let k : Nat := 0;
    k < 128) ∧
   (let s : State := mapped rich
    let w : HomeWrite := ⟨lw true, none, false⟩
    let u : State := (match homeFill s w.w.gslice w.w.job w.w.line (fun p => permOk p w.w.user true false) w.w.once with | .ok p => p.1 | .error _ => s)
    let h : HomeLine := (match homeFill s w.w.gslice w.w.job w.w.line (fun p => permOk p w.w.user true false) w.w.once with | .ok p => p.2 | .error _ => ⟨0, allPerms, 0⟩)
    let n := writeNeeds u w.w.gslice w.w.job w.w.line none (touched w.w.mask 16);
    ((s.slice w.w.gslice).asleep = false) ∧ homeFill s w.w.gslice w.w.job w.w.line (fun p => permOk p w.w.user true false) w.w.once = .ok (u, h) ∧ w.w.mask ≠ .ofNat 128 (2 ^ 128 - 1) ∧ w.comm = none ∧ n.2 = []) ∧
   (let s : State := regd 3
    let w : WordRef := ⟨0, 3, 0, 1⟩
    let r : Reg := ⟨3, true⟩;
    tfind (s.slice w.gslice).regs (wordKey w.job w.word) = some r ∧ r.core = w.core) ∧
   (let s : State := regd 3
    let w : WordRef := ⟨0, 2, 0, 1⟩
    let r : Reg := ⟨3, true⟩;
    tfind (s.slice w.gslice).regs (wordKey w.job w.word) = some r ∧ r.core ≠ w.core) ∧
   (let s : State := mapped rich
    let d : Dereg := ⟨0, 3, 0, 0, 2, 2, 0x77⟩;
    ((s.slice d.gslice).asleep = false)) ∧
   (let s : State := mapped rich
    let n : CommFlush := ⟨0, 3, ck, false, 5, [], .pd⟩;
    ((s.slice n.gslice).asleep = false) ∧ ((s.slice n.gslice).comm.any fun d => d.key.job == n.key.job && d.key.word == n.key.word) = false ∧ (s.slice n.gslice).comm.length < Config.commDir) ∧
   (let s : State := mapped rich
    let x : Nat := 0
    let k : CommKey := ck
    let a : Nat := 0x40008;
    wordFrame s x k.job k.word = some a) ∧
   (let s : State := rich
    let a : AtomicReq := at_
    let filled := homeFill s a.gslice a.job (a.addr / 128) (fun p => permOk p a.user true false) a.once
    let k : Nat := (match homeFill s a.gslice a.job (a.addr / 128) (fun p => permOk p a.user true false) a.once with | .ok _ => 0 | .error k => k);
    ((s.slice a.gslice).asleep = false) ∧ filled = .error k) ∧
   (let s : State := mapped rich
    let a : AtomicReq := at_
    let u : State := (match homeFill s a.gslice a.job (a.addr / 128) (fun p => permOk p a.user true false) a.once with | .ok p => p.1 | .error _ => s)
    let h : HomeLine := (match homeFill s a.gslice a.job (a.addr / 128) (fun p => permOk p a.user true false) a.once with | .ok p => p.2 | .error _ => ⟨0, allPerms, 0⟩)
    let word := a.addr / 8
    let filled := homeFill s a.gslice a.job (a.addr / 128) (fun p => permOk p a.user true false) a.once
    let n := writeNeeds u a.gslice a.job (a.addr / 128) (some a.core) [word % 16];
    ((s.slice a.gslice).asleep = false) ∧ filled = .ok (u, h) ∧ u.badLine h.frame = false ∧ a.size = 8 ∧ a.addr % 8 = 0 ∧ n.2 = []) ∧
   (let s : State := mapped rich
    let r : RemoteRead := ⟨0, 3, 0, 1, 0x40, 8, 0, 0, 0⟩;
    r.size ≤ 8 ∧ guarded (s.core r.core) r.pos r.size = false ∧ scratchPoisoned (s.core r.core) r.pos r.size = false) ∧
   (let s : State := rich.modCore 0 fun c => { c with scratchBad := [8] }
    let r : RemoteRead := ⟨0, 0, 0, 0, 0x40, 8, 0, 0, 0⟩;
    r.size ≤ 8 ∧ guarded (s.core r.core) r.pos r.size = false ∧ scratchPoisoned (s.core r.core) r.pos r.size = true) ∧
   (let s : State := { mapped rich with hbmBad := [0x800, 0] }
    let n : CommFlush := ⟨0, 3, ck, false, 5, [], .pd⟩
    let u : State := (match homeFill (ackContrib (postClass n.core n.gslice) n.contrib (s.serve n.gslice)) n.gslice n.key.job (n.key.word / 16) (fun p => permOk p n.user true false) false with | .ok p => p.1 | .error _ => s)
    let h : HomeLine := (match homeFill (ackContrib (postClass n.core n.gslice) n.contrib (s.serve n.gslice)) n.gslice n.key.job (n.key.word / 16) (fun p => permOk p n.user true false) false with | .ok p => p.2 | .error _ => ⟨0, allPerms, 0⟩);
    ((s.slice n.gslice).asleep = false) ∧ homeFill (ackContrib (postClass n.core n.gslice) n.contrib (s.serve n.gslice)) n.gslice n.key.job (n.key.word / 16) (fun p => permOk p n.user true false) false = .ok (u, h) ∧ u.badLine h.frame = true) ∧
   (let s : State := rich.modCore 0 fun c => { c with guardMap := [(0, 1)] }
    let w : RemoteWrite := ⟨0, 0, 0x40, [some 7], 0, 0, true, 1⟩
    let b : Byte := 7;
    w.data = [some b] ∧ guarded (s.core w.core) w.pos 1 = true) ∧
   (let s : State := mapped rich
    let w : RemoteWrite := ⟨0, 0, 0x40, [some 7], 0, 0, true, 1⟩
    let b : Byte := 7;
    w.data = [some b] ∧ guarded (s.core w.core) w.pos 1 = false ∧ (s.core w.core).scratchBad = []) :=
  by
  and_intros <;> first | decide +kernel | exact exOf (by decide +kernel) | simp

end HomeSteps

namespace TileSteps

def ti : TileRef := ⟨0, 0, 5, 9⟩

def ent (st : TileSt) (count pins : Nat) (hold : Bool) : TileEntry := { TileEntry.awaited with st := st, size := 1, count := count, pins := pins, hold := hold, data := [(0, 7)] }

def tiled (e : TileEntry) (s : State := mapped rich) : State := sl (fun x => { x with tiles := tput x.tiles (tileKeyOf ti) e }) s

def split (s : State := mapped rich) : State := s.modDie 0 fun d => { d with tsplit := 4, alBase := 1, alSize := 1 }

def mk : TileCreate := ⟨ti, 0, 3, 1, 2, false, [(0, 7)], some 0, 0⟩

def ld (consume : Bool) : TileLoad := ⟨ti, .thread 0 3, consume, 0, 8, 8, 0, 0x40, 0, 0⟩

def wait3 (s : State) : State := hand (fun h => { h with out := [⟨3, .scratch 0x40, 8, [], none, 0x40, false, 0, 0⟩], nextId := 4 }) s

/-- States and operands that meet the hypotheses of TileSteps. -/
theorem meets_TileSteps :
   (let s : State := tiled (ent .present 2 0 false)
    let tile (r : TileRef) : Option TileEntry := (s.serve r.gslice).tile r
    let c : TileCreate := mk
    let task : BitVec 32 := 0
    let e : TileEntry := ent .present 2 0 false;
    c.task = some task ∧ ((s.slice c.t.gslice).asleep = false) ∧ tile c.t = some e ∧ e.st ≠ .awaited) ∧
   (let s : State := sl fun x => { x with tiles := [(tileKey 0 5 (2 ^ 23 + 9), ent .present 2 0 false)] }
    let tile (r : TileRef) : Option TileEntry := (s.serve r.gslice).tile r
    let c : TileCreate := mk
    let task : BitVec 32 := 0
    let v := s.serve c.t.gslice;
    c.task = some task ∧ ((s.slice c.t.gslice).asleep = false) ∧ tile c.t = none ∧ windowOk (v.slice c.t.gslice) c.t = false) ∧
   (let s : State := mapped rich
    let tile (r : TileRef) : Option TileEntry := (s.serve r.gslice).tile r
    let c : TileCreate := mk
    let task : BitVec 32 := 0
    let v := s.serve c.t.gslice
    let hbm : Bool := ((storageFor v c.t.gslice c.size c.hbm).getD (false, 0)).1
    let block : Nat := ((storageFor v c.t.gslice c.size c.hbm).getD (false, 0)).2;
    c.task = some task ∧ ((s.slice c.t.gslice).asleep = false) ∧ tile c.t = none ∧ windowOk (v.slice c.t.gslice) c.t = true ∧ (v.slice c.t.gslice).stalls = [] ∧ (v.slice c.t.gslice).tiles.length < Config.ephemeris ∧ storageFor v c.t.gslice c.size c.hbm = some (hbm, block)) ∧
   (let s : State := split (sl fun x => { x with tiles := List.replicate Config.ephemeris (1, ent .present 2 0 false) })
    let tile (r : TileRef) : Option TileEntry := (s.serve r.gslice).tile r
    let c : TileCreate := mk
    let task : BitVec 32 := 0
    let v := s.serve c.t.gslice;
    c.task = some task ∧ ((s.slice c.t.gslice).asleep = false) ∧ tile c.t = none ∧ windowOk (v.slice c.t.gslice) c.t = true ∧ Config.ephemeris ≤ (v.slice c.t.gslice).tiles.length) ∧
   (let s : State := rich.modDie 0 fun d => { d with tsplit := 0, alSize := 0 }
    let tile (r : TileRef) : Option TileEntry := (s.serve r.gslice).tile r
    let c : TileCreate := mk
    let task : BitVec 32 := 0
    let v := s.serve c.t.gslice;
    c.task = some task ∧ ((s.slice c.t.gslice).asleep = false) ∧ tile c.t = none ∧ windowOk (v.slice c.t.gslice) c.t = true ∧ (v.slice c.t.gslice).stalls = [] ∧ (v.slice c.t.gslice).tiles.length < Config.ephemeris ∧ storageFor v c.t.gslice c.size c.hbm = none) ∧
   (let s : State := tiled (ent .present 2 0 false)
    let tile (r : TileRef) : Option TileEntry := (s.serve r.gslice).tile r
    let l : TileLoad := ld false
    let g : Nat := 0
    let id : Nat := 3
    let e : TileEntry := ent .present 2 0 false
    let v := s.serve l.t.gslice;
    l.client = .thread g id ∧ ((s.slice l.t.gslice).asleep = false) ∧ tile l.t = some e ∧ ((e.st = .present ∨ e.st = .pending ∧ e.task = l.task)) ∧ e.poison = false ∧ (findError v l.t e = (v, e)) ∧ l.len ≠ 0 ∧ l.consume = false) ∧
   (let s : State := sl (fun x => { x with bad := [0, 1] }) (tiled (ent .present 2 0 false))
    let tile (r : TileRef) : Option TileEntry := (s.serve r.gslice).tile r
    let l : TileLoad := ld false
    let g : Nat := 0
    let id : Nat := 3
    let e : TileEntry := ent .present 2 0 false
    let v := s.serve l.t.gslice
    let k : Nat := 0;
    l.client = .thread g id ∧ ((s.slice l.t.gslice).asleep = false) ∧ tile l.t = some e ∧ e.st = .present ∧ e.hbm = false ∧ e.poison = false ∧ k ∈ (v.slice l.t.gslice).bad ∧ inBlock e 0 k = true) ∧
   (let s : State := tiled (ent .present 2 0 false)
    let tile (r : TileRef) : Option TileEntry := (s.serve r.gslice).tile r
    let l : TileLoad := ld true
    let g : Nat := 0
    let id : Nat := 3
    let e : TileEntry := ent .present 2 0 false
    let v := s.serve l.t.gslice;
    l.client = .thread g id ∧ ((s.slice l.t.gslice).asleep = false) ∧ tile l.t = some e ∧ e.st = .present ∧ e.poison = false ∧ (findError v l.t e = (v, e)) ∧ l.len ≠ 0 ∧ l.consume = true ∧ e.hold = false ∧ 1 < e.count) ∧
   (let s : State := tiled (ent .awaited 0 0 false)
    let tile (r : TileRef) : Option TileEntry := (s.serve r.gslice).tile r
    let l : TileLoad := ld false
    let g : Nat := 0
    let id : Nat := 3
    let e : TileEntry := ent .awaited 0 0 false;
    l.client = .thread g id ∧ ((s.slice l.t.gslice).asleep = false) ∧ tile l.t = some e ∧ e.st = .awaited ∧ dieOf l.core = sliceDie l.t.gslice) ∧
   (let s : State := tiled (ent .present 1 0 true)
    let tile (r : TileRef) : Option TileEntry := (s.serve r.gslice).tile r
    let r : TileRelease := ⟨ti, 0, 3, 0⟩
    let e : TileEntry := ent .present 1 0 true;
    ((s.slice r.t.gslice).asleep = false) ∧ tile r.t = some e ∧ e.st = .present ∧ e.hold = true ∧ e.pins = 0) ∧
   (let s : State := tiled (ent .present 1 1 true)
    let tile (r : TileRef) : Option TileEntry := (s.serve r.gslice).tile r
    let r : TileRelease := ⟨ti, 0, 3, 0⟩
    let e : TileEntry := ent .present 1 1 true;
    ((s.slice r.t.gslice).asleep = false) ∧ tile r.t = some e ∧ e.st = .present ∧ e.hold = true ∧ e.pins ≠ 0) ∧
   (let s : State := mapped rich
    let tile (r : TileRef) : Option TileEntry := (s.serve r.gslice).tile r
    let r : TileRelease := ⟨ti, 0, 3, 0⟩;
    ((s.slice r.t.gslice).asleep = false) ∧ tile r.t = none) ∧
   (let s : State := tiled (ent .present 2 0 false)
    let tile (r : TileRef) : Option TileEntry := (s.serve r.gslice).tile r
    let r : TileRef := ti
    let e : TileEntry := ent .present 2 0 false;
    ((s.slice r.gslice).asleep = false) ∧ tile r = some e ∧ e.st = .present ∧ e.pins < 63) ∧
   (let s : State := tiled (ent .present 1 63 true)
    let tile (r : TileRef) : Option TileEntry := (s.serve r.gslice).tile r
    let r : TileRef := ti
    let e : TileEntry := ent .present 1 63 true;
    ((s.slice r.gslice).asleep = false) ∧ tile r = some e ∧ e.st = .present ∧ 63 ≤ e.pins) ∧
   (let s : State := mapped rich
    let tile (r : TileRef) : Option TileEntry := (s.serve r.gslice).tile r
    let r : TileRef := ti;
    ((s.slice r.gslice).asleep = false) ∧ tile r = none) ∧
   (let s : State := tiled (ent .present 1 63 true)
    let tile (r : TileRef) : Option TileEntry := (s.serve r.gslice).tile r
    let r : TileRef := ti
    let e : TileEntry := ent .present 1 63 true;
    ((s.slice r.gslice).asleep = false) ∧ tile r = some e ∧ e.pinWait = [] ∧ 1 < e.pins) ∧
   (let s : State := tiled (ent .present 1 1 true)
    let tile (r : TileRef) : Option TileEntry := (s.serve r.gslice).tile r
    let r : TileRef := ti
    let e : TileEntry := ent .present 1 1 true;
    ((s.slice r.gslice).asleep = false) ∧ tile r = some e ∧ e.pinWait = [] ∧ e.pins = 1 ∧ e.st = .present) ∧
   (let s : State := tiled (ent .deferred 1 1 true)
    let tile (r : TileRef) : Option TileEntry := (s.serve r.gslice).tile r
    let r : TileRef := ti
    let e : TileEntry := ent .deferred 1 1 true;
    ((s.slice r.gslice).asleep = false) ∧ tile r = some e ∧ e.pinWait = [] ∧ e.pins = 1 ∧ e.st = .deferred) ∧
   (let s : State := tiled (ent .present 2 0 false)
    let tile (r : TileRef) : Option TileEntry := (s.serve r.gslice).tile r
    let q : TileSettle := ⟨ti, 0, 7⟩
    let e : TileEntry := ent .present 2 0 false;
    ((s.slice q.t.gslice).asleep = false) ∧ tile q.t = some e ∧ e.task ≠ q.task) ∧
   (let s : State := tiled (ent .pending 2 0 false)
    let tile (r : TileRef) : Option TileEntry := (s.serve r.gslice).tile r
    let q : TileSettle := ⟨ti, 0, 0⟩
    let e : TileEntry := ent .pending 2 0 false;
    ((s.slice q.t.gslice).asleep = false) ∧ tile q.t = some e ∧ e.st = .pending ∧ e.task = q.task ∧ e.waiters = []) ∧
   (let s : State := sl fun x => { x with stalls := [⟨.ephemerisCreate mk, .entries, 0, 0, 0, 0⟩] }
    let w : WaiterRef := ⟨ti, .thread 0 3⟩;
    ((s.slice w.t.gslice).asleep = false) ∧ opHeld s w = true) ∧
   (let s : State := mapped rich
    let w : WaiterRef := ⟨ti, .thread 0 3⟩;
    ((s.slice w.t.gslice).asleep = false) ∧ opHeld s w = false) ∧
   (let s : State := mapped rich
    let q : SubReq := ⟨ti, 0, 3, 12, 0, 2⟩
    let v := s.serve q.t.gslice
    let u : State := ((tileSub v q false).toOption.getD s);
    ((s.slice q.t.gslice).asleep = false) ∧ tileSub v q false = .ok u) ∧
   (let s : State := sl fun x => { x with subs := List.replicate Config.subscriptions ⟨0, 1, 0, 0, true, 0, 0, [], 0⟩ }
    let q : SubReq := ⟨ti, 0, 3, 12, 0, 2⟩
    let v := s.serve q.t.gslice;
    ((s.slice q.t.gslice).asleep = false) ∧ Config.subscriptions ≤ (v.slice q.t.gslice).subs.length) ∧
   (let s : State := mapped rich
    let q : SubReq := ⟨ti, 0, 3, 12, 0, 2⟩
    let v := s.serve q.t.gslice;
    ((s.slice q.t.gslice).asleep = false) ∧ (v.slice q.t.gslice).subs.length < Config.subscriptions ∧ (v.slice q.t.gslice).stalls = [] ∧ (v.slice q.t.gslice).tiles = []) ∧
   (let n : Notice := ⟨0, 5, 9, 1, 0, 0, some 2⟩
    let c : Nat := 2;
    n.ctr = some c) ∧
   (let s : State := { rich with cores := [] }
    let n : Notice := ⟨0, 5, 9, 1, 0, 0, none⟩;
    n.ctr = none ∧ s.cores = []) ∧
   (let s : State := mapped rich
    let r : SliceRef := ⟨0⟩;
    ((s.slice r.gslice).asleep = false) ∧ (s.slice r.gslice).stalls = []) ∧
   (let s : State := sl fun x => { x with stalls := [⟨.ephemerisCreate mk, .entries, 0, 0, 0, 0⟩] }
    let r : SliceRef := ⟨0⟩
    let y : Stalled := ⟨.ephemerisCreate mk, .entries, 0, 0, 0, 0⟩
    let u : State := ((retryOp (unstall (s.modSlice r.gslice fun x => { x with stalls := [] }) y) y.ev).toOption.getD s);
    ((s.slice r.gslice).asleep = false) ∧ (s.slice r.gslice).stalls = [y] ∧ sealOp y.ev = false ∧ retryOp (unstall (s.modSlice r.gslice fun x => { x with stalls := [] }) y) y.ev = .ok u) ∧
   (let s : State := sl (fun x => { x with stalls := [⟨.ephemerisCreate mk, .entries, 0, 0, 0, 0⟩], latched := [.entries] }) rich
    let p : Pressure := ⟨0, .entries⟩
    let y : Stalled := ⟨.ephemerisCreate mk, .entries, 0, 0, 0, 0⟩;
    ((s.slice p.gslice).stalls.find? fun y => y.res == p.res) = some y ∧ (s.slice p.gslice).latched.contains p.res = true) ∧
   (let s : State := sl fun x => { x with stalls := [⟨.ephemerisCreate mk, .entries, 0, 0, 0, 0⟩] }
    let p : Pressure := ⟨0, .entries⟩
    let y : Stalled := ⟨.ephemerisCreate mk, .entries, 0, 0, 0, 0⟩;
    ((s.slice p.gslice).stalls.find? fun y => y.res == p.res) = some y ∧ (s.slice p.gslice).latched.contains p.res = false ∧ s.now < y.since + thresh s p.gslice) ∧
   (let s : State := { (sl fun x => { x with stalls := [⟨.ephemerisCreate mk, .entries, 0, 0, 0, 0⟩] }) with now := 2 ^ 40 }
    let p : Pressure := ⟨0, .entries⟩
    let y : Stalled := ⟨.ephemerisCreate mk, .entries, 0, 0, 0, 0⟩;
    ((s.slice p.gslice).stalls.find? fun y => y.res == p.res) = some y ∧ (s.slice p.gslice).latched.contains p.res = false ∧ y.since + thresh s p.gslice ≤ s.now) ∧
   (let s : State := mapped rich
    let p : Promotion := ⟨ti, 0, 0, 2, true, 0, 0, false⟩;
    ((s.slice p.t.gslice).asleep = false) ∧ p.stopped = false ∧ s.tile p.t = none) ∧
   (let s : State := tiled (ent .present 2 0 false)
    let p : Promotion := ⟨ti, 0, 0, 2, true, 0, 0, false⟩
    let e : TileEntry := ent .present 2 0 false
    let room := if p.toHbm then reserveBlock s p.t.gslice e.size else sramBlock s p.t.gslice e.size
    let block : Nat := ((if p.toHbm then reserveBlock s p.t.gslice e.size else sramBlock s p.t.gslice e.size).getD 0);
    ((s.slice p.t.gslice).asleep = false) ∧ p.stopped = false ∧ s.tile p.t = some e ∧ e.poison = false ∧ (findError s p.t e = (s, e)) ∧ e.st = .present ∧ e.hbm ≠ p.toHbm ∧ room = some block) ∧
   (let s : State := (tiled { ent .present 2 0 false with hbm := true }).modDie 0 fun d => { d with tsplit := 0 }
    let p : Promotion := ⟨ti, 0, 0, 2, false, 0, 0, false⟩
    let e : TileEntry := { ent .present 2 0 false with hbm := true }
    let room := if p.toHbm then reserveBlock s p.t.gslice e.size else sramBlock s p.t.gslice e.size;
    ((s.slice p.t.gslice).asleep = false) ∧ p.stopped = false ∧ s.tile p.t = some e ∧ e.poison = false ∧ (findError s p.t e = (s, e)) ∧ e.st = .present ∧ e.hbm ≠ p.toHbm ∧ room = none ∧ p.toHbm = false) ∧
   (let s : State := mapped rich
    let q : FrameReq := ⟨0, 3, 0, 0, false, 0, 1, 5, 0, 0, 0⟩
    let u : State := (sqFrame ⟨q.gti, coreOf q.gti, q.job, q.user, q.gslice, q.desc, q.ptr⟩ q s).1
    let c : SqAt := ⟨q.gti, coreOf q.gti, q.job, q.user, q.gslice, q.desc, q.ptr⟩
    let x : Except FaultRec Word := ((sqFrame ⟨q.gti, coreOf q.gti, q.job, q.user, q.gslice, q.desc, q.ptr⟩ q s).2.getD (.ok 0));
    u.linkHeld = false ∧ sqFrame c q s = (u, some x)) ∧
   (let s : State := withDesc (seqDesc 1 1) rich
    let q : FrameReq := ⟨0, 3, 0, 0, false, 0, 1, 5, 0, 0, 0⟩
    let u : State := (sqFrame ⟨q.gti, coreOf q.gti, q.job, q.user, q.gslice, q.desc, q.ptr⟩ q s).1
    let c : SqAt := ⟨q.gti, coreOf q.gti, q.job, q.user, q.gslice, q.desc, q.ptr⟩;
    u.linkHeld = false ∧ sqFrame c q s = (u, none)) :=
  by
  and_intros <;> first | decide +kernel | exact exOf (by decide +kernel) | exact optOf (by decide +kernel)

end TileSteps

namespace EngineSteps

def mx (begun : Bool) : MxEntry := ⟨3, 0, 0, false, 0, .ofNat 512 (wholeCmd 1 1 64 0 false), 0, [], [], true, [], begun, false, none⟩

def gop (op : Nat) : GOp := ⟨0, 5, op, 5, 0x200, 0x400, 0, 0, false, 0, 0⟩

def core0 (f : Core → Core) : State := rich.modCore 0 f

/-- States and operands that meet the hypotheses of EngineSteps. -/
theorem meets_EngineSteps :
   (let s : State := strm ⟨.fill, false, sdesc 0, 1, 2, [(9, none)], 0⟩
    let g : Nat := 0
    let n : Nat := 1
    let u : State := (let x := (s.thread g).stream n; (readBytes s g (streamAddr x.desc x.engine) (streamBytes x.desc) .streamFill false gkStream x.pc).1)
    let bs : List Byte := List.replicate 8 0
    let x := (s.thread g).stream n
    let p := streamAddr x.desc x.engine
    let k := streamBytes x.desc;
    ((x.mode = .fill ∧ x.drains = false ∧ x.engine < streamTotal x.desc)) ∧ p.toNat % k = 0 ∧ u.linkHeld = false ∧ readBytes s g p k .streamFill true gkStream x.pc = (u, .ok bs)) ∧
   (let s : State := strm ⟨.fill, false, .ofNat 512 (2 ^ 508 + 0x1001 * 2 ^ 448 + 4 * 2 ^ 416 + 8 * 2 ^ 288 + 3 * 2 ^ 156), 1, 2, [], 0⟩
    let g : Nat := 0
    let n : Nat := 1
    let x := (s.thread g).stream n
    let p := streamAddr x.desc x.engine
    let k := streamBytes x.desc;
    ((x.mode = .fill ∧ x.drains = false ∧ x.engine < streamTotal x.desc)) ∧ p.toNat % k ≠ 0) ∧
   (let s : State := rich
    let g : Nat := 0
    let n : Nat := 1
    let x := (s.thread g).stream n;
    streamTotal x.desc ≤ x.engine) ∧
   (let s : State := strm ⟨.fill, false, sdesc 0, 1, 2, [(9, none)], 0⟩
    let g : Nat := 0
    let n : Nat := 1
    let u : State := (let x := (s.thread g).stream n; (writeBytes s g (streamAddr x.desc x.engine) (lineSlice 9 0 (streamBytes x.desc)) .streamDrain gkStream).1)
    let x := (s.thread g).stream n
    let p := streamAddr x.desc x.engine
    let k := streamBytes x.desc
    let l : Line := 9
    let rest : List (Line × Option FaultRec) := [];
    x.buf = (l, none) :: rest ∧ p.toNat % k = 0 ∧ u.linkHeld = false ∧ writeBytes s g p (lineSlice l 0 k) .streamDrain gkStream = (u, .ok ())) ∧
   (let s : State := rich
    let g : Nat := 0
    let n : Nat := 1
    let x := (s.thread g).stream n;
    x.buf = []) ∧
   (let d : BitVec 512 := .ofNat 512 (2 ^ 508 + 0x1000 * 2 ^ 448 + 4 * 2 ^ 416);
    ((∀ k, k < 4 → streamStride d k = 0)) ∧ dbits d 155 153 = 0) ∧
   (let s : State := rich
    let h : Helio := ⟨0, 0, false, 0, 0, own 0x40, 64, 256, 3, 0x80, 2 ^ 30 + 2 ^ 20, 2, 0, 0, false, none, 0⟩
    let u : State := (let p : Word := h.src + .ofNat 64 (h.row * h.spitch + h.col); (underMode s h.gti h.user (fun t => readBytes t h.gti p (min (h.rowbytes - h.col) (128 - p.toNat % 128)) .streamFill true gkLoad h.pc)).1)
    let bs : List Byte := List.replicate 64 0
    let p : Word := h.src + .ofNat 64 (h.row * h.spitch + h.col)
    let n := min (h.rowbytes - h.col) (128 - p.toNat % 128);
    underMode s h.gti h.user (fun t => readBytes t h.gti p n .streamFill true gkLoad h.pc) = (u, .ok bs) ∧ u.linkHeld = false ∧ h.col + n < h.rowbytes ∧ h.row < h.rows) ∧
   (let s : State := rich
    let h : Helio := ⟨0, 0, false, 0, 0, own 0x40, 64, 64, 3, 0x80, 2 ^ 30 + 2 ^ 20, 2, 0, 0, false, none, 0⟩
    let u : State := (let p : Word := h.src + .ofNat 64 (h.row * h.spitch + h.col); (underMode s h.gti h.user (fun t => readBytes t h.gti p (min (h.rowbytes - h.col) (128 - p.toNat % 128)) .streamFill true gkLoad h.pc)).1)
    let bs : List Byte := List.replicate 64 0
    let p : Word := h.src + .ofNat 64 (h.row * h.spitch + h.col)
    let n := min (h.rowbytes - h.col) (128 - p.toNat % 128);
    underMode s h.gti h.user (fun t => readBytes t h.gti p n .streamFill true gkLoad h.pc) = (u, .ok bs) ∧ u.linkHeld = false ∧ h.rowbytes ≤ h.col + n ∧ h.row + 1 < h.rows) ∧
   (let s : State := rich
    let h : Helio := ⟨0, 0, false, 0, 0, own 0x40, 64, 64, 3, 0x80, 2 ^ 30 + 2 ^ 20, 2, 2, 0, false, none, 0⟩
    let u : State := (let p : Word := h.src + .ofNat 64 (h.row * h.spitch + h.col); (underMode s h.gti h.user (fun t => readBytes t h.gti p (min (h.rowbytes - h.col) (128 - p.toNat % 128)) .streamFill true gkLoad h.pc)).1)
    let bs : List Byte := List.replicate 64 0
    let p : Word := h.src + .ofNat 64 (h.row * h.spitch + h.col)
    let n := min (h.rowbytes - h.col) (128 - p.toNat % 128);
    underMode s h.gti h.user (fun t => readBytes t h.gti p n .streamFill true gkLoad h.pc) = (u, .ok bs) ∧ u.linkHeld = false ∧ h.rowbytes ≤ h.col + n ∧ h.row + 1 = h.rows) ∧
   (let s : State := core0 fun c => { c with deps := [mx false] }
    let core : Nat := 0
    let c := s.core core
    let x : MxEntry := mx false
    let t := s.modCore core fun k => { k with deps := [], sequencer := [x] }
    let ask := t.askGovernor (dieOf core) (commandAmps x)
    let r := runCommand ask.2 core x;
    c.deps = [x] ∧ c.sequencer = [] ∧ c.mxReads = [] ∧ x.failed = none ∧ x.tiles = [] ∧ x.pins = [] ∧ (x.ready.all id) = true ∧ ask.1 = true ∧ r.1.linkHeld = false ∧ (r.1.core core).mxReads = [] ∧ (r.1.core core).sequencer = [x] ∧ r.2.2 = none ∧ x.begun = false) ∧
   (let s : State := rich
    let core : Nat := 0
    let c := s.core core;
    c.deps = [] ∧ c.sequencer = [] ∧ c.mxReads = []) ∧
   (let s : State := core0 fun c => { c with sequencer := [mx true] }
    let core : Nat := 0
    let c := s.core core
    let x : MxEntry := mx true
    let rest : List MxEntry := [];
    c.sequencer = x :: rest ∧ x.begun = true ∧ x.failed = none ∧ mxCtr x.cmd = none) ∧
   (let s : State := core0 fun c => { c with sequencer := [{ mx true with cmd := .ofNat 512 (wholeCmd 1 1 64 0 true + 2 ^ 122) }] }
    let core : Nat := 0
    let c := s.core core
    let x : MxEntry := { mx true with cmd := .ofNat 512 (wholeCmd 1 1 64 0 true + 2 ^ 122) }
    let rest : List MxEntry := []
    let k : Nat := 1;
    c.sequencer = x :: rest ∧ x.begun = true ∧ x.failed = none ∧ mxCtr x.cmd = some k) ∧
   (let s : State := rich
    let core : Nat := 0
    let c := s.core core;
    c.solver = []) ∧
   (let s : State := core0 fun c => { c with solver := [gop 5] }
    let core : Nat := 0
    let c := s.core core
    let o : GOp := gop 5
    let rest : List GOp := []
    let u : State := (solve (s.modCore core fun k => { k with solver := rest }) o).1
    let v : Nat := (match (solve (s.modCore core fun k => { k with solver := rest }) o).2 with | .ok (some v) => v | _ => 0);
    c.solver = o :: rest ∧ (s.thread o.gti).solverDead = false ∧ u.linkHeld = false ∧ solve (s.modCore core fun k => { k with solver := rest }) o = (u, .ok (some v))) ∧
   (let s : State := core0 fun c => { c with solver := [gop 7] }
    let core : Nat := 0
    let c := s.core core
    let o : GOp := gop 7
    let rest : List GOp := []
    let u : State := (solve (s.modCore core fun k => { k with solver := rest }) o).1;
    c.solver = o :: rest ∧ (s.thread o.gti).solverDead = false ∧ u.linkHeld = false ∧ solve (s.modCore core fun k => { k with solver := rest }) o = (u, .ok none)) ∧
   (let s : State := rich
    let m : MailSend := ⟨0, 7, 0, 2, 0x80, [], .pd, 0, 0⟩
    let k := tget Arrival.zero (s.core m.core).arrivals m.ctr;
    k.owner ≠ m.job) ∧
   (let s : State := core0 fun c => { c with guardMap := [(0, 1)] }
    let m : MailSend := ⟨0, 0, 0, 2, 0x80, [], .pd, 0, 0⟩
    let k := tget Arrival.zero (s.core m.core).arrivals m.ctr;
    k.owner = m.job ∧ guarded (s.core m.core) m.pos 384 = true) ∧
   (let s : State := rich
    let m : MailSend := ⟨0, 0, 0, 2, 0x80, [], .pd, 0, 0⟩
    let k := tget Arrival.zero (s.core m.core).arrivals m.ctr;
    k.owner = m.job ∧ guarded (s.core m.core) m.pos 384 = false) :=
  by
  and_intros <;> first | decide +kernel | exact pairOf (by decide +kernel)

end EngineSteps

/-- States and operands that meet the hypotheses of FloatingPointRounded. -/
theorem meets_FloatingPointRounded :
   (let k : Nat := 1
    let mode : Nat := 1
    let a : Nat := 0x3F800000
    let b : Nat := 0x40000000
    let c : Nat := 0x3F800000
    let x := fpVal k a
    let y := fpVal k b
    let z := fpVal k c
    let n : Bool := false
    let m : Nat := 0x800000
    let e : Int := -23
    let n' : Bool := false
    let m' : Nat := 0x800000
    let e' : Int := -22
    let w : Bool := false
    let l : Nat := 0x800000
    let d : Int := -23;
    k < 4 ∧ 1 ≤ mode ∧ mode ≤ 4 ∧ x = .fin n m e ∧ y = .fin n' m' e' ∧ z = .fin w l d) ∧
   (let k : Nat := 1
    let mode : Nat := 1
    let a : Nat := 0x3F800000
    let b : Nat := 0x40000000
    let x := fpVal k a
    let y := fpVal k b
    let n : Bool := false
    let m : Nat := 0x800000
    let e : Int := -23
    let n' : Bool := false
    let m' : Nat := 0x800000
    let e' : Int := -22;
    k < 4 ∧ 1 ≤ mode ∧ mode ≤ 4 ∧ x = .fin n m e ∧ y = .fin n' m' e' ∧ 0 < m') ∧
   (let k : Nat := 1
    let mode : Nat := 1
    let a : Nat := 0x3F800000
    let b : Nat := 0x40000000
    let x := fpVal k a
    let y := fpVal k b
    let n : Bool := false
    let m : Nat := 0x800000
    let e : Int := -23
    let n' : Bool := false
    let m' : Nat := 0x800000
    let e' : Int := -22;
    k < 4 ∧ 1 ≤ mode ∧ mode ≤ 4 ∧ x = .fin n m e ∧ y = .fin n' m' e' ∧ 0 < m ∧ n = false) :=
  ⟨by decide +kernel, by decide +kernel, by decide +kernel⟩

namespace MatrixResults

/-- An entry of the dependency table with a command, and one whose command is made of its fields. -/
def mx1 (c : BitVec 512) : MxEntry := ⟨3, 0, 0, false, 0, c, 0, [], [], true, [], false, false, none⟩

def mxc (kind m n k af bf a ag b bg : Nat) : BitVec 512 :=
  .ofNat 512 (kind * 2 ^ 60 + 2 ^ 56 + m * 2 ^ 37 + n * 2 ^ 30 + k * 2 ^ 17 + af * 2 ^ 13 + bf * 2 ^ 9 + a * 2 ^ 256 + ag * 2 ^ 320 + b * 2 ^ 384 + bg * 2 ^ 448)

def zero1 : MxEntry := mx1 (mxc 1 2 3 0 0 0 0 0 0 0)

def load1 : MxEntry := mx1 (mxc 2 1 1 0 1 0 (2 ^ 60 + 0x40) 0 0 0)

def store1 : MxEntry := mx1 (mxc 3 1 1 0 1 0 (2 ^ 60 + 0x40) 0 0 0)

def mma1 : MxEntry := mx1 (mxc 0 1 1 1 1 1 4 (2 ^ 62) 5 (2 ^ 62))

def mmaMem : MxEntry := mx1 (mxc 0 1 1 1 1 1 (2 ^ 60 + 0x40) 0 (2 ^ 60 + 0x80) 0)

def poisoned1 : State := rich.modCore 0 fun c => { c with acc := [(1, { Acc.zero with poison := true })] }

/-- The state a command runs in. -/
abbrev mxState (x : MxEntry) : State :=
  rich.modCtx x.gti fun t => { t with mode := if x.user then .user else if (rich.thread x.gti).ctx.mode = .user then .supervisor else (rich.thread x.gti).ctx.mode }

/-- Nothing that tells the accumulator tiles of a core apart is read for an operand in the core's own scratchpad. -/
theorem load_reads : ∀ t i, tilesOnly (mxState load1) 0 t → i < mxM load1.cmd →
    mxElems t load1 0 ⟨(mxA load1.cmd).base, (mxA load1.cmd).geo &&& .ofNat 64 (2 ^ 64 - 1 - 7 * 2 ^ 59)⟩ (typeBytes (mxAfmt load1.cmd))
      (i * (mxA load1.cmd).rpitch) (mxN load1.cmd) 0 = (t, .ok ((List.range (mxN load1.cmd)).map fun _ => 0)) := by
  intro t i ht hi
  obtain rfl : i = 0 := Nat.lt_one_iff.mp hi
  rcases ht with rfl | ⟨acc, w, rfl⟩ <;> with_unfolding_all rfl

/-- The operands of an MMA in vector registers. -/
theorem mma_reads : MmaReads (mxState mma1)
    ⟨mma1, 0, 8, 64, keptWeights (mxState mma1) 0 8 64 mma1⟩
    (fun _ _ => 0) (fun _ _ => 0) (fun _ _ => 127) (fun _ _ => 127) := by
  refine ⟨fun _ _ _ => ⟨rfl, rfl⟩, fun h => absurd h (by decide +kernel), fun w h => absurd h (by with_unfolding_all exact nofun), ?_⟩
  intro t n ht hn
  obtain rfl : n = 0 := Nat.lt_one_iff.mp hn
  refine ⟨fun i hi => ?_, fun cb _ hcb => ⟨fun _ => ?_, fun h => absurd h (by decide +kernel)⟩, fun h => absurd h (by decide +kernel)⟩
  · obtain rfl : i = 0 := Nat.lt_one_iff.mp hi
    rcases ht with rfl | ⟨acc, w, rfl⟩ <;> with_unfolding_all rfl
  · obtain rfl : cb = 0 := Nat.lt_one_iff.mp hcb
    rcases ht with rfl | ⟨acc, w, rfl⟩ <;> with_unfolding_all rfl

/-- States and operands that meet the hypotheses of MatrixResults. -/
theorem meets_MatrixResults :
   (let s : State := poisoned1
    let core : Nat := 0
    let x : MxEntry := zero1
    let c := x.cmd
    let a := tget Acc.zero (s.core core).acc (mxTile c);
    cmdBad x.cmd = false ∧ a.poison = true ∧ (mxKind c = 0 ∨ mxKind c = 3 ∨ mxWhole c = false)) ∧
   (let s : State := rich
    let core : Nat := 0
    let x : MxEntry := zero1
    let c := x.cmd
    let a := tget Acc.zero (s.core core).acc (mxTile c)
    let i : Nat := 0
    let j : Nat := 0;
    cmdBad x.cmd = false ∧ (a.poison = false ∨ (mxWhole c = true ∧ (mxKind c = 1 ∨ mxKind c = 2))) ∧ mxKind c = 1 ∧ i < mxRows c ∧ j < 64 ∧ ((mxRow0 c ≤ i ∧ i < mxRow0 c + mxM c ∧ mxCol0 c ≤ j ∧ j < mxCol0 c + mxN c))) ∧
   (let s : State := rich
    let core : Nat := 0
    let x : MxEntry := zero1
    let c := x.cmd
    let a := tget Acc.zero (s.core core).acc (mxTile c)
    let i : Nat := 0
    let j : Nat := 7;
    cmdBad x.cmd = false ∧ (a.poison = false ∨ (mxWhole c = true ∧ (mxKind c = 1 ∨ mxKind c = 2))) ∧ mxKind c = 1 ∧ i < mxRows c ∧ j < 64 ∧ (¬ (mxRow0 c ≤ i ∧ i < mxRow0 c + mxM c ∧ mxCol0 c ≤ j ∧ j < mxCol0 c + mxN c))) ∧
   (let s : State := rich
    let core : Nat := 0
    let x : MxEntry := load1
    let c := x.cmd
    let a := tget Acc.zero (s.core core).acc (mxTile c)
    let mode := (s.thread x.gti).ctx.mode
    let issued : Mode := if x.user then .user else if mode = .user then .supervisor else mode
    let u := s.modCtx x.gti fun t => { t with mode := issued }
    let els : Nat → Nat → Nat := fun _ _ => 0
    let i : Nat := 0
    let j : Nat := 0;
    cmdBad x.cmd = false ∧ (a.poison = false ∨ (mxWhole c = true ∧ (mxKind c = 1 ∨ mxKind c = 2))) ∧ mxKind c = 2 ∧ ((∀ t i, tilesOnly u core t → i < mxM c → mxElems t x core ⟨(mxA c).base, (mxA c).geo &&& .ofNat 64 (2 ^ 64 - 1 - 7 * 2 ^ 59)⟩ (typeBytes (mxAfmt c)) (i * (mxA c).rpitch) (mxN c) 0 = (t, .ok ((List.range (mxN c)).map (els i))))) ∧ i < mxRows c ∧ j < 64 ∧ ((mxRow0 c ≤ i ∧ i < mxRow0 c + mxM c ∧ mxCol0 c ≤ j ∧ j < mxCol0 c + mxN c))) ∧
   (let s : State := rich
    let core : Nat := 0
    let x : MxEntry := load1
    let c := x.cmd
    let a := tget Acc.zero (s.core core).acc (mxTile c)
    let mode := (s.thread x.gti).ctx.mode
    let issued : Mode := if x.user then .user else if mode = .user then .supervisor else mode
    let u := s.modCtx x.gti fun t => { t with mode := issued }
    let els : Nat → Nat → Nat := fun _ _ => 0
    let i : Nat := 0
    let j : Nat := 2;
    cmdBad x.cmd = false ∧ (a.poison = false ∨ (mxWhole c = true ∧ (mxKind c = 1 ∨ mxKind c = 2))) ∧ mxKind c = 2 ∧ ((∀ t i, tilesOnly u core t → i < mxM c → mxElems t x core ⟨(mxA c).base, (mxA c).geo &&& .ofNat 64 (2 ^ 64 - 1 - 7 * 2 ^ 59)⟩ (typeBytes (mxAfmt c)) (i * (mxA c).rpitch) (mxN c) 0 = (t, .ok ((List.range (mxN c)).map (els i))))) ∧ i < mxRows c ∧ j < 64 ∧ (¬ (mxRow0 c ≤ i ∧ i < mxRow0 c + mxM c ∧ mxCol0 c ≤ j ∧ j < mxCol0 c + mxN c))) ∧
   (let s : State := rich
    let core : Nat := 0
    let x : MxEntry := mma1
    let c := x.cmd
    let a := tget Acc.zero (s.core core).acc (mxTile c)
    let mode := (s.thread x.gti).ctx.mode
    let issued : Mode := if x.user then .user else if mode = .user then .supervisor else mode
    let u := s.modCtx x.gti fun t => { t with mode := issued }
    let kb : Nat := 8
    let nb : Nat := 64
    let A : Nat → Nat → Nat := fun _ _ => 0
    let B : Nat → Nat → Nat := fun _ _ => 0
    let SA : Nat → Nat → Nat := fun _ _ => 127
    let SB : Nat → Nat → Nat := fun _ _ => 127
    let m : Mma := ⟨x, core, kb, nb, keptWeights u core kb nb x⟩
    let i : Nat := 0
    let j : Nat := 0;
    cmdBad x.cmd = false ∧ (a.poison = false ∨ (mxWhole c = true ∧ (mxKind c = 1 ∨ mxKind c = 2))) ∧ mxKind c = 0 ∧ mxPair (mxAfmt c) (mxBfmt c) = some (kb, nb) ∧ MmaReads u m A B SA SB ∧ i < mxRows c ∧ j < 64 ∧ ((mxRow0 c ≤ i ∧ i < mxRow0 c + mxM c ∧ mxCol0 c ≤ j ∧ j < mxCol0 c + mxN c))) ∧
   (let s : State := rich
    let core : Nat := 0
    let x : MxEntry := mma1
    let c := x.cmd
    let a := tget Acc.zero (s.core core).acc (mxTile c)
    let mode := (s.thread x.gti).ctx.mode
    let issued : Mode := if x.user then .user else if mode = .user then .supervisor else mode
    let u := s.modCtx x.gti fun t => { t with mode := issued }
    let kb : Nat := 8
    let nb : Nat := 64
    let A : Nat → Nat → Nat := fun _ _ => 0
    let B : Nat → Nat → Nat := fun _ _ => 0
    let SA : Nat → Nat → Nat := fun _ _ => 127
    let SB : Nat → Nat → Nat := fun _ _ => 127
    let m : Mma := ⟨x, core, kb, nb, keptWeights u core kb nb x⟩
    let i : Nat := 0
    let j : Nat := 2;
    cmdBad x.cmd = false ∧ (a.poison = false ∨ (mxWhole c = true ∧ (mxKind c = 1 ∨ mxKind c = 2))) ∧ mxKind c = 0 ∧ mxPair (mxAfmt c) (mxBfmt c) = some (kb, nb) ∧ MmaReads u m A B SA SB ∧ i < mxRows c ∧ j < 64 ∧ (¬ (mxRow0 c ≤ i ∧ i < mxRow0 c + mxM c ∧ mxCol0 c ≤ j ∧ j < mxCol0 c + mxN c))) ∧
   (let s : State := rich
    let core : Nat := 0
    let x : MxEntry := store1
    let c := x.cmd
    let a := tget Acc.zero (s.core core).acc (mxTile c);
    cmdBad x.cmd = false ∧ (a.poison = false ∨ (mxWhole c = true ∧ (mxKind c = 1 ∨ mxKind c = 2))) ∧ mxKind c = 3 ∧ mxM c = 1) ∧
   (let m : Mma := ⟨mma1, 0, 8, 64, none⟩
    let k0 : Nat := 0
    let k1 : Nat := 1;
    mxScm m.cmd ≠ 5 ∧ (mxA m.cmd).src = 1 ∧ k0 ≤ k1 ∧ k1 * m.esA ≤ 128 ∧ 0 < m.esA) ∧
   (let s : State := rich
    let m : Mma := ⟨mmaMem, 0, 8, 64, none⟩
    let pos : Nat := 0x40
    let i : Nat := 0
    let k0 : Nat := 0
    let n : Nat := 1
    let at_ := pos + k0 / m.kb * (mxA m.cmd).tpitch + i * (mxA m.cmd).rpitch;
    mxScm m.cmd ≠ 5 ∧ (s.core m.core).scratchBad = [] ∧ coreOf m.x.gti = m.core ∧ (mxA m.cmd).src = 0 ∧ (mxA m.cmd).rc = 0 ∧ (mxA m.cmd).base = .ofNat 64 (2 ^ 60 + pos) ∧ k0 % m.kb = 0 ∧ n ≤ m.kb ∧ ((0 < (n * m.esA) ∧ at_ + (n * m.esA) ≤ Config.scratchBytes ∧ guarded (s.core m.core) at_ (n * m.esA) = false))) ∧
   (let s : State := rich
    let m : Mma := ⟨mmaMem, 0, 8, 64, none⟩
    let pos : Nat := 0x80
    let k : Nat := 0
    let j0 : Nat := 0
    let n : Nat := 1
    let at_ := pos + k / m.kb * (mxB m.cmd).tpitch + k % m.kb * (mxB m.cmd).rpitch + j0 * m.esB;
    mxScm m.cmd ≠ 5 ∧ (s.core m.core).scratchBad = [] ∧ coreOf m.x.gti = m.core ∧ (mxB m.cmd).src = 0 ∧ (mxB m.cmd).rc = 0 ∧ (mxB m.cmd).base = .ofNat 64 (2 ^ 60 + pos) ∧ ((0 < (n * m.esB) ∧ at_ + (n * m.esB) ≤ Config.scratchBytes ∧ guarded (s.core m.core) at_ (n * m.esB) = false))) :=
  ⟨by decide +kernel,
   by decide +kernel,
   by decide +kernel,
   by
    refine ⟨?_, ?_, ?_, by with_unfolding_all exact load_reads, ?_, ?_, ?_⟩ <;> decide +kernel,
   by
    refine ⟨?_, ?_, ?_, by with_unfolding_all exact load_reads, ?_, ?_, ?_⟩ <;> decide +kernel,
   by
    refine ⟨?_, ?_, ?_, ?_, by with_unfolding_all exact mma_reads, ?_, ?_, ?_⟩ <;> decide +kernel,
   by
    refine ⟨?_, ?_, ?_, ?_, by with_unfolding_all exact mma_reads, ?_, ?_, ?_⟩ <;> decide +kernel,
   by decide +kernel,
   by decide +kernel,
   by decide +kernel,
   by decide +kernel⟩

end MatrixResults

/-! ### Statements with hypotheses of another form -/

def nextIs (r : Host.Outcome State Fault Refusal) (u : State) : Bool :=
  match r with
  | .next t => decide (t = u)
  | _ => false

theorem nextOf {r : Host.Outcome State Fault Refusal} {u : State} (h : nextIs r u = true) : r = .next u := by
  cases r <;> simp_all [nextIs]

def isNext (r : Host.Outcome State Fault Refusal) : Bool :=
  match r with
  | .next _ => true
  | _ => false

theorem exists_next {r : Host.Outcome State Fault Refusal} (h : isNext r = true) : ∃ t, r = .next t := by
  cases r <;> simp_all [isNext]

def xorOp : OpR := ⟨false, 0, 5, 1, 2⟩

/-- xor x5, x1, x2. -/
def xorWord : BitVec 32 := 0b0_000001_00000_00101_00001_00010_01011

/-- Words and instructions that meet the hypotheses of DecodeEncode. -/
theorem meets_DecodeEncode : (Instr.xor xorOp).wf = true ∧ encode (.xor xorOp) = some xorWord ∧ decode xorWord = .ok (.xor xorOp) :=
  ⟨rfl, rfl, rfl⟩

def fetching (w : Nat) : State := State.reset.withFetchWord 32 w
def displacedTo (w : BitVec 32) : State := { hand (fun h => { h with displaced := true, ctx := { h.ctx with xeq := w } }) with choice := [.issue 0] }

/-- The thread at a program counter: one that resolves to nothing, and one in the own scratchpad. -/
def fetchingAt (pc : Word) : State := ctx (fun c => { c with pc := pc }) { ready with choice := [.issue 0] }

/-- A thread that a cancel of its job covers. -/
def doomed : State := { ready.modCore 0 fun c => { c with cancels := [⟨0, ready.hand.ctx.ids⟩] } with choice := [.issue 0] }

/-- The address space of the thread homed on module 1, which a link in TRAINING leads to. -/
def fetchHeld : State :=
  let s := ctx (fun c => { c with pc := 0 }) { ready with choice := [.issue 0] }
  let s := s.modCore 0 fun c => { c with jobCache := [(0, 1)], regionCache := [(0, 0x8000000000001001)], l1i := [] }
  let s := s.modModu 0 fun m => { m with routes := [(1, ⟨true, 0⟩)], domV := true }
  { s.modLink 0 0 fun l => { l with state := .training, partner := 1 } with hbm := [(0, 3)] }

/-- States that meet the hypotheses of StepRuns: a word fetched, decoded or refused, one that a link holds up, a displaced word, addresses that no word is fetched
from, a thread that a cancel stops, a message, an input and an error in storage. -/
theorem meets_StepRuns :
    (∀ w : Nat, w = xorWord.toNat ∨ w = 0 →
      let s := fetching w
      let h := s.thread 0
      let v : State := { s with choice := [], cur := 0 }
      let u := fetchLines v 0 h.ctx.ids.job 0 (h.ctx.mode == .user)
      (s.choice = [.issue 0] ∧ h.status = .ready ∧ h.stage = .start ∧ h.displaced = false ∧ h.pend = [] ∧ h.stepDue = false ∧
        doomedBy v 0 = none ∧ takeable v 0 = none) ∧
      v.resolve 0 (wordAddr h.ctx.pc) .fetch = .ok (.linear 0) ∧
      l1iFind (u.core 0) h.ctx.ids.job 0 = some (0, wordLine w) ∧ (wordLine w).mark = none ∧
        permOk (wordLine w).perms (h.ctx.mode == .user) false true = true ∧ u.linkHeld = false) ∧
    (let s := fetchHeld
     let h := s.thread 0
     let v : State := { s with choice := [], cur := 0 }
     (s.choice = [.issue 0] ∧ h.status = .ready ∧ h.stage = .start ∧ h.displaced = false ∧ h.pend = [] ∧ h.stepDue = false ∧
        doomedBy v 0 = none ∧ takeable v 0 = none) ∧
      v.resolve 0 (wordAddr h.ctx.pc) .fetch = .ok (.linear 0) ∧ s.linkHeld = false ∧
      (fetchLines v 0 h.ctx.ids.job 0 (h.ctx.mode == .user)).linkHeld = true) ∧
    decode (.ofNat 32 (wordLine xorWord.toNat).data.toNat) = .ok (.xor xorOp) ∧ decode (.ofNat 32 (wordLine 0).data.toNat) = .error .unassignedMajor ∧
    (∀ w : BitVec 32, w = xorWord ∨ w = 0 →
      let s := displacedTo w
      s.choice = [.issue 0] ∧ (s.thread 0).status = .ready ∧ (s.thread 0).displaced = true ∧
        doomedBy { s with choice := [], cur := 0 } 0 = none ∧ (s.thread 0).ctx.xeq = w) ∧
    (∀ e : Word × Nat, e = (0x7000000000000000, 6) ∨ e = (0x1000000000000040, 8) ∨ e = (0x2200000000000040, 8) →
      let s := fetchingAt e.1
      let v : State := { s with choice := [], cur := 0 }
      let pc := wordAddr s.hand.ctx.pc
      (s.choice = [.issue 0] ∧ s.hand.status = .ready ∧ s.hand.stage = .start ∧ s.hand.displaced = false ∧ s.hand.pend = [] ∧
        s.hand.stepDue = false ∧ doomedBy v 0 = none ∧ takeable v 0 = none) ∧ v.resolve 0 pc .fetch = .error e.2 ∧
      (e.2 = 8 → (bits pc 63 60 = 1 ∧ bits pc 59 57 = 0 ∨ bits pc 63 60 = 2) ∧ bits pc 56 19 = 0)) ∧
    (doomed.choice = [.issue 0] ∧ (doomed.thread 0).status = .ready ∧
      (doomedBy { doomed with choice := [], cur := 0 } 0).isSome = true) ∧
    (let f : Flight := ⟨0, 0, atModule 1, .trinvDone ⟨1⟩⟩
     let s : State := { ready with choice := [.deliver 0], agenda := [f] }
     s.choice = [.deliver 0] ∧ mayDeliver { s with choice := [] } 0 = true ∧ s.agenda[0]? = some f) ∧
    (let s : State := { ready with choice := [.input], inputs := [.trinvDone ⟨1⟩] }
     s.choice = [.input] ∧ s.inputs = [.trinvDone ⟨1⟩]) ∧
    ({ ready with choice := [.chance (.line 3)] } : State).choice = [.chance (.line 3)] := by
  refine ⟨?_, ⟨by decide +kernel, exOf (by decide +kernel), by decide +kernel, by decide +kernel⟩, rfl, rfl, ?_, ?_, by decide +kernel, ⟨rfl, by decide +kernel, rfl⟩, ⟨rfl, rfl⟩, rfl⟩
  · rintro w (rfl | rfl) <;> exact ⟨by decide +kernel, exOf (by decide +kernel), by decide +kernel⟩
  · rintro w (rfl | rfl) <;> decide +kernel
  · rintro e (rfl | rfl | rfl) <;> exact ⟨by decide +kernel, exOf (by decide +kernel), by decide +kernel⟩

/-- A state that keeps the invariant and steps. -/
theorem meets_InvariantKept : Machine.Inv (fetching xorWord.toNat) ∧ ∃ t, step (fetching xorWord.toNat) = .next t :=
  ⟨by unfold Machine.Inv; decide +kernel, exists_next (by decide +kernel)⟩

/-- xor, and a byte store to the own scratchpad and to linear memory, meet the hypotheses of EffectsAndFrames. -/
theorem meets_EffectsAndFrames :
    (let t := Traits.ofR xorOp (fx xorOp.d) (fx xorOp.a) (fx xorOp.b)
     Does (.xor xorOp) rich t (fun i h u => u.setX i.d (h.x i.a ^^^ i.bval h)) ∧ performs rich t = true ∧ rich.pending = []) ∧
    (let o : OpM := ⟨false, 0, 5, 1, 0, 0, 0⟩
     let s : State := xs [(1, own 0x40)]
     let t := Traits.ofM o (fx o.d) (fx o.a)
     let i := issued s t
     let ptr := mEa i o s.hand 1
     (Instr.stN8, 1) ∈ stores ∧ quiet s s.cur = true ∧ s.hand.volatiles = 0 ∧ s.pending = [] ∧ performs s t = true ∧
       (begun s t).target s.cur ptr 1 .store = .ok (.own 0x40) ∧ ptr.toNat % 1 = 0 ∧ guarded (s.core 0) 0x40 1 = false) ∧
    (let o : OpM := ⟨false, 0, 5, 1, 0, 0, 0⟩
     let s : State := xs [(1, 0x40)] (mapped rich)
     let t := Traits.ofM o (fx o.d) (fx o.a)
     let i := issued s t
     let ptr := mEa i o s.hand 1
     quiet s s.cur = true ∧ s.hand.volatiles = 0 ∧ s.pending = [] ∧ performs s t = true ∧
       (begun s t).target s.cur ptr 1 .store = .ok (.linear 0x40) ∧
       ∃ ps, place (noteFallback i (strayPolicy i o (.linear 0x40)) (begun s t)) s.cur 0x40 1 = .ok ps ∧ ps.length ≤ 2) :=
  ⟨⟨fun _ => nextOf (by decide +kernel), by decide +kernel, by decide +kernel⟩,
   ⟨by simp [stores], by decide +kernel, by decide +kernel, by decide +kernel, by decide +kernel, exOf (by decide +kernel), by decide +kernel,
     by decide +kernel⟩,
   ⟨by decide +kernel, by decide +kernel, by decide +kernel, by decide +kernel, exOf (by decide +kernel),
     [⟨0x40, 0, 1, 0⟩], exOf (by decide +kernel), by decide⟩⟩

/-- Addresses one hash period apart, and an address with a home, meet the hypotheses of SliceHash. -/
theorem meets_SliceHash : (5 : Nat) % 2 ^ 23 = (2 ^ 23 + 5) % 2 ^ 23 ∧ (mapped rich).home 0 0 0x80 = .ok 1 :=
  ⟨by decide, exOf (by decide +kernel)⟩

/-- The hypothesis of FeatureWords. -/
theorem meets_FeatureWords : performs rich (ctl xorOp (fx xorOp.d) (fx xorOp.a) (fk xorOp.b)) = true := by decide +kernel

namespace VectorMemory

def vo : OpVM := ⟨false, 1, 2, 3, 1, 0, false, 3⟩

/-- Predicate 1 is empty. -/
def none_ : State := hand (fun h => h.setP 1 0) (vmem (own 0x40))

/-- A load with no active element, and one from the own scratchpad, meet the first hypotheses of VectorMemory. -/
theorem meets_VectorMemory_own :
    (let s := none_
     quiet s s.cur = true ∧ s.hand.volatiles = 0 ∧ (∀ n, ¬(n < 128 / 1 ∧ isActive s.hand vo.p (8 * 1) n = true)) ∧
       performs s (Traits.ofVM vo (fv vo.d) (fx vo.a) fnone) = true) ∧
    (let s := vmem (own 0x40)
     let t := Traits.ofVM vo (fv vo.d) (fx vo.a) fnone
     let i := issued s t
     let off (n : Nat) : Nat := 0x40 + n
     let live (n : Nat) : Prop := n < 128 / 1 ∧ isActive s.hand vo.p (8 * 1) n = true
     quiet s s.cur = true ∧ s.hand.volatiles = 0 ∧ vo.v = false ∧ (∃ n, live n) ∧
       (∀ n, live n → elementAddr i s.hand .contiguous 1 n = .ofNat 64 (2 ^ 60 + off n) ∧ off n + 1 ≤ Config.scratchBytes ∧ off n % 1 = 0 ∧
         guarded (s.core 0) (off n) 1 = false) ∧
       ((s.hand.x i.a).toNat % 8 = 0 ∧ bits (s.hand.x i.a) 63 19 = 2 ^ 41) ∧
       (∀ n, live n → scratchPoisoned (s.core 0) (off n) 1 = false) ∧ performs s t = true) := by
  refine ⟨⟨by decide +kernel, by decide +kernel, ?_, by decide +kernel⟩,
    ⟨by decide +kernel, by decide +kernel, by decide +kernel, ⟨0, by decide +kernel⟩, ?_, by decide +kernel, ?_, by decide +kernel⟩⟩
  · intro n h
    exact absurd h.2 ((by decide +kernel : ∀ n, n < 128 → ¬isActive none_.hand vo.p (8 * 1) n = true) n h.1)
  · intro n h
    exact (by decide +kernel : ∀ n, n < 128 → isActive (vmem (own 0x40)).hand vo.p (8 * 1) n = true →
      elementAddr (issued (vmem (own 0x40)) (Traits.ofVM vo (fv vo.d) (fx vo.a) fnone)) (vmem (own 0x40)).hand .contiguous 1 n =
        .ofNat 64 (2 ^ 60 + (0x40 + n)) ∧ 0x40 + n + 1 ≤ Config.scratchBytes ∧ (0x40 + n) % 1 = 0 ∧
        guarded ((vmem (own 0x40)).core 0) (0x40 + n) 1 = false) n h.1 h.2
  · intro n h
    exact (by decide +kernel : ∀ n, n < 128 → scratchPoisoned ((vmem (own 0x40)).core 0) (0x40 + n) 1 = false) n h.1

end VectorMemory
/-! ## Worked examples of the spec -/

/-- The thread that an instruction leaves. -/
def left_ (r : Host.Outcome State Fault Refusal) : Thread :=
  match r with
  | .next u => u.hand
  | _ => Thread.empty

/-- spec/12: add x5, x6, x7 with 5 and 9. -/
theorem test_add_example : decode 0x020298E0 = .ok (.add ⟨false, 0, 5, 6, 7⟩) ∧
    (left_ (exec (.add ⟨false, 0, 5, 6, 7⟩) (xs [(6, 5), (7, 9)]))).x 5 = 14 :=
  ⟨rfl, by decide +kernel⟩

/-- spec/12: sext x5, x6, x7 with 0x80 and 7. -/
theorem test_sext_example : (left_ (exec (.sext ⟨false, 0, 5, 6, 7⟩) (xs [(6, 0x80), (7, 7)]))).x 5 = 0xFFFFFFFFFFFFFF80 := by decide +kernel

/-- spec/12: the table of bit-field results, of x6 = 0xF0000000000000AB. -/
theorem test_bit_field_examples :
    (∀ e : Nat × Nat × Word, e ∈ [(4, 8, 0x0A), (60, 8, 0xF), (0, 0, 0)] →
      (left_ (exec (.bfxN64 ⟨false, 0, 4, 6, 7⟩) (xs [(6, 0xF0000000000000AB), (7, .ofNat 64 (e.1 * 256 + e.2.1))]))).x 4 = e.2.2) ∧
    (∀ e : Nat × Nat × Word, e ∈ [(60, 8, 0xFFFFFFFFFFFFFFFF), (64, 8, 0)] →
      (left_ (exec (.bfxS64 ⟨false, 0, 4, 6, 7⟩) (xs [(6, 0xF0000000000000AB), (7, .ofNat 64 (e.1 * 256 + e.2.1))]))).x 4 = e.2.2) ∧
    (left_ (exec (.bfi ⟨false, 0, 5, 6, 7⟩) (xs [(6, 0xF0000000000000AB), (7, 60 * 256 + 8)]))).x 5 = 0xB000000000000000 := by decide +kernel

/-- spec/12: fcvt.s32.f64 of -2147483649. -/
theorem test_fcvt_example :
    (let h := left_ (exec (.fcvt ⟨false, 0, 5, 6, 0, 6⟩) (xs [(6, 0xC1E0000000200000)]))
     h.x 5 = 0xFFFFFFFF80000000 ∧ h.ctx.arith = fNV) := by decide +kernel

/-- spec/03: the slice of 0x123456780, and of four-KiB strides. -/
theorem test_slice_examples : sliceOf 0x123456780 = 1 ∧ sliceOf 4096 = 2 ∧ sliceOf (9 * 4096) = 3 ∧ sliceOf (63 * 4096) = 9 := by decide +kernel

/-- spec/03: the pseudo-channel of 0x123456780, and its controller. -/
theorem test_channel_example : pseudoChannel 0x123456780 = 111 ∧ ctrlOf 0 0x123456780 = 3 := by decide +kernel

/-- spec/03: row 19 of a column read with RC = 5. -/
theorem test_rotation_example : rotOffset (19 * 512) 19 5 = 0x2698 := by decide +kernel

/-- spec/03: row 19, word 37 of a transfer. -/
theorem test_heliostat_example :
    helioTarget (.ofNat 55 (24 * 2 ^ 48 + 1 * 2 ^ 44 + 3 * 2 ^ 40 + 8 * 2 ^ 30 + 16 * 2 ^ 20 + 128)) 0x10000 19 37 = (26, 0x105A8) := by decide +kernel

/-- spec/02: name 0xB400123456 has its home at slice 7 of die 45, version 5 its handle; spec/07: the cluster nearest it. -/
theorem test_name_example : tileSlice 0 0xB400123456 = 45 * 16 + 7 ∧ handleOf 0xB400123456 5 = 0xB400123456000005 ∧
    nearCluster (45 * 16 + 7) * 8 = 4360 := by decide +kernel

/-- spec/02: serial order of versions; the window of live versions 0x10 and 0x200. -/
theorem test_version_examples : serial 0xFFFFFE 3 = 5 ∧
    (let x : Slice := { Slice.empty with tiles := [(tileKey 0 5 0x10, { TileEntry.awaited with st := .present }), (tileKey 0 5 0x200, { TileEntry.awaited with st := .present })] }
     windowOk x ⟨0, 0, 5, 0x80000F⟩ = true ∧ windowOk x ⟨0, 0, 5, 0x800010⟩ = false) := by decide +kernel

/-- spec/02: a heap request of 300 bytes takes class 2. -/
theorem test_heap_class_example : heapClass 300 0 9 = 2 ∧ classBytes 2 = 512 := by decide +kernel

/-- spec/06: position 150 of the sequence with PLOG 4, one sink page, four window pages. -/
theorem test_sequence_example :
    let d : Line := .ofNat 1024 (0xB400123400 * 2 ^ 760 + 2 ^ 688 + 4 * 2 ^ 672 + 2 * 2 ^ 632 + 2 * 2 ^ 624 + 2 * 2 ^ 616 + 4 * 2 ^ 589)
    sqPs d = 16 ∧ sqSink d = 16 ∧ sqW d = 64 ∧ sqClass d = 7 ∧ sqSlot d 150 = 22 ∧ sqPage d 150 = 1 ∧ sqPver d 150 = 2 ∧
      sqPageName d 1 1 = 0xB400123406 ∧ tileSlice 0 (sqPageName d 1 1) = 45 * 16 + 2 := by decide +kernel

/-- spec/08: the shares of a launch of 1000 threads over 96 cores. -/
theorem test_share_example :
    let d := 10 * 2 ^ 416 + 100 * 2 ^ 384 + 2 ^ 312
    (List.map (shapeExt d) [0, 1]) = [10, 100] ∧ shareOf d 50 96 = (540, 10, 1) ∧ (shareOf d 39 96).2.1 = 11 ∧ (shareOf d 40 96).2.1 = 10 := by decide +kernel

/-- spec/11: -37 in RES8, and a dot product of residues. -/
theorem test_residue_examples : resEnc8 (-37) = 0xAE ∧ resDec8 0xAE = (-37, 0) ∧ crtAcc 456 472 480 = -7712 := by decide +kernel

/-- spec/13: the encodings of some memory and tile forms. -/
theorem test_memory_words :
    decode 0x4603A09A = .ok (.stN64 ⟨false, 0, 7, 8, 0, 2, 0x1A⟩) ∧ decode 0x4C04A804 = .ok (.aadd ⟨false, 0, 9, 10, 0, 0, 0, true⟩) ∧
    (∃ o, decode 0x5044A806 = .ok (.acas o) ∧ o.d = 4 ∧ o.a = 9 ∧ o.b = 10) ∧
    (∃ o, decode 0x54114C00 = .ok (.tst o) ∧ o.h = 2 ∧ o.a = 5 ∧ o.b = 6 ∧ o.m = false) ∧
    (∃ o, decode 0xD4114002 = .ok (.tldc o) ∧ o.h = 2 ∧ o.a = 5 ∧ o.b = 0 ∧ o.m = true) ∧
    decode 0x2C002822 = .ok (.mtcr ⟨false, 0, 0, 10, 0x022⟩) ∧ decode 0x04030001 = .ok (.addi ⟨false, 0, 6, 0, 1⟩) ∧
    decode 0x7602D0C0 = .ok (.sqslot ⟨false, 0, 5, 20, 6⟩) ∧ decode 0x760052A2 = .ok (.atts ⟨false, 0, 0, 20, 21⟩) ∧
    decode 0x5805316E = .ok (.ftile ⟨false, 0, 10, 12, 11⟩) :=
  ⟨rfl, rfl, ⟨_, rfl, rfl, rfl, rfl⟩, ⟨_, rfl, rfl, rfl, rfl, rfl⟩, ⟨_, rfl, rfl, rfl, rfl, rfl⟩, rfl, rfl, rfl, rfl, rfl⟩

/-- spec/14: the twelfth tile of a 100 by 70 queue of 32 by 32 tiles. -/
theorem test_tile_queue_example :
    let s := (rich.modCluster 0 fun c => { c with tq := [(3, ⟨100, 70, 32, 32, 0, 7, 11⟩)], gen := 7 })
    (match exec (.ftile ⟨false, 0, 14, 10, 15⟩) (xs [(10, 3 + 7 * 256)] s) with
      | .next u => u.agenda.map (·.ev)
      | _ => []) = [.resultReturn ⟨0, 0, .regs [(14, 0x0000004000000060), (15, 0x0000000B00060004)] [] 0, none⟩] := by decide +kernel

/-- spec/14: vdot.s8 saturates element 0 and not element 1. -/
theorem test_vdot_example :
    let s := hand fun h => ((h.setV 6 (.ofNat 1024 (2147483392 + 2147483600 * 2 ^ 32))).setV 4 (.ofNat 1024 0x7F7F7F7F7F7F7F7F)).setV 5
      (.ofNat 1024 0x81817F7F7F7F7F7F)
    let t := left_ (exec (.vdot ⟨false, 6, 4, 5, 0, 0⟩) s)
    (t.vreg 6).toNat % 2 ^ 64 = 0x7FFFFFFF + 2147483600 * 2 ^ 32 ∧ t.ctx.arith = fSAT := by decide +kernel

/-- spec/11: vfredadd.f32 over lanes 0 to 3 gives 1.0 and NX. -/
theorem test_tree_sum_example :
    let s := hand fun h => (h.setV 4 (.ofNat 1024 (0x4B800000 + 0x3F800000 * 2 ^ 32 + 0x3F800000 * 2 ^ 64 + 0xCB800000 * 2 ^ 96))).setP 1 0xFFFF
    let t := left_ (exec (.vfredadd ⟨false, 5, 4, 0, 1, 1⟩) s)
    t.x 5 = 0x3F800000 ∧ t.ctx.arith = fNX := by decide +kernel

/-- R163: some fields of a context packet by the bits of its two tables, and its length with v0 to v3. -/
theorem test_packet_layout :
    let p : Packet := ⟨{ Ctx.zero with pc := 0x123, x := [(1, 7), (9, 8)], imask := 5, rx := [(9, 6)], mersel := 11 }, true, [(3, 5)], 9, 77, 3, 6, 1,
      false, false⟩
    packetBase p / 2 ^ 960 = 0x123 ∧ packetBase p / 2 ^ 896 % 2 ^ 64 = 7 ∧ packetBase p / 2 ^ 384 % 2 ^ 64 = 8 ∧ packetBase p / 2 ^ 290 % 16 = 5 ∧
      packetBase p / 2 ^ 203 % 2 ^ 37 = 77 * 2 ^ 19 + 3 ∧ packetBase p / 2 ^ 195 % 2 ^ 8 = 0b110_1_0001 ∧
      packetControl p / 2 ^ 1408 % 2 ^ 64 = 6 ∧ packetControl p / 2 ^ 820 % 2 ^ 64 = 9 ∧ packetControl p / 2 ^ 725 % 16 = 11 ∧
      (packetBytes p).length = 896 := by decide +kernel

/-- R408, R411: the fields of a flit's header, for a request and for a multicast over a link of version 2. -/
theorem test_flit_header :
    flitHeader 2 5 3 7 ⟨0, fromModule 1, atModule 2, .eventReport ⟨1, 5, none, 0, 1, 0, 0, 0⟩⟩ = 0x70810C005 ∧
    flitHeader 2 5 3 7 ⟨0, fromModule 1, atModule 2, .nolkaiMulticast ⟨2, 4, .cancel ⟨3, ⟨0, 0, 0, 0, 0⟩⟩⟩⟩ = 0x70010E005 := by decide +kernel

/-- R58: a notice of version 3 of name 5, of job 2 and size class 7, from slice 5 of die 9 of module 2. -/
theorem test_notice_format :
    Machine.Notice.bits ⟨2, 5, 3, 7, (2 * 64 + 9) * 16 + 5, 0, none⟩ = 0x10020000000005000003724250000000 := by decide +kernel

end Sys2Proof.Tests
end

/-! # What reaches a thread from outside its issue, and the events its issue takes -/

namespace Sys2Proof.Machine

/-! ## A step and its finish -/

/-- A step of the machine is what its meaning finishes in. -/
theorem steps_of_finish {i : Instr} {s t : State} (h : exec i s = finish s t) : Steps i s t := h

/-! ## What a message on its way leaves -/

@[simp] theorem State.core_report (s : State) (r : Report) (c : Nat) : (s.report r).core c = s.core c := rfl

/-! ## Results (R159) -/

@[simp] theorem Thread.orFlags_none (t : Thread) : t.orFlags 0 = t := by simp [Thread.orFlags]

/-- Bytes put into a table read back at their places. -/
theorem tget_putBytes (z : Byte) (t : Table Byte) (off k : Nat) (bs : List Byte) :
    tget z (putBytes t off bs) k = if off ≤ k then bs.getD (k - off) (tget z t k) else tget z t k := by
  induction bs generalizing t off with
  | nil => simp [putBytes]
  | cons b bs ih =>
    rw [putBytes, ih, tget_tput]
    obtain h | h | h := Nat.lt_trichotomy k off
    · simp [show ¬ off + 1 ≤ k by omega, show ¬ off ≤ k by omega, show k ≠ off by omega]
    · subst h
      rw [if_neg (Nat.not_succ_le_self k), if_pos rfl, if_pos (Nat.le_refl k), Nat.sub_self, List.getD_cons_zero]
    · simp [show off + 1 ≤ k by omega, show off ≤ k by omega, show k - off = (k - (off + 1)) + 1 by omega, show k ≠ off by omega]

/-- The bytes of a result that has come in one part are those of the part. -/
theorem Outst.bytes_putBytes {o : Outst} {bs : List Byte} (h : o.buf = putBytes [] 0 bs) : o.bytes bs.length = bs := by
  apply List.ext_getElem (by simp [Outst.bytes])
  intro k hk _
  simp only [Outst.bytes, List.length_map, List.length_range] at hk
  simp [Outst.bytes, h, tget_putBytes, hk]

/-- Whether a thread's instruction waits for the answer of a number. -/
def Thread.awaits (t : Thread) (id : Nat) : Bool :=
  id + 1 == t.nextId && match t.status with
    | .waiting .answer | .waiting (.tile _ _ _) | .waiting (.stall _ _) => true
    | _ => false

theorem wakeAnswered_of_not_awaits {t : Thread} {id : Nat} (v : Word) (h : t.awaits id = false) : wakeAnswered id v t = t := by
  unfold wakeAnswered
  split
  · rename_i hid
    unfold Thread.awaits at h
    split <;> simp_all
  · rfl

theorem wakeAnswered_answer {t : Thread} {id : Nat} (v : Word) (hid : id + 1 = t.nextId) (hs : t.status = .waiting .answer) :
    wakeAnswered id v t = { t with status := .ready, stage := .answered v } := by
  simp [wakeAnswered, hid, hs]

/-- R198: a fault of a discarded task only counts. -/
theorem pendFault_late {s : State} {g : Nat} {f : FaultRec} (hf : f.task ≠ (s.thread g).ctx.task)
    (hgone : (s.thread g).gone.contains f.task = true) : pendFault s g f = countLate s g f := by
  rw [pendFault, if_pos (by simp only [late, bne_iff_ne.mpr hf, hgone, Bool.and_self])]

section slot
variable {s : State} {g : Nat} (hg : g < 2 ^ 33)
include hg

/-- A number of a slot that the table of threads holds stands for a context. -/
theorem hasThread_slot (hin : (tfind s.threads g).isSome = true) : s.hasThread g = true := by
  simp only [State.hasThread, hin, Bool.true_and, decide_eq_true_eq]
  omega

/-- Only a saved context waits to be resumed. -/
theorem savedReady_slot : savedReady s g = s :=
  if_neg fun h => absurd h.1 (Nat.not_le.mpr hg)

/-- Only a saved context has a frame. -/
theorem frameLand_slot (o : Outst) (v : ResultVal) : frameLand s g o v = s := by
  simp only [frameLand, hg, if_true]

/-- R30: a fault of the task in hand pends. -/
theorem pendFault_inHand {f : FaultRec} (hf : f.task = (s.thread g).ctx.task) :
    pendFault s g f = s.modThread g fun t => { t with pend := t.pend ++ [f] } := by
  rw [pendFault, if_neg (by simp [late, hf]), savedReady_slot hg]

/-- R159: the one part of a thread's only outstanding result completes it; `b` are the bytes that the part has brought. -/
theorem takeResult_lone {e : Outst} {v : ResultVal} {b : Table Byte} (hin : (tfind s.threads g).isSome = true)
    (ho : (s.thread g).out = [e]) (hp : e.parts = 1) (hf : e.fault = none) (hv : takePart s g e v = (s, { e with buf := b })) :
    takeResult s g e.id v =
      s.modThread g fun t => wakeAnswered e.id (answerValue v) (landRegs { e with buf := b } v { t with out := [] }) := by
  simp [takeResult, hasThread_slot hg hin, ho, hp, hv, finishResult, hf, frameLand_slot hg, countPart]

end slot

/-! ## Entries that discard nothing (R199) -/

/-- A call entry below monitor mode, of a thread without a live record, is taken in supervisor mode, and changes that thread alone. -/
theorem enter_call {s : State} {g : Nat} {f : FaultRec} (hd : f.cause.discards = false) (hc : f.cause ≠ .monitorCall)
    (hm : (s.thread g).ctx.mode ≠ .monitor) (hl : (s.thread g).ctx.cause.live = false) :
    enter s g f = s.setThread g { s.thread g with
      status := .ready, seq := none, stage := .start, checked := false, displaced := false, stepDue := false
      ctx := enterSupervisor (s.thread g).ctx (mkRecord { f with more := 0 } (s.thread g).ctx.task)
        (f.pc.getD (s.thread g).reportPc) f.addr f.info } := by
  have hs : f.cause ≠ .scratchpadGuard := fun h => by rw [h] at hd; cases hd
  have hp : (s.thread g).pend.filter (fun _ => true) = (s.thread g).pend := List.filter_eq_self.mpr fun _ _ => rfl
  simp only [enter, hd, hc, hm, hl, hs, Bool.false_eq_true, Bool.false_and, Bool.not_false, hp, false_and, or_self, if_false]

/-- What such an entry leaves, for a fault that reports the word at hand. -/
theorem enter_call_effect {s : State} {g : Nat} {f : FaultRec} (hd : f.cause.discards = false) (hc : f.cause ≠ .monitorCall)
    (hpc : f.pc = none) (hm : (s.thread g).ctx.mode ≠ .monitor) (hl : (s.thread g).ctx.cause.live = false) :
    let h := s.thread g
    let t := enter s g f
    (t.thread g).ctx.mode = .supervisor ∧ (t.thread g).ctx.epc = h.reportPc ∧ (t.thread g).ctx.pmode = h.ctx.mode ∧
    (t.thread g).ctx.pie = h.ctx.ie ∧ (t.thread g).ctx.ie = false ∧ (t.thread g).ctx.pc = .ofNat 64 (h.ctx.svec.toNat * 4) ∧
    (t.thread g).ctx.cause.live = true ∧ (t.thread g).ctx.cause.cause = .ofNat 8 f.cause.code ∧ (t.thread g).ctx.x = h.ctx.x ∧
    t.cores = s.cores ∧ t.slices = s.slices ∧ t.pending = s.pending := by
  rw [enter_call hd hc hm hl]
  simp [enterSupervisor, mkRecord, hpc]

/-! ## The steps -/

/-- A result that nobody expects. -/
theorem resultReturn_unasked {s : State} {g : Nat} (ho : (s.thread g).out = []) (id : Nat) (v : ResultVal) :
    Steps (.resultReturn ⟨g, id, v, none⟩) s s := by
  have h : takeResult s g id v = s := by simp [takeResult, ho]
  exact steps_of_finish (congrArg (finish s) h)

section steps
variable {s : State} {g : Nat} (hg : g < 2 ^ 33) (hin : (tfind s.threads g).isSome = true)
include hg hin

/-- R159: a result without a line fill, of which nothing is left to come. -/
theorem resultReturn_lone {e : Outst} {v : ResultVal} {b : Table Byte} (ho : (s.thread g).out = [e] ∧ e.parts = 1 ∧ e.fault = none)
    (hv : takePart s g e v = (s, { e with buf := b })) :
    Steps (.resultReturn ⟨g, e.id, v, none⟩) s
      (s.modThread g fun t => wakeAnswered e.id (answerValue v) (landRegs { e with buf := b } v { t with out := [] })) := by
  obtain ⟨ho, hp, hf⟩ := ho
  exact steps_of_finish (congrArg (finish s) (takeResult_lone hg hin ho hp hf hv))

/-- Bytes for an x register. -/
theorem resultReturn_bytes {e : Outst} {n d : Nat} {sign : Bool} {bs : List Byte}
    (ho : (s.thread g).out = [e] ∧ e.parts = 1 ∧ e.fault = none) (hd : e.dest = .x d n sign) (hb : e.buf = []) (hn : bs.length = n)
    (hw : (s.thread g).awaits e.id = false) :
    Steps (.resultReturn ⟨g, e.id, .bytes 0 bs, none⟩) s
      (s.modThread g fun t => { t with out := [] }.setX d (.ofInt 64 (intVal (8 * n) sign (leNat bs)))) := by
  subst hn
  have h := resultReturn_lone hg hin (v := .bytes 0 bs) (b := putBytes [] 0 bs) ho (by simp [takePart, hd, hb])
  have hland (t : Thread) : landRegs { e with buf := putBytes [] 0 bs } (.bytes 0 bs) t =
      t.setX d (.ofInt 64 (intVal (8 * bs.length) sign (leNat bs))) := by
    simp only [landRegs, hd]
    rw [Outst.bytes_putBytes rfl]
  rw [State.modThread, wakeAnswered_of_not_awaits _ (by rw [hland]; simpa [Thread.awaits] using hw), hland] at h
  exact h

/-- Whole registers, for an instruction that does not wait for them. -/
theorem resultReturn_regs {e : Outst} {d : Nat} {v : Word} {fl : Flags} (ho : (s.thread g).out = [e] ∧ e.parts = 1 ∧ e.fault = none)
    (hw : (s.thread g).awaits e.id = false) :
    Steps (.resultReturn ⟨g, e.id, .regs [(d, v)] [] fl, none⟩) s
      (s.modThread g fun t => ({ t with out := [] }.setX d v).orFlags fl) := by
  have h := resultReturn_lone hg hin (v := .regs [(d, v)] [] fl) (b := e.buf) ho rfl
  have hland (t : Thread) : landRegs e (.regs [(d, v)] [] fl) t = (t.setX d v).orFlags fl := rfl
  rw [State.modThread, wakeAnswered_of_not_awaits _ (by rw [hland]; simpa [Thread.awaits] using hw), hland] at h
  exact h

/-- The answer that the instruction at hand waits for. -/
theorem resultReturn_answer {e : Outst} {d : Nat} {v : Word} (ho : (s.thread g).out = [e] ∧ e.parts = 1 ∧ e.fault = none)
    (hs : (s.thread g).status = .waiting .answer) (hid : e.id + 1 = (s.thread g).nextId) :
    Steps (.resultReturn ⟨g, e.id, .regs [(d, v)] [] 0, none⟩) s
      (s.modThread g fun t => { { t with out := [] }.setX d v with status := .ready, stage := .answered v }) := by
  have h := resultReturn_lone hg hin (v := .regs [(d, v)] [] 0) (b := e.buf) ho rfl
  have hland (t : Thread) : landRegs e (.regs [(d, v)] [] 0) t = t.setX d v := by
    rw [show landRegs e (.regs [(d, v)] [] 0) t = (t.setX d v).orFlags 0 from rfl, Thread.orFlags_none]
  rw [State.modThread, hland, wakeAnswered_answer _ (by simpa using hid) (by simpa using hs)] at h
  exact h

/-- R30: a fault of the task in hand that answers no result pends. -/
theorem faultResponse_pends {f : FaultRec} (hf : f.task = (s.thread g).ctx.task) :
    Steps (.faultResponse ⟨g, none, none, 0, f⟩) s (s.modThread g fun t => { t with pend := t.pend ++ [f] }) := by
  apply steps_of_finish
  rw [← pendFault_inHand hg hf]
  exact congrArg (finish s) (if_pos (hasThread_slot hg hin))

/-- A fault in place of the thread's only outstanding result. -/
theorem faultResponse_result {e : Outst} {f : FaultRec} (ho : (s.thread g).out = [e] ∧ e.parts = 1 ∧ e.fault = none)
    (ht : e.task = (s.thread g).ctx.task) :
    Steps (.faultResponse ⟨g, some e.id, none, 0, f⟩) s
      (s.modThread g fun t => { t with out := [], pend := t.pend ++ [{ f with task := e.task }] }) := by
  obtain ⟨ho, hp, hf⟩ := ho
  have h : failResult s g e.id 0 f = s.modThread g fun t => { t with out := [], pend := t.pend ++ [{ f with task := e.task }] } := by
    simp only [failResult, ho, failPart, hf, hp, finishResult, List.find?_cons, beq_self_eq_true, Nat.le_refl, if_true]
    rw [pendFault_inHand hg (by simp [countPart, ht])]
    simp [countPart, ho]
  apply steps_of_finish
  rw [← h]
  exact congrArg (finish s) (if_pos (hasThread_slot hg hin))

/-- A fault of a posted store is counted as its acknowledgement, and waits to be observed. -/
theorem faultResponse_posted {c : PostCtr} {off : Nat} {f : FaultRec} (hs : (s.thread g).stf = [])
    (hf : f.task = (s.thread g).ctx.task) :
    Steps (.faultResponse ⟨g, none, some c, off, f⟩) s
      (s.modThread g fun t => { t with ctx := t.ctx.setCount c (t.ctx.count c - 1), stf := [⟨c, off, f⟩] }) := by
  have hk : ((s.thread g).ctx.setCount c ((s.thread g).ctx.count c - 1)).task = (s.thread g).ctx.task := by cases c <;> rfl
  have h : postFault (ackPost s g c) g ⟨c, off, f⟩ =
      s.modThread g fun t => { t with ctx := t.ctx.setCount c (t.ctx.count c - 1), stf := [⟨c, off, f⟩] } := by
    rw [ackPost, ackPosts, if_pos (hasThread_slot hg hin), postFault, if_neg (by simp [late, hk, hf]), savedReady_slot hg]
    simp [hs, insertPosted]
  apply steps_of_finish
  rw [← h]
  exact congrArg (finish s) (if_pos (hasThread_slot hg hin))

/-- R198: a late fault of a discarded task. -/
theorem faultResponse_late {f : FaultRec} (hf : f.task ≠ (s.thread g).ctx.task) (hgone : (s.thread g).gone.contains f.task = true) :
    Steps (.faultResponse ⟨g, none, none, 0, f⟩) s (countLate s g f) := by
  apply steps_of_finish
  rw [← pendFault_late hf hgone]
  exact congrArg (finish s) (if_pos (hasThread_slot hg hin))

/-- R160: TIMER becomes the level that it is. -/
theorem timerInterrupt_slot : Steps (.timerInterrupt ⟨g⟩) s (s.modCtx g fun c => { c with ipend := s.ipend g }) := by
  apply steps_of_finish
  refine congrArg (finish s) ?_
  rw [if_pos (hasThread_slot hg hin)]
  exact if_neg (Nat.not_le.mpr hg)

end steps

/-- R281: a soft interrupt finds its job's thread in the slot, and its sender learns 0. -/
theorem softInterruptDelivery_here {s : State} {o : SoftIrq}
    (h : (s.thread (o.core * 16 + o.slot)).status ≠ .absent ∧ (s.thread (o.core * 16 + o.slot)).ctx.ids.job = o.job) :
    Steps (.softInterruptDelivery o) s (answer (s.modCtx (o.core * 16 + o.slot) fun c => { c with ipend := c.ipend ||| 1 })
      (fromThread (o.core * 16)) o.gti o.id (.regs [(o.d, 0)] [] 0) none) := by
  have hb : ((s.thread (o.core * 16 + o.slot)).status != .absent && (s.thread (o.core * 16 + o.slot)).ctx.ids.job == o.job) = true := by
    simpa using h
  refine steps_of_finish (congrArg (finish s) ?_)
  simp only [hb, if_true]

/-- And one that does not. -/
theorem softInterruptDelivery_gone {s : State} {o : SoftIrq}
    (h : ¬((s.thread (o.core * 16 + o.slot)).status ≠ .absent ∧ (s.thread (o.core * 16 + o.slot)).ctx.ids.job = o.job)) :
    Steps (.softInterruptDelivery o) s (answer s (fromThread (o.core * 16)) o.gti o.id (.regs [(o.d, 1)] [] 0) none) := by
  have hb : ((s.thread (o.core * 16 + o.slot)).status != .absent && (s.thread (o.core * 16 + o.slot)).ctx.ids.job == o.job) = false := by
    rw [Bool.eq_false_iff]
    simpa using h
  refine steps_of_finish (congrArg (finish s) ?_)
  simp only [hb, if_false, Bool.false_eq_true]

/-- R187: an increment by a job that does not own the counter is refused and counted. -/
theorem raiseCount_refused {s : State} {core n job : Nat} (h : (tget Arrival.zero (s.core core).arrivals n).owner ≠ job) :
    ((raiseCount s core n job).core core).acrej = (s.core core).acrej + 1 ∧
    ((raiseCount s core n job).core core).arrivals = (s.core core).arrivals := by
  simp [raiseCount, h]

theorem bump_refused {s : State} {core n job : Nat} (h : (tget Arrival.zero (s.core core).arrivals n).owner ≠ job) :
    bump s core n job = raiseCount s core n job := if_neg h

section messages
variable {s : State} {o : Msg}

/-- R296: a message whose counter is another job's writes nothing. -/
theorem msendDelivery_refused (h : (tget Arrival.zero (s.core o.core).arrivals o.ctr).owner ≠ o.job) :
    Steps (.msendDelivery o) s (ackPost (bump s o.core o.ctr o.job) o.gti o.post) := by
  refine steps_of_finish (congrArg (finish s) ?_)
  simp only [h, ne_eq, not_false_eq_true, if_true]

/-- R296: a message of the counter's owner is written, and counts. -/
theorem msendDelivery_written (h : (tget Arrival.zero (s.core o.core).arrivals o.ctr).owner = o.job)
    (hg : guarded (s.core o.core) o.pos 8 = false) :
    Steps (.msendDelivery o) s
      (ackPost (bump (scratchWrite s o.core o.pos (bytesOf 8 o.payload)) o.core o.ctr o.job) o.gti o.post) := by
  refine steps_of_finish (congrArg (finish s) ?_)
  simp only [h, hg, ne_eq, not_true_eq_false, Bool.false_eq_true, if_false]

/-- R297: a receive queue that another job owns takes no message, and the refusal is counted and reported. -/
theorem qputDelivery_refused (h : (s.core o.core).rqOwner ≠ o.job) :
    Steps (.qputDelivery o) s (ackPost ((s.modCore o.core fun c => { c with acrej := c.acrej + 1 }).report
      (ownerReport o.core o.job (s.core o.core).rqOwner 0 1 o.payload)) o.gti o.post) :=
  steps_of_finish (congrArg (finish s) (if_pos h))

/-- R297: a message enters a queue that has room, and where no context is saved nothing else comes of it. -/
theorem qputDelivery_enters (h : (s.core o.core).rqOwner = o.job) (hr : (s.core o.core).rq.length < Config.recvQueue)
    (hs : (s.core o.core).saved = []) :
    Steps (.qputDelivery o) s (ackPost (s.modCore o.core fun c => { c with rq := c.rq ++ [o.payload] }) o.gti o.post) := by
  refine steps_of_finish (congrArg (finish s) ?_)
  rw [if_neg (not_not_intro h), if_neg (Nat.not_le.mpr hr)]
  simp [hs]

/-- R297: a full queue leaves the message where it is. -/
theorem qputDelivery_full (h : (s.core o.core).rqOwner = o.job) (hr : Config.recvQueue ≤ (s.core o.core).rq.length) :
    Steps (.qputDelivery o) s (s.urge ⟨s.now, fromThread o.gti, atCore o.core, .qputDelivery o⟩) := by
  refine steps_of_finish (congrArg (finish s) ?_)
  rw [if_neg (not_not_intro h), if_pos hr]

end messages

/-! ## Late faults, and entries in place of a word -/

/-- MORE counts up to 255 (R198). -/
theorem more_saturates (r : CauseRec) :
    (if r.more = 255 then 255 else r.more + 1) = BitVec.ofNat 8 (min 255 (r.more.toNat + 1)) := by
  split
  · rename_i h
    rw [h]
    rfl
  · rename_i h
    have hm : r.more.toNat ≠ 255 := fun e => h (BitVec.eq_of_toNat_eq e)
    bv_omega

/-- A record that has counted one more late fault. -/
def CauseRec.counted (r : CauseRec) : CauseRec := { r with more := .ofNat 8 (min 255 (r.more.toNat + 1)) }

theorem countLate_cause {s : State} {g : Nat} {f : FaultRec} (h : (s.thread g).ctx.cause.disc = true ∧ (s.thread g).ctx.cause.task = f.task) :
    countLate s g f = s.modCtx g fun c => { c with cause := CauseRec.counted c.cause } := by
  simp only [countLate, more_saturates, h, and_self, if_true]
  rfl

theorem countLate_mcause {s : State} {g : Nat} {f : FaultRec}
    (h : ¬((s.thread g).ctx.cause.disc = true ∧ (s.thread g).ctx.cause.task = f.task))
    (hm : (s.thread g).ctx.mcause.disc = true ∧ (s.thread g).ctx.mcause.task = f.task) :
    countLate s g f = s.modCtx g fun c => { c with mcause := CauseRec.counted c.mcause } := by
  simp only [countLate, more_saturates, h, hm, and_self, if_true, if_false]
  rfl

theorem countLate_neither {s : State} {g : Nat} {f : FaultRec}
    (h : ¬((s.thread g).ctx.cause.disc = true ∧ (s.thread g).ctx.cause.task = f.task))
    (hm : ¬((s.thread g).ctx.mcause.disc = true ∧ (s.thread g).ctx.mcause.task = f.task)) : countLate s g f = s := by
  simp only [countLate, h, hm, if_false]

/-- R199: the only fault that pends is taken, and pends no longer. -/
theorem trapEntry_pending {s : State} {g : Nat} {f : FaultRec} (h : (s.thread g).pend = [f]) :
    Steps (.trapEntry ⟨g, f⟩) s (enter (s.modThread g fun t => { t with pend := [] }) g f) := by
  have hd : dropFault (s.thread g) f = { s.thread g with pend := [] } := by simp [dropFault, h]
  refine steps_of_finish (congrArg (fun t => finish s (enter (s.setThread g t) g f)) hd)

/-- R160, R161: an interrupt of a thread that abandons nothing. -/
theorem interruptEntry_runnable {s : State} {g : Nat} {b : BitVec 4} (h : canAbandon s g = false) :
    Steps (.interruptEntry ⟨g, b⟩) s (enter (s.modCtx g fun c => clearIrq c b) g (mkFault .interrupt b.toNat 0)) := by
  refine steps_of_finish (congrArg (finish s) ?_)
  simp only [h, Bool.false_eq_true, if_false]

/-- Settles O47: a result's landing, a fault's, an entry's, an interrupt's and a message's, each by its own rule. -/
theorem threadEvents : Obligations.ThreadEvents := by
  intro s g hg hin
  refine ⟨?_, ?_, ?_, ?_, ?_, ?_, ?_, ?_, ?_, ?_, ?_, ?_, ?_, ?_⟩
  · exact fun e n sign d bs ho hd hb hn hw _ => resultReturn_bytes hg hin ho hd hb hn hw
  · exact fun e d v fl ho _ hw => resultReturn_regs hg hin ho hw
  · exact fun e d v ho hs hid => resultReturn_answer hg hin ho hs hid
  · exact fun id v ho => resultReturn_unasked ho id v
  · exact fun f hf => faultResponse_pends hg hin hf
  · exact fun e f ho ht => faultResponse_result hg hin ho ht
  · exact fun c off f hs hf => faultResponse_posted hg hin hs hf
  · intro f hf hgone
    have step {t : State} (h : countLate s g f = t) : Steps (.faultResponse ⟨g, none, none, 0, f⟩) s t :=
      h ▸ faultResponse_late hg hin hf hgone
    exact ⟨fun here => step (countLate_cause here), fun nh there => step (countLate_mcause nh there),
      fun nh nt => step (countLate_neither nh nt)⟩
  · exact fun f hp => trapEntry_pending hp
  · intro i hi _ ha hm hl
    simp only [List.mem_cons, List.not_mem_nil, or_false] at hi
    obtain rfl | rfl := hi
    · exact ⟨_, steps_of_finish rfl, enter_call_effect rfl (by decide) rfl hm hl⟩
    · refine ⟨_, interruptEntry_runnable ha, ?_⟩
      have hu : (s.modCtx g fun c => clearIrq c 2).thread g =
        { s.thread g with ctx := { (s.thread g).ctx with ipend := (s.thread g).ctx.ipend &&& ~~~(1#4 <<< 2) } } := by
        simp [clearIrq]
      have h := enter_call_effect (s := s.modCtx g fun c => clearIrq c 2) (g := g) (f := mkFault .interrupt 2 0) rfl (by decide) rfl
        (by rw [hu]; exact hm) (by rw [hu]; exact hl)
      rw [hu] at h
      exact h
  · exact timerInterrupt_slot hg hin
  · rintro o rfl
    exact ⟨softInterruptDelivery_here, softInterruptDelivery_gone⟩
  · rintro o rfl
    exact ⟨msendDelivery_refused, msendDelivery_written, fun h => ⟨_, rfl, qputDelivery_refused h⟩, qputDelivery_enters, qputDelivery_full⟩
  · intro n hn
    rw [bump_refused hn]
    exact raiseCount_refused hn

end Sys2Proof.Machine

/-! # A module's upkeep -/

namespace Sys2Proof.Machine

/-! ## What a fold, a message and a link's record leave -/

/-- A fold each of whose steps keeps something keeps it. -/
theorem foldl_keeps {α β γ : Type} (p : β → γ) {f : β → α → β} (h : ∀ b a, p (f b a) = p b) (l : List α) (b : β) :
    p (l.foldl f b) = p b := by
  induction l generalizing b with
  | nil => rfl
  | cons a l ih => rw [List.foldl_cons, ih, h]

/-- A table changed entry by entry, where an entry that is not listed would stay as it is. -/
theorem tget_tmap {α : Type} {d : α} {f : Nat → α → α} (hd : ∀ k, f k d = d) (t : Table α) (k : Nat) :
    tget d (tmap f t) k = f k (tget d t k) := by
  induction t with
  | nil => simp [tmap, tget, hd]
  | cons e t ih =>
    obtain ⟨a, v⟩ := e
    by_cases h : k = a
    · simp [tmap, tget, h]
    · simp [tmap, tget, h, ih]

@[simp] theorem State.setModu_setModu (s : State) (m : Nat) (x y : Module) : (s.setModu m x).setModu m y = s.setModu m y := by
  simp [State.setModu, tput_tput]

@[simp] theorem State.cores_post (s : State) (f : Flight) : (s.post f).cores = s.cores := rfl
@[simp] theorem State.threads_post (s : State) (f : Flight) : (s.post f).threads = s.threads := rfl
@[simp] theorem State.die_post (s : State) (f : Flight) (d : Nat) : (s.post f).die d = s.die d := rfl
@[simp] theorem State.link_modLink (s : State) (m l : Nat) (f : Link → Link) : (s.modLink m l f).link m l = f (s.link m l) := by
  simp [State.link, State.modLink]

/-! ## The clock, which no upkeep moves -/

@[simp] theorem filterSlots_now (s : State) (c : Nat) (l : L1Line) : (filterSlots s c l).now = s.now := by
  refine foldl_keeps State.now (fun s e => ?_) _ _
  split <;> rfl

@[simp] theorem State.pokes_now (s : State) (a : Nat) (bs : List Byte) : (s.pokes a bs).now = s.now := by
  induction bs generalizing s a with
  | nil => rfl
  | cons b bs ih => rw [State.pokes, ih]; rfl

@[simp] theorem writeBack_now (s : State) (g core job word : Nat) : (writeBack s g core job word).now = s.now := by
  unfold writeBack
  split <;> simp

@[simp] theorem setL1State_now (s : State) (core job word : Nat) (st : Option WordSt) : (setL1State s core job word st).now = s.now := by
  unfold setL1State
  split <;> rfl

@[simp] theorem doRecall_now (s : State) (g job word : Nat) : (doRecall s g job word).now = s.now := by
  unfold doRecall
  split
  · rfl
  · simp only [State.modSlice_eq, State.setSlice_now]
    repeat' split
    all_goals simp

@[simp] theorem recallWords_now (s : State) (g job line n : Nat) : (recallWords s g job line n).now = s.now := by
  induction n with
  | zero => rfl
  | succ n ih => rw [recallWords, doRecall_now, ih]

@[simp] theorem recallLine_now (s : State) (g job line : Nat) : (recallLine s g job line).now = s.now := by
  simp [recallLine]

@[simp] theorem dropL1_now (p : Nat → L1Line → Bool) (q : Nat → ILine → Bool) (s : State) : (dropL1 p q s).now = s.now :=
  foldl_keeps State.now (fun s _ => foldl_keeps State.now (fun s _ => filterSlots_now s _ _) _ s) _ s

@[simp] theorem stopFills_now (p : Nat → Nat → Nat → Bool) (s : State) : (stopFills p s).now = s.now := rfl

@[simp] theorem State.serve_now (s : State) (g : Nat) : (s.serve g).now = s.now := by
  simp only [State.serve, State.modSlice_eq, State.setSlice_now]
  split <;> rfl

@[simp] theorem doInvalidate_now (s : State) (v : CopyInval) : (doInvalidate s v).now = s.now := by
  unfold doInvalidate
  split <;> simp

@[simp] theorem purgeLine_now (s : State) (g job line : Nat) : (purgeLine s g job line).now = s.now := by
  simp [purgeLine]

@[simp] theorem purgeNames_now (gdie : Nat) (l : List (Nat × Nat × Nat)) (s : State) : (purgeNames gdie l s).now = s.now := by
  induction l generalizing s with
  | nil => rfl
  | cons e l ih => rw [purgeNames, ih, purgeLine_now]

@[simp] theorem purgeCtrls_now (o : TrInv) (k : TrScope) (l : List (Nat × Ctrl)) (s : State) : (purgeCtrls o k l s).now = s.now := by
  induction l generalizing s with
  | nil => rfl
  | cons e l ih =>
    rw [purgeCtrls, ih]
    split <;> simp

@[simp] theorem recallLines_now (l : List (Nat × L1Line)) (s : State) : (recallLines l s).now = s.now := by
  induction l generalizing s with
  | nil => rfl
  | cons e l ih => rw [recallLines, ih, recallLine_now]

@[simp] theorem recallCores_now (o : TrInv) (k : TrScope) (l : List (Nat × Core)) (s : State) : (recallCores o k l s).now = s.now := by
  induction l generalizing s with
  | nil => rfl
  | cons e l ih =>
    rw [recallCores, ih]
    split <;> simp

@[simp] theorem dropData_now (s : State) (o : TrInv) (k : TrScope) : (dropData s o k).now = s.now := by
  simp [dropData]

/-! ## Invalidation of translations (R27, R28) -/

@[simp] theorem stopFills_core (p : Nat → Nat → Nat → Bool) (s : State) (c : Nat) : (stopFills p s).core c = s.core c := rfl

/-- The core of each number, once lines have left. -/
theorem dropL1_core (p : Nat → L1Line → Bool) (q : Nat → ILine → Bool) (s : State) (c : Nat) :
    ∃ x : Core, (dropL1 p q s).core c =
      { x with l1d := x.l1d.filter fun e => !p c e.2, l1i := x.l1i.filter fun e => !q c e.2 } :=
  ⟨_, tget_tmap (fun _ => rfl) _ c⟩

theorem dropL1_l1d {p : Nat → L1Line → Bool} {q : Nat → ILine → Bool} {s : State} {c : Nat} {e : Nat × L1Line}
    (h : e ∈ ((dropL1 p q s).core c).l1d) : p c e.2 = false := by
  obtain ⟨x, hx⟩ := dropL1_core p q s c
  rw [hx, List.mem_filter] at h
  simpa using h.2

theorem dropL1_l1i {p : Nat → L1Line → Bool} {q : Nat → ILine → Bool} {s : State} {c : Nat} {e : Nat × ILine}
    (h : e ∈ ((dropL1 p q s).core c).l1i) : q c e.2 = false := by
  obtain ⟨x, hx⟩ := dropL1_core p q s c
  rw [hx, List.mem_filter] at h
  simpa using h.2

/-- The machine once an invalidation has dropped what it covers. -/
def invalidated (s : State) (o : TrInv) (k : TrScope) : State :=
  if o.data then dropData (dropTranslations s o k) o k else dropTranslations s o k

@[simp] theorem invalidated_now (s : State) (o : TrInv) (k : TrScope) : (invalidated s o k).now = s.now := by
  unfold invalidated
  split <;> simp [dropTranslations]

theorem invalidate_eq (s : State) (o : TrInv) (k : TrScope) :
    invalidate s o k = (invalidated s o k).post ⟨s.now, fromModule o.module, atModule o.module, .trinvDone ⟨o.module⟩⟩ := by
  rw [← invalidated_now s o k]
  rfl

/-- The cached leaves that stay. -/
theorem mem_leaves_dropTranslations (s : State) (o : TrInv) (k : TrScope) (c : Nat) (e : Nat × Word) :
    e ∈ ((dropTranslations s o k).ctrl c).leaves ↔
      e ∈ (s.ctrl c).leaves ∧ (c / 256 = o.module → trPage o k (e.1 / 2 ^ 41) (e.1 % 2 ^ 41) = false) := by
  rw [State.ctrl, dropTranslations, tget_tmap (by intro n; split <;> rfl)]
  split <;> simp_all [State.ctrl]

/-- The cached job entries that stay. -/
theorem mem_jobCache_dropTranslations (s : State) (o : TrInv) (k : TrScope) (c : Nat) (e : Nat × BitVec 128) :
    e ∈ ((dropTranslations s o k).core c).jobCache ↔
      e ∈ (s.core c).jobCache ∧ (moduleOf c = o.module → trJob o k e.1 = false) := by
  rw [State.core, dropTranslations, tget_tmap (by intro n; split <;> rfl)]
  split <;> simp_all [State.core]

theorem l1d_dropTranslations (s : State) (o : TrInv) (k : TrScope) (c : Nat) :
    ((dropTranslations s o k).core c).l1d = (s.core c).l1d := by
  rw [State.core, dropTranslations, tget_tmap (by intro n; split <;> rfl)]
  split <;> rfl

/-- DATA = 1 leaves no line that is covered in an L1 of the module. -/
theorem dropData_covered (s : State) (o : TrInv) (k : TrScope) (c : Nat) (hc : moduleOf c = o.module) :
    (∀ e, e ∈ ((dropData s o k).core c).l1d → trLine o k e.2.job e.2.line = false) ∧
    ∀ e, e ∈ ((dropData s o k).core c).l1i → trLine o k e.2.job e.2.line = false := by
  have hc' : (moduleOf c == o.module) = true := beq_iff_eq.mpr hc
  constructor
  · intro e he
    simp only [dropData, stopFills_core] at he
    have h := dropL1_l1d he
    rwa [hc', Bool.true_and] at h
  · intro e he
    simp only [dropData, stopFills_core] at he
    have h := dropL1_l1i he
    rwa [hc', Bool.true_and] at h

/-! ## Suspending a job (R211) -/

/-- R211: the module record that a suspension leaves. -/
theorem jobswSuspend_record (s : State) (o : JobRef) : ∃ x : Module,
    Steps (.jobswSuspend o) s (s.setModu o.module x) ∧ x.suspended.contains o.job = true ∧
      (x.jsBusy = true ↔ heldSlots s o.module o.job ≠ 0) ∧
      ∀ j, j ≠ o.job → x.suspended.contains j = (s.modu o.module).suspended.contains j := by
  refine ⟨_, steps_of_finish rfl, ?_, by simp, fun j hj => ?_⟩
  · dsimp only
    split
    · assumption
    · simp
  · dsimp only
    split <;> simp [hj]

/-- R211: a resumed job is no longer suspended, and the module looks for a head to admit. -/
theorem jobswResume_admits (s : State) (o : JobRef) : ∃ t : State, Steps (.jobswResume o) s (askAdmission t o.module) ∧
    (t.modu o.module).suspended.contains o.job = false ∧ (t.modu o.module).jsBusy = false ∧
      (∀ j, j ≠ o.job → (t.modu o.module).suspended.contains j = (s.modu o.module).suspended.contains j) ∧ t.cores = s.cores := by
  refine ⟨_, steps_of_finish rfl, ?_, ?_, fun j hj => ?_, rfl⟩
  · simp
  · simp
  · simp [hj]

/-! ## Meridian (R195) -/

/-- R195: a channel after a sample: not idle, idle for the first time, idle again. -/
theorem MerCh.sampled_counts (k : MerCh) (idle : Bool) :
    (idle = false → (k.sampled idle).idle = 0 ∧ (k.sampled idle).ends = k.ends) ∧
    (idle = true → k.idle = 0 → (k.sampled idle).idle = 1 ∧ (k.sampled idle).ends = k.ends) ∧
    (idle = true → k.idle ≠ 0 → (k.sampled idle).idle = 2 ∧ (k.sampled idle).ends = if k.counted then k.ends else k.ends + 1) := by
  refine ⟨?_, ?_, ?_⟩
  · rintro rfl
    simp [sampled]
  · rintro rfl h
    simp [sampled, h]
  · rintro rfl h
    cases hc : k.counted <;> simp [sampled, h, hc]

/-- R195: a sample of a channel in use, and the time of the next. -/
theorem meridianSample_valid {s : State} {o : MerRef} (h : (tget MerCh.off (s.modu o.module).mer o.ch).v = true) :
    let k := tget MerCh.off (s.modu o.module).mer o.ch
    let q := k.sampled ((merModules s o.module k).all (jobIdle s k.job.toNat))
    Steps (.meridianSample o) s
      ((s.modModu o.module fun x => { x with mer := tput x.mer o.ch q }).later (MerCh.gap q - s.now % MerCh.gap q) (fromModule o.module)
        (atModule o.module) (.meridianSample o)) :=
  steps_of_finish (congrArg (finish s) (if_neg (not_not_intro h)))

/-! ## The step governor (R424, R425) -/

/-- The slope of a die allows a rise of its own, or one that stays within 32 A in 1 µs. -/
theorem slopeAllows_iff (s : State) (gdie amps : Nat) :
    s.slopeAllows gdie amps = true ↔ (s.die gdie).recent s.now = [] ∨ ampsOf ((s.die gdie).recent s.now) + amps ≤ 32000 := by
  simp only [State.slopeAllows, Bool.or_eq_true, List.isEmpty_iff, decide_eq_true_eq]
  rfl

theorem shareAllows_iff (s : State) (gdie amps : Nat) :
    s.shareAllows gdie amps = true ↔ s.current gdie = 0 ∨ s.current gdie + amps ≤ currentLimit (s.modu (dieModule gdie)) := by
  simp [State.shareAllows]

@[simp] theorem Die.served_waitSince (d : Die) (now : Nat) : (d.served now).waitSince = none := by
  unfold Die.served
  split
  · rfl
  · assumption

theorem Die.served_stepdly (d : Die) (now : Nat) :
    (d.served now).stepdly = match d.waitSince with
      | some n => d.stepdly + .ofNat 64 (now - n)
      | none => d.stepdly := by
  unfold Die.served
  cases d.waitSince <;> rfl

@[simp] theorem Die.served_recent (d : Die) (now t : Nat) : (d.served now).recent t = d.recent t := by
  unfold Die.served
  split <;> rfl

/-- Work that the governor lets begin. -/
theorem askGovernor_granted {s : State} {gdie amps : Nat} (h : (s.slopeAllows gdie amps && s.shareAllows gdie amps) = true) :
    s.askGovernor gdie amps =
      (true, s.setDie gdie { (s.die gdie).served s.now with rises := (s.now, amps) :: (s.die gdie).recent s.now }) := by
  rw [State.askGovernor, if_pos h]
  simp only [Die.served_recent]

/-- Work that waits: its die remembers since when, and nothing else of a unit changes. -/
theorem askGovernor_waits {s : State} {gdie amps : Nat} (h : (s.slopeAllows gdie amps && s.shareAllows gdie amps) = false) :
    let t := (s.askGovernor gdie amps).2
    (t.die gdie).waitSince = some ((s.die gdie).waitSince.getD s.now) ∧ (t.die gdie).rises = (s.die gdie).rises ∧
    t.cores = s.cores ∧ t.threads = s.threads := by
  unfold State.askGovernor
  cases hw : (s.die gdie).waitSince <;> simp [h, hw, State.later]

theorem ampsOf_eq_sum (l : List (Nat × Nat)) : ampsOf l = (l.map (·.2)).sum := by
  rw [ampsOf, List.sum_eq_foldl, List.foldl_map]

/-- The rises of the last microsecond once another has been granted. -/
theorem ampsOf_recent_granted (d : Die) (now amps : Nat) :
    ampsOf (((now, amps) :: d.recent now).filter fun e => decide (now < e.1 + 1100)) = ampsOf (d.recent now) + amps := by
  have h : (d.recent now).filter (fun e => decide (now < e.1 + 1100)) = d.recent now := by
    rw [Die.recent, List.filter_filter, microsecond]
    simp only [Bool.and_self]
  rw [List.filter_cons_of_pos (by simp), h, ampsOf_eq_sum, ampsOf_eq_sum, List.map_cons, List.sum_cons, Nat.add_comm]

/-- R425: what asking the governor comes to. -/
theorem askGovernor_spec (s : State) (gdie amps : Nat) :
    let r := s.askGovernor gdie amps
    let d := s.die gdie
    let within := d.recent s.now
    let slope := within = [] ∨ ampsOf within + amps ≤ 32000
    let share := s.current gdie = 0 ∨ s.current gdie + amps ≤ currentLimit (s.modu (dieModule gdie))
    (r.1 = true ↔ slope ∧ share) ∧
    (slope → share → (r.2.die gdie).waitSince = none ∧
      (r.2.die gdie).stepdly = (match d.waitSince with
        | some n => d.stepdly + .ofNat 64 (s.now - n)
        | none => d.stepdly) ∧
      (within ≠ [] → ampsOf ((r.2.die gdie).rises.filter fun e => decide (s.now < e.1 + 1100)) ≤ 32000)) ∧
    (¬(slope ∧ share) → (r.2.die gdie).waitSince = some (d.waitSince.getD s.now) ∧ (r.2.die gdie).rises = d.rises ∧
      r.2.cores = s.cores ∧ r.2.threads = s.threads) := by
  intro r d within slope share
  have hallow : (s.slopeAllows gdie amps && s.shareAllows gdie amps) = true ↔ slope ∧ share := by
    rw [Bool.and_eq_true, slopeAllows_iff, shareAllows_iff]
  refine ⟨by rw [← hallow, askGovernor_fst], fun hslope hshare => ?_, fun hn => ?_⟩
  · have hr : r = _ := askGovernor_granted (hallow.mpr ⟨hslope, hshare⟩)
    rw [hr]
    simp only [State.die_setDie_self, Die.served_waitSince, Die.served_stepdly, true_and]
    refine ⟨rfl, fun hne => ?_⟩
    rw [ampsOf_recent_granted]
    exact hslope.resolve_left hne
  · exact askGovernor_waits (Bool.eq_false_iff.mpr fun h => hn (hallow.mp h))

/-- Where no sequencer holds a command, none is told to look again. -/
theorem kickSequencers_idle (gdie : Nat) {l : List (Nat × Core)} (h : (l.all fun c => c.2.sequencer.isEmpty) = true) (s : State) :
    kickSequencers gdie l s = s := by
  induction l generalizing s with
  | nil => rfl
  | cons e l ih =>
    simp only [List.all_cons, Bool.and_eq_true] at h
    rw [kickSequencers, if_neg (by simp [h.1]), ih h.2]

/-- R425: the governor ends a wait, of which STEPDLY has counted the cycles. -/
theorem governorGrant_idle {s : State} {o : DieRef} {n : Nat} (hn : (s.die o.gdie).waitSince = some n)
    (h : (s.cores.all fun c => c.2.sequencer.isEmpty) = true) :
    Steps (.governorGrant o) s (s.modDie o.gdie fun d => { d with stepdly := d.stepdly + .ofNat 64 (s.now - n), waitSince := none }) := by
  refine steps_of_finish (congrArg (finish s) ?_)
  rw [grantDie, kickSequencers_idle _ h]
  simp [Die.served, hn]

/-! ## Power (R424, R425) -/

/-- R424: the limits of a package's power and a die's current, and their ratio while the package is capped. -/
theorem power_limits (x : Module) : powerLimit x ≤ 8000 ∧ currentLimit x ≤ 250000 ∧
    (x.capping = true → 64 * 650 * currentLimit x ≤ powerLimit x * 1000000) := by
  refine ⟨Nat.min_le_right _ _, ?_, fun h => ?_⟩
  · unfold currentLimit
    split
    · exact Nat.min_le_left _ _
    · exact Nat.le_refl _
  · rw [currentLimit, if_pos h]
    calc 64 * 650 * min peakLimit (powerLimit x * 1000000 / (650 * 64))
        ≤ 64 * 650 * (powerLimit x * 1000000 / (650 * 64)) := Nat.mul_le_mul_left _ (Nat.min_le_right _ _)
      _ ≤ powerLimit x * 1000000 := Nat.mul_div_le _ _

/-- R425: power passes the cap. -/
theorem powerCapStart_caps {s : State} {o : PowerEvent} (hc : (s.modu o.module).capping = false)
    (hw : powerLimit (s.modu o.module) < o.watts) : ∃ r : Report, r.kind = 5 ∧ r.module = o.module ∧
    Steps (.powerCapStart o) s ((s.modModu o.module fun x => { x with watts := o.watts, capping := true }).report r) := by
  refine ⟨powerReport (s.modModu o.module fun x => { x with watts := o.watts }) o.module o.watts true, rfl, rfl,
    steps_of_finish (congrArg (finish s) ?_)⟩
  rw [if_neg (by simp [hc, hw])]
  simp

/-- Sequencers that look again are steps on the agenda. -/
theorem kickSequencers_agenda (gdie : Nat) (l : List (Nat × Core)) (s : State) :
    ∃ a, kickSequencers gdie l s = { s with agenda := a } := by
  induction l generalizing s with
  | nil => exact ⟨_, rfl⟩
  | cons e l ih =>
    obtain ⟨a, ha⟩ := ih (if dieOf e.1 = gdie ∧ ¬ e.2.sequencer.isEmpty then
      s.post ⟨s.now, fromThread (e.1 * 16), atCore e.1, .matrixDispatch ⟨e.1⟩⟩ else s)
    refine ⟨a, ha.trans ?_⟩
    split <;> rfl

theorem grantDie_agenda (s : State) (gdie : Nat) :
    ∃ a, grantDie s gdie = { s.modDie gdie fun d => d.served s.now with agenda := a } :=
  kickSequencers_agenda gdie s.cores _

/-- Grants change dies and the agenda alone. -/
theorem grantDies_keeps (m : Nat) (l : List (Nat × Die)) (s : State) :
    (grantDies m l s).modules = s.modules ∧ (grantDies m l s).cores = s.cores ∧ (grantDies m l s).threads = s.threads := by
  induction l generalizing s with
  | nil => exact ⟨rfl, rfl, rfl⟩
  | cons e l ih =>
    obtain ⟨a, ha⟩ := grantDie_agenda s e.1
    rw [grantDies]
    split
    · rw [ha]
      exact ih _
    · exact ih _

/-- A die that waits no longer, or that is granted, waits no longer at the end. -/
theorem grantDies_waitSince {m d : Nat} {l : List (Nat × Die)} {s : State}
    (h : (s.die d).waitSince = none ∨ (d ∈ l.map (·.1) ∧ dieModule d = m)) : ((grantDies m l s).die d).waitSince = none := by
  induction l generalizing s with
  | nil => simpa [grantDies] using h
  | cons e l ih =>
    obtain ⟨a, ha⟩ := grantDie_agenda s e.1
    have hdie : (grantDie s e.1).die d = if d = e.1 then (s.die e.1).served s.now else s.die d := by
      rw [ha]
      exact State.die_setDie s e.1 d _
    apply ih
    by_cases hd : d = e.1
    · subst hd
      split
      · exact .inl (by rw [hdie, if_pos rfl, Die.served_waitSince])
      · exact .inl (h.resolve_right fun hr => absurd hr.2 ‹_›)
    · have h : (s.die d).waitSince = none ∨ (d ∈ l.map (·.1) ∧ dieModule d = m) := by simpa [hd] using h
      split
      · rwa [hdie, if_neg hd]
      · exact h

/-- A module that is capped no longer, at the power that it takes now. -/
def uncapped (s : State) (o : PowerEvent) : State :=
  (s.modModu o.module fun x => { x with watts := o.watts }).modModu o.module fun x => { x with capping := false }

/-- R425: power is within the cap again, and no die of the module waits. -/
theorem powerCapEnd_ends {s : State} {o : PowerEvent} (hc : (s.modu o.module).capping = true)
    (hw : o.watts ≤ powerLimit (s.modu o.module)) :
    ∃ (r : Report) (t : State), r.kind = 5 ∧ r.module = o.module ∧ Steps (.powerCapEnd o) s (t.report r) ∧
      (t.modu o.module).capping = false ∧ (t.modu o.module).watts = o.watts ∧ t.cores = s.cores ∧ t.threads = s.threads ∧
      ∀ e ∈ s.dies, dieModule e.1 = o.module → (t.die e.1).waitSince = none := by
  obtain ⟨hm, hcores, hthreads⟩ := grantDies_keeps o.module s.dies (uncapped s o)
  have hmodu : (grantDies o.module s.dies (uncapped s o)).modu o.module = (uncapped s o).modu o.module := by rw [State.modu, hm]; rfl
  have hn : ¬(¬(s.modu o.module).capping = true ∨ powerLimit (s.modu o.module) < o.watts) := by simp [hc, hw]
  refine ⟨powerReport (uncapped s o) o.module o.watts false, grantDies o.module s.dies (uncapped s o), rfl, rfl,
    steps_of_finish (congrArg (finish s) (if_neg hn)), ?_, ?_, hcores, hthreads,
    fun e he hd => grantDies_waitSince (.inr ⟨List.mem_map_of_mem he, hd⟩)⟩
  · rw [hmodu]
    simp [uncapped]
  · rw [hmodu]
    simp [uncapped]

/-! ## The Nolkai links (R407, R408, R412) -/

/-- What training settles of a link: its state, its version, and the link at the far end. -/
def Link.terms (k : Link) : LinkState × BitVec 4 × Nat × Nat := (k.state, k.ver, k.partner, k.peer)

@[simp] theorem putFlits_link (s : State) (m l partner : Nat) (fs : List (Nat × Option Flight)) (a b : Nat) :
    (s.putFlits m l partner fs).link a b = s.link a b := by
  refine foldl_keeps (fun t => State.link t a b) (fun _ _ => ?_) _ _
  rfl

@[simp] theorem resend_link (m l : Nat) (fs : List (Nat × Option Flight)) (s : State) (a b : Nat) :
    (resend m l fs s).link a b = s.link a b := putFlits_link _ _ _ _ _ _ _

@[simp] theorem transmit_terms (s : State) (m l : Nat) (f : Flight) : ((s.transmit m l f).link m l).terms = (s.link m l).terms := by
  unfold State.transmit
  simp only
  split
  · simp [State.sendFlits, Link.terms]
  · simp [Link.terms]

@[simp] theorem transmitAll_terms (m l : Nat) (fs : List Flight) (s : State) :
    ((transmitAll m l fs s).link m l).terms = (s.link m l).terms := by
  induction fs generalizing s with
  | nil => rfl
  | cons f fs ih => rw [transmitAll, ih, transmit_terms]

@[simp] theorem pump_terms (s : State) (m l : Nat) : ((pump s m l).link m l).terms = (s.link m l).terms := by
  rw [pump, transmitAll_terms, State.link_modLink]
  rfl

@[simp] theorem sendAnew_terms (m l : Nat) (buf : List (Nat × Option Flight)) (s : State) :
    ((sendAnew m l buf s).link m l).terms = (s.link m l).terms := by
  simp [sendAnew, Link.terms]

@[simp] theorem retryColls_link (ms : List (Nat × Module)) (s : State) (a b : Nat) : (retryColls ms s).link a b = s.link a b := by
  refine foldl_keeps (fun t => State.link t a b) (fun _ _ => ?_) _ _
  rfl

/-- R407: a link leaves what it was for TRAINING. -/
theorem nlkstStart_trains (s : State) (o : LinkRef) : ∃ t : State, Steps (.nlkstStart o) s t ∧
    (t.link o.module o.link).state = .training ∧ t.threads = s.threads ∧ t.cores = s.cores ∧ t.pending = s.pending := by
  refine ⟨_, steps_of_finish rfl, ?_, rfl, rfl, rfl⟩
  rw [State.link_modLink]

/-- What was not acknowledged goes over the link again, one way or the other. -/
theorem sentAgain_terms (c : Prop) [Decidable c] (m l : Nat) (buf : List (Nat × Option Flight)) (s : State) :
    ((if c then sendAnew m l buf s else resend m l buf s).link m l).terms = (s.link m l).terms := by
  split <;> simp

/-- R407: both ends share a version and notice format 1, and the link is UP with what the far end offered. -/
theorem linkTraining_up {s : State} {o : Training} (hs : (s.link o.module o.link).state = .down ∨ (s.link o.module o.link).state = .training) :
    ∃ t : State, Steps (.linkTraining o) s t ∧ ((o.v1 = true ∨ o.v2 = true) → o.notice1 = true →
      (t.link o.module o.link).terms = (.up, if o.v2 then 2 else 1, o.partner, o.peer)) := by
  have hs : ¬((s.link o.module o.link).state = .up ∨ (s.link o.module o.link).state = .failed) := by
    rintro (h | h) <;> simp [h] at hs
  refine ⟨_, steps_of_finish (congrArg (finish s) (if_neg hs)), fun hv hn => ?_⟩
  have hboth : ¬((¬o.v1 = true ∧ ¬o.v2 = true) ∨ ¬o.notice1 = true) := by
    rintro (⟨h1, h2⟩ | h)
    · exact hv.elim h1 h2
    · exact h hn
  rw [if_neg hboth, retryColls_link, pump_terms, sentAgain_terms]
  obtain h | h := hv <;> simp [Link.terms, h]

@[simp] theorem countCorrected_link (s : State) (gdie cls idx : Nat) (a : Word) (m l : Nat) :
    (s.countCorrected gdie cls idx a).link m l = s.link m l :=
  (apply_ite (fun t => State.link t m l) _ _ _).trans (ite_self _)

@[simp] theorem countCorrected_now (s : State) (gdie cls idx : Nat) (a : Word) : (s.countCorrected gdie cls idx a).now = s.now :=
  (apply_ite State.now _ _ _).trans (ite_self _)

/-- A flit of the replay buffer that has arrived over a link that is UP. -/
theorem flitReceipt_buffered {s : State} {o : FlitIn} {e : Nat × Option Flight} (hx : o.xon = false)
    (hu : (s.link o.module o.link).state = .up) (he : ((s.link o.module o.link).buf.find? fun e => e.1 == o.seq) = some e) :
    exec (.nolkaiFlitReceipt o) s = finish s
      (if ¬ o.crc then nak (s.countCorrected ((s.link o.module o.link).partner * 64) 8 (s.link o.module o.link).peer 0) o
        else if o.seq ≠ (s.link o.module o.link).recvSeq then nak s o
        else acceptFlit s o e.2) := by
  refine congrArg (finish s) ?_
  simp only [hx, hu, he, Bool.false_eq_true, if_false, ne_eq, not_true_eq_false]

/-- R408, R412: what a NAK of a flit in the replay buffer comes to. -/
theorem nolkaiNak_buffered {s : State} {o : Nak} (hu : (s.link o.module o.link).state = .up)
    (ha : ((s.link o.module o.link).buf.dropWhile fun e => e.1 != o.seq).isEmpty = false) :
    let k := s.link o.module o.link
    let again := k.buf.dropWhile fun e => e.1 != o.seq
    (8 ≤ k.tries → Steps (.nolkaiNak o) s (failLink s o.module o.link 0)) ∧
    (k.tries < 8 → Steps (.nolkaiNak o) s (resend o.module o.link again ((dropReceipts s o.module o.link).modLink o.module o.link
      fun q => { q with tries := q.tries + 1, replays := q.replays + .ofNat 32 again.length }))) := by
  have h0 : ¬((s.link o.module o.link).state ≠ .up ∨ (((s.link o.module o.link).buf.dropWhile fun e => e.1 != o.seq).isEmpty = true)) := by
    simp [hu, ha]
  exact ⟨fun h => steps_of_finish (congrArg (finish s) ((if_neg h0).trans (if_pos h))),
    fun h => steps_of_finish (congrArg (finish s) ((if_neg h0).trans (if_neg (Nat.not_le.mpr h))))⟩

/-! ## Die edges (R406) -/

/-- R2, R406: a die-link flit, at an edge that joins no neighbour, and at one that does. -/
theorem ucieFlitReceipt_cases (s : State) (o : DieFlit) :
    let n := tget 0 (s.die o.gdie).edgeTries o.edge
    (edgeExists o.gdie o.edge = false → Steps (.ucieFlitReceipt o) s s) ∧
    (edgeExists o.gdie o.edge = true →
    (o.good = true → Steps (.ucieFlitReceipt o) s (s.modDie o.gdie fun d => { d with edgeTries := tdel d.edgeTries o.edge })) ∧
    (o.good = false → n < 8 → Steps (.ucieFlitReceipt o) s
      ((s.modDie o.gdie fun d => { d with edgeTries := tput d.edgeTries o.edge (n + 1) }).countCorrected o.gdie 4 o.edge 0)) ∧
    (o.good = false → 8 ≤ n → s.agenda[o.n]? = none → Steps (.ucieFlitReceipt o) s
      ((s.modDie o.gdie fun d => { d with edgeTries := tdel d.edgeTries o.edge }).countBad o.gdie 4 o.edge))) := by
  refine ⟨fun h => ?_, fun h => ⟨fun hg => ?_, fun hg hn => ?_, fun hg hn ha => ?_⟩⟩
  all_goals refine steps_of_finish (congrArg (finish s) ?_)
  · simp only [h, Bool.not_false, if_true]
  · simp only [h, hg, Bool.not_true, Bool.false_eq_true, if_false, if_true]
  · simp only [h, hg, Nat.not_le.mpr hn, Bool.not_true, Bool.false_eq_true, if_false]
  · simp only [h, hg, hn, Bool.not_true, Bool.false_eq_true, if_false, if_true]
    have ha' : ((s.modDie o.gdie fun d => { d with edgeTries := tdel d.edgeTries o.edge }).countBad o.gdie 4 o.edge).agenda[o.n]? = none := ha
    rw [poisonFlit, ha']

/-! ## The statement -/

/-- R27: an invalidation of either scope is what it drops, and the step in which BUSY clears. -/
theorem trinv_steps {f : (TrInv → Instr) × TrScope}
    (hf : f ∈ [(Instr.trinvRange, TrScope.range), (.trinvJob, .job), (.trinvAll, .all)]) (o : TrInv) (s : State) :
    Steps (f.1 o) s ((invalidated s o f.2).post ⟨s.now, fromModule o.module, atModule o.module, .trinvDone ⟨o.module⟩⟩) := by
  simp only [List.mem_cons, List.not_mem_nil, or_false] at hf
  rw [← invalidate_eq]
  obtain rfl | rfl | rfl := hf <;> exact steps_of_finish rfl

/-- Settles O42: each step of a module's upkeep by its own rule; an invalidation's by what its two parts drop, training by what of a
link every later step of it keeps. -/
theorem moduleUpkeep : Obligations.ModuleUpkeep := by
  intro s
  refine ⟨fun o f hf => ⟨invalidated s o f.2, trinv_steps hf o s, fun hd => ?_, fun hd c hc => ?_⟩, fun o => steps_of_finish rfl,
    fun o page => ?_, jobswSuspend_record s, jobswResume_admits s, fun o => steps_of_finish rfl, fun o hv => ?_,
    fun o n hn h => governorGrant_idle hn h, askGovernor_spec s, power_limits, fun o hc hw => powerCapStart_caps hc hw,
    fun o hc hw => powerCapEnd_ends hc hw, nlkstStart_trains s, fun o hs => ?_, fun o e => ?_, fun o => ?_, ucieFlitReceipt_cases s⟩
  · rw [invalidated, if_neg (by simp [hd])]
    exact ⟨mem_leaves_dropTranslations s o f.2, mem_jobCache_dropTranslations s o f.2, l1d_dropTranslations s o f.2, rfl, rfl, rfl⟩
  · rw [invalidated, if_pos hd]
    exact dropData_covered _ o f.2 c hc
  · simp [trPage, trJob]
  · obtain ⟨h0, h1, h2⟩ := MerCh.sampled_counts (tget MerCh.off (s.modu o.module).mer o.ch)
      ((merModules s o.module (tget MerCh.off (s.modu o.module).mer o.ch)).all
        (jobIdle s (tget MerCh.off (s.modu o.module).mer o.ch).job.toNat))
    exact ⟨_, meridianSample_valid hv, h0, h1, h2⟩
  · obtain ⟨t, ht, hup⟩ := linkTraining_up hs
    refine ⟨t, ht, fun hv hn _ => ?_⟩
    simpa [Link.terms] using hup hv hn
  · intro k nakFlight hx hu he
    have step {t : State} (h : _ = t) : Steps (.nolkaiFlitReceipt o) s t :=
      steps_of_finish ((flitReceipt_buffered hx hu he).trans (congrArg (finish s) h))
    refine ⟨fun hc => step ?_, fun hc hq => step ?_, fun hc hq hn => step ?_, fun f hc hq hr hf hp => step ?_⟩
    · rw [if_pos (by simp [hc]), nak, countCorrected_link, countCorrected_now]
    · rw [if_neg (by simp [hc]), if_pos hq]
      rfl
    · rw [if_neg (by simp [hc]), if_neg (not_not_intro hq), hn]
      rfl
    · rw [if_neg (by simp [hc]), if_neg (not_not_intro hq), hf]
      simp only [acceptFlit, hr, if_true, deliverFlight]
      rw [if_pos hp]
      rfl
  · exact nolkaiNak_buffered

end Sys2Proof.Machine

/-! # The tile instructions and the device heap -/

namespace Sys2Proof.Machine

/-! ## Size classes (R33, R62) -/

theorem le_classBytes_heapClass {n : Nat} : ∀ {k f : Nat}, n ≤ classBytes (k + f) → n ≤ classBytes (heapClass n k f)
  | _, 0, h => h
  | k, f + 1, h => by
    rw [heapClass]
    split
    · assumption
    · exact le_classBytes_heapClass (by rwa [Nat.succ_add_eq_add_succ])

/-- No class below the one that is taken holds the bytes. -/
theorem classBytes_lt_of_lt_heapClass {n j : Nat} : ∀ {k f : Nat}, k ≤ j → j < heapClass n k f → classBytes j < n
  | k, 0, hk, h => absurd h (Nat.not_lt.mpr hk)
  | k, f + 1, hk, h => by
    rw [heapClass] at h
    split at h
    · exact absurd h (Nat.not_lt.mpr hk)
    · next hn =>
      obtain rfl | hk := Nat.eq_or_lt_of_le hk
      · exact Nat.not_le.mp hn
      · exact classBytes_lt_of_lt_heapClass hk h

theorem heapAlloc_zero (s : State) (core job : Nat) : heapAlloc s core job 0 = (s, some 0) := rfl

/-! ## The heap's entry, and what it has given -/

@[simp] theorem State.peeks_setThread (s : State) (g : Nat) (y : Thread) (a n : Nat) : (s.setThread g y).peeks a n = s.peeks a n := by
  induction n generalizing a with
  | zero => rfl
  | succ n ih => simp only [State.peeks, ih, State.peek, State.setThread_pending, State.setThread_hbm]

@[simp] theorem State.heapEntry_setThread (s : State) (g : Nat) (y : Thread) (m job : Nat) :
    (s.setThread g y).heapEntry m job = s.heapEntry m job := by
  simp only [State.heapEntry, State.peekNat, State.peeks_setThread, heapEntryAt, State.modu_setThread]

/-- HAZ and MODFB say nothing of a module. -/
theorem begun_modu {s : State} {t : Traits} (h : t.power = false) (m : Nat) : (begun s t).modu m = s.modu m := by
  obtain h | h := begun_cases s t h
  · rw [h]
  · rw [h, State.modCtx_eq, State.modu_setThread]

theorem begun_heapEntry {s : State} {t : Traits} (h : t.power = false) (m job : Nat) :
    (begun s t).heapEntry m job = s.heapEntry m job := by
  obtain h | h := begun_cases s t h
  · rw [h]
  · rw [h, State.modCtx_eq, State.heapEntry_setThread]

/-- A pointer that `hfree` takes (R63): the start of a block that the job's heap, while it has one, has given. -/
def heapGave (s : State) (m job : Nat) (p : Word) : Bool :=
  (match heapOf (s.heapEntry m job) with
    | some (start, size) => decide (start ≤ p.toNat ∧ p.toNat < start + 64 * size)
    | none => false) && (tfind (tget Arena.empty (s.modu m).heap job).used p.toNat).isSome

theorem heapGave_iff {s : State} {m job : Nat} {p : Word} :
    heapGave s m job p = true ↔
      (∃ start size, heapOf (s.heapEntry m job) = some (start, size) ∧ start ≤ p.toNat ∧ p.toNat < start + 64 * size) ∧
        (tfind (tget Arena.empty (s.modu m).heap job).used p.toNat).isSome = true := by
  rw [heapGave, Bool.and_eq_true]
  refine and_congr_left' ?_
  split
  · next start size e =>
    exact decide_eq_true_iff.trans ⟨fun h => ⟨start, size, e, h⟩, fun ⟨_, _, e', h⟩ => by cases e.symm.trans e'; exact h⟩
  · next e => exact ⟨nofun, fun ⟨_, _, e', _⟩ => nomatch e.symm.trans e'⟩

theorem heapGave_begun {s : State} {t : Traits} (h : t.power = false) (m job : Nat) (p : Word) :
    heapGave (begun s t) m job p = heapGave s m job p := by
  simp only [heapGave, begun_modu h, begun_heapEntry h]

/-! ## The ends of halloc and hfree -/

/-- The vector unit performs no word of format R (R425). -/
theorem Traits.ofR_power (o : OpR) (d a b : Field) : (Traits.ofR o d a b).power = false := rfl

/-- An effect is told no more than the instruction, its thread and the machine in which it begins. -/
theorem Ends.congr {i : Instr} {s : State} {t : Traits} {r q : Iss → Thread → State → Res} (h : Ends i s t r)
    (e : r (issued s t) s.hand (begun s t) = q (issued s t) s.hand (begun s t)) : Ends i s t q :=
  fun hp => e ▸ h hp

/-- The long-class result of `halloc` of n bytes: the address of the block, or HEAP_EXHAUSTED in its place (R62, R308). -/
def hallocReturn (i : Iss) (n : Word) (r : State × Option Word) : State :=
  match r.2 with
  | none => returnFault i (.regs [i.d] []) (mkFault .tile kHeapExhausted n) r.1
  | some a => returning i (.regs [i.d] []) (.regs [(i.d, a)] [] 0) r.1

/-- A thread with room for a result asks its job's heap for x[A] bytes. -/
theorem halloc_acts (o : OpR) {s : State} (hroom : s.hand.out.length < 16) :
    Acts (.halloc o) s (Traits.ofR o (fx o.d) (fx o.a) (fk o.b)) fun i h u =>
      hallocReturn i (h.x i.a) (heapAlloc u (coreOf s.cur) h.ctx.ids.job (h.x i.a).toNat) := by
  refine ends_issued _ _ _ _ _ rfl fun a b hu => ?_
  have hroom : ¬ Config.maxOutstanding ≤ (s.hand.flagged a b).out.length := Nat.not_le.mpr hroom
  simp only [withRoomOut, issued_g, hu, if_neg hroom, Thread.flagged_x, Thread.flagged_ids]
  generalize heapAlloc _ _ _ _ = r
  obtain ⟨w, _ | p⟩ := r
  · rfl
  · rfl

theorem hfree_zero (o : OpR) {s : State} (h : s.hand.x (issued s (Traits.ofR o (fk o.d) (fx o.a) (fk o.b))).a = 0) :
    Acts (.hfree o) s (Traits.ofR o (fk o.d) (fx o.a) (fk o.b)) fun _ _ u => u := by
  refine ends_issued _ _ _ _ _ rfl fun a b hu => ?_
  simp only [issued_g, hu, Thread.flagged_x, h, if_true]

theorem noteChecked_ite_done (g : Nat) (c : Bool) (u v : State) :
    (if c then Res.done u else .done v).noteChecked g = .done (if c then u else v) := by
  cases c <;> rfl

/-- What `hfree` of a pointer other than 0 leaves (R63): the block is out of its arena, or HEAP_FREE pends. -/
def hfreeEffect (i : Iss) (m job : Nat) (p : Word) (u : State) : State :=
  if heapGave u m job p then
    u.modModu m fun x => { x with heap := tput x.heap job ⟨tdel (tget Arena.empty (u.modu m).heap job).used p.toNat⟩ }
  else addPend u i (mkFault .tile kHeapFree p)

theorem hfree_acts (o : OpR) {s : State} (hq : quiet s s.cur = true)
    (h0 : s.hand.x (issued s (Traits.ofR o (fk o.d) (fx o.a) (fk o.b))).a ≠ 0) :
    Acts (.hfree o) s (Traits.ofR o (fk o.d) (fx o.a) (fk o.b)) fun i h u =>
      hfreeEffect i (moduleOf (coreOf s.cur)) h.ctx.ids.job (h.x i.a) u := by
  refine ends_issued _ _ _ _ _ rfl fun a b hu => ?_
  have hq' : quiet (begun s (Traits.ofR o (fk o.d) (fx o.a) (fk o.b)))
      (issued s (Traits.ofR o (fk o.d) (fx o.a) (fk o.b))).g = true := (quiet_begun s _ rfl).trans hq
  simp only [waitCounters_quiet hq', issued_g, hu, Thread.flagged_x, if_neg h0, Thread.flagged_ids]
  exact noteChecked_ite_done ..

/-- Settles O27: `halloc` returns what the heap gives, `hfree` takes back exactly what the heap gave; the class is the least that holds the
bytes, by induction on the classes left. -/
theorem heapGivesAndTakesBack : Obligations.HeapGivesAndTakesBack := by
  refine ⟨fun o s => ⟨fun hroom w a h => (halloc_acts o hroom).congr ?_, fun hroom w h => (halloc_acts o hroom).congr ?_, hfree_zero o,
    fun h0 hq hin hused => (hfree_acts o hq h0).congr ?_, fun h0 hq hno => (hfree_acts o hq h0).congr ?_⟩,
    fun s core job n => ⟨by rw [heapAlloc_zero], fun _ hn => ⟨le_classBytes_heapClass hn, fun k hk =>
      classBytes_lt_of_lt_heapClass (Nat.zero_le k) hk⟩⟩⟩
  · simp only [h, hallocReturn]
  · simp only [h, hallocReturn]
    rfl
  · have hg := heapGave_iff.mpr ⟨hin, hused⟩
    simp only [hfreeEffect, heapGave_begun (Traits.ofR_power ..), hg, begun_modu (Traits.ofR_power ..), if_true]
  · have hg := mt heapGave_iff.mp hno
    simp only [hfreeEffect, heapGave_begun (Traits.ofR_power ..), if_neg hg]
    rfl

/-! ## A tile instruction that waits for its answer -/

/-- `tsub` with a wait for PD; x0 and h0 are its operands. -/
def tsubAfterPd : OpT := ⟨false, 1, 0, 0, 0, 0⟩

/-- A thread that nothing holds back, with version 0 of name 5 in h0. -/
def subscriber : State := (State.reset.withFetchWord 32 0).modThread 0 fun h => { h with h := [(0, 5 * 2 ^ 24)] }

/-- Whether the instruction that a thread is in has made its check of the guard record, once a step has ended (R202). -/
def checkedAfter (g : Nat) : Host.Outcome State Fault Refusal → Bool
  | .next s => (s.thread g).checked
  | .fault _ | .refused _ => false

/-- R202: the check that the wait field makes is noted in the thread that goes on to wait for its answer. -/
theorem tsub_afterPd_checked : checkedAfter 0 (exec (.tsub tsubAfterPd) subscriber) = true := by decide +kernel

/-- Refutes O26: its clause on `tsub` leaves the thread as it stood but for the result that it expects, for every wait field. With a wait field
other than 0, here PD, the check of the guard record is made before the request goes out (R126, R202) and is noted in the waiting thread; the
clauses on `tst`, `tld` and `tldc` leave the same note out. -/
theorem not_tileFormsAskTheirHome : ¬ Obligations.TileFormsAskTheirHome := by
  intro h
  obtain ⟨-, -, -, hquiet⟩ := h tsubAfterPd subscriber
  obtain ⟨-, -, -, -, htsub, -⟩ := hquiet (by decide +kernel) (by decide +kernel)
  have hends := htsub (by decide +kernel) (by decide +kernel) (by decide +kernel)
  have hperforms : performs subscriber (Traits.ofT tsubAfterPd (fx tsubAfterPd.a) (fx tsubAfterPd.b)) = true := by decide +kernel
  have hchecked := tsub_afterPd_checked
  rw [hends hperforms] at hchecked
  exact absurd hchecked (by decide +kernel)

end Sys2Proof.Machine

/-! # Commits, fences and waits of a thread with nothing outstanding -/

namespace Sys2Proof.Machine

/-! ## What HAZ and MODFB leave -/

theorem begun_core {s : State} {t : Traits} (h : t.power = false) (c : Nat) : (begun s t).core c = s.core c := by
  obtain h | h := begun_cases s t h
  · rw [h]
  · rw [h, State.modCtx_eq, State.core_setThread]

theorem begun_barrier {s : State} {t : Traits} (h : t.power = false) (c n : Nat) : (begun s t).barrier c n = s.barrier c n := by
  obtain h | h := begun_cases s t h
  · rw [h]
  · rw [h, State.modCtx_eq, State.barrier, State.cluster_setThread, State.barrier]

theorem begun_cur {s : State} {t : Traits} (h : t.power = false) : (begun s t).cur = s.cur := by
  obtain h | h := begun_cases s t h
  · rw [h]
  · rw [h, State.modCtx_eq, State.setThread_cur]

/-! ## Commits, fences, posting waits and the invalidation of an instruction line (R119, R123, R126, R277, R283) -/

/-- A pointer that cannot name an instruction line traps. -/
theorem icinv_traps (o : OpR) {s : State} {k : Nat} (h : icinvLine (begun s (ctl o (fk o.d) (fx o.a) (fk o.b))) s.cur
      (s.hand.x (issued s (ctl o (fk o.d) (fx o.a) (fk o.b))).a) = .error k) :
    Ends (.icinv o) s (ctl o (fk o.d) (fx o.a) (fk o.b)) fun i h u => .trap (mkFault .translation k (h.x i.a)) u := by
  refine ends_issued _ _ _ _ _ rfl fun a b hu => ?_
  simp only [issued_g, hu, Thread.flagged_x, h]
  rfl

section quiet
variable (o : OpR) {s : State} (hq : quiet s s.cur = true)
include hq

theorem quiet_issued {t : Traits} (ht : t.power = false) : quiet (begun s t) (issued s t).g = true :=
  (quiet_begun s t ht).trans hq

/-- A commit with nothing to publish opens the next task at once. -/
theorem tcom_acts : Acts (.tcom o) s (ctl o (fk o.d) (fk o.a) (fk o.b)) fun _ _ u => u.modThread s.cur (committed false) := by
  refine ends_issued _ _ _ _ _ rfl fun a b hu => ?_
  have hq' := quiet_issued hq (t := ctl o (fk o.d) (fk o.a) (fk o.b)) rfl
  simp only [checkGuard_quiet hq', withCommit_quiet hq', noteChecked_done, ite_self, issued_g]

theorem fence_acts : Acts (.fence o) s (Traits.ofR o (fk o.d) (fk o.a) (fk o.b)) fun _ _ u =>
    acquireCore (u.modThread s.cur (committed false)) (coreOf s.cur) := by
  refine ends_issued _ _ _ _ _ rfl fun a b hu => ?_
  simp only [withFence_quiet (quiet_issued hq (Traits.ofR_power ..)), noteChecked_done, issued_g]

theorem wpc_acts : Acts (.wpc o) s (Traits.ofR o (fk o.d) (fk o.a) (fk o.b)) fun _ _ u => u := by
  refine ends_issued _ _ _ _ _ rfl fun a b hu => ?_
  simp only [waitCounters_quiet (quiet_issued hq (Traits.ofR_power ..)), noteChecked_done]

/-- Any other pointer makes the instruction release; the line that it names, if it names one, leaves the instruction caches of the scope. -/
theorem icinv_ends {line : Option Nat} (h : icinvLine (begun s (ctl o (fk o.d) (fx o.a) (fk o.b))) s.cur
      (s.hand.x (issued s (ctl o (fk o.d) (fx o.a) (fk o.b))).a) = .ok line) :
    Ends (.icinv o) s (ctl o (fk o.d) (fx o.a) (fk o.b)) fun _ h u =>
      let u := u.modThread s.cur (committed false)
      .whole (line.elim u fun l =>
        dropILine u h.ctx.ids.job l (inScope u (coreOf s.cur) h.ctx.ids.job (min 5 (scopeOf o.b.toNat)))) := by
  refine ends_issued _ _ _ _ _ rfl fun a b hu => ?_
  have hq' := quiet_issued hq (t := ctl o (fk o.d) (fx o.a) (fk o.b)) rfl
  simp only [issued_g, hu, Thread.flagged_x, h, withRelease_quiet hq', State.modThread_eq, State.thread_setThread_self,
    committed_ids, Thread.flagged_ids, noteChecked_whole]
  cases line <;> rfl

end quiet

/-- Settles O11: nothing is outstanding, so each release is the commit that opens the next task, and each posting wait passes. -/
theorem commitsAndFencesOfAQuietThread : Obligations.CommitsAndFencesOfAQuietThread := by
  intro o s hq
  refine ⟨tcom_acts o hq, fence_acts o hq, wpc_acts o hq, fun hfar => icinv_traps o ?_, fun hfar hsp => icinv_traps o ?_,
    fun hfar h1 h2 a ha => icinv_ends o hq (line := some (a / 128)) ?_, fun hfar h3 k hk => icinv_ends o hq (line := none) ?_⟩
  · simp only [icinvLine, if_pos hfar]
    rfl
  · simp only [icinvLine, if_neg hfar, if_pos hsp]
    rfl
  · simp only [icinvLine, if_neg hfar, h1, h2, or_self, if_false, ha]
  · simp only [icinvLine, if_neg hfar]
    simp only [h3, hk]
    rfl

/-! ## The control of counters, receive queues and barriers (R298) -/

/-- What `cctl` comes to, by the kind of unit that its second operand names. -/
theorem cctl_ends (o : OpR) (s : State) : Ends (.cctl o) s (Traits.ofR o (fk o.d) (fx o.a) (fx o.b)) fun i h u =>
    let a := h.x i.a
    let b := i.bval h
    let c := coreOf s.cur
    let k := s.core c
    if cctlBad a b then .trap badOperand u
    else if h.ctx.mode = .user then .trap denied u
    else if bits b 7 6 = 0 then
      let value := if bit a 8 then 0 else (tget Arrival.zero k.arrivals (bits b 5 0)).value
      .done (u.modCore c fun x => { x with arrivals := tput x.arrivals (bits b 5 0) ⟨value, bits a 7 0⟩ })
    else if bits b 7 6 = 1 then
      .done ((if bit a 8 then rejectEntries c k.rqOwner h.ctx.ids.job k.rq u else u).modCore c fun x =>
        { x with rq := if bit a 8 then [] else x.rq, rqOwner := bits a 7 0 })
    else .done (u.setBarrier c (bits b 3 0) ((s.barrier c (bits b 3 0)).configure (bits a 7 0) (bits a 15 8) (bit a 16))) := by
  refine ends_issued _ _ _ _ _ rfl fun _ _ hu => ?_
  have hp := Traits.ofR_power o (fk o.d) (fx o.a) (fx o.b)
  simp only [issued_g, hu, Thread.flagged_x, Thread.flagged_bval, Thread.flagged_mode, Thread.flagged_ids, begun_core hp, begun_barrier hp]
  refine congrArg _ (congrArg _ ?_)
  split
  · next h => rw [if_pos h]
  · next h => simp only [h, Nat.one_ne_zero, if_true, if_false]
  · next h0 h1 => rw [if_neg h0, if_neg h1]

/-! ## Waits for counters and terminations (R122, R299) -/

theorem begun_compCtr {s : State} {t : Traits} (h : t.power = false) (m job c : Nat) :
    (begun s t).compCtr m job c = s.compCtr m job c := by
  rw [State.compCtr, begun_modu h, State.compCtr]

theorem begun_meridian {s : State} {t : Traits} (h : t.power = false) (m ch : Nat) :
    (begun s t).meridian m ch = s.meridian m ch := by
  rw [State.meridian, begun_modu h, State.meridian]

theorem orAcquire_start {i : Iss} {s : State} (h : (s.thread i.g).stage = .start) (k : State → Res) : orAcquire i s k = k s := by
  rw [orAcquire, if_neg (by rw [h]; exact nofun)]

/-- An event that has come to a thread without results outstanding: the acquire steps, at once. -/
theorem acquired_none {i : Iss} {s : State} (hg : i.g = s.cur) (h : (s.thread i.g).out = []) : acquired i s = .done (acquiring s) := by
  rw [acquired, withAcquire_none, acquiring, hg]
  simpa [State.stage] using h

section waits
variable (o : OpR) {s : State} (hq : quiet s s.cur = true)
include hq

theorem acquired_begun {t : Traits} (ht : t.power = false) : acquired (issued s t) (begun s t) = .done (acquiring (begun s t)) :=
  acquired_none (begun_cur ht).symm (quiet_parts (quiet_issued hq ht)).2.1

/-- The same, once a value has gone to a register. -/
theorem acquired_setX {t : Traits} (ht : t.power = false) (d : Nat) (w : Word) :
    acquired (issued s t) ((begun s t).modThread s.cur fun h => h.setX d w) =
      .done (acquiring ((begun s t).modThread s.cur fun h => h.setX d w)) := by
  refine acquired_none (begun_cur ht).symm ?_
  have hout := (quiet_parts (quiet_issued hq ht)).2.1
  simpa using hout

/-- What a wait for an arrival counter comes to. -/
theorem cwait_ends : Ends (.cwait o) s (Traits.ofR o (fk o.d) (fx o.a) (fx o.b)) fun i h u =>
    let a := h.x i.a
    let b := i.bval h
    let k := tget Arrival.zero (s.core (coreOf s.cur)).arrivals (bits a 5 0)
    if bits a 63 6 ≠ 0 ∨ bits b 63 32 ≠ 0 then .trap badOperand u
    else if k.owner ≠ h.ctx.ids.job then .trap denied u
    else if k.value < b.toNat then .wait (.arrival (bits a 5 0) b.toNat) u
    else .done (acquiring u) := by
  refine ends_issued _ _ _ _ _ rfl fun _ _ hu => ?_
  have hp := Traits.ofR_power o (fk o.d) (fx o.a) (fx o.b)
  obtain ⟨hstart, -, -, -, -, -, heng, -⟩ := quiet_parts (quiet_issued hq hp)
  have hstage : s.hand.stage = .start := (quiet_parts hq).1
  simp only [orAcquire_start hstart, surfaceEngine_none heng, acquired_begun hq hp, issued_g, hu, Thread.flagged_x, Thread.flagged_bval,
    Thread.flagged_ids, Thread.flagged_stage, hstage, and_true, begun_core hp]

/-- What a wait for a completion counter comes to. -/
theorem ccwait_ends : Ends (.ccwait o) s (Traits.ofR o (fx o.d) (fx o.a) (fx o.b)) fun i h u =>
    let a := h.x i.a
    let b := i.bval h
    let k := s.compCtr (moduleOf (coreOf s.cur)) h.ctx.ids.job (bits a 11 0)
    if bits a 63 12 ≠ 0 ∨ bits b 63 32 ≠ 0 then .trap badOperand u
    else if k.value < b.toNat then .wait (.completion (bits a 11 0) b.toNat) u
    else .done (acquiring (u.modThread s.cur fun t => t.setX i.d (.ofNat 64 (bitNat k.canc)))) := by
  refine ends_issued _ _ _ _ _ rfl fun _ _ hu => ?_
  have hp := Traits.ofR_power o (fx o.d) (fx o.a) (fx o.b)
  obtain ⟨hstart, -⟩ := quiet_parts (quiet_issued hq hp)
  simp only [orAcquire_start hstart, issued_g, hu, Thread.flagged_x, Thread.flagged_bval, Thread.flagged_ids, begun_compCtr hp,
    acquired_setX hq hp]

/-- A wait for a termination, of a channel number out of range. -/
theorem mwait_refused (h : bits (s.hand.x (issued s (Traits.ofR o (fx o.d) (fx o.a) (fk o.b))).a) 63 4 ≠ 0) :
    Ends (.mwait o) s (Traits.ofR o (fx o.d) (fx o.a) (fk o.b)) fun _ _ u => .trap badOperand u := by
  refine ends_issued _ _ _ _ _ rfl fun _ _ hu => ?_
  obtain ⟨hstart, -⟩ := quiet_parts (quiet_issued hq (Traits.ofR_power o (fx o.d) (fx o.a) (fk o.b)))
  simp only [orAcquire_start hstart, issued_g, hu, Thread.flagged_x, if_pos h]

section channel
variable (h : bits (s.hand.x (issued s (Traits.ofR o (fx o.d) (fx o.a) (fk o.b))).a) 63 4 = 0)
include h

/-- A waiting thread sees the termination that it has waited for. -/
theorem mwait_resumes {c e : Nat} (hs : s.hand.status = .waiting (.meridian c e))
    (he : (s.meridian (moduleOf (coreOf s.cur)) (bits (s.hand.x (issued s (Traits.ofR o (fx o.d) (fx o.a) (fk o.b))).a) 3 0)).ends.toNat ≠ e) :
    Acts (.mwait o) s (Traits.ofR o (fx o.d) (fx o.a) (fk o.b)) fun i t u =>
      acquiring (u.modThread s.cur fun x => x.setX i.d
        (.ofNat 64 (s.meridian (moduleOf (coreOf s.cur)) (bits (t.x i.a) 3 0)).ends.toNat)) := by
  refine ends_issued _ _ _ _ _ rfl fun _ _ hu => ?_
  have hp := Traits.ofR_power o (fx o.d) (fx o.a) (fk o.b)
  obtain ⟨hstart, -⟩ := quiet_parts (quiet_issued hq hp)
  simp only [orAcquire_start hstart, issued_g, hu, Thread.flagged_x, Thread.flagged_status, h, hs, begun_meridian hp, ne_eq,
    not_true, if_false, if_neg he, acquired_setX hq hp]

/-- A ready thread begins to wait for the next termination of a channel of its job. -/
theorem mwait_waits {k : MerCh} (hs : s.hand.status = .ready)
    (hk : s.meridian (moduleOf (coreOf s.cur)) (bits (s.hand.x (issued s (Traits.ofR o (fx o.d) (fx o.a) (fk o.b))).a) 3 0) = k)
    (hv : k.v = true) (hj : k.job.toNat = s.hand.ctx.ids.job) :
    Ends (.mwait o) s (Traits.ofR o (fx o.d) (fx o.a) (fk o.b)) fun i t u => .wait (.meridian (bits (t.x i.a) 3 0) k.ends.toNat) u := by
  refine ends_issued _ _ _ _ _ rfl fun _ _ hu => ?_
  have hp := Traits.ofR_power o (fx o.d) (fx o.a) (fk o.b)
  obtain ⟨hstart, -⟩ := quiet_parts (quiet_issued hq hp)
  simp only [orAcquire_start hstart, issued_g, hu, Thread.flagged_x, Thread.flagged_status, Thread.flagged_ids, h, hs,
    begun_meridian hp, hk, hv, hj, ne_eq, not_true, or_self, if_false]

end channel
end waits

/-- Settles O23: each instruction's clauses are the branches of its lemma above; nothing is outstanding, so an acquire ends each wait at once. -/
theorem counterControlAndWaits : Obligations.CounterControlAndWaits := by
  refine ⟨fun o s => ?_, fun o s hq => ?_⟩
  · refine ⟨fun h => (cctl_ends o s).congr (if_pos h), fun h hm => (cctl_ends o s).congr ?_, fun h hk => (cctl_ends o s).congr ?_,
      fun h hk h8 => (cctl_ends o s).congr ?_, fun h hk h8 => (cctl_ends o s).congr ?_, fun h hk => (cctl_ends o s).congr ?_⟩
    · simp only [h, hm, Bool.false_eq_true, if_false, if_true]
    · simp only [h, hk, Bool.false_eq_true, if_false, if_true]
    · simp only [h, hk, h8, Nat.one_ne_zero, Bool.false_eq_true, if_false, if_true]
    · simp only [h, hk, h8, Nat.one_ne_zero, Bool.false_eq_true, if_false, if_true]
    · simp only [h, hk, Bool.false_eq_true, (by decide : (2 : Nat) ≠ 0), (by decide : (2 : Nat) ≠ 1), if_false]
  · refine ⟨fun h => (cwait_ends o hq).congr (if_pos h), fun ha hb hj => (cwait_ends o hq).congr ?_, fun ha hb hj hv => (cwait_ends o hq).congr ?_,
      fun ha hb hj hv => (cwait_ends o hq).congr ?_, fun h => (ccwait_ends o hq).congr (if_pos h), fun ha hb hv => (ccwait_ends o hq).congr ?_,
      fun ha hb hv => (ccwait_ends o hq).congr ?_, mwait_refused o hq, fun h c e hs he => mwait_resumes o hq h hs he,
      fun h hs hv hj => mwait_waits o hq h hs rfl hv hj⟩
    · simp only [ha, hb, hj, ne_eq, not_true, or_self, if_false, not_false_eq_true, if_true]
    · simp only [ha, hb, hj, hv, ne_eq, not_true, or_self, if_false, if_true]
    · simp only [ha, hb, hj, Nat.not_lt.mpr hv, ne_eq, not_true, or_self, if_false]
    · simp only [ha, hb, hv, ne_eq, not_true, or_self, if_false, if_true]
    · simp only [ha, hb, Nat.not_lt.mpr hv, ne_eq, not_true, or_self, if_false]

end Sys2Proof.Machine

/-! # Loads and stores of a thread with nothing outstanding -/

namespace Sys2Proof.Machine

/-! ## What an access finds -/

/-- Two machines in which an access of a thread finds the same: the thread's results and writes that are out, its work and its next result's
number, and each core's scratchpad with its guards and errors. -/
structure State.Keeps (g : Nat) (s w : State) : Prop where
  out : (w.thread g).out = (s.thread g).out
  volatiles : (w.thread g).volatiles = (s.thread g).volatiles
  count : ∀ c, (w.thread g).ctx.count c = (s.thread g).ctx.count c
  ids : (w.thread g).ctx.ids = (s.thread g).ctx.ids
  nextId : (w.thread g).nextId = (s.thread g).nextId
  scratch : ∀ c, (w.core c).scratch = (s.core c).scratch
  guardMap : ∀ c, (w.core c).guardMap = (s.core c).guardMap
  scratchBad : ∀ c, (w.core c).scratchBad = (s.core c).scratchBad

theorem State.Keeps.trans {g : Nat} {s u w : State} (h : s.Keeps g u) (k : u.Keeps g w) : s.Keeps g w where
  out := k.out.trans h.out
  volatiles := k.volatiles.trans h.volatiles
  count c := (k.count c).trans (h.count c)
  ids := k.ids.trans h.ids
  nextId := k.nextId.trans h.nextId
  scratch c := (k.scratch c).trans (h.scratch c)
  guardMap c := (k.guardMap c).trans (h.guardMap c)
  scratchBad c := (k.scratchBad c).trans (h.scratchBad c)

theorem State.Keeps.refl (g : Nat) (s : State) : s.Keeps g s :=
  ⟨rfl, rfl, fun _ => rfl, rfl, rfl, fun _ => rfl, fun _ => rfl, fun _ => rfl⟩

/-- A change of the thread alone. -/
theorem keeps_setThread {s : State} {g : Nat} {t : Thread} (ho : t.out = (s.thread g).out) (hv : t.volatiles = (s.thread g).volatiles)
    (hc : ∀ c, t.ctx.count c = (s.thread g).ctx.count c) (hi : t.ctx.ids = (s.thread g).ctx.ids) (hn : t.nextId = (s.thread g).nextId) :
    s.Keeps g (s.setThread g t) := by
  refine ⟨?_, ?_, fun c => ?_, ?_, ?_, fun _ => rfl, fun _ => rfl, fun _ => rfl⟩
  all_goals rw [State.thread_setThread_self]
  · exact ho
  · exact hv
  · exact hc c
  · exact hi
  · exact hn

theorem keeps_begun {s : State} {t : Traits} (h : t.power = false) : s.Keeps s.cur (begun s t) := by
  obtain h | h := begun_cases s t h
  · rw [h]
    exact .refl ..
  · rw [h]
    exact keeps_setThread rfl rfl (by rintro ⟨⟩ <;> rfl) rfl rfl

theorem keeps_noteFallback (i : Iss) (b : Bool) (s : State) : s.Keeps i.g (noteFallback i b s) := by
  unfold noteFallback
  split
  · exact keeps_setThread rfl rfl (by rintro ⟨⟩ <;> rfl) rfl rfl
  · exact .refl ..

/-! The posting counters, as a task ends and the next one opens. -/

@[simp] theorem Thread.setX_count (t : Thread) (n : Nat) (y : Word) (c : PostCtr) : (t.setX n y).ctx.count c = t.ctx.count c := by
  unfold Thread.setX
  split
  · rfl
  · cases c <;> rfl

@[simp] theorem Ctx.count_jump (x : Ctx) (pc : Word) (c : PostCtr) : ({ x with pc := pc } : Ctx).count c = x.count c := by
  cases c <;> rfl

@[simp] theorem loopEnd_count (t : Thread) (first pc next : Word) (c : PostCtr) : (loopEnd t first pc next).ctx.count c = t.ctx.count c := by
  unfold loopEnd
  dsimp only
  repeat' split
  all_goals simp only [Ctx.count_jump, Thread.setX_count]

@[simp] theorem openTask_count (t : Thread) (pc : Word) (c : PostCtr) : (openTask t pc).ctx.count c = t.ctx.count c := by
  unfold openTask
  dsimp only
  split
  all_goals cases c <;> rfl

/-- The counters of the task that a commit opens are those of the thread. -/
@[simp] theorem committed_count (own : Bool) (t : Thread) (c : PostCtr) : (committed own t).ctx.count c = t.ctx.count c := by
  have hopened (n : Thread) (pc : Word) (h : n.ctx.count c = t.ctx.count c) :
      ({ (openTask n pc).ctx with pc := t.ctx.pc, x := t.ctx.x } : Ctx).count c = t.ctx.count c := by
    rw [← h, ← openTask_count n pc c]
    cases c <;> rfl
  refine hopened _ _ ?_
  repeat' split
  · rfl
  · rfl
  · exact loopEnd_count ..

theorem keeps_committed (own : Bool) (g : Nat) (s : State) : s.Keeps g (s.modThread g (committed own)) :=
  keeps_setThread rfl rfl (committed_count own _) (committed_ids own _) rfl

/-- The core's L1 alone differs. -/
theorem acquireCore_core (s : State) (core c : Nat) : ∃ l, (acquireCore s core).core c = { s.core c with l1d := l } := by
  by_cases h : c = core
  · subst h
    exact ⟨_, State.core_setCore_self ..⟩
  · exact ⟨_, (State.core_setCore ..).trans (if_neg h)⟩

theorem keeps_acquireCore (g core : Nat) (s : State) : s.Keeps g (acquireCore s core) := by
  refine ⟨rfl, rfl, fun _ => rfl, rfl, rfl, fun c => ?_, fun c => ?_, fun c => ?_⟩
  all_goals
    obtain ⟨l, h⟩ := acquireCore_core s core c
    rw [h]

theorem keeps_noteEntries (g core job a : Nat) (s : State) : s.Keeps g (s.noteEntries core job a) := by
  refine ⟨rfl, rfl, fun _ => rfl, rfl, rfl, fun c => ?_, fun c => ?_, fun c => ?_⟩
  all_goals
    simp only [State.noteEntries, State.modCore_eq, State.core_setCore]
    split
    · next h => rw [h]
    · rfl

theorem keeps_notePieces (g core job : Nat) (ps : List Piece) (s : State) : s.Keeps g (notePieces core job ps s) := by
  induction ps generalizing s with
  | nil => exact .refl ..
  | cons p ps ih => exact (keeps_noteEntries ..).trans (ih _)

theorem guardedGo_congr {c d : Core} (h : c.guardMap = d.guardMap) (k n : Nat) : guardedGo c k n = guardedGo d k n := by
  induction n generalizing k with
  | zero => rfl
  | succ n ih => rw [guardedGo, guardedGo, h, ih]

theorem State.Keeps.guarded {g : Nat} {s w : State} (h : s.Keeps g w) (c off n : Nat) :
    guarded (w.core c) off n = guarded (s.core c) off n := by
  simp only [Machine.guarded, guardedGo_congr (h.guardMap c)]

theorem State.Keeps.scratchPoisoned {g : Nat} {s w : State} (h : s.Keeps g w) (c off n : Nat) :
    scratchPoisoned (w.core c) off n = scratchPoisoned (s.core c) off n := by
  simp only [Machine.scratchPoisoned, h.scratchBad c]

/-! ## The results that a thread waits for, as messages leave its core (R406 to R412) -/

@[simp] theorem State.thread_post (s : State) (f : Flight) (g : Nat) : (s.post f).thread g = s.thread g := rfl

theorem putFlits_thread (s : State) (m l partner : Nat) (fs : List (Nat × Option Flight)) (g : Nat) :
    (s.putFlits m l partner fs).thread g = s.thread g := by
  refine foldl_keeps (fun u => State.thread u g) (fun _ _ => ?_) _ _
  rfl

@[simp] theorem transmit_thread (s : State) (m l : Nat) (f : Flight) (g : Nat) : (s.transmit m l f).thread g = s.thread g := by
  unfold State.transmit
  dsimp only
  split
  · exact putFlits_thread ..
  · rfl

section send
variable {ev : Event} {g : Nat} (hlost : ∀ u w : State, u.lost ev = some w → (w.thread g).out = (u.thread g).out)
include hlost

theorem undelivered_out (s : State) (m link dest : Nat) (ver : BitVec 4) :
    ((s.undelivered m link dest ver ev).thread g).out = (s.thread g).out := by
  unfold State.undelivered
  split
  · next w h => exact hlost (s.report _) w h
  · split <;> rfl

/-- A message over the links, or lost on one, leaves the results that a thread waits for, where its loss does. -/
theorem send_out (s : State) (src dst : Nat) : ((s.send src dst ev).thread g).out = (s.thread g).out := by
  unfold State.send State.cross
  dsimp only
  split
  · rfl
  · split
    · exact undelivered_out hlost ..
    · split
      · exact undelivered_out hlost ..
      · rw [transmit_thread]

end send

theorem lineFill_out (s : State) (src dst g : Nat) (r : HomeReq) : ((s.send src dst (.lineFill r)).thread g).out = (s.thread g).out :=
  send_out (fun u w h => by cases h; rfl) ..

theorem copySliceMiss_out (s : State) (src dst g : Nat) (r : HomeReq) :
    ((s.send src dst (.copySliceMiss r)).thread g).out = (s.thread g).out :=
  send_out (fun u w h => by simp [State.lost, linkAnswer] at h) ..

theorem remoteScratchpadRead_out (s : State) (src dst g : Nat) (r : RemoteRead) :
    ((s.send src dst (.remoteScratchpadRead r)).thread g).out = (s.thread g).out :=
  send_out (fun u w h => by simp [State.lost, linkAnswer] at h) ..

theorem answer_out (s : State) (src h id g : Nat) (v : ResultVal) (fill : Option LineFillData) :
    ((answer s src h id v fill).thread g).out = (s.thread g).out :=
  send_out (fun u w h => by cases h; rfl) ..

/-- A lost contribution lowers its counter alone. -/
theorem flushLost_out (g : Nat) (c : PostCtr) (l : List Contrib) (s : State) : ((flushLost c l s).thread g).out = (s.thread g).out := by
  induction l generalizing s with
  | nil => rfl
  | cons e l ih =>
    rw [flushLost, ih]
    split
    · rw [poisonAnswer, State.thread_post, State.modCtx_eq, State.thread_setThread]
      split
      · next h => rw [h]
      · rfl
    · rfl

theorem sendFlushes_out (t g core : Nat) (l : List CommEntry) (s : State) :
    ((sendFlushes t core l s).thread g).out = (s.thread g).out := by
  induction l generalizing s with
  | nil => rfl
  | cons e l ih =>
    rw [sendFlushes, ih]
    exact send_out (fun u w h => by cases h; exact flushLost_out ..) ..

theorem flushComm_out (s : State) (t g core : Nat) (p : CommEntry → Bool) : ((flushComm s t core p).thread g).out = (s.thread g).out := by
  unfold flushComm
  dsimp only
  split
  · rfl
  · rw [sendFlushes_out, State.thread_setCore]

theorem loadPiece_out (s : State) (i : Iss) (cls : Class) (pol id : Nat) (ptr : Word) (p : Piece) (g : Nat) :
    ((loadPiece s i cls pol id ptr p).thread g).out = (s.thread g).out := by
  have hflush : ((if (s.core (coreOf i.g)).comm.any (bufferedPiece (s.thread i.g).ctx.ids.job p) then
      flushComm s i.g (coreOf i.g) (bufferedPiece (s.thread i.g).ctx.ids.job p) else s).thread g).out = (s.thread g).out := by
    split
    · exact flushComm_out ..
    · rfl
  rw [← hflush, loadPiece]
  generalize (if (s.core (coreOf i.g)).comm.any (bufferedPiece (s.thread i.g).ctx.ids.job p) then
      flushComm s i.g (coreOf i.g) (bufferedPiece (s.thread i.g).ctx.ids.job p) else s) = w
  dsimp only
  split
  · exact answer_out ..
  · split
    · exact copySliceMiss_out ..
    · exact lineFill_out ..

/-- The requests of a load leave the results that a thread waits for. -/
theorem loadPieces_out (i : Iss) (cls : Class) (pol id : Nat) (ptr : Word) (g : Nat) (ps : List Piece) (s : State) :
    ((loadPieces i cls pol id ptr ps s).thread g).out = (s.thread g).out := by
  induction ps generalizing s with
  | nil => rfl
  | cons p ps ih => rw [loadPieces, ih, loadPiece_out]

/-! ## What an access of a thread with nothing out passes -/

/-- MODFB says nothing about what is outstanding. -/
theorem quiet_noteFallback (i : Iss) (b : Bool) (s : State) : quiet (noteFallback i b s) i.g = quiet s i.g := by
  unfold noteFallback
  split
  · simp [quiet, calm, lateEngines, hostWrites, drainsOut, collOut, State.onWay, State.modThread, State.core, State.modu, Thread.setModfb]
  · rfl

theorem withVolatile_none {i : Iss} {s : State} (hv : (s.thread i.g).volatiles = 0) (ho : (s.thread i.g).out = []) (vol : Bool)
    (k : State → Res) : withVolatile i vol s k = k s := by
  simp [withVolatile, hv, ho]

theorem withRoomOut_none {i : Iss} {s : State} (ho : (s.thread i.g).out = []) (k : State → Res) : withRoomOut i s k = k s := by
  rw [withRoomOut, ho, if_neg (by decide)]

/-- The commit of a release made before is not made again. -/
theorem withCommit_committed {i : Iss} {s : State} (h : (s.thread i.g).stage = .committed) (own : Bool) (k : State → Res) :
    withCommit i own s k = k s := by
  simp only [withCommit, h]

/-- A check leaves no note where the instruction does not go on to wait, or waits at a later stage. -/
theorem fieldGuard_plain {s : State} {i : Iss} (h : quiet s i.g = true) (w : Nat) {k : State → Res} {r : Res} (hk : k s = r)
    (hn : r.noteChecked i.g = r) : fieldGuard i w s k = r := by
  obtain hf | hf := fieldGuard_quiet h w k
  · rw [hf, hk]
  · rw [hf, hk, hn]

theorem noteChecked_staged (g : Nat) (w : Wake) {x : Stage} (hx : x ≠ .start) (s : State) :
    (Res.wait w (s.stage g x)).noteChecked g = .wait w (s.stage g x) := by
  have hx : (x == Stage.start) = false := by simpa using hx
  simp [Res.noteChecked, State.stage, hx]

/-- A VOLATILE access to words that the open task has written commits first (R113, R125). -/
def settleOwn (o : OpM) (g : Nat) (ps : List Piece) (w : State) : State :=
  if o.o = 3 ∧ ps.any (ownSpec w g) = true then w.modThread g (committed false) else w

theorem keeps_settleOwn (o : OpM) (g : Nat) (ps : List Piece) (w : State) : w.Keeps g (settleOwn o g ps w) := by
  unfold settleOwn
  split
  · exact keeps_committed ..
  · exact .refl ..

/-- Where the thread is quiet, class VOLATILE commits at once; one that a release has gone before has committed. -/
theorem settleOwn_first {vol : Prop} [Decidable vol] {i : Iss} {o : OpM} {w : State}
    (h : (o.o = 3 ∧ vol ∧ quiet w i.g = true) ∨ (o.o ≠ 3 ∧ (vol → (w.thread i.g).stage = .committed))) (ps : List Piece)
    (go : State → Res) :
    (if vol ∧ ((w.thread i.g).stage ≠ .start ∨ ps.any (ownSpec w i.g)) then withCommit i false w go else go w) =
      go (settleOwn o i.g ps w) := by
  obtain ⟨ho, hv, hq⟩ | ⟨ho, hv⟩ := h
  · simp only [settleOwn, ho, hv, (quiet_parts hq).1, withCommit_quiet hq, ne_eq, not_true, false_or, true_and]
    split <;> rfl
  · have hs : settleOwn o i.g ps w = w := if_neg fun h => ho h.1
    rw [hs]
    split
    · next h => exact withCommit_committed (hv h.1) ..
    · rfl

/-! ## Where a load begins (R119, R123, R124, R235) -/

/-- The class of a load: RELEASE is a fence, and then VOLATILE. -/
def loadClass (o : OpM) : Class := if o.o = 0 then .plain else if o.o = 1 then .acquire else .volatile

/-- The policy of a load, which a VOLATILE one does not take. -/
def loadPolicy (i : Iss) (o : OpM) : Nat := if o.o = 2 ∨ o.o = 3 then 0 else policyOf i o

/-- The machine in which a load is made: MODFB noted, and after the fence of class RELEASE. -/
def loadStart (i : Iss) (o : OpM) (tgt : Target) (s : State) : State :=
  let w := noteFallback i (o.o == 2 || strayPolicy i o tgt) s
  if o.o = 2 then acquireCore (w.modThread i.g (committed false)) (coreOf i.g) else w

/-- The ordering classes (R118). -/
theorem class_cases (c : BitVec 2) : c = 0 ∨ c = 1 ∨ c = 2 ∨ c = 3 := by
  revert c
  decide

theorem loadClass_volatile (o : OpM) : (loadClass o == .volatile) = (o.o == 2 || o.o == 3) := by
  unfold loadClass
  obtain h | h | h | h := class_cases o.o <;> rw [h] <;> rfl

theorem loadClass_acquire (o : OpM) : loadClass o = .acquire ↔ o.o = 1 := by
  unfold loadClass
  obtain h | h | h | h := class_cases o.o <;> simp [h]

theorem keeps_loadStart (i : Iss) (o : OpM) (tgt : Target) (s : State) : s.Keeps i.g (loadStart i o tgt s) := by
  unfold loadStart
  dsimp only
  split
  · exact (keeps_noteFallback ..).trans ((keeps_committed ..).trans (keeps_acquireCore ..))
  · exact keeps_noteFallback ..

/-- A VOLATILE load of a quiet thread begins quiet, or after the commit of its fence. -/
theorem loadStart_commits {i : Iss} {s : State} (hq : quiet s i.g = true) (o : OpM) (tgt : Target) :
    (o.o = 3 ∧ loadClass o = .volatile ∧ quiet (loadStart i o tgt s) i.g = true) ∨
      (o.o ≠ 3 ∧ (loadClass o = .volatile → ((loadStart i o tgt s).thread i.g).stage = .committed)) := by
  unfold loadClass loadStart
  obtain h | h | h | h := class_cases o.o
  · exact .inr (by simp [h])
  · exact .inr (by simp [h])
  · refine .inr ⟨by simp [h], fun _ => ?_⟩
    rw [if_pos h]
    exact congrArg Thread.stage (State.thread_setThread_self ..)
  · exact .inl ⟨h, by simp [h], by simp [h, quiet_noteFallback, hq]⟩

/-- What follows the checks of a quiet thread's load: the fence of class RELEASE, and the access. -/
theorem load_begins {i : Iss} {s : State} (hq : quiet s i.g = true) (o : OpM) (tgt : Target) (k : Class → Nat → State → Res) {r : Res}
    (hr : k (loadClass o) (loadPolicy i o) (loadStart i o tgt s) = r) (hn : r.noteChecked i.g = r) :
    (let pol := if o.o = 3 then 0 else policyOf i o
     let s := noteFallback i (o.o == 2 || strayPolicy i o tgt) s
     if o.o = 2 then withFence i (mScope o) s fun s => k .volatile 0 s
     else k (if o.o = 1 then .acquire else if o.o = 3 then .volatile else .plain) pol s) = r := by
  have hq' := (quiet_noteFallback i (o.o == 2 || strayPolicy i o tgt) s).trans hq
  subst hr
  dsimp only
  obtain h | h | h | h := class_cases o.o
  case inr.inr.inl =>
    rw [if_pos h, withFence_quiet hq']
    refine Eq.trans (congrArg _ ?_) hn
    simp [loadClass, loadPolicy, loadStart, h]
  all_goals simp [loadClass, loadPolicy, loadStart, h]

/-- A load ends at once where no result is out, and waits for its value in class ACQUIRE where one is. -/
theorem endAccess_returned {i : Iss} {s : State} (cls : Class) (h : (s.thread i.g).out = []) :
    endAccess i cls s = .done (if cls = .acquire then acquireCore (s.stage i.g .sent) (coreOf i.g) else s) := by
  unfold endAccess
  split
  · rw [withAcquire_none]
    simpa [State.stage] using h
  · rfl

theorem endAccess_out {i : Iss} {s : State} (cls : Class) (h : (s.thread i.g).out ≠ []) :
    endAccess i cls s = if cls = .acquire then .wait .results (s.stage i.g .sent) else .done s := by
  unfold endAccess
  split
  · rw [withAcquire, if_neg]
    simpa [State.stage] using h
  · rfl

/-- The end of a load whose result is out. -/
def loadSent (o : OpM) (g : Nat) (w : State) : Res := if o.o = 1 then .wait .results (w.stage g .sent) else .done w

theorem noteChecked_loadSent (o : OpM) (g : Nat) (w : State) : (loadSent o g w).noteChecked g = loadSent o g w := by
  unfold loadSent
  split
  · exact noteChecked_staged g _ (x := .sent) nofun w
  · rfl

section access
variable {i : Iss} {w : State} (ho : (w.thread i.g).out = []) (hv : (w.thread i.g).volatiles = 0)
include ho hv

/-- A load from the own scratchpad brings its bytes at once (R65, R290). -/
theorem loadAt_own (cls : Class) (pol : Nat) (ptr : Word) {n off : Nat} (signed : Bool) (hg : guarded (w.core (coreOf i.g)) off n = false)
    (hb : scratchPoisoned (w.core (coreOf i.g)) off n = false) :
    loadAt i cls pol ptr n signed (.own off) w =
      let u := w.modThread i.g fun t =>
        t.setX i.d (.ofInt 64 (intVal (8 * n) signed (leNat (Memory.read (w.core (coreOf i.g)).scratch off n))))
      .done (if cls = .acquire then acquireCore (u.stage i.g .sent) (coreOf i.g) else u) := by
  simp only [loadAt, withVolatile_none hv ho, hg, hb, Bool.false_eq_true, if_false]
  exact endAccess_returned _ (by simpa using ho)

/-- A load from another core's scratchpad asks there; its result is then out. -/
theorem loadAt_remote (o : OpM) (pol : Nat) (ptr : Word) (n core off : Nat) (signed : Bool) :
    loadAt i (loadClass o) pol ptr n signed (.remote core off) w =
      loadSent o i.g ((expect w i (.x i.d n signed) 1 (o.o == 2 || o.o == 3) ptr).1.send (fromThread i.g) (atCore core)
        (.remoteScratchpadRead ⟨i.g, (w.thread i.g).nextId, 0, core, off, n, i.rpc, i.pc, ptr⟩)) := by
  simp only [loadAt, withRoomOut_none ho, withVolatile_none hv ho]
  rw [endAccess_out]
  · simp only [loadSent, loadClass_acquire, loadClass_volatile]
    rfl
  · rw [remoteScratchpadRead_out]
    simp [expect]

/-- A load from linear memory sends its pieces; its result is then out. -/
theorem loadAt_linear (o : OpM) (pol : Nat) (ptr : Word) {n a : Nat} (signed : Bool) {ps : List Piece} (hps : place w i.g a n = .ok ps)
    (hc : (o.o = 3 ∧ loadClass o = .volatile ∧ quiet w i.g = true) ∨
      (o.o ≠ 3 ∧ (loadClass o = .volatile → (w.thread i.g).stage = .committed))) :
    loadAt i (loadClass o) pol ptr n signed (.linear a) w =
      let v := notePieces (coreOf i.g) (w.thread i.g).ctx.ids.job ps (settleOwn o i.g ps w)
      loadSent o i.g (loadPieces i (loadClass o) pol (w.thread i.g).nextId ptr ps
        (expect v i (.x i.d n signed) ps.length (o.o == 2 || o.o == 3) ptr).1) := by
  simp only [loadAt, hps, settleOwn_first hc]
  have hkeep := keeps_settleOwn o i.g ps w
  rw [withRoomOut_none (hkeep.out.trans ho), withVolatile_none (hkeep.volatiles.trans hv) (hkeep.out.trans ho), endAccess_out]
  · have hkeep' := hkeep.trans (keeps_notePieces i.g (coreOf i.g) (w.thread i.g).ctx.ids.job ps _)
    simp only [loadSent, loadClass_acquire, loadClass_volatile, hkeep.ids, expect, hkeep'.nextId]
  · rw [loadPieces_out]
    simp [expect]

end access

/-- The loads are one operation. -/
theorem exec_load {l : (OpM → Instr) × Nat × Bool} (hl : l ∈ loads) (o : OpM) (s : State) :
    exec (l.1 o) s = finish s (loadOp s o l.2.1 l.2.2) := by
  simp only [loads, List.mem_cons, List.not_mem_nil, or_false] at hl
  obtain rfl | rfl | rfl | rfl | rfl | rfl | rfl := hl <;> rfl

theorem Traits.ofM_power (o : OpM) (d a : Field) : (Traits.ofM o d a).power = false := rfl

/-- HAZ and MODFB do not move an access. -/
theorem mEa_flagged (i : Iss) (o : OpM) (h : Thread) (a b : Bool) (n : Nat) : mEa i o (h.flagged a b) n = mEa i o h n := rfl

theorem keeps_load (o : OpM) (tgt : Target) (s : State) :
    s.Keeps s.cur (loadStart (issued s (Traits.ofM o (fx o.d) (fx o.a))) o tgt (begun s (Traits.ofM o (fx o.d) (fx o.a)))) :=
  (keeps_begun (Traits.ofM_power ..)).trans (keeps_loadStart (issued s _) ..)

section load
variable {l : (OpM → Instr) × Nat × Bool} (hl : l ∈ loads) (o : OpM) {s : State}
include hl

/-- A load of a quiet thread whose target is found and aligned is the access there, once it has begun. -/
theorem load_access (hq : quiet s s.cur = true) {r : Iss → Thread → State → Res} {tgt : Target} {ptr : Word} {i : Iss}
    (hi : issued s (Traits.ofM o (fx o.d) (fx o.a)) = i) (hp : mEa i o s.hand l.2.1 = ptr)
    (ht : (begun s (Traits.ofM o (fx o.d) (fx o.a))).target s.cur ptr l.2.1 .load = .ok tgt)
    (hal : tgt.scratch = true ∨ o.o ≠ 0 → ptr.toNat % l.2.1 = 0)
    (hr : loadAt i (loadClass o) (loadPolicy i o) ptr l.2.1 l.2.2 tgt (loadStart i o tgt (begun s (Traits.ofM o (fx o.d) (fx o.a)))) =
      r i s.hand (begun s (Traits.ofM o (fx o.d) (fx o.a))))
    (hn : (r i s.hand (begun s (Traits.ofM o (fx o.d) (fx o.a)))).noteChecked s.cur = r i s.hand (begun s (Traits.ofM o (fx o.d) (fx o.a)))) :
    Ends (l.1 o) s (Traits.ofM o (fx o.d) (fx o.a)) r := by
  refine ends_issued _ _ _ _ _ (exec_load hl o s) fun a b hu => ?_
  have hq' := quiet_issued hq (Traits.ofM_power o (fx o.d) (fx o.a))
  have hstage : s.hand.stage = .start := (quiet_parts hq).1
  subst hi hp
  have hk := load_begins hq' o tgt (fun c p => loadAt (issued s (Traits.ofM o (fx o.d) (fx o.a))) c p
    (mEa (issued s (Traits.ofM o (fx o.d) (fx o.a))) o s.hand l.2.1) l.2.1 l.2.2 tgt) hr hn
  simp only [waitField_quiet hq', issued_g, hu, Thread.flagged_stage, hstage, reduceCtorEq, if_false, mEa_flagged, ht]
  rw [if_neg fun h => h.2 (hal h.1)]
  exact fieldGuard_plain hq' _ hk hn

/-- The acquire of a load that waited for its value. -/
theorem load_acquires (hs : s.hand.stage = .sent) (ho : s.hand.out = []) :
    Acts (l.1 o) s (Traits.ofM o (fx o.d) (fx o.a)) fun _ _ w => acquireCore w (coreOf s.cur) := by
  refine ends_issued _ _ _ _ _ (exec_load hl o s) fun a b hu => ?_
  have hout : ((begun s (Traits.ofM o (fx o.d) (fx o.a))).thread s.cur).out = [] := by rw [hu]; exact ho
  simp only [issued_g, hu, Thread.flagged_stage, hs, if_true]
  exact withAcquire_none (i := issued s _) hout _

end load

/-- Settles O17: a quiet thread's load is the access at its target, from the machine that its class and its policy leave. -/
theorem loadsBringTheirBytes : Obligations.LoadsBringTheirBytes := by
  intro l hl o s
  refine ⟨fun hq hv => ?_, load_acquires hl o⟩
  have hkeep tgt := keeps_load o tgt s
  have hout tgt := (hkeep tgt).out.trans (quiet_parts hq).2.1
  have hvol tgt := (hkeep tgt).volatiles.trans hv
  refine ⟨fun off ht hal hg hb => load_access hl o hq rfl rfl ht (fun _ => hal) ?_ rfl,
    fun core off ht hal => load_access hl o hq rfl rfl ht (fun _ => hal) ?_ (noteChecked_loadSent o ..),
    fun a ps ht hal hps => load_access hl o hq rfl rfl ht (fun h => hal.resolve_left (h.resolve_left nofun)) ?_ (noteChecked_loadSent o ..)⟩
  · refine (loadAt_own (i := issued s _) (hout _) (hvol _) _ _ _ _ (((hkeep _).guarded ..).trans hg)
      (((hkeep _).scratchPoisoned ..).trans hb)).trans ?_
    simp only [loadClass_acquire, issued_g, (hkeep _).scratch]
    rfl
  · refine (loadAt_remote (i := issued s _) (hout _) (hvol _) ..).trans ?_
    rw [issued_g, (hkeep _).nextId]
    rfl
  · refine (loadAt_linear (i := issued s _) (hout _) (hvol _) _ _ _ _ hps
      (loadStart_commits (quiet_issued hq (Traits.ofM_power ..)) ..)).trans ?_
    simp only [issued_g, (hkeep _).nextId, (hkeep _).ids]
    rfl

/-! ## Where a store begins (R119, R123, R124, R235) -/

/-- Whether a store is VOLATILE: by its class, or after the fence that class ACQUIRE makes. -/
def storeVolatile (o : OpM) : Bool := o.o == 1 || o.o == 3

/-- The policy of a store, which a VOLATILE one does not take. -/
def storePolicy (i : Iss) (o : OpM) : Nat := if storeVolatile o then 0 else policyOf i o

/-- The machine in which a store is made: MODFB noted, and after the fence that class ACQUIRE makes, or the release of class RELEASE. -/
def storeStart (i : Iss) (o : OpM) (tgt : Target) (s : State) : State :=
  let w := noteFallback i (o.o == 1 || strayPolicy i o tgt) s
  if o.o = 1 then acquireCore (w.modThread i.g (committed false)) (coreOf i.g)
  else if o.o = 2 then w.modThread i.g (committed false) else w

theorem keeps_storeStart (i : Iss) (o : OpM) (tgt : Target) (s : State) : s.Keeps i.g (storeStart i o tgt s) := by
  have hf := keeps_noteFallback i (o.o == 1 || strayPolicy i o tgt) s
  unfold storeStart
  dsimp only
  split
  · exact hf.trans ((keeps_committed ..).trans (keeps_acquireCore ..))
  · split
    · exact hf.trans (keeps_committed ..)
    · exact hf

/-- No fence and no release comes before a store of class PLAIN. -/
theorem quiet_storeStart {i : Iss} {s : State} (hq : quiet s i.g = true) {o : OpM} (h : o.o = 0) (tgt : Target) :
    quiet (storeStart i o tgt s) i.g = true := by
  simp [storeStart, h, quiet_noteFallback, hq]

/-- A VOLATILE store of a quiet thread begins quiet, or after the commit of its fence. -/
theorem storeStart_commits {i : Iss} {s : State} (hq : quiet s i.g = true) (o : OpM) (tgt : Target) :
    (o.o = 3 ∧ storeVolatile o = true ∧ quiet (storeStart i o tgt s) i.g = true) ∨
      (o.o ≠ 3 ∧ (storeVolatile o = true → ((storeStart i o tgt s).thread i.g).stage = .committed)) := by
  unfold storeVolatile storeStart
  obtain h | h | h | h := class_cases o.o
  · exact .inr (by simp [h])
  · refine .inr ⟨by simp [h], fun _ => ?_⟩
    rw [if_pos h]
    exact congrArg Thread.stage (State.thread_setThread_self ..)
  · exact .inr (by simp [h])
  · exact .inl ⟨h, by simp [h], by simp [h, quiet_noteFallback, hq]⟩

/-- Of the classes that write at the home, RELEASE alone keeps the policy. -/
theorem storePolicy_home (i : Iss) {o : OpM} (h : o.o ≠ 0) : storePolicy i o = if o.o = 2 then policyOf i o else 0 := by
  obtain h' | h' | h' | h' := class_cases o.o
  · exact absurd h' h
  all_goals simp [storePolicy, storeVolatile, h']

theorem storePolicy_plain (i : Iss) {o : OpM} (h : o.o = 0) : storePolicy i o = policyOf i o := by
  simp [storePolicy, storeVolatile, h]

/-- What follows the checks of a quiet thread's store: the fence or the release of its class, and the access. -/
theorem store_begins {i : Iss} {s : State} (hq : quiet s i.g = true) (o : OpM) (tgt : Target) (k : Bool → Bool → Nat → State → Res) {r : Res}
    (hr : k (o.o == 0) (storeVolatile o) (storePolicy i o) (storeStart i o tgt s) = r) (hn : r.noteChecked i.g = r) :
    (let s := noteFallback i (o.o == 1 || strayPolicy i o tgt) s
     if o.o = 1 then withFence i (mScope o) s fun s => k false true 0 s
     else if o.o = 2 then withRelease i (mScope o) s fun s => k false false (policyOf i o) s
     else k (o.o == 0) (o.o == 3) (if o.o = 3 then 0 else policyOf i o) s) = r := by
  have hq' := (quiet_noteFallback i (o.o == 1 || strayPolicy i o tgt) s).trans hq
  subst hr
  dsimp only
  obtain h | h | h | h := class_cases o.o
  · simp [storeVolatile, storePolicy, storeStart, h]
  · rw [if_pos h, withFence_quiet hq']
    refine Eq.trans (congrArg _ ?_) hn
    simp [storeVolatile, storePolicy, storeStart, h]
  · rw [if_neg (by simp [h]), if_pos h, withRelease_quiet hq']
    refine Eq.trans (congrArg _ ?_) hn
    simp [storeVolatile, storePolicy, storeStart, h]
  · simp [storeVolatile, storePolicy, storeStart, h]

/-- The stores are one operation. -/
theorem exec_store {l : (OpM → Instr) × Nat} (hl : l ∈ stores) (o : OpM) (s : State) : exec (l.1 o) s = finish s (storeOp s o l.2) := by
  simp only [stores, List.mem_cons, List.not_mem_nil, or_false] at hl
  obtain rfl | rfl | rfl | rfl := hl <;> rfl

theorem keeps_store (o : OpM) (tgt : Target) (s : State) :
    s.Keeps s.cur (storeStart (issued s (Traits.ofM o (fx o.d) (fx o.a))) o tgt (begun s (Traits.ofM o (fx o.d) (fx o.a)))) :=
  (keeps_begun (Traits.ofM_power ..)).trans (keeps_storeStart (issued s _) ..)

/-- A store of a quiet thread whose target is found and aligned is the access there, once it has begun. -/
theorem store_access {l : (OpM → Instr) × Nat} (hl : l ∈ stores) (o : OpM) {s : State} (hq : quiet s s.cur = true)
    {r : Iss → Thread → State → Res} {tgt : Target} {ptr : Word} {i : Iss}
    (hi : issued s (Traits.ofM o (fx o.d) (fx o.a)) = i) (hp : mEa i o s.hand l.2 = ptr)
    (ht : (begun s (Traits.ofM o (fx o.d) (fx o.a))).target s.cur ptr l.2 .store = .ok tgt)
    (hal : tgt.scratch = true ∨ o.o ≠ 0 → ptr.toNat % l.2 = 0)
    (hr : storeAt i (o.o == 0) (storeVolatile o) (storePolicy i o) ptr (bytesOf l.2 (s.hand.x i.d)) tgt
      (storeStart i o tgt (begun s (Traits.ofM o (fx o.d) (fx o.a)))) = r i s.hand (begun s (Traits.ofM o (fx o.d) (fx o.a))))
    (hn : (r i s.hand (begun s (Traits.ofM o (fx o.d) (fx o.a)))).noteChecked s.cur = r i s.hand (begun s (Traits.ofM o (fx o.d) (fx o.a)))) :
    Ends (l.1 o) s (Traits.ofM o (fx o.d) (fx o.a)) r := by
  refine ends_issued _ _ _ _ _ (exec_store hl o s) fun a b hu => ?_
  have hq' := quiet_issued hq (Traits.ofM_power o (fx o.d) (fx o.a))
  subst hi hp
  have hk := store_begins hq' o tgt (fun spec vol p => storeAt (issued s (Traits.ofM o (fx o.d) (fx o.a))) spec vol p
    (mEa (issued s (Traits.ofM o (fx o.d) (fx o.a))) o s.hand l.2) _ tgt) hr hn
  simp only [waitField_quiet hq', issued_g, hu, mEa_flagged, Thread.flagged_x, ht]
  rw [if_neg fun h => h.2 (hal h.1)]
  exact fieldGuard_plain hq' _ hk hn

/-! ## The accesses of a store (R290) -/

/-- The counters of a thread without posted writes have room for two pieces (R126). -/
theorem withRooms_zero {i : Iss} {w : State} (hc : ∀ c, (w.thread i.g).ctx.count c = 0) {ps : List Piece} (hps : ps.length ≤ 2)
    (k : State → Res) : withRooms i ps w k = k w := by
  have hroom : roomPieces w i.g ps = none := by
    rw [roomPieces, List.find?_eq_none]
    intro c _
    have hle := Nat.le_trans (List.length_filter_le (fun p : Piece => postClass (coreOf i.g) p.gslice == c) ps) hps
    simp only [hc, Config.maxPosted, decide_eq_true_eq]
    omega
  rw [withRooms, hroom]

theorem length_eraseDups_le {α : Type} [BEq α] [LawfulBEq α] : ∀ l : List α, l.eraseDups.length ≤ l.length
  | [] => Nat.le_refl 0
  | a :: l => by
    rw [List.eraseDups_cons, List.length_cons, List.length_cons]
    have hle := List.length_filter_le (fun b => !b == a) l
    have hrest := length_eraseDups_le (l.filter fun b => !b == a)
    omega
termination_by l => l.length
decreasing_by
  rw [List.length_cons]
  exact Nat.lt_succ_of_le (List.length_filter_le ..)

/-- A task without units takes two lines (R166). -/
theorem withUnits_none {i : Iss} {w : State} (hs : (w.thread i.g).stage = .start) (hu : (w.thread i.g).units = [])
    (hc : (w.thread i.g).creates = []) {ls : List (Nat × Nat)} (hls : ls.length ≤ 2) (k : State → Res) : withUnits i ls 0 w k = k w := by
  have hn : (newUnits (w.thread i.g) ls).length ≤ 2 :=
    Nat.le_trans (length_eraseDups_le ..) (Nat.le_trans (List.length_filter_le ..) hls)
  refine if_pos ⟨hs, ?_⟩
  simp only [hu, hc, Config.maxUnits, List.length_nil]
  omega

/-- A store to the own scratchpad writes its bytes at once (R65, R290). -/
theorem storeAt_own {i : Iss} {w : State} (ho : (w.thread i.g).out = []) (hv : (w.thread i.g).volatiles = 0) (spec vol : Bool) (pol : Nat)
    (ptr : Word) {bs : List Byte} {off : Nat} (hg : guarded (w.core (coreOf i.g)) off bs.length = false) :
    storeAt i spec vol pol ptr bs (.own off) w = .done (scratchWrite w (coreOf i.g) off bs) := by
  simp only [storeAt, withVolatile_none hv ho, hg, Bool.false_eq_true, if_false]

/-- A store of class PLAIN to linear memory joins what the open task has written (R90). -/
theorem storeAt_plain {i : Iss} {w : State} (hc : ∀ c, (w.thread i.g).ctx.count c = 0) (hs : (w.thread i.g).stage = .start)
    (hu : (w.thread i.g).units = []) (hcr : (w.thread i.g).creates = []) (vol : Bool) (pol : Nat) (ptr : Word) {bs : List Byte} {a : Nat}
    {ps : List Piece} (hps : place w i.g a bs.length = .ok ps) (hlen : ps.length ≤ 2) :
    storeAt i true vol pol ptr bs (.linear a) w =
      let u := notePieces (coreOf i.g) (w.thread i.g).ctx.ids.job ps w
      .done (storePieces i pol ptr bs ps (addUnits u i.g (pieceLines ps))) := by
  simp only [storeAt, hps, if_true]
  rw [withUnits_none hs hu hcr (by simpa [pieceLines] using hlen), withRooms_zero hc hlen]

section access
variable {i : Iss} {w : State} (ho : (w.thread i.g).out = []) (hv : (w.thread i.g).volatiles = 0)
  (hc : ∀ c, (w.thread i.g).ctx.count c = 0)
include ho hv hc

/-- A store to another core's scratchpad counts as a posted write, and goes there. -/
theorem storeAt_remote (spec vol : Bool) (pol : Nat) (ptr : Word) (bs : List Byte) (core off : Nat) :
    storeAt i spec vol pol ptr bs (.remote core off) w =
      let u := countPost w i.g .pd
      let u := if vol then u.modThread i.g fun t => { t with volatiles := t.volatiles + 1 } else u
      .done (u.send (fromThread i.g) (atCore core) (.remoteScratchpadWrite ⟨i.g, core, off, bs.map some, i.pc, ptr, vol, 1⟩)) := by
  simp only [storeAt, withVolatile_none hv ho, remoteStore]
  exact if_pos (by rw [hc]; decide)

/-- A store of another class to linear memory is a write at the home, once the thread's loads of its lines are performed (R118, R127). -/
theorem storeAt_home (o : OpM) (pol : Nat) (ptr : Word) {bs : List Byte} {a : Nat} {ps : List Piece} (hps : place w i.g a bs.length = .ok ps)
    (hlen : ps.length ≤ 2)
    (hcommit : (o.o = 3 ∧ storeVolatile o = true ∧ quiet w i.g = true) ∨
      (o.o ≠ 3 ∧ (storeVolatile o = true → (w.thread i.g).stage = .committed)))
    (hl : (ps.any fun p => loadOut (settleOwn o i.g ps w) i.g (w.thread i.g).ctx.ids.job (p.addr / 128)) = false) :
    storeAt i false (storeVolatile o) pol ptr bs (.linear a) w =
      .done (homeWritePieces i pol ptr bs (storeVolatile o) ps
        (notePieces (coreOf i.g) (w.thread i.g).ctx.ids.job ps (settleOwn o i.g ps w))) := by
  simp only [storeAt, hps, Bool.false_eq_true, if_false, settleOwn_first hcommit]
  have hkeep := keeps_settleOwn o i.g ps w
  rw [withVolatile_none (hkeep.volatiles.trans hv) (hkeep.out.trans ho), withLoads, hkeep.ids, hl, if_neg Bool.false_ne_true,
    withRooms_zero (fun c => (hkeep.count c).trans (hc c)) hlen, hkeep.ids]

end access

theorem length_leBytes (n w : Nat) : (leBytes n w).length = n := by
  induction n generalizing w with
  | zero => rfl
  | succ n ih => rw [leBytes, List.length_cons, ih]

/-- A thread with nothing outstanding has no posted write. -/
theorem count_quiet {s : State} {g : Nat} (hq : quiet s g = true) (c : PostCtr) : (s.thread g).ctx.count c = 0 := by
  obtain ⟨-, -, hpd, hpx, hpo, -⟩ := quiet_parts hq
  cases c
  · exact hpd
  · exact hpx
  · exact hpo

/-- Settles O18: a quiet thread's store is the access at its target, from the machine that its class and its policy leave. -/
theorem storesWriteTheirBytes : Obligations.StoresWriteTheirBytes := by
  intro l hl o s hq hv
  have hq' := quiet_issued hq (Traits.ofM_power o (fx o.d) (fx o.a))
  have hkeep tgt := keeps_store o tgt s
  have hout tgt := (hkeep tgt).out.trans (quiet_parts hq).2.1
  have hvol tgt := (hkeep tgt).volatiles.trans hv
  have hcount tgt c := ((hkeep tgt).count c).trans (count_quiet hq c)
  have hlen : (bytesOf l.2 (s.hand.x (issued s (Traits.ofM o (fx o.d) (fx o.a))).d)).length = l.2 := length_leBytes ..
  refine ⟨fun off ht hal hg => store_access hl o hq rfl rfl ht (fun _ => hal) ?_ rfl,
    fun core off ht hal => store_access hl o hq rfl rfl ht (fun _ => hal) ?_ rfl, fun a ps ht hal hps h2 =>
      ⟨fun h0 => store_access hl o hq rfl rfl ht (fun h => hal.resolve_left (h.resolve_left nofun)) ?_ rfl, fun h0 hload =>
        store_access hl o hq rfl rfl ht (fun h => hal.resolve_left (h.resolve_left nofun)) ?_ rfl⟩⟩
  · refine (storeAt_own (i := issued s _) (hout _) (hvol _) _ _ _ _ ?_).trans rfl
    rw [issued_g, (hkeep _).guarded, hlen, hg]
  · exact storeAt_remote (i := issued s _) (hout _) (hvol _) (hcount _) ..
  · obtain ⟨hs, -, -, -, -, -, -, -, hu, hcr, -⟩ := quiet_parts (quiet_storeStart hq' h0 (.linear a))
    have hspec : (o.o == 0) = true := beq_iff_eq.mpr h0
    rw [hspec, storePolicy_plain _ h0]
    refine (storeAt_plain (i := issued s _) (hcount _) hs hu hcr _ _ _ (by rw [hlen]; exact hps) h2).trans ?_
    simp only [issued_g, (hkeep _).ids]
    rfl
  · have hspec : (o.o == 0) = false := beq_eq_false_iff_ne.mpr h0
    rw [hspec, storePolicy_home _ h0]
    refine (storeAt_home (i := issued s _) (hout _) (hvol _) (hcount _) o _ _ (by rw [hlen]; exact hps) h2 (storeStart_commits hq' ..) ?_).trans ?_
    · rw [issued_g, (hkeep _).ids]
      exact hload
    · simp only [issued_g, (hkeep _).ids]
      rfl

end Sys2Proof.Machine

/-! # The cursor operations of a sequence, and the reads of its descriptor -/

namespace Sys2Proof.Machine

/-! ## Messages, and what they leave where a loss is answered by a message (R406, R412) -/

section send
variable {β : Type} (p : State → β) (hpost : ∀ s f, p (s.post f) = p s) (hmodu : ∀ s m x, p (s.setModu m x) = p s)
include hpost hmodu

theorem transmit_keeps (s : State) (m l : Nat) (f : Flight) : p (s.transmit m l f) = p s := by
  unfold State.transmit
  dsimp only
  split
  · exact (foldl_keeps p (fun _ _ => hpost ..) _ _).trans (hmodu ..)
  · exact hmodu ..

/-- A message over the links, or lost on one, keeps what a message within a module, a link's record and its own loss keep. -/
theorem send_keeps {ev : Event} (hlost : ∀ u w, u.lost ev = some w → p w = p u) (s : State) (src dst : Nat) :
    p (s.send src dst ev) = p s := by
  have hundelivered m link dest ver : p (s.undelivered m link dest ver ev) = p s := by
    unfold State.undelivered
    split
    · next w h => exact (hlost _ w h).trans (hpost ..)
    · split <;> exact hpost ..
  unfold State.send State.cross
  dsimp only
  split
  · exact hpost ..
  · split
    · exact hundelivered ..
    · split
      · exact hundelivered ..
      · exact transmit_keeps p hpost hmodu ..

theorem answer_keeps (s : State) (src g id : Nat) (v : ResultVal) (fill : Option LineFillData) : p (answer s src g id v fill) = p s :=
  send_keeps p hpost hmodu (fun u w h => by cases h; exact hpost ..) ..

theorem refuse_keeps (s : State) (src g : Nat) (id : Option Nat) (c : Option PostCtr) (off : Nat) (f : FaultRec) :
    p (refuse s src g id c off f) = p s :=
  send_keeps p hpost hmodu (fun u w h => by cases h; exact hpost ..) ..

theorem sqAnswer_keeps (s : State) (c : SqAt) (id : Nat) (pc : Word) (r : Except FaultRec Word) : p (sqAnswer s c id pc r) = p s := by
  unfold sqAnswer
  split
  · exact answer_keeps p hpost hmodu ..
  · exact refuse_keeps p hpost hmodu ..

end send

@[simp] theorem sqAnswer_thread (s : State) (c : SqAt) (id : Nat) (pc : Word) (r : Except FaultRec Word) (n : Nat) :
    (sqAnswer s c id pc r).thread n = s.thread n :=
  sqAnswer_keeps (State.thread · n) (fun _ _ => rfl) (fun _ _ _ => rfl) ..

@[simp] theorem sqAnswer_linkHeld (s : State) (c : SqAt) (id : Nat) (pc : Word) (r : Except FaultRec Word) :
    (sqAnswer s c id pc r).linkHeld = s.linkHeld :=
  sqAnswer_keeps State.linkHeld (fun _ _ => rfl) (fun _ _ _ => rfl) ..

@[simp] theorem answer_linkHeld (s : State) (src g id : Nat) (v : ResultVal) (fill : Option LineFillData) :
    (answer s src g id v fill).linkHeld = s.linkHeld :=
  answer_keeps State.linkHeld (fun _ _ => rfl) (fun _ _ _ => rfl) ..

@[simp] theorem returnFault_linkHeld (i : Iss) (d : Dest) (f : FaultRec) (s : State) : (returnFault i d f s).linkHeld = s.linkHeld :=
  refuse_keeps State.linkHeld (fun _ _ => rfl) (fun _ _ _ => rfl) ..

theorem frameAdmission_thread (s : State) (src dst : Nat) (q : FrameReq) (n : Nat) :
    (s.send src dst (.frameAdmission q)).thread n = s.thread n :=
  send_keeps (State.thread · n) (fun _ _ => rfl) (fun _ _ _ => rfl) (fun u w h => by cases h; rfl) ..

theorem hops_thread (ch dest n m : Nat) (s : State) (k : Nat) : (State.hops ch dest n m s).thread k = s.thread k := by
  induction n generalizing m s with
  | zero => rfl
  | succ n ih =>
    unfold State.hops
    dsimp only
    split
    · rfl
    · split
      · rfl
      · split
        · exact (ih ..).trans (putFlits_thread ..)
        · rfl

@[simp] theorem overLinks_thread (s : State) (m dest n : Nat) : (s.overLinks m dest).thread n = s.thread n := by
  rw [State.overLinks, hops_thread, hops_thread]

/-! ## How far threads have come in their instructions, as homes serve

What a home does to its lines may enter a line in a thread's filter, lower its posting counters or leave it a fault. No instruction goes on by
that: each operation below leaves every thread its stage. -/

@[simp] theorem State.report_thread (s : State) (r : Report) (n : Nat) : (s.report r).thread n = s.thread n := rfl

theorem State.slices_thread (s : State) (x : Table Slice) (n : Nat) : State.thread { s with slices := x } n = s.thread n := rfl

@[simp] theorem State.modCtrl_thread (s : State) (k n : Nat) (f : Ctrl → Ctrl) : (s.modCtrl k f).thread n = s.thread n := rfl

@[simp] theorem State.modSlice_thread (s : State) (g n : Nat) (f : Slice → Slice) : (s.modSlice g f).thread n = s.thread n := rfl

/-- A thread that has changed, but not in its stage. -/
theorem setThread_stage {s : State} {g : Nat} {y : Thread} (h : y.stage = (s.thread g).stage) (n : Nat) :
    ((s.setThread g y).thread n).stage = (s.thread n).stage := by
  rw [State.thread_setThread]
  split
  · next hn => rw [h, hn]
  · rfl

@[simp] theorem expect_stage (s : State) (i : Iss) (d : Dest) (parts : Nat) (vol : Bool) (ptr : Word) (n : Nat) :
    ((expect s i d parts vol ptr).1.thread n).stage = (s.thread n).stage :=
  setThread_stage (by rfl) _

/-! ### Writing, waking, revoking and invalidating -/

@[simp] theorem State.pokes_thread (s : State) (a : Nat) (bs : List Byte) (n : Nat) : (s.pokes a bs).thread n = s.thread n := by
  induction bs generalizing s a with
  | nil => rfl
  | cons b bs ih => exact ih ..

@[simp] theorem State.pokeMasked_thread (s : State) (a m : Nat) (bs : List Byte) (n : Nat) :
    (s.pokeMasked a m bs).thread n = s.thread n := by
  induction bs generalizing s a m with
  | nil => rfl
  | cons b bs ih =>
    rw [State.pokeMasked, ih]
    split <;> rfl

@[simp] theorem State.serve_thread (s : State) (g n : Nat) : (s.serve g).thread n = s.thread n := by
  unfold State.serve
  split <;> rfl

@[simp] theorem awake_thread (s : State) (g n : Nat) : (awake s g).thread n = s.thread n := by
  unfold awake
  split <;> rfl

@[simp] theorem writeBack_thread (s : State) (g core job word n : Nat) : (writeBack s g core job word).thread n = s.thread n := by
  unfold writeBack
  split
  · exact State.pokes_thread ..
  · rfl

@[simp] theorem setL1State_thread (s : State) (core job word : Nat) (st : Option WordSt) (n : Nat) :
    (setL1State s core job word st).thread n = s.thread n := by
  unfold setL1State
  split <;> rfl

@[simp] theorem untrack_thread (s : State) (g job line n : Nat) : (untrack s g job line).thread n = s.thread n := by
  unfold untrack
  split <;> rfl

@[simp] theorem doRevoke_thread (s : State) (g core job word n : Nat) : (doRevoke s g core job word).thread n = s.thread n := by
  unfold doRevoke
  dsimp only
  rw [untrack_thread, State.modSlice_thread]
  repeat' split
  all_goals simp only [setL1State_thread, writeBack_thread]

@[simp] theorem doRevokes_thread (g job : Nat) (l : List (Nat × Nat)) (s : State) (n : Nat) :
    (doRevokes g job l s).thread n = s.thread n := by
  induction l generalizing s with
  | nil => rfl
  | cons e l ih => rw [doRevokes, ih, doRevoke_thread]

@[simp] theorem doRecall_thread (s : State) (g job word n : Nat) : (doRecall s g job word).thread n = s.thread n := by
  unfold doRecall
  split
  · rfl
  · dsimp only
    rw [State.modSlice_thread]
    repeat' split
    all_goals simp only [setL1State_thread, writeBack_thread]

@[simp] theorem recallLine_thread (s : State) (g job line n : Nat) : (recallLine s g job line).thread n = s.thread n := by
  have hwords k : (recallWords s g job line k).thread n = s.thread n := by
    induction k with
    | zero => rfl
    | succ k ih => rw [recallWords, doRecall_thread, ih]
  rw [recallLine, State.modSlice_thread, hwords]

@[simp] theorem stopFills_thread (p : Nat → Nat → Nat → Bool) (s : State) (n : Nat) : (stopFills p s).thread n = s.thread n := rfl

@[simp] theorem doInvalidate_thread (s : State) (v : CopyInval) (n : Nat) : (doInvalidate s v).thread n = s.thread n := by
  unfold doInvalidate
  split
  · exact State.serve_thread ..
  · rfl

@[simp] theorem doInvalidates_thread (l : List CopyInval) (s : State) (n : Nat) : (doInvalidates l s).thread n = s.thread n := by
  induction l generalizing s with
  | nil => rfl
  | cons v l ih => rw [doInvalidates, ih, doInvalidate_thread]

@[simp] theorem takeInvals_thread (s : State) (g job line n : Nat) : (takeInvals s g job line).thread n = s.thread n := by
  unfold takeInvals
  rw [foldl_keeps (State.thread · n)]
  · rfl
  · intro s f
    split
    · exact doInvalidate_thread ..
    · rfl

@[simp] theorem conflict_thread (s : State) (g job line n : Nat) : (conflict s g job line).1.thread n = s.thread n := by
  unfold conflict
  dsimp only
  repeat' split
  all_goals rfl

/-! ### Fills (R22, R26) -/

@[simp] theorem filterSlots_stage (s : State) (core : Nat) (l : L1Line) (n : Nat) :
    ((filterSlots s core l).thread n).stage = (s.thread n).stage := by
  refine foldl_keeps (fun s => (State.thread s n).stage) (fun s e => ?_) _ _
  split
  · exact setThread_stage (by rfl) _
  · rfl

@[simp] theorem dropL1_stage (p : Nat → L1Line → Bool) (q : Nat → ILine → Bool) (s : State) (n : Nat) :
    ((dropL1 p q s).thread n).stage = (s.thread n).stage :=
  foldl_keeps (fun s => (State.thread s n).stage)
    (fun _ _ => foldl_keeps (fun s => (State.thread s n).stage) (fun _ _ => filterSlots_stage ..) _ _) _ _

@[simp] theorem purgeLine_stage (s : State) (g job line n : Nat) : ((purgeLine s g job line).thread n).stage = (s.thread n).stage := by
  unfold purgeLine
  dsimp only
  rw [State.modSlice_thread, State.modCtrl_thread, doInvalidate_thread, doInvalidate_thread, State.slices_thread, stopFills_thread,
    dropL1_stage, recallLine_thread]

@[simp] theorem synonym_stage (s : State) (gdie frame job line n : Nat) :
    ((synonym s gdie frame job line).thread n).stage = (s.thread n).stage := by
  unfold synonym
  dsimp only
  split
  · split
    · rfl
    · rw [State.modCtrl_thread, State.modCtrl_thread, purgeLine_stage]
  · rw [State.modCtrl_thread]
    split
    · split
      · rfl
      · rw [State.modCtrl_thread, purgeLine_stage]
    · rfl

@[simp] theorem holdLine_thread (s : State) (g job line : Nat) (once : Bool) (h : HomeLine) (n : Nat) :
    (holdLine s g job line once h).thread n = s.thread n := by
  have hroom k (s : State) : (roomWay g line k s).thread n = s.thread n := by
    induction k generalizing s with
    | zero => rfl
    | succ k ih =>
      unfold roomWay
      dsimp only
      split
      · rfl
      · exact ih _
  unfold holdLine
  split
  · rfl
  · exact hroom ..

theorem homeFill_stage {s u : State} {g job line : Nat} {ok : Perms → Bool} {once : Bool} {h : HomeLine}
    (e : homeFill s g job line ok once = .ok (u, h)) (n : Nat) : (u.thread n).stage = (s.thread n).stage := by
  unfold homeFill at e
  split at e
  · split at e
    · cases e
      rfl
    · cases e
  · split at e
    · cases e
    · split at e
      · cases e
      · cases e
        rw [holdLine_thread, synonym_stage]
        split <;> rfl

/-! ### Collections, reads and writes (R92, R93, R110) -/

@[simp] theorem ackContrib_stage (ctr : PostCtr) (l : List Contrib) (s : State) (n : Nat) :
    ((ackContrib ctr l s).thread n).stage = (s.thread n).stage := by
  induction l generalizing s with
  | nil => rfl
  | cons e l ih =>
    rw [ackContrib, ih]
    split
    · exact setThread_stage (by rfl) _
    · rfl

@[simp] theorem faultContrib_stage (c : Cause) (kind : Nat) (ctr : PostCtr) (l : List Contrib) (s : State) (n : Nat) :
    ((faultContrib c kind ctr l s).thread n).stage = (s.thread n).stage := by
  induction l generalizing s with
  | nil => rfl
  | cons e l ih =>
    rw [faultContrib, ih]
    split
    · exact setThread_stage (by rfl) _
    · rfl

@[simp] theorem lineError_thread (s : State) (g line : Nat) (h : HomeLine) (kind n : Nat) :
    (lineError s g line h kind).thread n = s.thread n := rfl

@[simp] theorem foundBad_thread (s : State) (g line : Nat) (h : HomeLine) (cause kind n : Nat) :
    (foundBad s g line h cause kind).thread n = s.thread n := rfl

@[simp] theorem applyComm_thread (s : State) (g : Nat) (k : CommKey) (v : Word) (n : Nat) :
    (applyComm s g k v).thread n = s.thread n := by
  unfold applyComm
  split
  · rfl
  · exact State.pokes_thread ..

@[simp] theorem mergeEntry_stage (s : State) (core : Nat) (e : CommEntry) (n : Nat) :
    ((mergeEntry s core e).thread n).stage = (s.thread n).stage := by
  have hserved : ((ackContrib (postClass core e.gslice) e.contrib (s.serve e.gslice)).thread n).stage = (s.thread n).stage := by
    rw [ackContrib_stage, State.serve_thread]
  unfold mergeEntry
  dsimp only
  split
  · rw [faultContrib_stage, hserved]
  · next u h hfill =>
    rw [← hserved, ← homeFill_stage hfill n]
    split
    · rw [faultContrib_stage, lineError_thread]
    · rw [applyComm_thread, doInvalidates_thread, conflict_thread, takeInvals_thread]
      split
      · rw [doRevoke_thread]
      · rfl

@[simp] theorem flushCores_stage (p : Nat → CommEntry → Bool) (l : List Nat) (s : State) (n : Nat) :
    ((flushCores p l s).thread n).stage = (s.thread n).stage := by
  have hmerge core l (s : State) : ((mergeEntries core l s).thread n).stage = (s.thread n).stage := by
    induction l generalizing s with
    | nil => rfl
    | cons e l ih => rw [mergeEntries, ih, mergeEntry_stage]
  induction l generalizing s with
  | nil => rfl
  | cons c l ih =>
    rw [flushCores, ih, flushWhere]
    exact hmerge ..

@[simp] theorem doCollect_stage (s : State) (g job line : Nat) (ws : List Nat) (n : Nat) :
    ((doCollect s g job line ws).thread n).stage = (s.thread n).stage := by
  have htake l (s : State) : ((takeFlushes l s).thread n).stage = (s.thread n).stage := by
    induction l generalizing s with
    | nil => rfl
    | cons f l ih =>
      rw [takeFlushes, ih]
      split
      · exact mergeEntry_stage ..
      · rfl
  unfold doCollect
  dsimp only
  rw [State.modSlice_thread, flushCores_stage]
  exact htake ..

/-- A collection, where one is due. -/
theorem collect_stage (s : State) (g job line : Nat) (ws : List Nat) (n : Nat) :
    ((if collectDue s g job line ws then doCollect s g job line ws else s).thread n).stage = (s.thread n).stage := by
  split
  · exact doCollect_stage ..
  · rfl

@[simp] theorem committedLine_thread (s : State) (g job line : Nat) (by_ : Option Nat) (ws : List Nat) (h : HomeLine) (n : Nat) :
    (committedLine s g job line by_ ws h).1.thread n = s.thread n := by
  unfold committedLine
  dsimp only
  split <;> rfl

@[simp] theorem readLine_stage (s : State) (g job line : Nat) (ws : List Nat) (user fetch : Bool) (n : Nat) :
    ((readLine s g job line ws user fetch).1.thread n).stage = (s.thread n).stage := by
  unfold readLine readLineFor
  dsimp only
  split
  · rw [State.serve_thread]
  · next u h hfill =>
    have hu := (homeFill_stage hfill n).trans (congrArg _ (State.serve_thread ..))
    split
    · exact hu
    · rw [committedLine_thread, collect_stage, hu]

@[simp] theorem homeWrite_stage (s : State) (g job line : Nat) (user : Bool) (m : Pred) (data : Line) (n : Nat) :
    ((homeWrite s g job line user m data).1.thread n).stage = (s.thread n).stage := by
  have hclear (b : Prop) [Decidable b] (s : State) a : (if b then s.clearBad a else s).thread n = s.thread n := by
    split <;> rfl
  unfold homeWrite
  dsimp only
  split
  · rw [State.serve_thread]
  · next u h hfill =>
    have hu := (homeFill_stage hfill n).trans (congrArg _ (State.serve_thread ..))
    unfold writeLine
    dsimp only
    rw [hclear, State.pokeMasked_thread, doInvalidates_thread, conflict_thread, takeInvals_thread, doRevokes_thread, collect_stage, hu]

/-! ## What the sequence engine leaves threads (R137 to R147) -/

theorem sqReadGo_stage (c : SqAt) (l : List (Nat × Nat × Nat)) (s : State) (n : Nat) :
    ((sqReadGo c l s).1.thread n).stage = (s.thread n).stage := by
  induction l generalizing s with
  | nil => rfl
  | cons e l ih =>
    unfold sqReadGo
    dsimp only
    split
    · rfl
    · split
      · rfl
      · split
        · rw [readLine_stage, overLinks_thread]
        · split <;> rw [ih, readLine_stage, overLinks_thread]

theorem sqWriteGo_stage (c : SqAt) (bs : List Byte) (l : List (Nat × Nat × Nat)) (s : State) (n : Nat) :
    ((sqWriteGo c bs l s).1.thread n).stage = (s.thread n).stage := by
  induction l generalizing s with
  | nil => rfl
  | cons e l ih =>
    unfold sqWriteGo
    dsimp only
    split
    · rfl
    · split
      · rfl
      · split
        · rw [homeWrite_stage, overLinks_thread]
        · rw [ih, homeWrite_stage, overLinks_thread]

@[simp] theorem sqRead_stage (s : State) (c : SqAt) (a k n : Nat) : ((sqRead s c a k).1.thread n).stage = (s.thread n).stage :=
  sqReadGo_stage ..

@[simp] theorem sqWrite_stage (s : State) (c : SqAt) (a : Nat) (bs : List Byte) (n : Nat) :
    ((sqWrite s c a bs).1.thread n).stage = (s.thread n).stage :=
  sqWriteGo_stage ..

@[simp] theorem sqFetch_stage (s : State) (c : SqAt) (n : Nat) : ((sqFetch s c).1.thread n).stage = (s.thread n).stage := by
  unfold sqFetch
  dsimp only
  split
  · exact readLine_stage ..
  · split <;> exact readLine_stage ..

@[simp] theorem sqTake_stage (s : State) (c : SqAt) (n : Nat) : ((sqTake s c).1.thread n).stage = (s.thread n).stage := by
  unfold sqTake
  dsimp only
  split
  · exact sqFetch_stage ..
  · split <;> exact sqFetch_stage ..

@[simp] theorem sqPut_stage (s : State) (c : SqAt) (old new : Line) (n : Nat) : ((sqPut s c old new).thread n).stage = (s.thread n).stage := by
  unfold sqPut
  split
  · rfl
  · exact homeWrite_stage ..

@[simp] theorem wakeStalls_thread (s : State) (gdie n : Nat) : (wakeStalls s gdie).thread n = s.thread n := by
  refine foldl_keeps (State.thread · n) (fun _ _ => ?_) _ _
  rfl

@[simp] theorem freeEntry_thread (s : State) (r : TileRef) (e : TileEntry) (n : Nat) : (freeEntry s r e).thread n = s.thread n := by
  unfold freeEntry
  dsimp only
  rw [wakeStalls_thread]
  split <;> rfl

@[simp] theorem releaseAll_thread (l : List TileRef) (s : State) (n : Nat) : (releaseAll l s).thread n = s.thread n := by
  have hhold (s : State) (r : TileRef) : (releaseHold s r).thread n = s.thread n := by
    unfold releaseHold
    split
    · split
      · dsimp only
        split
        · rw [freeEntry_thread, awake_thread]
        · exact awake_thread ..
      · rfl
    · rfl
  induction l generalizing s with
  | nil => rfl
  | cons r l ih => rw [releaseAll, ih, hhold]

@[simp] theorem releaseStates_thread (s : State) (c : SqAt) (d : Line) (lo hi n : Nat) :
    (releaseStates s c d lo hi).thread n = s.thread n := by
  unfold releaseStates
  split
  · rfl
  · exact releaseAll_thread ..

@[simp] theorem clearBusy_stage (s : State) (c : SqAt) (n : Nat) : ((clearBusy s c).thread n).stage = (s.thread n).stage := by
  unfold clearBusy
  dsimp only
  split
  · rw [sqPut_stage, readLine_stage]
  · exact readLine_stage ..

@[simp] theorem endSeal_stage (s : State) (gslice : Nat) (w : Seal) (f : Option FaultRec) (n : Nat) :
    ((endSeal s gslice w f).thread n).stage = (s.thread n).stage := by
  unfold endSeal
  dsimp only
  rw [sqAnswer_thread, clearBusy_stage, State.modSlice_thread]

@[simp] theorem sealLayer_stage (s : State) (gslice : Nat) (w : Seal) (n : Nat) :
    ((sealLayer s gslice w).thread n).stage = (s.thread n).stage := by
  unfold sealLayer
  dsimp only
  split
  · exact endSeal_stage ..
  · split
    · rw [endSeal_stage, sqRead_stage]
    · rw [State.thread_post, putSeal, State.modSlice_thread, sqRead_stage]

@[simp] theorem readTile_thread (s : State) (r : TileRef) (n : Nat) : (s.readTile r).1.thread n = s.thread n := by
  have hfind (s : State) (e : TileEntry) : (findError s r e).1.thread n = s.thread n := by
    unfold findError
    dsimp only
    repeat' split
    all_goals rfl
  unfold State.readTile
  dsimp only
  split
  · exact awake_thread ..
  · exact (hfind ..).trans (awake_thread ..)

@[simp] theorem copySlots_stage (s : State) (c : SqAt) (d : Line) (buf k : Nat) (e : TileEntry) (n : Nat) :
    ((copySlots s c d buf k e).1.thread n).stage = (s.thread n).stage := by
  unfold copySlots
  dsimp only
  split
  · exact sqWrite_stage ..
  · rw [sqWrite_stage, sqWrite_stage]

@[simp] theorem truncateLayer_stage (s : State) (c : SqAt) (d : Line) (cur gen layer n : Nat) :
    ((truncateLayer s c d cur gen layer).1.thread n).stage = (s.thread n).stage := by
  unfold truncateLayer
  dsimp only
  rw [← sqRead_stage s c (sqOpen d + layer * sqPageBytes d) (8 * sqPs d) n]
  generalize sqRead s c _ _ = r
  split
  · rfl
  · generalize hw : sqWrite r.1 c _ _ = w
    have hwrite : (w.1.thread n).stage = (r.1.thread n).stage := by rw [← hw, sqWrite_stage]
    split
    · exact hwrite
    · rw [← hwrite]
      generalize List.find? _ _ = v
      obtain _ | v := v
      · exact congrArg _ (releaseAll_thread ..)
      · have htile := readTile_thread w.1 v.1 n
        dsimp only
        rw [← htile]
        clear htile
        generalize w.1.readTile v.1 = x
        obtain ⟨u, _ | e⟩ := x
        · exact congrArg _ (releaseAll_thread ..)
        · dsimp only
          by_cases habsent : e.st ≠ .present
          · rw [if_pos habsent]
            exact congrArg _ (releaseAll_thread ..)
          · rw [if_neg habsent]
            by_cases hpoison : e.poison = true
            · rw [if_pos hpoison]
              exact congrArg _ ((releaseAll_thread ..).trans (State.report_thread ..))
            · rw [if_neg hpoison]
              split
              · exact copySlots_stage ..
              · rw [releaseAll_thread, copySlots_stage]

@[simp] theorem truncateTo_stage (s : State) (c : SqAt) (d : Line) (cur n : Nat) :
    ((truncateTo s c d cur).1.thread n).stage = (s.thread n).stage := by
  have hlayers gen k (s : State) : ((truncateLayers c d cur gen k s).1.thread n).stage = (s.thread n).stage := by
    induction k with
    | zero => rfl
    | succ k ih =>
      unfold truncateLayers
      dsimp only
      split
      · exact ih
      · rw [truncateLayer_stage, ih]
  unfold truncateTo
  dsimp only
  split
  · rw [hlayers, sqPut_stage]
  · rw [releaseStates_thread, hlayers, sqPut_stage]

/-- A sample commit leaves every thread its stage (R145). -/
theorem sqSample_stage (c : SqAt) (id : Nat) (pc : Word) (p : Nat) (s : State) (n : Nat) :
    ((sqSample c id pc p s).1.thread n).stage = (s.thread n).stage := by
  unfold sqSample
  dsimp only
  split
  · exact sqTake_stage ..
  · split
    · rw [releaseStates_thread, sqTake_stage]
    · split
      · exact sqTake_stage ..
      · split
        · rw [sealLayer_stage, sqPut_stage, sqTake_stage]
        · rw [sqPut_stage, sqTake_stage]

/-- A playback set leaves every thread its stage (R146). -/
theorem sqSetPlayback_stage (c : SqAt) (q : Nat) (s : State) (n : Nat) :
    ((sqSetPlayback c q s).1.thread n).stage = (s.thread n).stage := by
  unfold sqSetPlayback
  dsimp only
  split
  · exact sqTake_stage ..
  · split
    · exact sqTake_stage ..
    · rw [sqPut_stage, releaseStates_thread, sqTake_stage]

/-- An explicit truncation leaves every thread its stage (R147). -/
theorem sqTruncate_stage (c : SqAt) (cur : Nat) (s : State) (n : Nat) :
    ((sqTruncate c cur s).1.thread n).stage = (s.thread n).stage := by
  unfold sqTruncate
  dsimp only
  split
  · exact sqTake_stage ..
  · split
    · exact sqTake_stage ..
    · split <;> rw [truncateTo_stage, sqTake_stage]

/-! ## The end of an instruction that has checked the guard record (R202) -/

theorem State.setThread_setThread (s : State) (g : Nat) (x y : Thread) : (s.setThread g x).setThread g y = s.setThread g y := by
  simp only [State.setThread, tput_tput]

/-- A wait at a later stage of an instruction leaves no note of the check. -/
theorem settle_noteChecked {s u : State} {g : Nat} (m : Bool) (w : Wake) (h : (u.thread g).stage ≠ .start) :
    settle s g m ((Res.wait w u).noteChecked g) = settle s g m (.wait w u) := by
  have hx : ((u.thread g).stage == Stage.start) = false := beq_eq_false_iff_ne.mpr h
  simp only [Res.noteChecked, settle, State.modThread_eq, State.thread_setThread_self, State.setThread_setThread, hx, Bool.or_false]

/-- How it is proved that an instruction that has made its check, and has come past its start, ends in a wait. -/
theorem ends_wait {i : Instr} {s u : State} {t : Traits} {w : Wake} {r : Iss → Thread → State → Res} {body : Iss → State → Res}
    (h1 : exec i s = finish s (issue s t body)) (hb : body (issued s t) (begun s t) = (Res.wait w u).noteChecked s.cur)
    (hu : (u.thread s.cur).stage ≠ .start) (hr : r (issued s t) s.hand (begun s t) = .wait w u) : Ends i s t r := by
  intro h
  rw [h1, issue_performs s t body h, hb, hr, settle_noteChecked _ _ hu]
  rfl

/-- An end that no link has held up stands (R410). -/
theorem Res.orHeld_clear {back : State} {r : Res} (h : r.state.linkHeld = false) : r.orHeld back = r := by
  simp only [Res.orHeld, h, Bool.false_and, Bool.false_eq_true, if_false]

/-! ## The machine in which an effect begins -/

theorem begun_stage (s : State) (t : Traits) : ((begun s t).thread s.cur).stage = s.hand.stage := by
  rw [begun_thread, Thread.flagged_stage]

theorem begun_out (s : State) (t : Traits) : ((begun s t).thread s.cur).out = s.hand.out := by
  rw [begun_thread]
  rfl

theorem begun_x (s : State) (t : Traits) (n : Nat) : ((begun s t).thread s.cur).x n = s.hand.x n := by
  rw [begun_thread, Thread.flagged_x]

theorem begun_bval (s : State) (t : Traits) : (issued s t).bval ((begun s t).thread s.cur) = (issued s t).bval s.hand := by
  rw [begun_thread, Thread.flagged_bval]

theorem begun_onWay {s : State} {t : Traits} (h : t.power = false) (p : Event → Bool) : (begun s t).onWay p = s.onWay p := by
  obtain h | h := begun_cases s t h
  · rw [h]
  · rw [h]
    rfl

/-- The acquire of a thread whose results have all returned, as its effect begins. -/
theorem withAcquire_begun {s : State} (t : Traits) (h : s.hand.out = []) :
    (withAcquire (issued s t) (begun s t) fun s => .done s) = .done (acquireCore (begun s t) (coreOf s.cur)) :=
  withAcquire_none (i := issued s t) ((begun_out s t).trans h) _

/-! ## Descriptors (R356) -/

/-- The sequence is the issuing thread's, at its core. -/
theorem sqAt_issuer {s : State} {i : Iss} {c : SqAt} (h : sqAt s i = .ok c) :
    c.g = i.g ∧ c.core = coreOf i.g ∧ c.ptr = (s.thread i.g).x i.a := by
  unfold sqAt at h
  dsimp only at h
  split at h
  · cases h
  · split at h
    · cases h
    · split at h
      · cases h
      · cases h
        exact ⟨rfl, rfl, rfl⟩
  · cases h

/-- A form on a descriptor whose pointer and operand pass. -/
theorem withSeq_ok {s : State} {i : Iss} {c : SqAt} {bad : Bool} (h : sqAt s i = .ok c) (hb : bad = false) (k : SqAt → State → Res) :
    withSeq i bad s k = k c (s.noteEntries c.core c.job c.addr) := by
  simp only [withSeq, h, hb, Bool.false_eq_true, if_false]

/-- The tables of translations say nothing about what is outstanding. -/
theorem quiet_noteEntries (s : State) (core job addr g : Nat) : quiet (s.noteEntries core job addr) g = quiet s g := by
  have hcore : ∃ j r, (s.noteEntries core job addr).core (coreOf g) = { s.core (coreOf g) with jobCache := j, regionCache := r } := by
    by_cases h : coreOf g = core
    · subst h
      exact ⟨_, _, State.core_setCore_self ..⟩
    · exact ⟨_, _, (State.core_setCore ..).trans (if_neg h)⟩
  obtain ⟨j, r, hcore⟩ := hcore
  simp only [quiet, calm, lateEngines, hcore]
  rfl

/-! ## The cursor operations (R145 to R149, R362) -/

/-- The machine in which the home of a descriptor is asked: the release has opened the thread's next task (R119, R356). -/
def sqReleased (g : Nat) (c : SqAt) (u : State) : State := (u.noteEntries c.core c.job c.addr).modThread g (committed false)

theorem sqReleased_stage (g : Nat) (c : SqAt) (u : State) : ((sqReleased g c u).thread g).stage = .committed :=
  congrArg Thread.stage (State.thread_setThread_self ..)

/-- A form on a descriptor of a quiet thread is released, and performed. -/
theorem withSeq_released {s : State} {i : Iss} {c : SqAt} {bad : Bool} (hq : quiet s i.g = true) (h : sqAt s i = .ok c) (hb : bad = false)
    (scope : Nat) (k : SqAt → State → Res) :
    (withSeq i bad s fun c s => withRelease i scope s (k c)) = (k c (sqReleased i.g c s)).noteChecked i.g := by
  rw [withSeq_ok h hb, withRelease_quiet ((quiet_noteEntries ..).trans hq)]
  rfl

theorem atSequence_up {i : Iss} {c : SqAt} {s : State} (h : linkDown s (moduleOf c.core) c.module = false) (k : State → Res) :
    atSequence i c s k = k s := by
  simp only [atSequence, h, Bool.false_eq_true, if_false]

/-- What the home makes of a sequence operation: it is answered, or a seal answers it later. -/
def sqEnded (c : SqAt) (id : Nat) (pc : Word) (a : SqRes) : State :=
  match a.2 with
  | .ok none => a.1
  | .ok (some x) => sqAnswer a.1 c id pc (.ok x)
  | .error e => sqAnswer a.1 c id pc (.error e)

theorem sqEnded_thread (c : SqAt) (id : Nat) (pc : Word) (a : SqRes) (n : Nat) : (sqEnded c id pc a).thread n = a.1.thread n := by
  unfold sqEnded
  split
  · rfl
  · exact sqAnswer_thread ..
  · exact sqAnswer_thread ..

theorem sqEnded_linkHeld (c : SqAt) (id : Nat) (pc : Word) (a : SqRes) : (sqEnded c id pc a).linkHeld = a.1.linkHeld := by
  unfold sqEnded
  split
  · rfl
  · exact sqAnswer_linkHeld ..
  · exact sqAnswer_linkHeld ..

/-- The descriptor's fetch finds the thread released, and leaves it so. -/
theorem sqFetched_stage {g m : Nat} {c : SqAt} {u v : State} {d : Except FaultRec Line}
    (hd : sqFetch ((sqReleased g c u).overLinks m c.module) c = (v, d)) : (v.thread g).stage = .committed := by
  have hfetch := sqFetch_stage ((sqReleased g c u).overLinks m c.module) c g
  rwa [hd, overLinks_thread, sqReleased_stage] at hfetch

/-- What a form on a descriptor is to the words that modify it. -/
def sqTraits (o : OpR) : Traits := Traits.ofR o (fx o.d) (fx o.a) (fx o.b)

theorem sqTraits_power (o : OpR) : (sqTraits o).power = false := rfl

/-- What a cursor operation on position p is at the home of its descriptor: it waits for running work, or is performed and answered. -/
def cursorEnd (act : Nat → SqAt → Nat → Word → State → SqRes) (i : Iss) (p : Nat) (c : SqAt) (v : State) (d : Line) : Res :=
  if sqBusy d ∧ ¬ sqBad d then .wait .unit v
  else
    let q := expect v i (.regs [i.d] []) 1 false c.ptr
    .wait .answer (sqEnded c q.2 i.rpc (act p c q.2 i.rpc q.1))

section cursor
variable {n : Instr} {o : OpR} {s : State} {act : Nat → SqAt → Nat → Word → State → SqRes}
  (hexec : exec n s = finish s (cursorOp o act s))
include hexec

/-- The answer of a cursor operation has come: its return is an acquire. -/
theorem cursorOp_acquires (hstage : s.hand.stage = .sent ∨ ∃ x, s.hand.stage = .answered x) (hout : s.hand.out = []) :
    Acts n s (sqTraits o) fun _ _ u => acquireCore u (coreOf s.cur) := by
  refine ends_issued _ _ _ _ _ hexec fun _ _ _ => ?_
  obtain h | ⟨x, h⟩ := hstage
  · rw [issued_g, begun_stage, h]
    exact withAcquire_begun _ hout
  · rw [issued_g, begun_stage, h]
    exact withAcquire_begun _ hout

section home
variable (hq : quiet s s.cur = true) {c : SqAt} (hc : sqAt (begun s (sqTraits o)) (issued s (sqTraits o)) = .ok c)
  (hp : ((issued s (sqTraits o)).bval s.hand).toNat ≤ sqLast)
  (hup : linkDown (sqReleased s.cur c (begun s (sqTraits o))) (moduleOf (coreOf s.cur)) c.module = false) {v : State} {d : Line}
  (hd : sqFetch ((sqReleased s.cur c (begun s (sqTraits o))).overLinks (moduleOf (coreOf s.cur)) c.module) c = (v, .ok d))
include hq hc hp hup hd

/-- A cursor operation of a quiet thread is what it is at its home, unless a link holds it up. -/
theorem cursorOp_home {w : Wake} {x : State}
    (hx : cursorEnd act (issued s (sqTraits o)) ((issued s (sqTraits o)).bval s.hand).toNat c v d = .wait w x)
    (hheld : x.linkHeld = false) (hstage : (x.thread s.cur).stage ≠ .start) :
    Ends n s (sqTraits o) fun _ _ _ => .wait w x := by
  have hq' := quiet_issued hq (sqTraits_power o)
  have hstart : s.hand.stage = .start := (quiet_parts hq).1
  have hcore := (sqAt_issuer hc).2.1
  refine ends_wait hexec ?_ hstage rfl
  rw [issued_g, begun_stage, hstart]
  dsimp only
  rw [begun_bval]
  refine (withSeq_released hq' hc (decide_eq_false (Nat.not_lt.mpr hp)) 5 _).trans (congrArg _ ?_)
  rw [atSequence_up (by rw [hcore]; exact hup), hcore, issued_g, hd, ← hx]
  -- no link has held it up: what is left is that the model's end is `cursorEnd`, by the three ends of the operation
  refine Eq.trans (congrArg _ ?_) (Res.orHeld_clear (hx ▸ hheld))
  refine ite_congr rfl (fun _ => rfl) fun _ => ?_
  dsimp only
  generalize act _ _ _ _ _ = a
  obtain ⟨u, _ | _ | _⟩ := a <;> rfl

/-- One on a sequence whose running work has not ended waits for it (R145, R147). -/
theorem cursorOp_waits (hv : v.linkHeld = false) (hbusy : sqBusy d = true) (hbad : sqBad d = false) :
    Ends n s (sqTraits o) fun _ _ _ => .wait .unit v := by
  refine cursorOp_home hexec hq hc hp hup hd (if_pos ⟨hbusy, by rw [hbad]; exact Bool.false_ne_true⟩) hv ?_
  rw [sqFetched_stage hd]
  exact nofun

/-- Any other is performed, and answered with its result or its fault. -/
theorem cursorOp_answered (hact : ∀ p c id pc s n, ((act p c id pc s).1.thread n).stage = (s.thread n).stage)
    (hfree : sqBusy d = false ∨ sqBad d = true) :
    let i := issued s (sqTraits o)
    let q := expect v i (.regs [i.d] []) 1 false c.ptr
    let a := act (i.bval s.hand).toNat c q.2 i.rpc q.1
    a.1.linkHeld = false → Ends n s (sqTraits o) fun _ _ _ => .wait .answer (sqEnded c q.2 i.rpc a) := by
  intro i q a ha
  have hfree : ¬ (sqBusy d = true ∧ ¬ sqBad d = true) := by
    rintro ⟨hbusy, hgood⟩
    exact hfree.elim (fun h => Bool.false_ne_true (h.symm.trans hbusy)) hgood
  refine cursorOp_home hexec hq hc hp hup hd (if_neg hfree) ((sqEnded_linkHeld ..).trans ha) ?_
  rw [sqEnded_thread, hact, expect_stage, sqFetched_stage hd]
  exact nofun

end home
end cursor

/-! ## Frames (R148, R149, R362) -/

/-- What `sqframe` is to the words that modify it: B names the pair of its operand. -/
def frameTraits (o : OpR) : Traits := { sqTraits o with imm := none, group := (0, 0, 1) }

section frame
variable (o : OpR) {s : State} (hb : (issued s (frameTraits o)).b ≤ 30)
include hb

/-- The answer of a frame has come: its return is an acquire. -/
theorem sqframe_acquires (hstage : s.hand.stage = .sent ∨ ∃ x, s.hand.stage = .answered x) (hout : s.hand.out = []) :
    Acts (.sqframe o) s (frameTraits o) fun _ _ u => acquireCore u (coreOf s.cur) := by
  refine ends_issued _ _ _ _ _ rfl fun _ _ _ => (if_neg (Nat.not_lt.mpr hb)).trans ?_
  obtain h | ⟨x, h⟩ := hstage
  · rw [issued_g, begun_stage, h]
    exact withAcquire_begun _ hout
  · rw [issued_g, begun_stage, h]
    exact withAcquire_begun _ hout

/-- A frame of a quiet thread goes to the home of its sequence. -/
theorem sqframe_sent (hq : quiet s s.cur = true) (hf : (s.hand.x (issued s (frameTraits o)).b).toNat ≤ sqLast) {c : SqAt}
    (hc : sqAt (begun s (frameTraits o)) (issued s (frameTraits o)) = .ok c)
    (hup : linkDown (sqReleased s.cur c (begun s (frameTraits o))) (moduleOf (coreOf s.cur)) c.module = false) :
    Ends (.sqframe o) s (frameTraits o) fun j h u =>
      let q := expect (sqReleased s.cur c u) j (.regs [j.d] []) 1 false c.ptr
      .wait .answer (q.1.send (fromThread s.cur) (atSlice c.gslice)
        (.frameAdmission ⟨s.cur, q.2, c.gslice, c.job, c.user, c.addr, (h.x j.b).toNat, h.x (j.b + 1), j.rpc, c.ptr, s.cur⟩)) := by
  have hq' := quiet_issued hq (show (frameTraits o).power = false from rfl)
  have hstart : s.hand.stage = .start := (quiet_parts hq).1
  have hcore := (sqAt_issuer hc).2.1
  refine ends_wait rfl ((if_neg (Nat.not_lt.mpr hb)).trans ?_) ?_ rfl
  · rw [issued_g, begun_stage, hstart]
    dsimp only
    rw [begun_x, begun_x]
    refine (withSeq_released hq' hc (decide_eq_false (Nat.not_lt.mpr hf)) 5 _).trans (congrArg _ ?_)
    exact atSequence_up (by rw [hcore]; exact hup) _
  · rw [frameAdmission_thread, expect_stage, sqReleased_stage]
    exact nofun

end frame

/-! ## Reads of a descriptor (R357, R358) -/

/-- What a read of a descriptor ends in: its value is on its way as a long-class result, or its fault is. -/
def sqReadEnd (i : Iss) (c : SqAt) (w : State) : Except FaultRec Word → Res
  | .error e => .done (returnFault i (.regs [i.d] []) e w)
  | .ok x =>
    let q := expect w i (.regs [i.d] []) 1 false c.ptr
    .wait .results ((answer q.1 (fromSlice c.gslice) i.g q.2 (.regs [(i.d, x)] [] 0) none).stage i.g .sent)

theorem onWay_noteEntries (s : State) (core job addr : Nat) (p : Event → Bool) : (s.noteEntries core job addr).onWay p = s.onWay p := rfl

section reads
variable {n : Instr} {o : OpR} {s : State} {bad : Word → Bool} {f : Word → Line → Word → Except FaultRec Word}
  (hexec : exec n s = finish s (sqReadOp o bad f s))
include hexec

/-- The value of a read has come: an acquire. -/
theorem sqReadOp_acquires (hstage : s.hand.stage = .sent) (hout : s.hand.out = []) :
    Acts n s (sqTraits o) fun _ _ u => acquireCore u (coreOf s.cur) := by
  refine ends_issued _ _ _ _ _ hexec fun _ _ _ => (if_pos ?_).trans (withAcquire_begun _ hout)
  rw [issued_g, begun_stage, hstage]

/-- A descriptor that has been read yields a value, a long-class result for which the instruction waits, or a fault in its place. -/
theorem sqReadOp_ends (hstart : s.hand.stage = .start) (hout : s.hand.out = []) (hway : s.onWay (isDirectWrite s.cur) = false) {c : SqAt}
    (hc : sqAt (begun s (sqTraits o)) (issued s (sqTraits o)) = .ok c) (hb : bad ((issued s (sqTraits o)).bval s.hand) = false)
    {w : State} {bs : List Byte}
    (hr : readBytes ((begun s (sqTraits o)).noteEntries c.core c.job c.addr) s.cur c.ptr 128 .load false gkLoad (issued s (sqTraits o)).pc =
      (w, .ok bs))
    (hw : w.linkHeld = false) {x : Except FaultRec Word} (hx : f ((issued s (sqTraits o)).bval s.hand) (lineOf bs) c.ptr = x) :
    Ends n s (sqTraits o) fun _ _ _ => sqReadEnd (issued s (sqTraits o)) c w x := by
  refine ends_issued _ _ _ _ _ hexec fun _ _ _ => (if_neg ?_).trans ?_
  · rw [issued_g, begun_stage, hstart]
    exact nofun
  · rw [issued_g, begun_bval, withSeq_ok hc hb, withRoomOut_none ((begun_out s _).trans hout), withWritten, issued_g, onWay_noteEntries,
      begun_onWay (sqTraits_power o), hway, if_neg Bool.false_ne_true, hr]
    dsimp only
    rw [hx]
    obtain e | x := x
    · exact Res.orHeld_clear ((returnFault_linkHeld ..).trans hw)
    · dsimp only
      rw [endAccess_out]
      · refine Res.orHeld_clear (Eq.trans ?_ hw)
        exact answer_linkHeld ..
      · rw [answer_out]
        simp [expect]

end reads

/-! ## The statement -/

/-- Settles O39: a quiet thread's cursor operation is what it is at the home of its descriptor, the return of every operation an acquire, and
a read's end its value or the fault of a descriptor that names no sequence. -/
theorem sequenceCursors : Obligations.SequenceCursors := by
  intro o s
  have hcur : exec (.sqcur o) s = finish s (sqReadOp o _ _ s) := rfl
  have hslot : exec (.sqslot o) s = finish s (sqReadOp o _ _ s) := rfl
  have hoperand (b : Word) : (bits b 63 2 != 0 || bits b 1 0 == 3) = (decide (bits b 63 2 ≠ 0) || bits b 1 0 == 3) := by
    rw [decide_not]
    rfl
  refine ⟨fun hstage hout => ⟨cursorOp_acquires rfl hstage hout, cursorOp_acquires rfl hstage hout, cursorOp_acquires rfl hstage hout,
      fun hb => sqframe_acquires o hb hstage hout⟩,
    fun hq c hc hp hup v d hd hv l hl => ?_, fun hq hb hf c hc hup => sqframe_sent o hb hq hf hc hup,
    ⟨fun c hc hb hstart hout hway w bs hr hw _ => sqReadOp_ends hcur hstart hout hway hc ((hoperand _).trans hb) hr hw rfl,
      sqReadOp_acquires hcur⟩,
    ⟨fun c hc hb hstart hout hway w bs hr hw hgood => sqReadOp_ends hslot hstart hout hway hc hb hr hw (if_neg (by simpa using hgood)),
      sqReadOp_acquires hslot⟩,
    fun c hc hp hstart hout hway w bs hr hw hbad => ?_⟩
  · have hwaits {n act} (hexec : exec n s = finish s (cursorOp o act s)) := cursorOp_waits hexec hq hc hp hup hd hv
    simp only [List.mem_cons, List.not_mem_nil, or_false] at hl
    obtain rfl | rfl | rfl := hl
    · exact ⟨hwaits rfl, cursorOp_answered rfl hq hc hp hup hd fun p c id pc => sqSample_stage c id pc p⟩
    · exact ⟨hwaits rfl, cursorOp_answered rfl hq hc hp hup hd fun p c _ _ => sqSetPlayback_stage c p⟩
    · exact ⟨hwaits rfl, cursorOp_answered rfl hq hc hp hup hd fun p c _ _ => sqTruncate_stage c p⟩
  · have hptr : c.ptr = s.hand.x (issued s (sqTraits o)).a := (sqAt_issuer hc).2.2.trans (begun_x ..)
    have hp := decide_eq_false (Nat.not_lt.mpr hp)
    exact hptr ▸ sqReadOp_ends hslot hstart hout hway hc hp hr hw (if_pos hbad)

end Sys2Proof.Machine

/-! # The packet in which a thread leaves its slot -/

namespace Sys2Proof.Machine

/-! ## What HAZ and MODFB leave: the places that a pointer, a module and a move name -/

@[simp] theorem State.peekNat_setThread (s : State) (g : Nat) (y : Thread) (a n : Nat) : (s.setThread g y).peekNat a n = s.peekNat a n := by
  simp only [State.peekNat, State.peeks_setThread]

@[simp] theorem State.jobEntry_setThread (s : State) (g : Nat) (y : Thread) (core job : Nat) :
    (s.setThread g y).jobEntry core job = s.jobEntry core job := by
  simp only [State.jobEntry, State.jobEntryAt, State.core_setThread, State.modu_setThread, State.peekNat_setThread]

@[simp] theorem State.region_setThread (s : State) (g : Nat) (y : Thread) (core job : Nat) :
    (s.setThread g y).region core job = s.region core job := by
  funext r
  simp only [State.region, State.regionAt, State.core_setThread, State.jobEntry_setThread, State.peekNat_setThread]

@[simp] theorem State.privates_setThread (s : State) (g : Nat) (y : Thread) (rd : Nat → Word) (n : Nat) :
    (s.setThread g y).privates rd n = s.privates rd n := by
  induction n with
  | zero => rfl
  | succ n ih => rw [State.privates, State.privates, ih]

@[simp] theorem State.reachable_setThread (s : State) (g : Nat) (y : Thread) (m job dest : Nat) :
    (s.setThread g y).reachable m job dest = s.reachable m job dest := by
  simp only [State.reachable, State.partition, State.route, State.modu_setThread, State.peekNat_setThread]

@[simp] theorem State.home_setThread (s : State) (g : Nat) (y : Thread) (core job a : Nat) :
    (s.setThread g y).home core job a = s.home core job a := by
  simp only [State.home, State.homeDie, State.jobEntry_setThread, State.region_setThread, State.privates_setThread,
    State.reachable_setThread]

@[simp] theorem State.privateBase_setThread (s : State) (g : Nat) (y : Thread) (core job : Nat) :
    (s.setThread g y).privateBase core job = s.privateBase core job := by
  unfold State.privateBase
  rw [State.region_setThread, State.privates_setThread]

/-- A pointer leads where it did, while the thread keeps its mode, its job and its origin. -/
theorem State.resolve_setThread {s : State} {g : Nat} {y : Thread} (hm : y.ctx.mode = (s.thread g).ctx.mode)
    (hi : y.ctx.ids = (s.thread g).ctx.ids) (ho : y.ctx.origin = (s.thread g).ctx.origin) (ptr : Word) (op : Access) :
    (s.setThread g y).resolve g ptr op = s.resolve g ptr op := by
  simp only [State.resolve, State.thread_setThread_self, State.jobEntry_setThread, State.privateBase_setThread, hm, hi, ho]

theorem roomiest_setThread (s : State) (g : Nat) (y : Thread) (first n : Nat) :
    roomiest (s.setThread g y) first n = roomiest s first n := by
  induction n with
  | zero => rfl
  | succ n ih => simp only [roomiest, ih, State.core_setThread]

@[simp] theorem moveTarget_setThread (s : State) (g : Nat) (y : Thread) (dest : Nat) (near : Bool) :
    moveTarget (s.setThread g y) dest near = moveTarget s dest near := by
  simp only [moveTarget, roomiest_setThread]

theorem enginesIdle_setThread {s : State} {g : Nat} {y : Thread} (he : y.engines = (s.thread g).engines)
    (hs : y.streams = (s.thread g).streams) : enginesIdle (s.setThread g y) g = enginesIdle s g := by
  simp only [enginesIdle, drainsOut, State.thread_setThread_self, State.core_setThread, he, hs]

section begun
variable {s : State} {t : Traits} (h : t.power = false)
include h

/-- What two flags of the thread do not change stands as an effect begins. -/
theorem begun_keeps {β : Type} (f : State → β) (hf : ∀ a b, f (s.setThread s.cur (s.hand.flagged a b)) = f s) :
    f (begun s t) = f s := by
  obtain h | h := begun_cases s t h
  · rw [h]
  · rw [h, State.modCtx_eq]
    exact hf _ _

theorem begun_offJob (core : Nat) : offJob (begun s t) s.cur core = offJob s s.cur core := by
  refine begun_keeps h (offJob · s.cur core) fun a b => ?_
  simp only [offJob, State.reachable_setThread, State.thread_setThread_self, Thread.flagged_ids]
  rfl

theorem begun_tileOperandBad (m : Nat) (w : Word) : tileOperandBad (begun s t) s.cur m w = tileOperandBad s s.cur m w := by
  refine begun_keeps h (tileOperandBad · s.cur m w) fun a b => ?_
  simp only [tileOperandBad, State.reachable_setThread, State.thread_setThread_self, Thread.flagged_ids]
  rfl

theorem begun_migrTarget (ptr : Word) : migrTarget (begun s t) s.cur ptr = migrTarget s s.cur ptr := by
  refine begun_keeps h (migrTarget · s.cur ptr) fun a b => ?_
  simp only [migrTarget, State.resolve_setThread (y := s.hand.flagged a b) rfl rfl rfl, State.home_setThread,
    State.thread_setThread_self, Thread.flagged_ids]
  rfl

theorem begun_moveTarget (dest : Nat) (near : Bool) : moveTarget (begun s t) dest near = moveTarget s dest near :=
  begun_keeps h (moveTarget · dest near) fun _ _ => moveTarget_setThread ..

theorem begun_enginesIdle : enginesIdle (begun s t) s.cur = enginesIdle s s.cur :=
  begun_keeps h (enginesIdle · s.cur) fun _ _ => enginesIdle_setThread rfl rfl

end begun

/-! ## The move of a thread that nothing holds back (R162, R276) -/

/-- The move to a core of a thread that has nothing outstanding: at its own core a commit and an acquire; for another one it leaves its slot
in a packet, with the next word's address in the task that its commit opens. -/
def moveEnd (carry : Bool) (g dest : Nat) (near : Bool) (core : Nat) (s : State) : Res :=
  if core = coreOf g then .done (acquireCore (s.modThread g (committed false)) (coreOf g))
  else
    let w := s.modThread g fun h => let n := committed false h; n.advance (nextPc (wordAddr n.ctx.pc))
    .gone (sendPacket w g (mkPacket w g carry dest near))

theorem migrate_quiet {s : State} {i : Iss} (hq : quiet s i.g = true) (hidle : enginesIdle s i.g = true) (o : OpR) (dest : Nat)
    (near : Bool) : migrate i o dest near s = moveEnd (o.d.getLsbD 0) i.g dest near (moveTarget s dest near) s := by
  obtain ⟨-, hout, -, -, -, -, heng, -⟩ := quiet_parts hq
  have heng' : ((s.modThread i.g (committed false)).thread i.g).eng = [] := by simpa using heng
  have hout' : ((s.modThread i.g (committed false)).thread i.g).out = [] := by simpa using hout
  have hidle' : enginesIdle (s.modThread i.g (committed false)) i.g = true := 
    (enginesIdle_setThread (committed_engines ..) (committed_streams ..)).trans hidle
  rw [migrate, withRelease_quiet hq, surfaceEngine_none heng', if_neg (not_not_intro hidle'), State.modThread_eq, moveTarget_setThread,
    moveEnd]
  split
  · rw [← State.modThread_eq, withAcquire_none hout', noteChecked_done]
  · simp only [noteChecked_gone, State.modThread_eq, State.thread_setThread_self, State.setThread_setThread]

section quiet
variable (o : OpR) {s : State} (hq : quiet s s.cur = true) (hidle : enginesIdle s s.cur = true)
include hq hidle

/-- What a move comes to in the machine in which its effect begins. -/
theorem migrate_begun {t : Traits} (ht : t.power = false) (dest : Nat) (near : Bool) :
    migrate (issued s t) o dest near (begun s t) =
      moveEnd (o.d.getLsbD 0) s.cur dest near (moveTarget s dest near) (begun s t) := by
  rw [migrate_quiet (i := issued s t) ((quiet_begun s t ht).trans hq) ((begun_enginesIdle ht).trans hidle), begun_moveTarget ht, issued_g]

/-- A core that the job may use. -/
theorem migrC_ends (hcore : offJob s s.cur (s.hand.x (issued s (ctl o (fk o.d) (fx o.a) (fk o.b))).a).toNat = false) :
    Ends (.migrC o) s (ctl o (fk o.d) (fx o.a) (fk o.b)) fun i h u =>
      moveEnd (o.d.getLsbD 0) s.cur (h.x i.a).toNat false (moveTarget s (h.x i.a).toNat false) u := by
  refine ends_issued _ _ _ _ _ rfl fun _ _ _ => ?_
  simp only [issued_g, begun_x, begun_offJob (t := ctl o (fk o.d) (fx o.a) (fk o.b)) rfl, hcore, Bool.false_eq_true, if_false]
  exact migrate_begun o hq hidle rfl ..

/-- The place that a pointer leads to. -/
theorem migrA_ends {dest : Nat} {near : Bool}
    (hto : migrTarget s s.cur (s.hand.x (issued s (ctl o (fk o.d) (fx o.a) (fk o.b))).a) = .ok (dest, near)) :
    Ends (.migrA o) s (ctl o (fk o.d) (fx o.a) (fk o.b)) fun _ _ u =>
      moveEnd (o.d.getLsbD 0) s.cur dest near (moveTarget s dest near) u := by
  refine ends_issued _ _ _ _ _ rfl fun _ _ _ => ?_
  simp only [issued_g, begun_x, begun_migrTarget (t := ctl o (fk o.d) (fx o.a) (fk o.b)) rfl, hto]
  exact migrate_begun o hq hidle rfl ..

end quiet

/-- The module of a handle's home, as `migr.h` names it: x0 is the current one. -/
def handleModule (i : Iss) (h : Thread) : Nat := if i.b = 0 ∧ i.bv.isNone then moduleOf (coreOf i.g) else (i.bval h).toNat

/-- The cluster nearest the home of a handle. -/
theorem migrH_ends (o : OpR) {s : State} (hq : quiet s s.cur = true) (hidle : enginesIdle s s.cur = true) {m : Nat} {w : Word}
    (hm : handleModule (issued s (ctl o (fk o.d) ⟨o.a.toNat, .h⟩ (fx o.b))) s.hand = m)
    (hw : s.hand.handle (issued s (ctl o (fk o.d) ⟨o.a.toNat, .h⟩ (fx o.b))).a = w) (hgood : tileOperandBad s s.cur m w = false) :
    Ends (.migrH o) s (ctl o (fk o.d) ⟨o.a.toNat, .h⟩ (fx o.b)) fun _ _ u =>
      let dest := nearCluster (tileSlice m (bits w 63 24)) * 8
      moveEnd (o.d.getLsbD 0) s.cur dest true (moveTarget s dest true) u := by
  refine ends_issued _ _ _ _ _ rfl fun _ _ hu => ?_
  rw [handleModule, issued_g] at hm
  simp only [issued_g, hu, Thread.flagged_handle, Thread.flagged_bval, hm, hw,
    begun_tileOperandBad (t := ctl o (fk o.d) ⟨o.a.toNat, .h⟩ (fx o.b)) rfl, hgood, Bool.false_eq_true, if_false]
  exact migrate_begun o hq hidle rfl ..

/-! ## Fields of a packet (R163) -/

/-- Whether fields lie below a bit, each below the one before it. -/
def fieldsBelow : Nat → List (Nat × Nat × Nat) → Bool
  | _, [] => true
  | top, (hi, lo, _) :: l => decide (lo ≤ hi) && decide (hi < top) && fieldsBelow lo l

theorem fieldBits_cons (hi lo v : Nat) (l : List (Nat × Nat × Nat)) :
    fieldBits ((hi, lo, v) :: l) = v % 2 ^ (hi + 1 - lo) * 2 ^ lo + fieldBits l := rfl

/-- A field stays below the bit above its own. -/
theorem field_lt {hi lo n : Nat} (hle : lo ≤ hi) (v : Nat) (hn : n < 2 ^ lo) : v % 2 ^ (hi + 1 - lo) * 2 ^ lo + n < 2 ^ (hi + 1) := by
  have hv : v % 2 ^ (hi + 1 - lo) < 2 ^ (hi + 1 - lo) := Nat.mod_lt _ (Nat.two_pow_pos _)
  calc v % 2 ^ (hi + 1 - lo) * 2 ^ lo + n
    _ < (v % 2 ^ (hi + 1 - lo) + 1) * 2 ^ lo := by rw [Nat.succ_mul]; omega
    _ ≤ 2 ^ (hi + 1 - lo) * 2 ^ lo := Nat.mul_le_mul_right _ hv
    _ = 2 ^ (hi + 1) := by rw [← Nat.pow_add]; congr 1; omega

theorem fieldBits_lt {top : Nat} {l : List (Nat × Nat × Nat)} (h : fieldsBelow top l = true) : fieldBits l < 2 ^ top := by
  induction l generalizing top with
  | nil => exact Nat.two_pow_pos _
  | cons e l ih =>
    obtain ⟨hi, lo, v⟩ := e
    simp only [fieldsBelow, Bool.and_eq_true, decide_eq_true_eq] at h
    obtain ⟨⟨hle, htop⟩, hl⟩ := h
    exact Nat.lt_of_lt_of_le (field_lt hle v (ih hl)) (Nat.pow_le_pow_right Nat.two_pos htop)

/-- The highest field stands above the others. -/
theorem fieldBits_div_top {hi lo v : Nat} {l : List (Nat × Nat × Nat)} (h : fieldsBelow lo l = true) :
    fieldBits ((hi, lo, v) :: l) / 2 ^ lo = v % 2 ^ (hi + 1 - lo) := by
  rw [fieldBits_cons, Nat.add_comm, Nat.add_mul_div_right _ _ (Nat.two_pow_pos lo), Nat.div_eq_of_lt (fieldBits_lt h), Nat.zero_add]

theorem fieldsBelow_mem {top hi lo v : Nat} {l : List (Nat × Nat × Nat)} (h : fieldsBelow top l = true) (hm : (hi, lo, v) ∈ l) :
    lo ≤ hi ∧ hi < top := by
  induction l generalizing top with
  | nil => exact absurd hm List.not_mem_nil
  | cons e l ih =>
    simp only [fieldsBelow, Bool.and_eq_true, decide_eq_true_eq] at h
    obtain ⟨⟨hle, htop⟩, hl⟩ := h
    obtain rfl | hm := List.mem_cons.mp hm
    · exact ⟨hle, htop⟩
    · have hmem := ih hl hm
      omega

/-- A multiple of the power above a field leaves the field as it is. -/
theorem add_above_div_mod {hi lo top : Nat} (hle : lo ≤ hi) (htop : hi < top) (a n : Nat) :
    (a * 2 ^ top + n) / 2 ^ lo % 2 ^ (hi + 1 - lo) = n / 2 ^ lo % 2 ^ (hi + 1 - lo) := by
  have hpow : 2 ^ top = 2 ^ (top - (hi + 1)) * 2 ^ (hi + 1 - lo) * 2 ^ lo := by
    rw [← Nat.pow_add, ← Nat.pow_add]
    congr 1
    omega
  rw [hpow, ← Nat.mul_assoc, ← Nat.mul_assoc, Nat.add_comm, Nat.add_mul_div_right _ _ (Nat.two_pow_pos lo), Nat.add_mul_mod_self_right]

/-- A field reads as the value put into it, cut to its width. -/
theorem fieldBits_read {top hi lo v n : Nat} {l : List (Nat × Nat × Nat)} (h : fieldsBelow top l = true) (hm : (hi, lo, v) ∈ l)
    (hn : 2 ^ (hi + 1 - lo) = n) : fieldBits l / 2 ^ lo % n = v % n := by
  subst hn
  induction l generalizing top with
  | nil => exact absurd hm List.not_mem_nil
  | cons e l ih =>
    obtain ⟨hi', lo', v'⟩ := e
    simp only [fieldsBelow, Bool.and_eq_true] at h
    obtain ⟨-, hl⟩ := h
    obtain he | hm := List.mem_cons.mp hm
    · cases he
      rw [fieldBits_div_top hl, Nat.mod_mod]
    · obtain ⟨hle, hlt⟩ := fieldsBelow_mem hl hm
      rw [fieldBits_cons, add_above_div_mod hle hlt, ih hl hm]

/-- Below its lowest field a table has zeros. -/
theorem fieldBits_mod {n : Nat} {l : List (Nat × Nat × Nat)} (h : (l.all fun e => decide (n ≤ e.2.1)) = true) :
    fieldBits l % 2 ^ n = 0 := by
  induction l with
  | nil => exact Nat.zero_mod _
  | cons e l ih =>
    obtain ⟨hi, lo, v⟩ := e
    simp only [List.all_cons, Bool.and_eq_true, decide_eq_true_eq] at h
    obtain ⟨hlo, hl⟩ := h
    have hdvd : 2 ^ n ∣ v % 2 ^ (hi + 1 - lo) * 2 ^ lo := Nat.dvd_mul_left_of_dvd (Nat.pow_dvd_pow 2 hlo) _
    rw [fieldBits_cons, Nat.add_mod, Nat.mod_eq_zero_of_dvd hdvd, ih hl, Nat.add_zero, Nat.zero_mod]

/-- Nine registers stand in a packet between its first field and the rest. -/
theorem nineRegs_add (lo : Nat) (r : Nat → Word) (e : Nat × Nat × Nat) (l : List (Nat × Nat × Nat)) :
    nineRegs lo r + fieldBits (e :: l) =
      fieldBits (e :: (((List.range 9).map fun k => (lo + 575 - 64 * k, lo + 512 - 64 * k, (r (k + 1)).toNat)) ++ l)) := by
  simp only [nineRegs, fieldBits, List.map_cons, List.map_append, List.sum_cons, List.sum_append]
  exact Nat.add_left_comm ..

/-- The base of a packet, from its highest field down. -/
theorem packetBase_fields (p : Packet) : ∃ l, packetBase p = fieldBits ((1023, 960, p.ctx.pc.toNat) :: l) ∧
    fieldsBelow 1024 ((1023, 960, p.ctx.pc.toNat) :: l) = true ∧
    (((1023, 960, p.ctx.pc.toNat) :: l).all fun e => decide (179 ≤ e.2.1)) = true ∧ (240, 222, p.dest) ∈ l ∧ (198, 195, p.fmt) ∈ l :=
  ⟨_, nineRegs_add .., rfl, rfl, by simp, by simp⟩

/-- The control block of a packet, from its highest field down. -/
theorem packetControl_fields (p : Packet) : ∃ l, packetControl p = fieldBits ((2047, 1984, p.ctx.rpc.toNat) :: l) ∧
    fieldsBelow 2048 ((2047, 1984, p.ctx.rpc.toNat) :: l) = true ∧
    (((2047, 1984, p.ctx.rpc.toNat) :: l).all fun e => decide (715 ≤ e.2.1)) = true ∧ (883, 820, p.trem.toNat) ∈ l :=
  ⟨_, nineRegs_add .., rfl, rfl, by simp⟩

theorem length_packetBytes (p : Packet) : (packetBytes p).length = if p.carry then 896 else 384 := by
  simp only [packetBytes, List.length_append, length_leBytes]
  split
  · simp only [lineBytes, List.length_flatMap, length_leBytes, List.map_const', List.length_range]
    rfl
  · rfl

/-- A packet fills the flits that its bytes need, and no more. -/
theorem flitsOf_packet (p : Packet) : flitsOf (.migrantPacketArrival p) = ((packetBytes p).length + 255) / 256 := by
  rw [length_packetBytes, flitsOf]
  split <;> rfl

/-- Settles O12: nothing of the thread is outstanding and no engine of it works, so each form's move is done at once; a packet's fields stand
apart, each below the one before it. -/
theorem migrationLeavesInAPacket : Obligations.MigrationLeavesInAPacket := by
  intro o s hq hidle
  refine ⟨migrC_ends o hq hidle, fun _ _ => migrA_ends o hq hidle, migrH_ends o hq hidle rfl rfl, fun p => ?_⟩
  obtain ⟨lb, hbase, hbelow, hlow, hdest, hfmt⟩ := packetBase_fields p
  obtain ⟨lc, hcontrol, hcbelow, hclow, htrem⟩ := packetControl_fields p
  rw [hbase, hcontrol]
  refine ⟨flitsOf_packet p, length_packetBytes p, ?_, ?_, ?_, fieldBits_mod hlow, ?_, ?_, fieldBits_mod hclow⟩
  · exact (fieldBits_div_top (Bool.and_eq_true_iff.mp hbelow).2).trans (BitVec.toNat_mod_cancel _)
  · exact fieldBits_read hbelow (List.mem_cons_of_mem _ hdest) rfl
  · exact fieldBits_read hbelow (List.mem_cons_of_mem _ hfmt) rfl
  · exact (fieldBits_div_top (Bool.and_eq_true_iff.mp hcbelow).2).trans (BitVec.toNat_mod_cancel _)
  · exact (fieldBits_read hcbelow (List.mem_cons_of_mem _ htrem) rfl).trans (BitVec.toNat_mod_cancel _)

end Sys2Proof.Machine

/-! # A displaced word and the interrupt that comes before it -/

namespace Sys2Proof.Machine

/-- `add x1, x2, x3`, and its word. -/
def addOp : OpR := ⟨false, 0, 1, 2, 3⟩
def addWord : BitVec 32 := 0b0_000001_00000_00001_00010_00011_00000

/-- A user thread that a displaced return has left with `add` to run, interrupts enabled and a soft interrupt pending, as its turn comes. -/
def displacedReturn : State :=
  { (State.reset.withFetchWord 32 0).modThread 0 fun h =>
      { h with displaced := true, ctx := { h.ctx with xeq := addWord, mode := .user, ie := true, imask := 1, ipend := 1 } } with
    choice := [], cur := 0 }

/-- The mode that a thread is in once a step has ended. -/
def modeAfter (g : Nat) : Host.Outcome State Fault Refusal → Option Mode
  | .next s => some (s.thread g).ctx.mode
  | .fault _ | .refused _ => none

/-- The interrupt is due at the issue of the displaced word, and comes before it (R160, R198). -/
theorem select_displacedReturn :
    select { displacedReturn with choice := [.issue 0] } = (displacedReturn, .event (.interruptEntry ⟨0, 0⟩)) := by decide +kernel

theorem step_displacedReturn :
    step { displacedReturn with choice := [.issue 0] } = exec (.interruptEntry ⟨0, 0⟩) displacedReturn := by
  rw [step, select_displacedReturn]
  rfl

/-- Its entry is to supervisor mode (R160). -/
theorem modeAfter_interruptEntry : modeAfter 0 (exec (.interruptEntry ⟨0, 0⟩) displacedReturn) = some .supervisor := by decide +kernel

/-- The displaced word itself leaves its thread in user mode. -/
theorem modeAfter_add : modeAfter 0 (exec (.add addOp) displacedReturn) = some .user := by decide +kernel

/-- Refutes O55: its clause on a displaced word has the step run that word whatever else is due at the issue. A takeable interrupt, here a soft
one of a user thread after a displaced return, is taken first (R160, R198); so is a fault of an earlier instruction. The clauses on fetched
words exclude both by their hypotheses `h.pend = []` and `takeable v g = none`, which this one leaves out. -/
theorem not_stepRuns : ¬ Obligations.StepRuns := by
  intro h
  obtain ⟨-, -, hdisplaced, -⟩ := h { displacedReturn with choice := [.issue 0] } []
  obtain ⟨hruns, -⟩ := hdisplaced 0 rfl (by decide) (by decide +kernel) (by decide +kernel) (by decide +kernel)
  have hadd : step { displacedReturn with choice := [.issue 0] } = exec (.add addOp) displacedReturn := hruns _ rfl
  have hmode := modeAfter_add
  rw [← hadd, step_displacedReturn, modeAfter_interruptEntry] at hmode
  exact absurd hmode (by decide)

end Sys2Proof.Machine

/-! # Waiting tasks and work lists -/

namespace Sys2Proof.Machine

/-! ## As an effect begins -/

theorem begun_lease {s : State} {t : Traits} (h : t.power = false) (g : Nat) : (begun s t).lease g = s.lease g := by
  rw [State.lease, begun_core h, State.lease]

/-! ## The entry that a thread describes (R300) -/

/-- The faults of an entry in their order: a word with a reserved bit or value, what the thread may not ask for, and the address of the
task's first instruction. -/
def entryFault (bad refused : Prop) [Decidable bad] [Decidable refused] (pc : Word) : Option FaultRec :=
  if bad then some badOperand else if refused then some denied else taskPcFault pc

theorem taskPcFault_none {pc : Word} (h : ¬(bits pc 63 57 ≠ 0 ∨ bits pc 1 0 ≠ 0)) : taskPcFault pc = none := by
  obtain ⟨hcanonical, haligned⟩ := not_or.mp h
  rw [taskPcFault, bne_eq_false_iff_eq.mpr (not_not.mp hcanonical), bne_eq_false_iff_eq.mpr (not_not.mp haligned)]
  rfl

section precise
variable {i : Iss} {u : State} {bad refused : Prop} [Decidable bad] [Decidable refused] {pc : Word} {k : State → Res}

theorem precise_entryFault_bad (hs : (u.thread i.g).stage = .start) (hb : bad) :
    precise i (entryFault bad refused pc) u k = .trap badOperand u := by
  rw [entryFault, if_pos hb]
  exact if_pos hs

theorem precise_entryFault_refused (hs : (u.thread i.g).stage = .start) (hb : ¬bad) (hr : refused) :
    precise i (entryFault bad refused pc) u k = .trap denied u := by
  rw [entryFault, if_neg hb, if_pos hr]
  exact if_pos hs

theorem precise_entryFault_none (hb : ¬bad) (hr : ¬refused) (hpc : ¬(bits pc 63 57 ≠ 0 ∨ bits pc 1 0 ≠ 0)) :
    precise i (entryFault bad refused pc) u k = k u := by
  rw [entryFault, if_neg hb, if_neg hr, taskPcFault_none hpc]
  rfl

end precise

/-- The task that an arming describes. -/
def armedTask (i : Iss) (h : Thread) (u : State) : WtEntry :=
  let d := h.x i.d
  { pc := h.x i.a, arg := i.bval h, thresh := bits d 31 0, ctr := bits d 37 32, ids := h.ctx.ids, mode := Mode.of (bits d 39 38)
    prio := (u.lease i.g).prio, fired := false, value := 0, order := 0, into := none }

/-- A task goes to a free place of its core's table, and its counter is evaluated (R189); with none it waits for one. -/
def armAt (core : Nat) (e : WtEntry) (u : State) : Option Nat → Res
  | none => .wait (.tableFull 0) u
  | some n => .done (evalCounter (u.modCore core fun k => { k with wt := tput k.wt n e }) core e.ctr)

/-- What `wtarm` comes to. -/
theorem wtarm_ends (o : OpR) (s : State) : Ends (.wtarm o) s (Traits.ofR o (fx o.d) (fx o.a) (fx o.b)) fun i h u =>
    let d := h.x i.d
    let owner := (tget Arrival.zero (s.core (coreOf s.cur)).arrivals (bits d 37 32)).owner
    precise i (entryFault (bits d 31 0 = 0 ∨ bits d 39 38 = 3 ∨ bits d 63 40 ≠ 0)
      (¬(bits d 39 38 ≤ h.ctx.mode.code ∧ owner = h.ctx.ids.job)) (h.x i.a)) u fun v =>
        armAt (coreOf s.cur) (armedTask i h v) v (firstFree (v.core (coreOf s.cur)).wt 0 Config.waitingTasks) := by
  refine ends_issued _ _ _ _ _ rfl fun _ _ hu => ?_
  simp only [issued_g, hu, Thread.flagged_x, Thread.flagged_bval, Thread.flagged_mode, Thread.flagged_ids,
    begun_core (Traits.ofR_power o (fx o.d) (fx o.a) (fx o.b)), orFault, entryFault, Bool.or_eq_true, beq_iff_eq, bne_iff_ne, or_assoc,
    decide_eq_true_iff, not_and_or, Nat.not_le]
  refine congrArg _ (funext fun v => ?_)
  cases firstFree (v.core (coreOf s.cur)).wt 0 Config.waitingTasks <;> rfl

/-- The work-list entry that a thread describes. -/
def workEntry (i : Iss) (h : Thread) (u : State) : WorkEntry :=
  let d := h.x i.d
  ⟨h.x i.a, i.bval h, .ofNat 16 (bits d 15 0), h.ctx.ids, Mode.of (bits d 17 16), (u.lease i.g).prio⟩

/-- What `wlpush` comes to. -/
theorem wlpush_ends (o : OpR) (s : State) : Ends (.wlpush o) s (Traits.ofR o (fx o.d) (fx o.a) (fx o.b)) fun i h u =>
    let d := h.x i.d
    let c := coreOf s.cur
    precise i (entryFault (bits d 17 16 = 3 ∨ bits d 63 18 ≠ 0) (h.ctx.mode.code < bits d 17 16) (h.x i.a)) u fun v =>
      if Config.workList ≤ (v.core c).work.length then .wait (.tableFull 1) v
      else .done (((v.modCore c fun k => { k with work := k.work ++ [workEntry i h v] }).askLoader c).askSextant c) := by
  refine ends_issued _ _ _ _ _ rfl fun _ _ hu => ?_
  simp only [issued_g, hu, Thread.flagged_x, Thread.flagged_bval, Thread.flagged_mode, Thread.flagged_ids, orFault, entryFault,
    Bool.or_eq_true, beq_iff_eq, bne_iff_ne, decide_eq_true_iff]
  rfl

/-- Settles O24: each clause is a branch of the instruction's lemma above. -/
theorem waitingTasks : Obligations.WaitingTasks := by
  intro o s
  have hp := Traits.ofR_power o (fx o.d) (fx o.a) (fx o.b)
  have hstart := begun_stage s (Traits.ofR o (fx o.d) (fx o.a) (fx o.b))
  refine ⟨fun hs hbad => (wtarm_ends o s).congr (precise_entryFault_bad (hstart.trans hs) hbad),
    fun hs hbad hno => (wtarm_ends o s).congr (precise_entryFault_refused (hstart.trans hs) hbad hno),
    fun hbad hmay hpc n hn => (wtarm_ends o s).congr ((precise_entryFault_none hbad (not_not_intro hmay) hpc).trans ?_),
    fun hbad hmay hpc hn => (wtarm_ends o s).congr ((precise_entryFault_none hbad (not_not_intro hmay) hpc).trans ?_),
    fun hs hbad => (wlpush_ends o s).congr (precise_entryFault_bad (hstart.trans hs) hbad),
    fun hs hbad hno => (wlpush_ends o s).congr (precise_entryFault_refused (hstart.trans hs) hbad hno),
    fun hbad hmay hpc hroom => (wlpush_ends o s).congr ((precise_entryFault_none hbad (Nat.not_lt.mpr hmay) hpc).trans ?_)⟩
  · rw [begun_core hp, hn, armAt, armedTask, begun_lease hp]
    rfl
  · rw [begun_core hp, hn, armAt]
  · rw [begun_core hp, if_neg (Nat.not_le.mpr hroom), workEntry, begun_lease hp]
    rfl

end Sys2Proof.Machine

/-! # Tile queues -/

namespace Sys2Proof.Machine

/-! ## As an effect begins -/

/-- R159: fewer than sixteen results are outstanding, so the effect goes on at once. -/
theorem withRoomOut_begun {s : State} (h : s.hand.out.length < 16) (t : Traits) (k : State → Res) :
    withRoomOut (issued s t) (begun s t) k = k (begun s t) := by
  refine if_neg (Nat.not_le.mpr ?_)
  rw [issued_g, begun_out]
  exact h

theorem begun_cluster {s : State} {t : Traits} (h : t.power = false) (c : Nat) : (begun s t).cluster c = s.cluster c :=
  begun_keeps h (State.cluster · c) fun _ _ => State.cluster_setThread ..

theorem begun_ids (s : State) (t : Traits) : ((begun s t).thread s.cur).ctx.ids = s.hand.ctx.ids := by
  rw [begun_thread, Thread.flagged_ids]

/-- A result that is expected says nothing of a cluster. -/
theorem cluster_expect (s : State) (i : Iss) (d : Dest) (parts : Nat) (vol : Bool) (ptr : Word) (c : Nat) :
    (expect s i d parts vol ptr).1.cluster c = s.cluster c := rfl

/-- An instruction that returns a long-class result, with a fault of its own to find first: it finds none and has room for its result, so its
effect is what follows. -/
theorem ends_roomed {i : Instr} {s : State} {t : Traits} {r : Iss → Thread → State → Res} {bad : Iss → State → Bool}
    {k : Iss → State → State → Res}
    (hexec : exec i s = finish s (issue s t fun j u => precise j (orFault (bad j u) badOperand none) u fun v => withRoomOut j v (k j u)))
    (hroom : s.hand.out.length < 16) (hbad : bad (issued s t) (begun s t) = false)
    (hk : k (issued s t) (begun s t) (begun s t) = r (issued s t) s.hand (begun s t)) : Ends i s t r := by
  refine ends_issued _ _ _ _ _ hexec fun _ _ _ => ?_
  rw [hbad, ← hk]
  exact withRoomOut_begun hroom t _

/-- The same of an instruction whose fault is a reserved bit of its ticket. -/
theorem ends_ticket {i : Instr} {s : State} {t : Traits} {r : Iss → Thread → State → Res} {k : Iss → State → State → Res}
    (hexec : exec i s = finish s (issue s t fun j u =>
      precise j (orFault (ticketBad ((u.thread j.g).x j.a)) badOperand none) u fun v => withRoomOut j v (k j u)))
    (hroom : s.hand.out.length < 16) (hticket : ticketBad (s.hand.x (issued s t).a) = false)
    (hk : k (issued s t) (begun s t) (begun s t) = r (issued s t) s.hand (begun s t)) : Ends i s t r := by
  refine ends_roomed hexec hroom ?_ hk
  rw [issued_g, begun_x, hticket]

/-! ## The words of a sub-tile (R193) -/

/-- A quotient below the quotient rounded up leaves a multiple below the dividend. -/
theorem mul_lt_of_lt_ceilDiv {a b q : Nat} (hb : 0 < b) (h : q < ceilDiv a b) : q * b < a := by
  have hle : (q + 1) * b ≤ a + b - 1 := (Nat.le_div_iff_mul_le hb).mp h
  rw [Nat.succ_mul] at hle
  omega

/-- Two halves of a word read back. -/
theorem bits_halves {hi lo : Nat} (hhi : hi < 2 ^ 32) (hlo : lo < 2 ^ 32) :
    bits (.ofNat 64 (hi * 2 ^ 32 + lo)) 31 0 = lo ∧ bits (.ofNat 64 (hi * 2 ^ 32 + lo)) 63 32 = hi := by
  simp only [bits, BitVec.toNat_ofNat]
  omega

/-- The number of a sub-tile and its two extents read back. -/
theorem bits_extents {k cols rows : Nat} (hk : k < 2 ^ 31) (hcols : cols < 2 ^ 16) (hrows : rows < 2 ^ 16) :
    let w : Word := .ofNat 64 (k * 2 ^ 32 + cols * 2 ^ 16 + rows)
    bits w 62 32 = k ∧ bits w 31 16 = cols ∧ bits w 15 0 = rows := by
  simp only [bits, BitVec.toNat_ofNat]
  omega

/-- A sub-tile within a descriptor starts inside the matrix, in both directions. -/
theorem TqDesc.tile_starts_inside {d : TqDesc} {k : Nat} (htm : 0 < d.tm) (htn : 0 < d.tn) (hk : k < d.total) :
    k / ceilDiv d.n d.tn * d.tm < d.m ∧ k % ceilDiv d.n d.tn * d.tn < d.n := by
  have hacross : 0 < ceilDiv d.n d.tn := Nat.pos_of_ne_zero fun h => by simp [TqDesc.total, h] at hk
  exact ⟨mul_lt_of_lt_ceilDiv htm (Nat.div_lt_of_lt_mul (Nat.mul_comm .. ▸ hk)), mul_lt_of_lt_ceilDiv htn (Nat.mod_lt k hacross)⟩

/-- The two words of a sub-tile hold its start, its extents and its number, where these fit their fields. -/
theorem TqDesc.tile_reads {d : TqDesc} {k : Nat} (htm : d.tm < 2 ^ 16) (htn : d.tn < 2 ^ 16) (hk : k < 2 ^ 31)
    (hrow : k / ceilDiv d.n d.tn * d.tm < 2 ^ 32) (hcol : k % ceilDiv d.n d.tn * d.tn < 2 ^ 32) :
    let row := k / ceilDiv d.n d.tn * d.tm
    let col := k % ceilDiv d.n d.tn * d.tn
    bits (d.tile k).1 31 0 = row ∧ bits (d.tile k).1 63 32 = col ∧ bits (d.tile k).2 62 32 = k ∧
    bits (d.tile k).2 15 0 = min d.tm (d.m - row) ∧ bits (d.tile k).2 31 16 = min d.tn (d.n - col) := by
  intro row col
  obtain ⟨hr, hc⟩ := bits_halves hcol hrow
  obtain ⟨hnum, hcols, hrows⟩ := bits_extents hk (Nat.lt_of_le_of_lt (Nat.min_le_left d.tn (d.n - col)) htn)
    (Nat.lt_of_le_of_lt (Nat.min_le_left d.tm (d.m - row)) htm)
  simp only [TqDesc.tile, ← Nat.sub_min_sub_right, Nat.add_sub_cancel_left]
  exact ⟨hr, hc, hnum, hrows, hcols⟩

/-- Settles O25: each instruction goes on past its checks to the entry that it names; a sub-tile starts inside the matrix and ends with it at
the latest, so its two words hold their fields. -/
theorem tileQueues : Obligations.TileQueues := by
  refine ⟨fun o s hroom => ⟨fun hb hm hn htm htn htotal n hfree => ends_roomed rfl hroom ?_ ?_,
    fun hticket e he hjob hgen hk => ends_ticket rfl hroom hticket ?_,
    fun hticket e he hjob hdone => ends_ticket rfl hroom hticket ?_,
    fun hticket => ends_ticket rfl hroom hticket ?_⟩, fun d k hm hn htm htn htm' htn' hk ht => ?_⟩
  · have hle : ¬ 2 ^ 31 - 1 < TqDesc.total _ := Nat.not_lt.mpr (Nat.le_sub_one_of_lt htotal)
    simp only [issued_g, begun_x, begun_bval, begun_ids, hb, bne_self_eq_false, beq_eq_false_iff_ne.mpr hm, beq_eq_false_iff_ne.mpr hn,
      beq_eq_false_iff_ne.mpr htm, beq_eq_false_iff_ne.mpr htn, decide_eq_false hle, Bool.or_false]
  · simp only [issued_g, begun_x, begun_bval, begun_ids, begun_cluster (Traits.ofR_power ..), hfree]
  · simp only [issued_g, begun_x, begun_ids, begun_cluster (t := { Traits.ofR o _ _ _ with imm := none }) rfl, he, hjob, hgen,
      Nat.not_le.mpr hk, ne_eq, not_true, or_self, if_false]
    rfl
  · simp only [issued_g, begun_x, begun_ids, begun_cluster (t := { Traits.ofR o _ _ _ with imm := none }) rfl, he, hjob, ne_eq, not_true,
      if_false, if_pos hdone]
    rfl
  · simp only [issued_g, begun_x, cluster_expect, begun_cluster (Traits.ofR_power ..)]
    cases tfind (s.cluster (clusterOf (coreOf s.cur))).tq _ with
    | none => rfl
    | some e => simp only [beq_iff_eq]
  · obtain ⟨hrow, hcol⟩ := TqDesc.tile_starts_inside htm htn hk
    obtain ⟨hr, hc, hnum, hrows, hcols⟩ := TqDesc.tile_reads htm' htn' (hk.trans ht) (hrow.trans hm) (hcol.trans hn)
    rw [hr, hc, hnum, hrows, hcols]
    exact ⟨rfl, rfl, rfl, rfl, rfl, lt_min htm (Nat.sub_pos_of_lt hrow), lt_min htn (Nat.sub_pos_of_lt hcol)⟩

end Sys2Proof.Machine

/-! # Call entries and trap returns, by mode -/

namespace Sys2Proof.Machine

/-! ## Instructions that user mode may not perform (R280, R284) -/

section mode
variable {i : Instr} {s : State} {t : Traits} {k : Iss → State → Res}
  (hexec : exec i s = finish s (issue s t fun j u => if (u.thread j.g).ctx.mode = .user then .trap denied u else k j u))
include hexec

theorem ends_denied_of_user (hmode : s.hand.ctx.mode = .user) : Ends i s t fun _ _ u => .trap denied u := by
  refine ends_issued _ _ _ _ _ hexec fun a b hu => ?_
  rw [issued_g, hu, Thread.flagged_mode, if_pos hmode]

theorem ends_of_not_user {r : Iss → Thread → State → Res} (hmode : ¬ s.hand.ctx.mode = .user)
    (hk : ∀ a b, (begun s t).thread s.cur = s.hand.flagged a b → k (issued s t) (begun s t) = r (issued s t) s.hand (begun s t)) :
    Ends i s t r := by
  refine ends_issued _ _ _ _ _ hexec fun a b hu => ?_
  rw [issued_g, hu, Thread.flagged_mode, if_neg hmode, hk a b hu]

end mode

/-! ## Trap returns (R201, R226, R279) -/

theorem returnOk_iff {pc : Word} : returnOk pc = true ↔ bits pc 63 57 = 0 ∨ bit pc 63 = true := by
  simp only [returnOk, canonical, Bool.or_eq_true, beq_iff_eq]

/-- The address that a return of a thread goes to. -/
def Thread.backPc (h : Thread) : Word := if h.ctx.mode = .monitor then h.ctx.mepc else h.ctx.epc

theorem leave_snd (h : Thread) : (leave h.ctx).2 = h.backPc := by
  unfold leave Thread.backPc
  split <;> rfl

/-- HAZ and MODFB do not say where a thread returns to. -/
theorem leave_snd_flagged (h : Thread) (a b : Bool) : (leave (h.flagged a b).ctx).2 = h.backPc := leave_snd _

section returns
variable (o : OpR) (s : State)

theorem tret_jumps (hmode : ¬ s.hand.ctx.mode = .user) (hgood : returnOk s.hand.backPc = true) :
    Ends (.tret o) s (ctl o (fk o.d) (fk o.a) (fk o.b)) fun _ _ u =>
      .jump s.hand.backPc (u.modThread s.cur fun h => returnTo h s.hand.backPc) :=
  ends_of_not_user rfl hmode fun a b hu => by simp only [issued_g, hu, leave_snd_flagged, if_pos hgood]

theorem tret_traps (hmode : ¬ s.hand.ctx.mode = .user) (hbad : ¬ returnOk s.hand.backPc = true) :
    Ends (.tret o) s (ctl o (fk o.d) (fk o.a) (fk o.b)) fun _ _ u => .trap (mkFault .translation 6 s.hand.backPc) u :=
  ends_of_not_user rfl hmode fun a b hu => by
    simp only [issued_g, hu, leave_snd_flagged, if_neg hbad]
    rfl

theorem tretDp_leaves (hmode : ¬ s.hand.ctx.mode = .user) (hgood : returnOk s.hand.backPc = true) :
    Ends (.tretDp o) s (ctl o (fk o.d) (fk o.a) (fk o.b)) fun _ h u => .gone (u.modThread s.cur fun v =>
      { ((returnTo v s.hand.backPc).transfer s.hand.backPc).settle o.m h.ctx.ss with displaced := true }) :=
  ends_of_not_user rfl hmode fun a b hu => by
    simp only [issued_g, hu, leave_snd_flagged, if_pos hgood]
    rfl

theorem tretRs_restarts (hmode : ¬ s.hand.ctx.mode = .user) (hgood : returnOk s.hand.ctx.rpc = true) :
    Ends (.tretRs o) s (ctl o (fk o.d) (fk o.a) (fk o.b)) fun _ h u =>
      .jump h.ctx.rpc ((dropLeases (discardTask u s.cur) s.cur).modThread s.cur fun v =>
        openTask { v with
          ctx := restartValues (leave v.ctx).1
          pend := v.pend.filter fun p => p.task != h.ctx.task } h.ctx.rpc) := by
  refine ends_of_not_user rfl hmode fun a b hu => ?_
  have hgood : returnOk (s.hand.flagged a b).ctx.rpc = true := hgood
  simp only [issued_g, hu, if_pos hgood]
  rfl

end returns

/-! ## What a return restores (R201) -/

/-- A task that opened while a record was live captures its restart context, which no return restores from. -/
theorem captureAtReturn_ctx (h : Thread) (pc : Word) :
    (captureAtReturn h pc).ctx = h.ctx ∨ (captureAtReturn h pc).ctx = h.ctx.capture pc := by
  unfold captureAtReturn
  split
  · exact .inr rfl
  · exact .inl rfl

theorem returnTo_ctx (h : Thread) (pc : Word) :
    (returnTo h pc).ctx = (leave h.ctx).1 ∨ (returnTo h pc).ctx = (leave h.ctx).1.capture pc :=
  captureAtReturn_ctx ..

theorem leave_monitor {c : Ctx} (h : c.mode = .monitor) :
    (leave c).1 = { c with mode := c.mpmode, ie := c.mpie, ss := c.mpss, mcause := { c.mcause with live := false } } := by
  rw [leave, if_pos h]

theorem leave_supervisor {c : Ctx} (h : c.mode ≠ .monitor) :
    (leave c).1 = { c with mode := c.pmode, ie := c.pie, ss := c.pss, cause := { c.cause with live := false } } := by
  rw [leave, if_neg h]

/-- Settles O9: each instruction ends by its mode and by its target as the lemmas above say; a return restores what `leave` does, since the
restart context that it may capture is apart. -/
theorem callEntriesAndReturnsByMode : Obligations.CallEntriesAndReturnsByMode := by
  refine ⟨fun o s => ⟨ends_of _ _ _ _ _ rfl fun _ _ _ _ _ _ _ => rfl, ends_of _ _ _ _ _ rfl fun _ _ _ _ _ _ _ => rfl,
    fun hmode => ends_of_not_user rfl hmode fun _ _ _ => rfl, ends_denied_of_user rfl,
    fun hmode => ends_of_not_user rfl hmode fun _ _ _ => rfl, ends_denied_of_user rfl,
    fun hmode => ends_of_not_user rfl hmode fun _ _ _ => rfl, ends_denied_of_user rfl,
    fun hmode hgood => tret_jumps o s hmode (returnOk_iff.mpr hgood), fun hmode hbad => tret_traps o s hmode (mt returnOk_iff.mp hbad),
    ends_denied_of_user rfl, fun hmode hgood => tretDp_leaves o s hmode (returnOk_iff.mpr hgood), ends_denied_of_user rfl,
    fun hmode hgood => tretRs_restarts o s hmode (returnOk_iff.mpr hgood), ends_denied_of_user rfl⟩, fun h pc => ?_⟩
  by_cases hmode : h.ctx.mode = .monitor
  · obtain e | e := returnTo_ctx h pc <;>
      · rw [e, leave_monitor hmode]
        exact ⟨rfl, rfl, rfl, rfl, rfl, rfl, fun _ => ⟨rfl, rfl, rfl, rfl, rfl⟩, absurd hmode⟩
  · obtain e | e := returnTo_ctx h pc <;>
      · rw [e, leave_supervisor hmode]
        exact ⟨rfl, rfl, rfl, rfl, rfl, rfl, fun hm => absurd hm hmode, fun _ => ⟨rfl, rfl, rfl, rfl, rfl⟩⟩

end Sys2Proof.Machine

/-! # What a discard and an entry leave of a thread -/

namespace Sys2Proof

/-! ## What lasts of a thread while the machine works around it

Homes, links and engines lower a thread's posting counters, wake it, and leave it faults and lines to filter; a new task changes its number and
restart values. The rest of its context and its v, p and h registers only its own instructions and its entries change. -/

def Ctx.lasting (c : Ctx) : Ctx := { c with pd := 0, px := 0, po := 0, tseq := 0, rx := [], rcond := 0, rpc := 0 }

/-- A fault as its record has it: MORE is for what a guard has counted. -/
def FaultRec.recorded (f : FaultRec) : FaultRec := if f.cause = .scratchpadGuard then f else { f with more := 0 }

end Sys2Proof

namespace Sys2Proof.Machine

def Thread.lasting (t : Thread) : Ctx × Table Line × Table Pred × Table Word := (t.ctx.lasting, t.v, t.p, t.h)

/-- A field that lasts is the same in contexts of which the same lasts. -/
theorem lasting_read {α : Type} {c d : Ctx} (h : c.lasting = d.lasting) (field : Ctx → α)
    (hfield : ∀ c : Ctx, field c.lasting = field c := by intro c; rfl) : field c = field d := by
  rw [← hfield c, h, hfield]

theorem lasting_setCount (c : Ctx) (k : PostCtr) (n : Nat) : (c.setCount k n).lasting = c.lasting := by cases k <;> rfl

theorem Thread.lasting_ctx {t u : Thread} (h : t.lasting = u.lasting) : t.ctx.lasting = u.ctx.lasting := congrArg Prod.fst h

theorem openTask_lasting (t : Thread) (pc : Word) : (openTask t pc).lasting = t.lasting := by
  unfold openTask
  dsimp only
  split <;> rfl

/-- A thread that has changed, but not in what `p` reads of it. -/
theorem modThread_keeps {β : Type} (p : Thread → β) {f : Thread → Thread} (h : ∀ t, p (f t) = p t) (s : State) (g n : Nat) :
    p ((s.modThread g f).thread n) = p (s.thread n) := by
  rw [State.modThread_eq, State.thread_setThread]
  split
  · next hn => rw [h, hn]
  · rfl

theorem modThread_lasting {f : Thread → Thread} (h : ∀ t, (f t).lasting = t.lasting) (s : State) (g n : Nat) :
    ((s.modThread g f).thread n).lasting = (s.thread n).lasting := modThread_keeps Thread.lasting h s g n

/-! ## Messages whose loss nobody is answered for (R406, R412) -/

theorem send_thread {ev : Event} (hlost : ∀ u : State, u.lost ev = none) (s : State) (src dst n : Nat) :
    (s.send src dst ev).thread n = s.thread n :=
  send_keeps (State.thread · n) (fun _ _ => rfl) (fun _ _ _ => rfl) (fun u w h => by cases (hlost u).symm.trans h) ..

theorem dropPins_thread (gslice : Nat) (l : List TileRef) (s : State) (n : Nat) : (dropPins gslice l s).thread n = s.thread n := by
  induction l generalizing s with
  | nil => rfl
  | cons r l ih => exact ih _

theorem discardCreates_thread (g : Nat) (task : BitVec 32) (l : List TileRef) (s : State) (n : Nat) :
    (discardCreates g task l s).thread n = s.thread n := by
  induction l generalizing s with
  | nil => rfl
  | cons r l ih => rw [discardCreates, ih, send_thread fun _ => rfl]

/-! ## Counters, and the operations that a discard stops (R167, R187, R189, R303) -/

theorem raiseCount_thread (s : State) (core c job n : Nat) : (raiseCount s core c job).thread n = s.thread n := by
  unfold raiseCount
  dsimp only
  split <;> rfl

theorem metWait_lasting (core c v k : Nat) (t : Thread) : (metWait core c v k t).lasting = t.lasting := by
  unfold metWait
  split
  · split <;> rfl
  · rfl

theorem evalCounter_lasting (s : State) (core c n : Nat) : ((evalCounter s core c).thread n).lasting = (s.thread n).lasting := by
  have hmet (t : Table Thread) (v : Nat) : tget Thread.empty (tmap (metWait core c v) t) n = metWait core c v n (tget Thread.empty t n) :=
    tget_tmap (fun _ => by rfl) ..
  unfold evalCounter
  dsimp only
  split
  · exact (congrArg Thread.lasting (hmet ..)).trans (metWait_lasting ..)
  · exact (congrArg Thread.lasting (hmet ..)).trans (metWait_lasting ..)

theorem evalRaised_lasting (core : Nat) (l : List Nat) (s : State) (n : Nat) :
    ((evalRaised core l s).thread n).lasting = (s.thread n).lasting := by
  induction l generalizing s with
  | nil => rfl
  | cons c l ih => rw [evalRaised, ih, evalCounter_lasting]

theorem engineOver_lasting (s : State) (g core : Nat) (ctr : Option Nat) (acc : BitVec 4) (f : Option FaultRec) (n : Nat) :
    ((engineOver s g core ctr acc f).thread n).lasting = (s.thread n).lasting := by
  unfold engineOver
  dsimp only
  split
  · rw [State.thread_post]
    exact modThread_lasting (fun _ => by rfl) ..
  · exact modThread_lasting (fun _ => by rfl) ..

theorem stopAtt_lasting (s : State) (g n : Nat) : ((stopAtt s g).thread n).lasting = (s.thread n).lasting := by
  unfold stopAtt
  split
  · rw [dropPins_thread]
    exact modThread_lasting (fun _ => by rfl) ..
  · rfl

theorem dropSolver_lasting (core : Nat) (l : List GOp) (s : State) (n : Nat) :
    ((dropSolver core l s).thread n).lasting = (s.thread n).lasting := by
  induction l generalizing s with
  | nil => rfl
  | cons o l ih =>
    rw [dropSolver, ih]
    refine modThread_lasting (fun t => ?_) ..
    refine Prod.ext ?_ rfl
    dsimp only [Thread.lasting]
    split
    · exact lasting_setCount ..
    · rfl

theorem endEntry_thread (s : State) (core : Nat) (e : MxEntry) (n : Nat) : (endEntry s core e).thread n = s.thread n := by
  unfold endEntry
  dsimp only
  rw [kickMatrix, State.thread_post, foldl_keeps (State.thread · n), foldl_keeps (State.thread · n)]
  · rfl
  · exact fun s r => send_thread (fun _ => by rfl) ..
  · intro s r
    split
    · rfl
    · exact send_thread (fun _ => by rfl) ..

theorem discardEntries_thread (core : Nat) (l : List MxEntry) (s : State) (n : Nat) :
    (discardEntries core l s).thread n = s.thread n := by
  have hone (s : State) (e : MxEntry) : (discardEntry s core e).thread n = s.thread n := by
    unfold discardEntry
    dsimp only
    split
    · rw [raiseCount_thread, endEntry_thread]
      split <;> rfl
    · rw [endEntry_thread]
      split <;> rfl
  induction l generalizing s with
  | nil => rfl
  | cons e l ih => rw [discardEntries, ih, hone]

theorem stopTransfers_lasting (g : Nat) (task : BitVec 32) (l : List Flight) (s : State) (n : Nat) :
    ((stopTransfers g task l s).thread n).lasting = (s.thread n).lasting := by
  induction l generalizing s with
  | nil => rfl
  | cons f l ih =>
    rw [stopTransfers, ih]
    split
    · rfl
    · split
      · rw [raiseCount_thread, engineOver_lasting]
      all_goals rfl

theorem stopPromotions_thread (s : State) (g : Nat) (task : BitVec 32) (n : Nat) :
    (stopPromotions s g task).thread n = s.thread n := rfl

theorem stopCollectives_thread (g : Nat) (task : BitVec 32) (l : List CollWait) (s : State) (n : Nat) :
    (stopCollectives g task l s).thread n = s.thread n := by
  induction l generalizing s with
  | nil => rfl
  | cons w l ih =>
    unfold stopCollectives
    split
    · exact ih _
    · exact ih _

/-- R167: a discard leaves what lasts of every thread, its own included. -/
theorem discardTask_lasting (s : State) (g n : Nat) : ((discardTask s g).thread n).lasting = (s.thread n).lasting := by
  unfold discardTask
  extract_lets t core arrivals stopped unspec unsolved task es undone unpromoted uncreated untransferred uncollected quieted before evaluated
  calc
    _ = (evaluated.thread n).lasting := modThread_lasting (fun _ => by rfl) ..
    _ = (quieted.thread n).lasting := evalRaised_lasting ..
    _ = (untransferred.thread n).lasting := congrArg Thread.lasting (stopCollectives_thread ..)
    _ = (uncreated.thread n).lasting := stopTransfers_lasting ..
    _ = (unpromoted.thread n).lasting := congrArg Thread.lasting (discardCreates_thread ..)
    _ = (undone.thread n).lasting := congrArg Thread.lasting (stopPromotions_thread ..)
    _ = ((discardEntries core es unsolved).thread n).lasting :=
      modThread_lasting (fun _ => by rfl) ..
    _ = (unsolved.thread n).lasting := congrArg Thread.lasting (discardEntries_thread ..)
    _ = (stopped.thread n).lasting := dropSolver_lasting ..
    _ = (s.thread n).lasting := stopAtt_lasting ..

/-! ## Entries (R199) -/

@[simp] theorem recorded_cause (f : FaultRec) : f.recorded.cause = f.cause := by unfold FaultRec.recorded; split <;> rfl
@[simp] theorem recorded_kind (f : FaultRec) : f.recorded.kind = f.kind := by unfold FaultRec.recorded; split <;> rfl
@[simp] theorem recorded_addr (f : FaultRec) : f.recorded.addr = f.addr := by unfold FaultRec.recorded; split <;> rfl
@[simp] theorem recorded_info (f : FaultRec) : f.recorded.info = f.info := by unfold FaultRec.recorded; split <;> rfl

theorem recorded_code (f : FaultRec) (task : BitVec 32) : (mkRecord f.recorded task).cause = .ofNat 8 f.cause.code := by
  rw [mkRecord, recorded_cause]

theorem recorded_disc (f : FaultRec) (task : BitVec 32) : (mkRecord f.recorded task).disc = f.cause.discards := by
  rw [mkRecord, recorded_cause]

/-- The context that an entry leaves, of the context and the task that it is taken in. -/
def entryCtx (c : Ctx) (task : BitVec 32) (f : FaultRec) (pc : Word) : Ctx :=
  if c.mode = .monitor ∨ f.cause = .monitorCall then
    if c.mcause.live then c else enterMonitor c (mkRecord f.recorded task) pc
  else if c.cause.live then
    if c.mcause.live then c
    else enterMonitor c { mkRecord f.recorded task with
      inner := .ofNat 6 f.cause.code, more := 0, kind := 0, cause := .ofNat 8 (Cause.code .doubleTrap) } pc
  else enterSupervisor c (mkRecord f.recorded task) pc f.addr f.info

/-- An entry reads nothing that a discard may change. -/
theorem entryCtx_lasting (c : Ctx) (task : BitVec 32) (f : FaultRec) (pc : Word) :
    (entryCtx c task f pc).lasting = (entryCtx c.lasting task f pc).lasting := by
  simp only [entryCtx, apply_ite Ctx.lasting]
  rfl

theorem entryCtx_congr {c d : Ctx} (h : c.lasting = d.lasting) (task : BitVec 32) (f : FaultRec) (pc : Word) :
    (entryCtx c task f pc).lasting = (entryCtx d task f pc).lasting := by
  rw [entryCtx_lasting c, h, ← entryCtx_lasting]

/-- The machine in which an entry is taken: the task of a fault is discarded, that of a call runs on. -/
def discarded (s : State) (g : Nat) (f : FaultRec) : State := if f.cause.discards then discardTask s g else s

theorem discarded_lasting (s : State) (g : Nat) (f : FaultRec) (n : Nat) :
    ((discarded s g f).thread n).lasting = (s.thread n).lasting := by
  unfold discarded
  split
  · exact discardTask_lasting ..
  · rfl

theorem opened_lasting (d : Bool) (t : Thread) (pc : Word) : (if d then openTask t pc else t).lasting = t.lasting := by
  split
  · exact openTask_lasting ..
  · rfl

/-- The halt of R201 keeps the thread's context. -/
theorem haltThread_thread (s : State) (g : Nat) (y : Thread) (f : FaultRec) (pc : Word) :
    (haltThread (s.setThread g y) g f pc).thread g = { y with status := .halted } := by
  simp only [haltThread, State.report_thread, State.modThread_eq, State.thread_setThread_self]

section enter
variable (s : State) (g : Nat) (f : FaultRec)

/-- Of what lasts, an entry changes what the context takes from `entryCtx`. -/
theorem enter_lasting : ((enter s g f).thread g).lasting =
    ((entryCtx (s.thread g).ctx (s.thread g).ctx.task f (f.pc.getD (s.thread g).reportPc)).lasting,
      (s.thread g).v, (s.thread g).p, (s.thread g).h) := by
  have hu := discarded_lasting s g f g
  have hregs : (((discarded s g f).thread g).v, ((discarded s g f).thread g).p, ((discarded s g f).thread g).h) =
    ((s.thread g).v, (s.thread g).p, (s.thread g).h) := congrArg Prod.snd hu
  rw [← entryCtx_congr (Thread.lasting_ctx hu), ← hregs]
  simp only [enter, entryCtx, ← FaultRec.recorded.eq_def, ← discarded.eq_def, recorded_cause, recorded_addr, recorded_info]
  split
  · split
    · rw [haltThread_thread]
      rfl
    · rw [State.thread_setThread_self, opened_lasting]
      rfl
  · split
    · split
      · rw [haltThread_thread]
        rfl
      · rw [State.thread_setThread_self, opened_lasting]
        rfl
    · rw [State.thread_setThread_self, opened_lasting]
      rfl

/-- Neither mode has room for a record: the thread halts (R201). -/
theorem enter_halts (hup : (s.thread g).ctx.mode = .monitor ∨ f.cause = .monitorCall ∨ (s.thread g).ctx.cause.live = true)
    (hlive : (s.thread g).ctx.mcause.live = true) : ((enter s g f).thread g).status = .halted := by
  have hc := Thread.lasting_ctx (discarded_lasting s g f g)
  have hmode : ((discarded s g f).thread g).ctx.mode = (s.thread g).ctx.mode := lasting_read hc Ctx.mode
  have hcause : ((discarded s g f).thread g).ctx.cause = (s.thread g).ctx.cause := lasting_read hc Ctx.cause
  have hmcause : ((discarded s g f).thread g).ctx.mcause = (s.thread g).ctx.mcause := lasting_read hc Ctx.mcause
  rw [← hmode, ← hcause] at hup
  rw [← hmcause] at hlive
  simp only [enter, ← FaultRec.recorded.eq_def, ← discarded.eq_def, recorded_cause]
  by_cases hto : ((discarded s g f).thread g).ctx.mode = .monitor ∨ f.cause = .monitorCall
  · rw [if_pos hto, if_pos hlive, haltThread_thread]
  · rw [if_neg hto, if_pos ((or_assoc.mpr hup).resolve_left hto), if_pos hlive, haltThread_thread]

end enter

section entryCtx
variable {c : Ctx} {task : BitVec 32} {f : FaultRec} {pc : Word}

theorem entryCtx_supervisor (hup : ¬(c.mode = .monitor ∨ f.cause = .monitorCall)) (hlive : c.cause.live = false) :
    entryCtx c task f pc = enterSupervisor c (mkRecord f.recorded task) pc f.addr f.info := by
  rw [entryCtx, if_neg hup, hlive, if_neg Bool.false_ne_true]

theorem entryCtx_monitor (hup : c.mode = .monitor ∨ f.cause = .monitorCall) (hlive : c.mcause.live = false) :
    entryCtx c task f pc = enterMonitor c (mkRecord f.recorded task) pc := by
  rw [entryCtx, if_pos hup, hlive, if_neg Bool.false_ne_true]

theorem entryCtx_double (hup : ¬(c.mode = .monitor ∨ f.cause = .monitorCall)) (hlive : c.cause.live = true)
    (hroom : c.mcause.live = false) :
    entryCtx c task f pc = enterMonitor c { mkRecord f.recorded task with
      inner := .ofNat 6 f.cause.code, more := 0, kind := 0, cause := .ofNat 8 (Cause.code .doubleTrap) } pc := by
  rw [entryCtx, if_neg hup, if_pos hlive, hroom, if_neg Bool.false_ne_true]

theorem entryCtx_halted (hup : (c.mode = .monitor ∨ f.cause = .monitorCall) ∨ c.cause.live = true) (hlive : c.mcause.live = true) :
    entryCtx c task f pc = c := by
  rw [entryCtx, if_pos hlive, if_pos hlive]
  split
  · rfl
  · next hnot => rw [if_pos (hup.resolve_left hnot)]

/-- What no entry changes. -/
theorem entryCtx_keeps :
    (entryCtx c task f pc).svec = c.svec ∧ (entryCtx c task f pc).mvec = c.mvec ∧ (entryCtx c task f pc).x = c.x ∧
      (entryCtx c task f pc).cond = c.cond := by
  unfold entryCtx
  repeat' split
  all_goals exact ⟨rfl, rfl, rfl, rfl⟩

end entryCtx

/-- Settles O10: what an entry leaves of its context is `entryCtx`, whatever a discard does before it; in each of R199's four outcomes that is
one of the two entries of the model, or the context as it stood. -/
theorem trapEntrySaves : Obligations.TrapEntrySaves := by
  intro s g f h c n r pc up
  have hall : n.lasting = ((entryCtx c c.task f pc).lasting, h.v, h.p, h.h) := enter_lasting s g f
  have hctx : r.lasting = (entryCtx c c.task f pc).lasting := congrArg Prod.fst hall
  have hregs : (n.v, n.p, n.h) = (h.v, h.p, h.h) := congrArg Prod.snd hall
  have hhalted := enter_halts s g f
  change _ → _ → n.status = .halted at hhalted
  clear_value n
  obtain ⟨hv, hp, hh⟩ : n.v = h.v ∧ n.p = h.p ∧ n.h = h.h := by simpa only [Prod.mk.injEq] using hregs
  obtain ⟨hsvec, hmvec, hx, hcond⟩ := entryCtx_keeps (c := c) (task := c.task) (f := f) (pc := pc)
  refine ⟨fun hup hlive => ?supervisor, fun hup hlive => ?monitor, fun hup hlive hroom => ?double, fun hup hlive => ?halt,
    (lasting_read hctx Ctx.svec).trans hsvec, (lasting_read hctx Ctx.mvec).trans hmvec, (lasting_read hctx Ctx.x).trans hx,
    (lasting_read hctx Ctx.cond).trans hcond, hv, hp, hh⟩
  case supervisor =>
    rw [entryCtx_supervisor hup hlive] at hctx
    have hcause := lasting_read hctx Ctx.cause
    exact ⟨lasting_read hctx Ctx.mode, lasting_read hctx Ctx.pc, lasting_read hctx Ctx.epc, lasting_read hctx Ctx.addr, lasting_read hctx
      Ctx.info, lasting_read hctx Ctx.pmode, lasting_read hctx Ctx.pie, lasting_read hctx Ctx.pss, lasting_read hctx Ctx.ie, lasting_read hctx
      Ctx.ss, congrArg CauseRec.live hcause, (congrArg CauseRec.cause hcause).trans (recorded_code f c.task), (congrArg CauseRec.kind
      hcause).trans (recorded_kind f), (congrArg CauseRec.disc hcause).trans (recorded_disc f c.task), congrArg CauseRec.task hcause,
      lasting_read hctx Ctx.mcause, lasting_read hctx Ctx.mepc, lasting_read hctx Ctx.mpmode, lasting_read hctx Ctx.mpie⟩
  case monitor =>
    rw [entryCtx_monitor hup hlive] at hctx
    have hcause := lasting_read hctx Ctx.mcause
    exact ⟨lasting_read hctx Ctx.mode, lasting_read hctx Ctx.pc, lasting_read hctx Ctx.mepc, lasting_read hctx Ctx.mpmode, lasting_read hctx
      Ctx.mpie, lasting_read hctx Ctx.mpss, lasting_read hctx Ctx.ie, lasting_read hctx Ctx.ss, congrArg CauseRec.live hcause, (congrArg
      CauseRec.cause hcause).trans (recorded_code f c.task), (congrArg CauseRec.kind hcause).trans (recorded_kind f), congrArg CauseRec.task
      hcause, lasting_read hctx Ctx.cause, lasting_read hctx Ctx.epc, lasting_read hctx Ctx.addr, lasting_read hctx Ctx.info, lasting_read hctx
      Ctx.pmode, lasting_read hctx Ctx.pie⟩
  case double =>
    rw [entryCtx_double hup hlive hroom] at hctx
    have hcause := lasting_read hctx Ctx.mcause
    exact ⟨lasting_read hctx Ctx.mode, lasting_read hctx Ctx.pc, lasting_read hctx Ctx.mepc, congrArg CauseRec.cause hcause, congrArg
      CauseRec.inner hcause, lasting_read hctx Ctx.cause, lasting_read hctx Ctx.epc, lasting_read hctx Ctx.addr, lasting_read hctx Ctx.info⟩
  case halt =>
    rw [entryCtx_halted hup hlive] at hctx
    exact ⟨hhalted (or_assoc.mp hup) hlive, lasting_read hctx Ctx.mode, lasting_read hctx Ctx.pc, lasting_read hctx Ctx.mepc⟩

end Sys2Proof.Machine

/-! # Modifier words and scheduling hints -/

namespace Sys2Proof.Machine

/-! ## What homes leave of threads as they serve (R22, R94, R110)

A home enters lines in a thread's filter, lowers its posting counters and leaves it faults of posted writes; what reads none of these stands. -/

structure KeptByHomes {β : Type} (p : Thread → β) : Prop where
  filter : ∀ (t : Thread) (l : List Nat), p { t with filter := l } = p t
  counts : ∀ (t : Thread) (k : PostCtr) (n : Nat), p { t with ctx := t.ctx.setCount k n } = p t
  faults : ∀ (t : Thread) (l : List StFault), p { t with stf := l } = p t

/-- What a step leaves stands whether or not a link holds the step up. -/
theorem orHeld_keeps {β : Type} {p : Thread → β} {s t : State} {n : Nat} (h : p (t.thread n) = p (s.thread n)) :
    p ((orHeld s t).thread n) = p (s.thread n) := by
  unfold orHeld
  split
  · rfl
  · exact h

section homes
variable {β : Type} {p : Thread → β} (hp : KeptByHomes p)
include hp

theorem filterSlots_keeps (s : State) (core : Nat) (l : L1Line) (n : Nat) :
    p ((filterSlots s core l).thread n) = p (s.thread n) := by
  refine foldl_keeps (fun s => p (State.thread s n)) (fun s e => ?_) _ _
  split
  · exact modThread_keeps p (fun t => hp.filter ..) ..
  · rfl

theorem dropL1_keeps (d : Nat → L1Line → Bool) (q : Nat → ILine → Bool) (s : State) (n : Nat) :
    p ((dropL1 d q s).thread n) = p (s.thread n) :=
  foldl_keeps (fun s => p (State.thread s n))
    (fun _ _ => foldl_keeps (fun s => p (State.thread s n)) (fun _ _ => filterSlots_keeps hp ..) _ _) _ _

theorem purgeLine_keeps (s : State) (g job line n : Nat) : p ((purgeLine s g job line).thread n) = p (s.thread n) := by
  unfold purgeLine
  dsimp only
  rw [State.modSlice_thread, State.modCtrl_thread, doInvalidate_thread, doInvalidate_thread, State.slices_thread, stopFills_thread,
    dropL1_keeps hp, recallLine_thread]

theorem synonym_keeps (s : State) (gdie frame job line n : Nat) :
    p ((synonym s gdie frame job line).thread n) = p (s.thread n) := by
  unfold synonym
  dsimp only
  split
  · split
    · rfl
    · rw [State.modCtrl_thread, State.modCtrl_thread, purgeLine_keeps hp]
  · rw [State.modCtrl_thread]
    split
    · split
      · rfl
      · rw [State.modCtrl_thread, purgeLine_keeps hp]
    · rfl

theorem homeFill_keeps {s u : State} {g job line : Nat} {ok : Perms → Bool} {once : Bool} {h : HomeLine}
    (e : homeFill s g job line ok once = .ok (u, h)) (n : Nat) : p (u.thread n) = p (s.thread n) := by
  unfold homeFill at e
  split at e
  · split at e
    · cases e
      rfl
    · cases e
  · split at e
    · cases e
    · split at e
      · cases e
      · cases e
        rw [holdLine_thread, synonym_keeps hp]
        split <;> rfl

theorem ackContrib_keeps (ctr : PostCtr) (l : List Contrib) (s : State) (n : Nat) :
    p ((ackContrib ctr l s).thread n) = p (s.thread n) := by
  induction l generalizing s with
  | nil => rfl
  | cons e l ih =>
    rw [ackContrib, ih]
    split
    · exact modThread_keeps p (fun t => hp.counts ..) ..
    · rfl

theorem faultContrib_keeps (c : Cause) (kind : Nat) (ctr : PostCtr) (l : List Contrib) (s : State) (n : Nat) :
    p ((faultContrib c kind ctr l s).thread n) = p (s.thread n) := by
  induction l generalizing s with
  | nil => rfl
  | cons e l ih =>
    rw [faultContrib, ih]
    split
    · exact modThread_keeps p (fun t => hp.faults ..) ..
    · rfl

theorem mergeEntry_keeps (s : State) (core : Nat) (e : CommEntry) (n : Nat) :
    p ((mergeEntry s core e).thread n) = p (s.thread n) := by
  have hserved : p ((ackContrib (postClass core e.gslice) e.contrib (s.serve e.gslice)).thread n) = p (s.thread n) := by
    rw [ackContrib_keeps hp, State.serve_thread]
  unfold mergeEntry
  dsimp only
  split
  · rw [faultContrib_keeps hp, hserved]
  · next u h hfill =>
    rw [← hserved, ← homeFill_keeps hp hfill n]
    split
    · rw [faultContrib_keeps hp, lineError_thread]
    · rw [applyComm_thread, doInvalidates_thread, conflict_thread, takeInvals_thread]
      split
      · rw [doRevoke_thread]
      · rfl

theorem flushCores_keeps (q : Nat → CommEntry → Bool) (l : List Nat) (s : State) (n : Nat) :
    p ((flushCores q l s).thread n) = p (s.thread n) := by
  have hmerge core l (s : State) : p ((mergeEntries core l s).thread n) = p (s.thread n) := by
    induction l generalizing s with
    | nil => rfl
    | cons e l ih => rw [mergeEntries, ih, mergeEntry_keeps hp]
  induction l generalizing s with
  | nil => rfl
  | cons c l ih =>
    rw [flushCores, ih, flushWhere]
    exact hmerge ..

theorem doCollect_keeps (s : State) (g job line : Nat) (ws : List Nat) (n : Nat) :
    p ((doCollect s g job line ws).thread n) = p (s.thread n) := by
  have htake l (s : State) : p ((takeFlushes l s).thread n) = p (s.thread n) := by
    induction l generalizing s with
    | nil => rfl
    | cons f l ih =>
      rw [takeFlushes, ih]
      split
      · exact mergeEntry_keeps hp ..
      · rfl
  unfold doCollect
  dsimp only
  rw [State.modSlice_thread, flushCores_keeps hp]
  exact htake ..

/-- A collection, where one is due. -/
theorem collect_keeps (s : State) (g job line : Nat) (ws : List Nat) (n : Nat) :
    p ((if collectDue s g job line ws then doCollect s g job line ws else s).thread n) = p (s.thread n) := by
  split
  · exact doCollect_keeps hp ..
  · rfl

theorem readLineFor_keeps (told : Bool) (s : State) (g job line : Nat) (ws : List Nat) (user fetch : Bool) (n : Nat) :
    p ((readLineFor told s g job line ws user fetch).1.thread n) = p (s.thread n) := by
  unfold readLineFor
  dsimp only
  split
  · rw [State.serve_thread]
  · next u h hfill =>
    have hu := (homeFill_keeps hp hfill n).trans (congrArg _ (State.serve_thread ..))
    split
    · rw [← hu]
      split <;> rfl
    · rw [committedLine_thread, collect_keeps hp, hu]

/-! ## The fills of hints (R223) -/

theorem installL1_keeps (s : State) (f : LineFillData) (n : Nat) : p ((installL1 s f).thread n) = p (s.thread n) := by
  have hevict (core : Nat) (l : L1Line) : p ((evictLine s core l).thread n) = p (s.thread n) := by
    unfold evictLine
    dsimp only
    split
    · exact filterSlots_keeps hp ..
    · rw [send_thread fun _ => rfl, filterSlots_keeps hp]
  have hroom : p ((l1Room s f.core f.job f.line f.home f.perms f.lru).1.thread n) = p (s.thread n) := by
    unfold l1Room
    dsimp only
    split
    · rfl
    · split
      · rfl
      · split
        · exact hevict ..
        · rfl
  exact hroom

theorem instructionLine_keeps (s : State) (core job line : Nat) (user : Bool) (n : Nat) :
    p ((instructionLine s core job line user).1.thread n) = p (s.thread n) := by
  have hserved (g : Nat) : ((((s.overLinks (moduleOf core) (sliceModule g)).noteEntries core job (line * 128)).serve g).thread n) =
      s.thread n := by
    rw [State.serve_thread]
    exact overLinks_thread ..
  unfold instructionLine
  dsimp only
  split
  · rfl
  · split
    · rfl
    · split
      · rw [hserved]
      · next u h hfill =>
        have hu := (homeFill_keeps hp hfill n).trans (congrArg _ (hserved _))
        split
        · exact hu
        · rw [committedLine_thread, collect_keeps hp, hu]

section prefetch
variable (s : State) (g : Nat) (ptr : Word) (n : Nat)

theorem prefetchL1_keeps : p ((prefetchL1 s g ptr).thread n) = p (s.thread n) := by
  unfold prefetchL1
  split
  · rfl
  · next a h _ =>
    refine orHeld_keeps ?_
    have hread := readLineFor_keeps hp false ((s.noteEntries (coreOf g) (s.thread g).ctx.ids.job a).overLinks (moduleOf (coreOf g)) (sliceModule h))
      h (s.thread g).ctx.ids.job (a / 128) allWords ((s.thread g).ctx.mode == .user) false n
    rw [overLinks_thread] at hread
    split
    · exact hread
    · split
      · exact hread
      · rw [installL1_keeps hp]
        exact hread

theorem prefetchSlice_keeps : p ((prefetchSlice s g ptr).thread n) = p (s.thread n) := by
  unfold prefetchSlice
  split
  · rfl
  · next a h _ =>
    refine orHeld_keeps ?_
    have hserved : ((((s.overLinks (moduleOf (coreOf g)) (sliceModule h)).noteEntries (coreOf g) (s.thread g).ctx.ids.job a).serve h).thread n) =
        s.thread n := by
      rw [State.serve_thread]
      exact overLinks_thread ..
    split
    · rw [hserved]
    · next u l hfill =>
      split
      · rw [hserved]
      · rw [homeFill_keeps hp hfill, hserved]

theorem prefetchInstr_keeps : p ((prefetchInstr s g ptr).thread n) = p (s.thread n) := by
  unfold prefetchInstr
  split
  · rfl
  · dsimp only
    split
    · rfl
    · refine orHeld_keeps ?_
      split
      · rfl
      · exact instructionLine_keeps hp ..

end prefetch
end homes

/-- No home changes an x register. -/
theorem keptByHomes_x (k : Nat) : KeptByHomes fun t => t.x k where
  filter _ _ := rfl
  counts _ c _ := by cases c <;> rfl
  faults _ _ := rfl

/-! ## Hints (R214, R223) -/

theorem intVal_toNat (k : BitVec 17) : intVal 17 true k.toNat = k.toInt := by
  rw [intVal, BitVec.toInt_eq_toNat_cond, Nat.mod_eq_of_lt k.isLt]
  have := k.isLt
  simp only [Bool.true_and, decide_eq_true_eq]
  split <;> split <;> omega

section words
variable {s : State}

/-- What a hint that stands alone leaves (R214): a displaced one is a single step. -/
def hinted (g : Nat) (u : State) : State := u.modThread g fun t => let step := t.displaced && t.ctx.ss
  { t.clearWord with
    status := if step then .waiting .results else .ready
    stepDue := step
    parkPc := t.reportPc
    ctx := { t.ctx with pc := t.ctx.pc + 4 } }

theorem hint_alone (hseq : s.hand.seq = none) (hpc : bit s.hand.ctx.pc 63 = false) (f : Nat → State → State) :
    hint s f = hinted s.cur (f s.cur s) := by
  have hseq : (s.thread s.cur).seq.isSome = false := by rw [show (s.thread s.cur).seq = none from hseq]; rfl
  have hpc : bit (s.thread s.cur).ctx.pc 63 = false := hpc
  simp only [hint, hseq, hpc, Bool.false_eq_true, if_false]
  rfl

theorem hint_late (hseq : s.hand.seq ≠ none) (f : Nat → State → State) : hint s f = enter s s.cur illegal :=
  if_pos (Option.isSome_iff_ne_none.mpr hseq)

section alone
variable (hseq : s.hand.seq = none) (hpc : bit s.hand.ctx.pc 63 = false)
include hseq hpc

theorem hnop_steps (o : OpHsch) : Steps (.hnop o) s (hinted s.cur s) :=
  steps_of_finish (congrArg (finish s) (hint_alone hseq hpc _))

theorem hschKind47_steps (o : OpHschK) : Steps (.hschKind47 o) s (hinted s.cur (s.modCtx s.cur fun c => { c with modfb := true })) :=
  steps_of_finish (congrArg (finish s) (hint_alone hseq hpc _))

theorem pfl1_steps (o : OpHsch) :
    Steps (.pfl1 o) s (hinted s.cur (prefetchL1 s s.cur (s.hand.x o.a.toNat + .ofInt 64 o.k.toInt))) := by
  rw [← intVal_toNat]
  exact steps_of_finish (congrArg (finish s) (hint_alone hseq hpc _))

theorem pfsl_steps (o : OpHsch) :
    Steps (.pfsl o) s (hinted s.cur (prefetchSlice s s.cur (s.hand.x o.a.toNat + .ofInt 64 o.k.toInt))) := by
  rw [← intVal_toNat]
  exact steps_of_finish (congrArg (finish s) (hint_alone hseq hpc _))

theorem pfi_steps (o : OpHsch) :
    Steps (.pfi o) s (hinted s.cur (prefetchInstr s s.cur (s.hand.ctx.pc + 4 * .ofInt 64 o.k.toInt))) := by
  rw [← intVal_toNat]
  exact steps_of_finish (congrArg (finish s) (hint_alone hseq hpc _))

end alone

/-! ## Words of a sequence (R220 to R226) -/

/-- A resume form that no sequence stands before (R226). -/
theorem resumeForm_iff : (s.hand.seq.isNone && bit s.hand.ctx.pc 63) = true ↔ s.hand.seq = none ∧ bit s.hand.ctx.pc 63 = true := by
  rw [Bool.and_eq_true, Option.isNone_iff_eq_none]

theorem inSequence_eq (h : ¬(s.hand.seq = none ∧ bit s.hand.ctx.pc 63 = true)) (f : SeqSt → State) : inSequence s f = f s.sequence :=
  if_neg (mt resumeForm_iff.mp h)

/-- The machine `u` once a word of the current thread's sequence has issued in `s`. -/
def nextWord (s u : State) (q : SeqSt) : State := u.modThread s.cur fun t =>
  { t with
    status := .ready
    seq := some q
    displaced := false
    ctx := { t.ctx with pc := wordAddr s.hand.ctx.pc + 4 } }

theorem seqNext_eq {u : State} (h : (u.thread s.cur).ctx.pc = s.hand.ctx.pc) (q : SeqSt) : seqNext u s.cur q = nextWord s u q := by
  rw [seqNext, State.modThread_eq, nextWord, State.modThread_eq, h]
  rfl

section modifiers
variable (hform : ¬(s.hand.seq = none ∧ bit s.hand.ctx.pc 63 = true))
include hform

theorem hmod_next (o : OpHmod) (h : s.sequence.nmod < 2) : Steps (.hmod o) s
    (nextWord s (if s.sequence.nmod = 0 then s else s.modCtx s.cur fun c => { c with modfb := true })
      { s.sequence with hmod := some o, nmod := s.sequence.nmod + 1 }) := by
  refine steps_of_finish (congrArg (finish s) ?_)
  rw [inSequence_eq hform, if_neg (Nat.not_le.mpr h), seqNext_eq]
  split
  · rfl
  · rw [State.modCtx_eq, State.thread_setThread_self]
    rfl

theorem hmod_late (o : OpHmod) (h : 2 ≤ s.sequence.nmod) : Steps (.hmod o) s (enter s s.cur illegal) := by
  refine steps_of_finish (congrArg (finish s) ?_)
  rw [inSequence_eq hform, if_pos h]

theorem himm_next (o : OpHimm) (h : s.sequence.nimm < 3) : Steps (.himm o) s
    (nextWord s s { s.sequence with himm := s.sequence.himm * 2 ^ 25 + o.h.toNat, nimm := s.sequence.nimm + 1 }) := by
  refine steps_of_finish (congrArg (finish s) ?_)
  rw [inSequence_eq hform, if_neg (Nat.not_le.mpr h), seqNext_eq rfl]

theorem himm_late (o : OpHimm) (h : 3 ≤ s.sequence.nimm) : Steps (.himm o) s (enter s s.cur illegal) := by
  refine steps_of_finish (congrArg (finish s) ?_)
  rw [inSequence_eq hform, if_pos h]

end modifiers

/-- The repetition at which a sequence begins (R226). -/
def firstRep (pc : Word) : Nat := if bit pc 63 then bits pc 62 57 else 0

theorem rep_first (o : OpRep) (hseq : s.hand.seq = none) (hk : firstRep s.hand.ctx.pc ≤ o.n.toNat) : Steps (.rep o) s
    (nextWord s s { SeqSt.plain (wordAddr s.hand.ctx.pc) with rep := some o, k := firstRep s.hand.ctx.pc }) := by
  refine steps_of_finish (congrArg (finish s) ?_)
  rw [if_neg (by rw [show (s.thread s.cur).seq = none from hseq]; exact Bool.false_ne_true)]
  exact (if_neg (Nat.not_lt.mpr hk)).trans (seqNext_eq rfl _)

theorem rep_late (o : OpRep) (hseq : s.hand.seq ≠ none) : Steps (.rep o) s (enter s s.cur illegal) :=
  steps_of_finish (congrArg (finish s) (if_pos (Option.isSome_iff_ne_none.mpr hseq)))

/-- The fault of a resume form names the word it resumes at (R226). -/
def illegalResume (pc : Word) : FaultRec := { illegal with pc := some (.ofNat 64 (pc.toNat % 2 ^ 57)) }

theorem illegalResume_eq {pc : Word} (h : bit pc 63 = true) : { illegal with pc := some (wordAddr pc) } = illegalResume pc := by
  rw [wordAddr, if_pos h, illegalResume]

theorem rep_beyond (o : OpRep) (hseq : s.hand.seq = none) (hk : o.n.toNat < firstRep s.hand.ctx.pc) :
    Steps (.rep o) s (enter s s.cur (illegalResume s.hand.ctx.pc)) := by
  have hpc : bit s.hand.ctx.pc 63 = true := by
    by_contra h
    exact absurd hk (by rw [firstRep, if_neg h]; exact Nat.not_lt_zero _)
  refine steps_of_finish (congrArg (finish s) ?_)
  rw [if_neg (by rw [show (s.thread s.cur).seq = none from hseq]; exact Bool.false_ne_true), ← illegalResume_eq hpc]
  exact if_pos hk

theorem illegalEncoding_enters (o : BadWord) : Steps (.illegalEncoding o) s
    (enter s s.cur (if s.hand.seq = none ∧ bit s.hand.ctx.pc 63 = true then illegalResume s.hand.ctx.pc else illegal)) := by
  refine steps_of_finish (congrArg (finish s) (congrArg (enter s s.cur) ?_))
  by_cases h : s.hand.seq = none ∧ bit s.hand.ctx.pc 63 = true
  · rw [if_pos h, ← illegalResume_eq h.2]
    exact if_pos (resumeForm_iff.mpr h)
  · rw [if_neg h]
    exact if_neg (mt resumeForm_iff.mp h)

end words

/-- Settles O16: each word by its own rule above; the fetches of the hints change no x register, since no home does. -/
theorem sequenceWords : Obligations.SequenceWords := by
  refine ⟨fun s => ⟨fun o hform => ⟨hmod_next hform o, hmod_late hform o⟩, fun o hform => ⟨himm_next hform o, himm_late hform o⟩,
    fun o => ⟨rep_first o, rep_late o, rep_beyond o⟩, illegalEncoding_enters⟩,
    fun s => ⟨fun hseq hpc => ⟨hnop_steps hseq hpc, pfl1_steps hseq hpc, pfsl_steps hseq hpc, pfi_steps hseq hpc,
      hschKind47_steps hseq hpc⟩, fun hseq o p i hi => ?_, fun ptr g n => ⟨?_, ?_, ?_⟩⟩⟩
  · simp only [List.mem_cons, List.not_mem_nil, or_false] at hi
    obtain rfl | rfl | rfl | rfl | rfl := hi <;> exact steps_of_finish (congrArg (finish s) (hint_late hseq _))
  · exact prefetchL1_keeps (keptByHomes_x n) ..
  · exact prefetchSlice_keeps (keptByHomes_x n) ..
  · exact prefetchInstr_keeps (keptByHomes_x n) ..

end Sys2Proof.Machine

/-! # An accumulator tile whose bytes do not rise -/

namespace Sys2Proof.Machine

/-- An MMA without scales of one row of A, in v4, by one row of B, in v5, FP32, to elements 0 and 1 of row 0 of tile 0, which it adds to. -/
@[irreducible] def rowMma : BitVec 512 :=
  0x4000000000000000_0000000000000005_4000000000000000_0000000000000004_0000000000000000_0000000000000000_0000000000000000_0000002080022200

def rowMmaEntry : MxEntry :=
  { id := 0, gti := 0, job := 0, user := false, task := 0, cmd := rowMma, pc := 0, tiles := [], ready := [], asked := true, pins := []
    begun := false, wrote := false, failed := none }

/-- A machine whose tile 0 lists byte 4 before byte 0, each 1. -/
def fallingTile : State := State.reset.modCore 0 fun c => { c with acc := [(0, { Acc.zero with data := [(4, 1), (0, 1)] })] }

/-- The machine in which the command runs, in the mode that it was issued in. -/
abbrev fallingRun : State := fallingTile.modCtx rowMmaEntry.gti fun t => { t with
  mode := if rowMmaEntry.user then .user else if (fallingTile.thread rowMmaEntry.gti).ctx.mode = .user then .supervisor
    else (fallingTile.thread rowMmaEntry.gti).ctx.mode }

/-- The command as the model runs it. -/
abbrev rowBeat : Mma := ⟨rowMmaEntry, 0, 8, 64, keptWeights fallingRun 0 8 64 rowMmaEntry⟩

theorem readA_vregs {m : Mma} (hscale : mxScm m.cmd ≠ 5) (hsrc : (mxA m.cmd).src = 1) (s : State) (i k0 k1 : Nat) :
    readA m s i k0 k1 = (s, .ok (vregElems s m.x.gti ((mxA m.cmd).base.toNat % 32 + i) m.esA k0 (k1 - k0), [])) := by
  simp only [readA, if_neg hscale, if_pos hsrc]

theorem readBRows_vregs {m : Mma} (hsrc : (mxB m.cmd).src = 1) (s : State) (j0 j1 k : Nat) :
    readBRows m j0 j1 k 1 s =
      (s, .ok [vregElems s m.x.gti ((mxB m.cmd).base.toNat % 32 + k % m.kb) m.esB j0 (j1 - j0)]) := by
  simp only [readBRows, if_pos hsrc]

theorem rowMma_kept : rowBeat.kept = none := by decide +kernel

theorem rowMma_blocks : ceilDiv (mxK rowMma) 8 = 1 ∧ ceilDiv (mxN rowMma) 64 = 1 ∧ mxM rowMma = 1 := by decide +kernel

theorem rowMma_kBlock : rowBeat.kBlock 0 = (0, 1) := by decide +kernel

theorem rowMma_operands : mxScm rowBeat.cmd ≠ 5 ∧ (mxA rowBeat.cmd).src = 1 ∧ (mxB rowBeat.cmd).src = 1 := by decide +kernel

/-- Vector registers are read alike whatever the accumulator tiles and the latched weights are. -/
theorem vregElems_tilesOnly {t : State} (h : tilesOnly fallingRun 0 t) (g v e j n : Nat) :
    vregElems t g v e j n = vregElems fallingRun g v e j n := by
  obtain rfl | ⟨acc, w, rfl⟩ := h
  · rfl
  · rfl

/-- Every operand element is 0, and no scale stands. -/
theorem rowMma_reads : MmaReads fallingRun rowBeat (fun _ _ => 0) (fun _ _ => 0) (fun _ _ => 127) (fun _ _ => 127) := by
  refine ⟨fun _ _ _ => ⟨rfl, rfl⟩, fun h => absurd h (by decide +kernel), fun w h => (by cases rowMma_kept.symm.trans h), ?_⟩
  intro t n ht hn
  obtain ⟨hblocks, hcols, hrows⟩ := rowMma_blocks
  obtain ⟨hscale, hA, hB⟩ := rowMma_operands
  obtain rfl : n = 0 := Nat.lt_one_iff.mp (hblocks ▸ hn)
  rw [rowMma_kBlock]
  refine ⟨fun i hi => ?_, fun cb _ hcb => ⟨fun _ => ?_, fun h => absurd h (by decide +kernel)⟩, fun h => absurd h (by decide +kernel)⟩
  · obtain rfl : i = 0 := Nat.lt_one_iff.mp (hrows ▸ hi)
    rw [readA_vregs hscale hA, vregElems_tilesOnly ht, if_neg hscale]
    exact congrArg (fun l => (t, Except.ok (l, []))) (by decide +kernel)
  · obtain rfl : cb = 0 := Nat.lt_one_iff.mp (hcols ▸ hcb)
    refine (readBRows_vregs hB ..).trans ?_
    rw [vregElems_tilesOnly ht]
    exact congrArg (fun l => (t, Except.ok [l])) (by decide +kernel)

/-- The command's row, read as a whole, begins with 0, to which it adds 0. -/
theorem rowMma_leaves :
    accRow (tget Acc.zero ((runCommand fallingTile 0 rowMmaEntry).1.core 0).acc (mxTile rowMmaEntry.cmd))
      (if mxWide rowMmaEntry.cmd then 8 else 4) 0 0 1 = [0] := by decide +kernel

/-- Refutes O52: its clause on an MMA starts each element from a read of that element alone, where the unit reads each row of a block as one run
of bytes. A tile is a table in which a read passes over a byte that does not rise above the one before, and the statement takes tiles of any
form: of one that lists byte 4 before byte 0, each 1, element 0 is 1 by itself and 0 in its row. An MMA of zeros then leaves 0 where the clause
asks for 1. The clause lacks the hypothesis that the tile's keys rise, the form that the model's tables are meant to have. -/
theorem not_matrixResults : ¬ Obligations.MatrixResults := by
  intro h
  obtain ⟨htile, -⟩ := h
  obtain ⟨-, hrun⟩ := htile fallingTile 0 rowMmaEntry (by decide +kernel)
  obtain ⟨-, -, hmma, -⟩ := hrun (.inl (by decide +kernel))
  obtain ⟨-, -, helements⟩ := hmma 8 64 _ _ _ _ (by decide +kernel) (by decide +kernel) rowMma_reads
  obtain ⟨hinside, -⟩ := helements 0 0 (by decide +kernel) (by decide)
  have hasked := hinside (by decide +kernel)
  exact absurd (rowMma_leaves.symm.trans hasked) (by decide +kernel)

end Sys2Proof.Machine

/-! # The words of the formats -/

namespace Sys2Proof.Machine

/-- Settles O53: the decoder, run on each word. -/
theorem decodedWords : Obligations.DecodedWords :=
  ⟨rfl, rfl, rfl, rfl, rfl, rfl, rfl, rfl, rfl, rfl, rfl, rfl, rfl, rfl, rfl, rfl, rfl, ⟨.marker, rfl⟩, ⟨.unassignedMajor, rfl⟩⟩

end Sys2Proof.Machine

/-! # Branches, calls, jumps and loops -/

namespace Sys2Proof.Machine

/-! ## Branches, calls and jumps (R215, R272, R381) -/

theorem canonical_iff {pc : Word} : canonical pc = true ↔ bits pc 63 57 = 0 := beq_iff_eq

/-- A branch goes to PC + 4K, where that address is canonical. -/
theorem br_ends (o : OpB) (s : State) : Ends (.br o) s (Traits.ofB o) fun i _ u =>
    let target := i.pc + 4 * i.imm
    if bits target 63 57 = 0 then .jump target u else .trap (mkFault .translation 6 target) u := by
  refine ends_issued _ _ _ _ _ rfl fun _ _ _ => ?_
  simp only [canonical_iff]
  rfl

/-- The traits of a call: its link register is not one of its fields. -/
abbrev callTraits (o : OpB) : Traits := { Traits.ofB o with more := ([31], []) }

/-- A call does the same, and links x31 where it jumps. -/
theorem call_ends (o : OpB) (s : State) : Ends (.call o) s (callTraits o) fun i _ u =>
    let target := i.pc + 4 * i.imm
    if bits target 63 57 = 0 then .jump target (u.modThread s.cur fun h => h.setX 31 (i.pc + 4))
    else .trap (mkFault .translation 6 target) u := by
  refine ends_issued _ _ _ _ _ rfl fun _ _ _ => ?_
  simp only [canonical_iff]
  rfl

abbrev jmprTraits (o : OpI) : Traits := { Traits.ofI o (fx o.d) (fx o.a) with rep := false }

/-- A jump to 0 retires the thread; any other goes to x[A] + 4K, where that is the address of a word, and links x[D]. -/
theorem jmpr_ends (o : OpI) (s : State) : Ends (.jmpr o) s (jmprTraits o) fun i h u =>
    let target := h.x i.a + 4 * i.imm
    if target = 0 then retireBody i u
    else if bits target 63 57 ≠ 0 then .trap (mkFault .translation 6 target) u
    else if bits target 1 0 ≠ 0 then .trap (mkFault .alignment 0 target) u
    else .jump target (u.modThread s.cur fun h => h.setX i.d (i.pc + 4)) := by
  refine ends_issued _ _ _ _ _ rfl fun _ _ hu => ?_
  simp only [issued_g, hu, Thread.flagged_x, canonical_iff]
  rfl

theorem ne_zero_of_bits {w : Word} {hi lo : Nat} (h : bits w hi lo ≠ 0) : w ≠ 0 := by
  rintro rfl
  exact h (by simp [bits])

/-- A thread with nothing outstanding retires at once (R381). -/
theorem retireBody_quiet {i : Iss} {s : State} (hq : quiet s i.g = true) :
    retireBody i s = .gone (retire (s.modThread i.g (committed false)) i.g) := by
  have heng : ((s.modThread i.g (committed false)).thread i.g).eng = [] := by
    rw [State.modThread_eq, State.thread_setThread_self, committed_eng]
    exact (quiet_parts hq).2.2.2.2.2.2.1
  rw [retireBody, withRelease_quiet hq, surfaceEngine_none heng, noteChecked_gone]

/-! ## The bytes that an access reads (R65, R116, R130) -/

theorem leNat_lt (bs : List Byte) : leNat bs < 2 ^ (8 * bs.length) := by
  induction bs with
  | nil => exact Nat.one_pos
  | cons b bs ih =>
    have hb := b.isLt
    rw [leNat, List.length_cons, Nat.mul_succ, Nat.pow_add]
    omega

/-- The pieces of an access have no more bytes than the access. -/
theorem splitGo_bytes (addr off n fuel : Nat) : ((splitGo addr off n fuel).map fun e => e.2.2).sum ≤ n := by
  induction fuel generalizing addr off n with
  | zero => exact Nat.zero_le n
  | succ fuel ih =>
    unfold splitGo
    dsimp only
    split
    · simp
    · have hrest := ih ((addr + min n (128 - addr % 128)) % 2 ^ 57) (off + min n (128 - addr % 128)) (n - min n (128 - addr % 128))
      rw [List.map_cons, List.sum_cons]
      dsimp only
      omega

theorem placeGo_bytes {s : State} {core job : Nat} {l : List (Nat × Nat × Nat)} {ps : List Piece} (h : placeGo s core job l = .ok ps) :
    ps.map Piece.len = l.map fun e => e.2.2 := by
  induction l generalizing ps with
  | nil =>
    cases h
    rfl
  | cons e l ih =>
    unfold placeGo at h
    split at h
    · cases h
    · split at h
      · cases h
      · next hl =>
        cases h
        rw [List.map_cons, List.map_cons, ih hl]

theorem place_bytes {s : State} {g addr n : Nat} {ps : List Piece} (h : place s g addr n = .ok ps) : (ps.map Piece.len).sum ≤ n := by
  unfold place at h
  split at h
  · cases h
  · rw [placeGo_bytes h]
    exact splitGo_bytes ..

theorem length_readPiece {s v : State} {g : Nat} {p : Piece} {bs : List Byte} (h : readPiece s g p = (v, .ok bs)) : bs.length = p.len := by
  unfold readPiece at h
  dsimp only at h
  split at h
  · cases h
  · split at h
    · cases h
    · cases h
      exact length_leBytes ..

theorem length_readPieces {g : Nat} {ps : List Piece} {s v : State} {bs : List Byte} (h : readPieces g ps s = (v, .ok bs)) :
    bs.length = (ps.map Piece.len).sum := by
  induction ps generalizing s bs with
  | nil =>
    cases h
    rfl
  | cons p ps ih =>
    unfold readPieces at h
    dsimp only at h
    split at h
    · cases h
    · next hp =>
      split at h
      · cases h
      · next hps =>
        cases h
        rw [List.length_append, length_readPiece (Prod.ext rfl hp), ih (Prod.ext rfl hps), List.map_cons, List.sum_cons]

theorem length_memoryRead (m : List Host.Cell) (a n : Nat) : (Memory.read m a n).length = n := by
  induction n generalizing a with
  | zero => rfl
  | succ n ih => rw [Memory.read, List.length_cons, ih]

/-- A scratchpad gives as many bytes as are asked for, zeros from a guard granule. -/
theorem length_readScratch {s v : State} {g : Nat} {ptr : Word} {n : Nat} {eng : Bool} {kind : BitVec 2} {pc : Word} {core off : Nat}
    {bs : List Byte} (h : readBytes.scratch g ptr n eng kind pc s core off = (v, .ok bs)) : bs.length = n := by
  unfold readBytes.scratch at h
  dsimp only at h
  split at h
  · cases h
  · split at h
    · split at h
      · cases h
      · cases h
        exact List.length_replicate
    · split at h
      · cases h
      · cases h
        exact length_memoryRead ..

/-- An access gives no more bytes than it asks for. -/
theorem length_readBytes {s v : State} {g : Nat} {ptr : Word} {n : Nat} {acc : Access} {eng : Bool} {kind : BitVec 2} {pc : Word}
    {bs : List Byte} (h : readBytes s g ptr n acc eng kind pc = (v, .ok bs)) : bs.length ≤ n := by
  unfold readBytes at h
  dsimp only at h
  split at h
  · cases h
  · split at h
    · cases h
    · next hplace =>
      split at h
      · cases h
      · next hread =>
        cases h
        rw [length_readPieces (Prod.ext rfl hread)]
        exact place_bytes hplace
  · exact (length_readScratch h).le
  · exact (length_readScratch h).le

/-! ## Hardware loops (R182, R273) -/

theorem recField_low (d hi : Nat) : recField d hi 0 = d % 2 ^ (hi + 1) := by
  rw [recField, Nat.pow_zero, Nat.div_one, Nat.sub_zero]

/-- The highest field of a record. -/
theorem recField_top {d hi lo : Nat} (hle : lo ≤ hi + 1) (hd : d < 2 ^ (hi + 1)) : recField d hi lo = d / 2 ^ lo := by
  rw [recField, Nat.mod_eq_of_lt]
  rw [Nat.div_lt_iff_lt_mul (Nat.two_pow_pos lo), ← Nat.pow_add, Nat.sub_add_cancel hle]
  exact hd

@[simp] theorem notePolicy_linkHeld (i : Iss) (ps : List Word) (s : State) : (notePolicy i ps s).linkHeld = s.linkHeld := by
  unfold notePolicy noteFallback
  split <;> rfl

theorem enterLoop_linkHeld (i : Iss) (len n : Nat) (s : State) : (enterLoop i len n s).state.linkHeld = s.linkHeld := by
  unfold enterLoop
  split <;> rfl

abbrev loopTraits (o : OpI) : Traits :=
  { Traits.ofI o (fx o.d) (fx o.a) with rep := false, narrow := true, pol := .taken, more := ([8, 9], []) }

/-- The place of a loop's count in the list that its shape record names (R273). -/
abbrev countPtr (i : Iss) (h : Thread) (fields : Nat) : Word := .ofNat 64 (fields / 2 ^ 448) + 4 * h.x i.d

/-- What a loop does with the fields of the shape record that it has read (R182, R273). -/
def loopShape (i : Iss) (o : OpI) (h : Thread) (fields : Nat) (v : State) : Res :=
  if fields / 2 ^ 308 % 16 ≠ 1 ∨ fields % 2 ^ 308 ≠ 0 then .trap badOperand v
  else if i.d = 0 then enterLoop i (o.k.toNat % 256) (shapeExt fields (o.k.toNat / 256)) (notePolicy i [h.x i.a] v)
  else if fields / 2 ^ 448 = 0 then .trap badOperand v
  else
    let q := readBytes (notePolicy i [h.x i.a, countPtr i h fields] v) i.g (countPtr i h fields) 4 .load false gkLoad i.pc
    match q.2 with
    | .error f => answerFault i f q.1
    | .ok ns => enterLoop i (o.k.toNat % 256) (leNat ns) q.1

section loop
variable (o : OpI) {s : State} (hway : s.onWay (isDirectWrite s.cur) = false)
include hway

theorem loop_misaligned (hstart : s.hand.stage = .start) (hptr : (s.hand.x (issued s (loopTraits o)).a).toNat % 64 ≠ 0) :
    Ends (.loop o) s (loopTraits o) fun _ _ u => .trap (mkFault .alignment 0 (s.hand.x (issued s (loopTraits o)).a)) u := by
  refine ends_issued _ _ _ _ _ rfl fun _ _ hu => ?_
  have hbegun := (begun_stage s (loopTraits o)).trans hstart
  simp only [withWritten, issued_g, begun_onWay (t := loopTraits o) rfl, hway, Bool.false_eq_true, if_false, hu, Thread.flagged_x, orFault,
    bne_iff_ne.mpr hptr, if_true, precise]
  exact if_pos (hu ▸ hbegun)

variable (hptr : (s.hand.x (issued s (loopTraits o)).a).toNat % 64 = 0) (hout : s.hand.out = []) {v : State} {bs : List Byte}
  (hread : readBytes (begun s (loopTraits o)) s.cur (s.hand.x (issued s (loopTraits o)).a) 64 .load false gkLoad (issued s (loopTraits o)).pc =
    (v, .ok bs))
include hptr hout hread

/-- A loop whose record has been read ends as the record says, unless a link holds it up. -/
theorem loop_ends {r : Res} (hr : loopShape (issued s (loopTraits o)) o s.hand (leNat bs) v = r) (hlink : r.state.linkHeld = false) :
    Ends (.loop o) s (loopTraits o) fun _ _ _ => r := by
  refine ends_issued _ _ _ _ _ rfl fun a b hu => ?_
  have hbegun : (s.hand.flagged a b).out = [] := hout
  have hlen : 8 * bs.length ≤ 511 + 1 := Nat.mul_le_mul_left 8 (length_readBytes hread)
  have hlist : recField (leNat bs) 511 448 = leNat bs / 2 ^ 448 :=
    recField_top (by decide) ((leNat_lt bs).trans_le (Nat.pow_le_pow_right Nat.two_pos hlen))
  simp only [withWritten, issued_g, begun_onWay (t := loopTraits o) rfl, hway, Bool.false_eq_true, if_false, hu, Thread.flagged_x, orFault,
    hptr, bne_self_eq_false, precise, hbegun, List.isEmpty_nil, Bool.not_true, hread, recField_low, hlist]
  exact (congrArg (Res.orHeld _) hr).trans (Res.orHeld_clear hlink)

variable (hformat : leNat bs / 2 ^ 308 % 16 = 1) (hzero : leNat bs % 2 ^ 308 = 0)
include hformat hzero

/-- A loop counted by its shape's extent. -/
theorem loop_entered (hv : v.linkHeld = false) (hd : (issued s (loopTraits o)).d = 0) :
    Ends (.loop o) s (loopTraits o) fun _ _ _ =>
      enterLoop (issued s (loopTraits o)) (o.k.toNat % 256) (shapeExt (leNat bs) (o.k.toNat / 256))
        (notePolicy (issued s (loopTraits o)) [s.hand.x (issued s (loopTraits o)).a] v) :=
  loop_ends o hway hptr hout hread (by simp only [loopShape, hformat, hzero, ne_eq, not_true, or_self, if_false, if_pos hd])
    ((enterLoop_linkHeld ..).trans ((notePolicy_linkHeld ..).trans hv))

/-- A loop counted from a list, where the record names none. -/
theorem loop_unlisted (hv : v.linkHeld = false) (hd : (issued s (loopTraits o)).d ≠ 0) (hlist : leNat bs / 2 ^ 448 = 0) :
    Ends (.loop o) s (loopTraits o) fun _ _ _ => .trap badOperand v :=
  loop_ends o hway hptr hout hread (by simp only [loopShape, hformat, hzero, ne_eq, not_true, or_self, if_false, if_neg hd, if_pos hlist]) hv

/-- A loop counted from a list. -/
theorem loop_counted (hd : (issued s (loopTraits o)).d ≠ 0) (hlist : leNat bs / 2 ^ 448 ≠ 0) {w : State} {ns : List Byte}
    (hcount : readBytes (notePolicy (issued s (loopTraits o))
        [s.hand.x (issued s (loopTraits o)).a, countPtr (issued s (loopTraits o)) s.hand (leNat bs)] v) s.cur
      (countPtr (issued s (loopTraits o)) s.hand (leNat bs)) 4 .load false gkLoad (issued s (loopTraits o)).pc = (w, .ok ns))
    (hw : w.linkHeld = false) :
    Ends (.loop o) s (loopTraits o) fun _ _ _ => enterLoop (issued s (loopTraits o)) (o.k.toNat % 256) (leNat ns) w :=
  loop_ends o hway hptr hout hread 
    (by simp only [loopShape, hformat, hzero, ne_eq, not_true, or_self, if_false, if_neg hd, if_neg hlist, issued_g, hcount])
    ((enterLoop_linkHeld ..).trans hw)

end loop

/-- Settles O8: a branch, a call and a jump end by their targets; a loop by its record, whose bytes a read gives no more of than it asks for. -/
theorem branchTargetsAndLinks : Obligations.BranchTargetsAndLinks := by
  refine ⟨⟨fun o s => ⟨fun h => (br_ends o s).congr (if_pos h), fun h => (br_ends o s).congr (if_neg h)⟩,
    fun o s => ⟨fun h => (call_ends o s).congr (if_pos h), fun h => (call_ends o s).congr (if_neg h)⟩,
    fun o s => ⟨fun h0 hhigh hlow => (jmpr_ends o s).congr ?_, fun hhigh => (jmpr_ends o s).congr ?_,
      fun hhigh hlow => (jmpr_ends o s).congr ?_, fun h0 hq => (jmpr_ends o s).congr ?_⟩⟩,
    fun o s v bs => ⟨fun hway hstart hptr => loop_misaligned o hway hstart hptr, fun hway hptr hout hread hv =>
      ⟨fun hbad => loop_ends o hway hptr hout hread (if_pos hbad) hv, fun hformat hzero =>
        ⟨loop_entered o hway hptr hout hread hformat hzero hv, loop_unlisted o hway hptr hout hread hformat hzero hv,
          fun hd hlist _ _ => loop_counted o hway hptr hout hread hformat hzero hd hlist⟩⟩⟩⟩
  · exact (if_neg h0).trans ((if_neg (not_not_intro hhigh)).trans (if_neg (not_not_intro hlow)))
  · exact (if_neg (ne_zero_of_bits hhigh)).trans (if_pos hhigh)
  · exact (if_neg (ne_zero_of_bits hlow)).trans ((if_neg (not_not_intro hhigh)).trans (if_pos hlow))
  · exact (if_pos h0).trans (retireBody_quiet ((quiet_begun s (jmprTraits o) rfl).trans hq))

end Sys2Proof.Machine

/-! # Control registers: what a read gives, and what a write leaves -/

namespace Sys2Proof.Machine

/-! ## Fields of a word (R237) -/

/-- A word has the bits of its fields. -/
theorem getLsbD_pack (l : List (Nat × Nat)) {i : Nat} (hi : i < 64) :
    (pack l).getLsbD i = l.any fun f => decide (f.2 ≤ i) && f.1.testBit (i - f.2) := by
  induction l with
  | nil => simp [pack]
  | cons f l ih =>
    obtain ⟨v, lo⟩ := f
    simp only [pack, BitVec.getLsbD_or, BitVec.getLsbD_ofNat, hi, decide_true, Bool.true_and, List.any_cons, ih, Nat.testBit_mul_two_pow]

theorem getLsbD_field {hi lo i : Nat} (h : hi < 64) : (field hi lo).getLsbD i = decide (lo ≤ i ∧ i ≤ hi) := by
  rw [field, BitVec.getLsbD_ofNat, Nat.testBit_mul_two_pow, Nat.testBit_two_pow_sub_one, Bool.eq_iff_iff]
  simp only [Bool.and_eq_true, decide_eq_true_eq]
  omega

/-- What a field of k + 1 bits gives at bit i of its word. -/
theorem fieldBit_toNat {k : Nat} (v : BitVec (k + 1)) (lo i : Nat) :
    (decide (lo ≤ i) && v.toNat.testBit (i - lo)) = (decide (lo ≤ i ∧ i ≤ lo + k) && v.getLsbD (i - lo)) := by
  rw [BitVec.testBit_toNat]
  by_cases h : i ≤ lo + k
  · simp only [h, and_true]
  · rw [BitVec.getLsbD_of_ge _ _ (by omega), Bool.and_false, Bool.and_false]

theorem fieldBit_bitNat (b : Bool) (lo i : Nat) :
    (decide (lo ≤ i) && (bitNat b).testBit (i - lo)) = (decide (lo ≤ i ∧ i ≤ lo) && b) := by
  rw [show bitNat b = (BitVec.ofBool b).toNat by cases b <;> rfl, fieldBit_toNat (k := 0), BitVec.getLsbD_ofBool, Nat.add_zero]
  by_cases h : lo ≤ i ∧ i ≤ lo
  · simp only [Nat.sub_eq_zero_of_le h.2, decide_true, Bool.true_and]
  · simp only [h, decide_false, Bool.false_and]

theorem fieldBit_code (m : Mode) (lo i : Nat) :
    (decide (lo ≤ i) && m.code.testBit (i - lo)) = (decide (lo ≤ i ∧ i ≤ lo + 1) && (BitVec.ofNat 2 m.code).getLsbD (i - lo)) := by
  rw [← fieldBit_toNat]
  cases m <;> rfl

/-- A field taken from a word, and put where it stood. -/
theorem fieldBit_bits {k hi lo : Nat} (hk : k = hi + 1 - lo) (w : Word) (i : Nat) :
    (decide (lo ≤ i) && (BitVec.ofNat k (bits w hi lo)).toNat.testBit (i - lo)) = (decide (lo ≤ i ∧ i ≤ hi) && w.getLsbD i) := by
  subst hk
  rw [BitVec.testBit_toNat, BitVec.getLsbD_ofNat, bits, Nat.testBit_mod_two_pow, Nat.testBit_div_two_pow, BitVec.testBit_toNat,
    Bool.eq_iff_iff]
  simp only [Bool.and_eq_true, decide_eq_true_eq]
  constructor
  · rintro ⟨hlo, -, hhi, hw⟩
    rw [Nat.sub_add_cancel hlo] at hw
    exact ⟨⟨hlo, by omega⟩, hw⟩
  · rintro ⟨⟨hlo, hhi⟩, hw⟩
    rw [Nat.sub_add_cancel hlo]
    exact ⟨hlo, by omega, by omega, hw⟩

theorem fieldBit_bit (w : Word) (lo i : Nat) :
    (decide (lo ≤ i) && (bitNat (bit w lo)).testBit (i - lo)) = (decide (lo ≤ i ∧ i ≤ lo) && w.getLsbD i) := by
  rw [fieldBit_bitNat, bit, ← BitVec.testBit_toNat, Nat.testBit_eq_decide_div_mod_eq, Bool.eq_iff_iff]
  simp only [Bool.and_eq_true, decide_eq_true_eq, beq_iff_eq]
  constructor <;>
    · rintro ⟨⟨hlo, hhi⟩, hw⟩
      obtain rfl := Nat.le_antisymm hlo hhi
      exact ⟨⟨hlo, hhi⟩, hw⟩

/-- Whether two words agree outside the bits that a mask names. -/
def KeptBits (mask cur w : Word) : Prop := ∀ i, mask.getLsbD i = false → w.getLsbD i = cur.getLsbD i

/-- What a register takes of a word leaves the bits that no mode writes (R278). -/
theorem wouldBe_kept (n : Nat) (cur new : Word) : KeptBits (mayWrite 2 n) cur (wouldBe n cur new) := by
  intro i hi
  simp only [wouldBe, BitVec.getLsbD_or, BitVec.getLsbD_and, BitVec.getLsbD_not, hi, Bool.not_false, Bool.and_true, Bool.and_false,
    Bool.false_and, Bool.or_false]
  by_cases h : i < 64
  · simp only [h, decide_true]
    cases cur.getLsbD i <;> rfl
  · simp [BitVec.getLsbD_of_ge _ _ (Nat.not_lt.mp h)]

/-- What leaves the bits outside a mask, and puts those of a word inside it, is that word. -/
theorem KeptBits.eq {mask cur w u : Word} (h : KeptBits mask cur w)
    (hu : ∀ i < 64, u.getLsbD i = if mask.getLsbD i then w.getLsbD i else cur.getLsbD i) : u = w := by
  refine BitVec.eq_of_getLsbD_eq fun i hi => (hu i hi).trans ?_
  split
  · rfl
  · next hm => exact (h i (Bool.eq_false_iff.mpr hm)).symm

theorem KeptBits.eq_of_zero {mask cur w : Word} (h : KeptBits mask cur w) (hm : mask = 0#64) : cur = w := by
  subst hm
  exact h.eq fun i _ => by rw [BitVec.getLsbD_zero, if_neg Bool.false_ne_true]

/-- A register that takes its fields from a word, which leaves the bits that no mode writes, reads as that word. -/
theorem packThst_write {c : Ctx} {ip : BitVec 4} {w : Word} (h : KeptBits (mayWrite 2 0x000) (packThst c ip) w) :
    packThst { c with imask := .ofNat 4 (bits w 15 12), haz := bit w 11, ie := bit w 10, pie := bit w 3, mpie := bit w 2 } ip = w := by
  refine h.eq fun i hi => ?_
  simp only [packThst, getLsbD_pack _ hi, List.any_cons, List.any_nil, fieldBit_bits (k := 4) (hi := 15) (lo := 12) rfl, fieldBit_bit]
  have hm : mayWrite 2 0x000 = field 11 11 ||| (field 15 12 ||| field 10 10 ||| field 3 3) ||| field 2 2 := rfl
  simp only [hm, fieldBit_toNat, fieldBit_bitNat, fieldBit_code, BitVec.getLsbD_or, getLsbD_field, Nat.reduceLT, Nat.reduceAdd]
  split
  · grind
  · next hfixed =>
    simp only [Bool.or_eq_true, decide_eq_true_eq, not_or] at hfixed
    simp only [hfixed, decide_false, Bool.false_and, Bool.false_or]

theorem packCause_write {n : Nat} (hm : mayWrite 2 n = field 63 63) {c : CauseRec} {w : Word}
    (h : KeptBits (mayWrite 2 n) (packCause c) w) : packCause { c with live := bit w 63 } = w := by
  refine h.eq fun i hi => ?_
  simp only [packCause, getLsbD_pack _ hi, List.any_cons, List.any_nil, fieldBit_bit]
  simp only [hm, fieldBit_toNat, fieldBit_bitNat, getLsbD_field, Nat.reduceLT, Nat.reduceAdd]
  grind

theorem packThdbg_write {c : Ctx} {w : Word} (h : KeptBits (mayWrite 2 0x011) (packThdbg c) w) :
    packThdbg { c with mpss := bit w 2, pss := bit w 1, ss := bit w 0 } = w := by
  refine h.eq fun i hi => ?_
  simp only [packThdbg, getLsbD_pack _ hi, List.any_cons, List.any_nil, fieldBit_bit]
  have hm : mayWrite 2 0x011 = field 1 0 ||| field 2 2 := by decide
  simp only [hm, fieldBit_bitNat, BitVec.getLsbD_or, getLsbD_field, Nat.reduceLT]
  grind

theorem packThflg_write {c : Ctx} {w : Word} (h : KeptBits (mayWrite 2 0x012) (packThflg c) w) :
    packThflg { c with modfb := bit w 15, arith := .ofNat 8 (bits w 7 0) } = w := by
  refine h.eq fun i hi => ?_
  simp only [packThflg, getLsbD_pack _ hi, List.any_cons, List.any_nil, fieldBit_bits (k := 8) (hi := 7) (lo := 0) rfl, fieldBit_bit]
  have hm : mayWrite 2 0x012 = field 15 15 ||| field 7 0 := by decide
  simp only [hm, fieldBit_toNat, fieldBit_bitNat, BitVec.getLsbD_or, getLsbD_field, Nat.reduceLT, Nat.reduceAdd]
  grind

/-- The same of a register of one field. -/
theorem field_write {n k hi lo : Nat} (hm : mayWrite 2 n = field hi lo) (hk : k + 1 = hi + 1 - lo) (hhi : hi < 64) {v : BitVec (k + 1)}
    {w : Word} (h : KeptBits (mayWrite 2 n) (.ofNat 64 (v.toNat * 2 ^ lo)) w) :
    .ofNat 64 ((BitVec.ofNat (k + 1) (bits w hi lo)).toNat * 2 ^ lo) = w := by
  refine h.eq fun i hi => ?_
  simp only [hm, BitVec.getLsbD_ofNat, Nat.testBit_mul_two_pow, hi, decide_true, Bool.true_and, fieldBit_bits hk, fieldBit_toNat,
    getLsbD_field hhi]
  grind

theorem lowField_write {n k : Nat} (hm : mayWrite 2 n = field k 0) (hk : k < 64) {v : BitVec (k + 1)} {w : Word}
    (h : KeptBits (mayWrite 2 n) (.ofNat 64 v.toNat) w) : .ofNat 64 (BitVec.ofNat (k + 1) (bits w k 0)).toNat = w := by
  rw [← Nat.mul_one v.toNat] at h
  rw [← Nat.mul_one (BitVec.toNat _)]
  exact field_write hm rfl hk h

/-! ## Registers of a thread (R155, R236, R278) -/

theorem State.ipend_setThread {s : State} {g : Nat} {y : Thread} (htcmp : y.ctx.tcmp = (s.thread g).ctx.tcmp)
    (hipend : y.ctx.ipend = (s.thread g).ctx.ipend) : (s.setThread g y).ipend g = s.ipend g := by
  rw [State.ipend, State.thread_setThread_self, htcmp, hipend]
  rfl

theorem isHandle_iff {n : Nat} : isHandle n = true ↔ 0x020 ≤ n ∧ n < 0x030 := decide_eq_true_iff

theorem isHandle_of_lt {n : Nat} (h : n < 0x016) : isHandle n = false :=
  decide_eq_false fun hn => absurd hn.1 (by omega)

theorem inThread_cases {n : Nat} (h : inThread n = true) : isHandle n = true ∨ n < 0x016 := by
  rw [inThread, Bool.or_eq_true, decide_eq_true_iff] at h
  exact h.symm

theorem readOwn_handle (s : State) (g : Nat) {n : Nat} (h : isHandle n = true) : readOwn s g n = (s.thread g).handle (n - 0x020) :=
  if_pos h

theorem setRestart_eq (t : Thread) (v : Word) :
    setRestart t v = { t with ctx := { t.ctx with rx := (setRestart t v).ctx.rx, rcond := (setRestart t v).ctx.rcond } } := by
  unfold setRestart
  dsimp only
  split
  · rfl
  · split <;> rfl

theorem writeOwn_handle {n : Nat} (h : isHandle n = true) (t : Thread) (v : Word) : writeOwn t n v = t.setH (n - 0x020) v := if_pos h

/-- A write of register n changes what n names of a thread, and nothing else. -/
theorem writeOwn_eq {n : Nat} (h : n < 0x016) (t : Thread) (v : Word) : writeOwn t n v =
    { t with
      rgsel := if n = 0x007 then .ofNat 4 (bits v 3 0) else t.rgsel
      ctx := { t.ctx with
        imask := if n = 0x000 then .ofNat 4 (bits v 15 12) else t.ctx.imask
        haz := if n = 0x000 then bit v 11 else t.ctx.haz
        ie := if n = 0x000 then bit v 10 else t.ctx.ie
        pie := if n = 0x000 then bit v 3 else t.ctx.pie
        mpie := if n = 0x000 then bit v 2 else t.ctx.mpie
        svec := if n = 0x004 then .ofNat 62 (bits v 63 2) else t.ctx.svec
        tcmp := if n = 0x005 then v else t.ctx.tcmp
        rpc := if n = 0x006 then v else t.ctx.rpc
        rx := if n = 0x008 then (setRestart t v).ctx.rx else t.ctx.rx
        rcond := if n = 0x008 then (setRestart t v).ctx.rcond else t.ctx.rcond
        cause := if n = 0x009 then { t.ctx.cause with live := bit v 63 } else t.ctx.cause
        epc := if n = 0x00A then v else t.ctx.epc
        addr := if n = 0x00B then v else t.ctx.addr
        mcause := if n = 0x00D then { t.ctx.mcause with live := bit v 63 } else t.ctx.mcause
        mepc := if n = 0x00E then v else t.ctx.mepc
        mvec := if n = 0x00F then .ofNat 62 (bits v 63 2) else t.ctx.mvec
        xeq := if n = 0x010 then .ofNat 32 (bits v 31 0) else t.ctx.xeq
        mpss := if n = 0x011 then bit v 2 else t.ctx.mpss
        pss := if n = 0x011 then bit v 1 else t.ctx.pss
        ss := if n = 0x011 then bit v 0 else t.ctx.ss
        modfb := if n = 0x012 then bit v 15 else t.ctx.modfb
        arith := if n = 0x012 then .ofNat 8 (bits v 7 0) else t.ctx.arith
        hpat := if n = 0x013 then .ofNat 55 (bits v 54 0) else t.ctx.hpat
        sqsel := if n = 0x014 then .ofNat 4 (bits v 3 0) else t.ctx.sqsel
        mersel := if n = 0x015 then .ofNat 4 (bits v 3 0) else t.ctx.mersel } } := by
  obtain hbelow | rfl | habove := lt_trichotomy n 0x008
  · interval_cases n <;> rfl
  · exact setRestart_eq t v
  · interval_cases n <;> rfl

theorem restartValue_setRestart {t : Thread} {w : Word} (hlo : 1 ≤ t.rgsel.toNat) (hhi : t.rgsel.toNat ≤ 10)
    (hw : t.rgsel.toNat = 10 → w.toNat < 2 ^ 16) : restartValue (setRestart t w) = w := by
  unfold setRestart
  dsimp only
  split
  · next h => simp only [restartValue, if_pos h, tget_tset_self]
  · next h =>
    have h10 : t.rgsel.toNat = 10 := by omega
    have hbits : bits w 15 0 = w.toNat := by
      rw [bits, Nat.pow_zero, Nat.div_one]
      exact Nat.mod_eq_of_lt (hw h10)
    simp only [restartValue, h10, if_true, if_neg (show ¬(1 ≤ 10 ∧ 10 ≤ 9) by decide), hbits, BitVec.toNat_ofNat,
      Nat.mod_eq_of_lt (hw h10)]
    rw [BitVec.ofNat_toNat, BitVec.setWidth_eq]

section registers
variable {s : State} {g n : Nat} {w : Word}

/-- By the number of the register: its fields are those of the word, or none of its bits is written; the words that a register
keeps whole (0x005, 0x006, 0x00A, 0x00B, 0x00E) need no more than the definitions. -/
theorem readOwn_writeOwn_self (hn : n < 0x016) (hw : KeptBits (mayWrite 2 n) (readOwn s g n) w)
    (hr : n = 0x008 → 1 ≤ (s.thread g).rgsel.toNat ∧ (s.thread g).rgsel.toNat ≤ 10 ∧ ((s.thread g).rgsel.toNat = 10 → w.toNat < 2 ^ 16)) :
    readOwn (s.setThread g (writeOwn (s.thread g) n w)) g n = w := by
  interval_cases n
  all_goals simp only [readOwn, State.thread_setThread_self, writeOwn, isHandle_of_lt hn, Bool.false_eq_true, if_false]
  -- 0x000, THST
  · rw [State.ipend_setThread]
    · exact packThst_write hw
    all_goals rfl
  -- 0x001 to 0x003, which no mode writes
  iterate 3 · exact hw.eq_of_zero (by decide)
  -- 0x004, a trap vector
  · exact field_write (hi := 63) (lo := 2) (by decide) rfl (by decide) hw
  -- 0x007, THRGSEL
  · exact lowField_write (k := 3) (by decide) (by decide) hw
  -- 0x008, THRGVAL
  · obtain ⟨hlo, hhi, hlt⟩ := hr rfl
    exact restartValue_setRestart hlo hhi hlt
  -- 0x009, a trap's cause
  · exact packCause_write (by decide) hw
  -- 0x00C, which no mode writes
  · exact hw.eq_of_zero (by decide)
  -- 0x00D, a trap's cause
  · exact packCause_write (by decide) hw
  -- 0x00F, a trap vector
  · exact field_write (hi := 63) (lo := 2) (by decide) rfl (by decide) hw
  -- 0x010 to 0x015
  · exact lowField_write (k := 31) (by decide) (by decide) hw
  · exact packThdbg_write hw
  · exact packThflg_write hw
  · exact lowField_write (k := 54) (by decide) (by decide) hw
  · exact lowField_write (k := 3) (by decide) (by decide) hw
  · exact lowField_write (k := 3) (by decide) (by decide) hw

/-- By the number of the register that is read: no field of it is one of register n. -/
theorem readOwn_writeOwn_other {k : Nat} (hn : n < 0x016) (hk : k < 0x016) (hne : k ≠ n) (h5 : n ≠ 0x005 ∨ k ≠ 0x000)
    (h7 : n ≠ 0x007 ∨ k ≠ 0x008) : readOwn (s.setThread g (writeOwn (s.thread g) n w)) g k = readOwn s g k := by
  interval_cases k
  all_goals simp only [readOwn, State.thread_setThread_self, writeOwn_eq hn, if_neg hne.symm, isHandle_of_lt hk, Bool.false_eq_true,
    if_false]
  -- 0x000, THST, whose pending interrupts ask for 0x005
  · simp only [if_neg (h5.resolve_right (not_not_intro rfl))]
    rw [State.ipend_setThread]
    all_goals rfl
  -- 0x001 to 0x003
  iterate 3 · rfl
  -- 0x008, THRGVAL, which asks for 0x007
  · simp only [if_neg (h7.resolve_right (not_not_intro rfl))]
    rfl
  all_goals rfl

/-- The handle registers are apart from the context. -/
theorem readOwn_setH (h : Nat) {k : Nat} (hk : k < 0x016) : readOwn (s.setThread g ((s.thread g).setH h w)) g k = readOwn s g k := by
  interval_cases k
  all_goals simp only [readOwn, State.thread_setThread_self, isHandle_of_lt hk, Bool.false_eq_true, if_false]
  -- 0x000, THST, is the one that reads more than the context
  · rw [State.ipend_setThread]
    all_goals rfl
  all_goals rfl

variable (hn : inThread n = true)
include hn

/-- A register of the thread holds what a write leaves in it; THRGVAL only where THRGSEL selects a value (R155). -/
theorem readOwn_written (hw : KeptBits (mayWrite 2 n) (readOwn s g n) w)
    (hr : n = 0x008 → 1 ≤ (s.thread g).rgsel.toNat ∧ (s.thread g).rgsel.toNat ≤ 10 ∧ ((s.thread g).rgsel.toNat = 10 → w.toNat < 2 ^ 16)) :
    readOwn (s.setThread g (writeOwn (s.thread g) n w)) g n = w := by
  obtain hh | hlt := inThread_cases hn
  · rw [readOwn_handle _ _ hh, State.thread_setThread_self, writeOwn_handle hh, Thread.handle_setH_self]
  · exact readOwn_writeOwn_self hlt hw hr

/-- The registers of a thread are apart, but for the timer's interrupt in THST, and the choice of THRGVAL by THRGSEL. -/
theorem readOwn_kept {k : Nat} (hk : inThread k = true) (hne : k ≠ n) (h5 : n ≠ 0x005 ∨ k ≠ 0x000) (h7 : n ≠ 0x007 ∨ k ≠ 0x008) :
    readOwn (s.setThread g (writeOwn (s.thread g) n w)) g k = readOwn s g k := by
  obtain hn | hn := inThread_cases hn <;> obtain hk | hk := inThread_cases hk
  · have hnk : k - 0x020 ≠ n - 0x020 := by
      have hn := (isHandle_iff.mp hn).1
      have hk := (isHandle_iff.mp hk).1
      omega
    rw [readOwn_handle _ _ hk, readOwn_handle _ _ hk, State.thread_setThread_self, writeOwn_handle hn]
    exact (tget_tset ..).trans (if_neg hnk)
  · rw [writeOwn_handle hn, readOwn_setH _ hk]
  · rw [readOwn_handle _ _ hk, readOwn_handle _ _ hk, State.thread_setThread_self, writeOwn_eq hn]
    rfl
  · exact readOwn_writeOwn_other hn hk hne h5 h7

end registers

/-! ## Reads (R85, R237, R278) -/

abbrev mfcrTraits (o : OpI) : Traits := { Traits.ofI o (fx o.d) (fk o.a) with narrow := true }

/-- The value of a register outside the thread, as a long-class result that its core returns (R159). -/
def unitReturned (i : Iss) (g n : Nat) (w : State) : State :=
  let r := readUnit w g n
  let v := r.2.modThread g fun x =>
    { x with nextId := x.nextId + 1, out := x.out ++ [⟨x.nextId, .regs [i.d] [], 1, [], none, i.rpc, false, 0, x.ctx.task⟩] }
  v.send (fromThread g) (atCore (coreOf g)) (.resultReturn ⟨g, (r.2.thread g).nextId, .regs [(i.d, r.1)] [] 0, none⟩)

/-- What `mfcr` comes to. -/
theorem mfcr_ends (o : OpI) (s : State) : Ends (.mfcr o) s (mfcrTraits o) fun i h u =>
    let n := registerNumber i o
    if ¬isRegister n = true then .trap (mkFault .illegalInstruction 0 0) u
    else if h.ctx.mode.code < readMode n then .trap (mkFault .privilege 0 0) u
    else if inThread n = true then .done (u.modThread s.cur fun w => w.setX i.d (readOwn u s.cur n))
    else if (n = 0x080 ∨ n = 0x081) ∧ sliceAhead u (coreOf s.cur) (selSlice u s.cur) = true then .wait .unit u
    else withRoomOut i u fun w => .done (unitReturned i s.cur n w) := by
  refine ends_issued _ _ _ _ _ rfl fun _ _ hu => ?_
  simp only [issued_g, hu, Thread.flagged_mode]
  rfl

theorem isRegister_of_inThread {n : Nat} (h : inThread n = true) : isRegister n = true := by
  simp only [isRegister, h, Bool.true_or]

section read
variable (o : OpI) {s : State} {n : Nat} (hn : registerNumber (issued s (mfcrTraits o)) o = n)
include hn

theorem mfcr_illegal (h : isRegister n = false) :
    Ends (.mfcr o) s (mfcrTraits o) fun _ _ u => .trap (mkFault .illegalInstruction 0 0) u :=
  (mfcr_ends o s).congr (by simp only [hn, h, Bool.false_eq_true, not_false_eq_true, if_true])

variable (hreg : isRegister n = true)
include hreg

theorem mfcr_denied (hmode : s.hand.ctx.mode.code < readMode n) :
    Ends (.mfcr o) s (mfcrTraits o) fun _ _ u => .trap (mkFault .privilege 0 0) u :=
  (mfcr_ends o s).congr (by simp only [hn, hreg, not_true, if_false, if_pos hmode])

variable (hmode : readMode n ≤ s.hand.ctx.mode.code)
include hmode

theorem mfcr_own (hin : inThread n = true) :
    Does (.mfcr o) s (mfcrTraits o) fun i _ w => w.setX i.d (readOwn (begun s (mfcrTraits o)) s.cur n) :=
  (mfcr_ends o s).congr (by simp only [hn, hreg, not_true, if_false, if_neg (Nat.not_lt.mpr hmode), hin, if_true])

theorem mfcr_unit (hin : inThread n = false) (hroom : s.hand.out.length < 16)
    (hslice : n = 0x080 ∨ n = 0x081 → sliceAhead (begun s (mfcrTraits o)) (coreOf s.cur) (selSlice (begun s (mfcrTraits o)) s.cur) = false) :
    Acts (.mfcr o) s (mfcrTraits o) fun i _ w => unitReturned i s.cur n w := by
  refine (mfcr_ends o s).congr ?_
  have hahead : ¬((n = 0x080 ∨ n = 0x081) ∧
      sliceAhead (begun s (mfcrTraits o)) (coreOf s.cur) (selSlice (begun s (mfcrTraits o)) s.cur) = true) :=
    fun h => Bool.eq_false_iff.mp (hslice h.1) h.2
  simp only [hn, hreg, not_true, if_false, if_neg (Nat.not_lt.mpr hmode), hin, Bool.false_eq_true, if_neg hahead, withRoomOut_begun hroom]

end read

/-- Settles O14: a read of each kind of register ends as its lemma above says; a write changes no bit of a word that no mode may write, and
the fields that it takes from a word are put back where they stood. -/
theorem controlRegisterReads : Obligations.ControlRegisterReads := by
  refine ⟨fun o s => ⟨fun h => mfcr_illegal o rfl h, fun hreg hmode => mfcr_denied o rfl hreg hmode,
    fun hin hmode => mfcr_own o rfl (isRegister_of_inThread hin) hmode hin,
    fun hreg hin hmode hroom hslice => mfcr_unit o rfl hreg hmode hin hroom hslice,
    rfl, rfl, rfl, rfl, rfl, rfl, rfl, rfl, fun k hk => ?_⟩,
    fun s g n k v hn hk => ⟨fun h8 => readOwn_written hn (wouldBe_kept n _ v) fun h => h8.resolve_left (not_not_intro h), readOwn_kept hn hk⟩⟩
  have hh : isHandle (0x020 + k) = true := isHandle_iff.mpr (by omega)
  rw [readOwn_handle _ _ hh, Nat.add_sub_cancel_left]

end Sys2Proof.Machine

/-! # The floating-point formats: what an encoding denotes -/

namespace Sys2Proof.Machine

/-! ## The shape of a format (R243) -/

/-- The least significand of a normal number of format k. -/
def lead (k : Nat) : Nat := 2 ^ ((fmt k).p - 1)

/-- The exponent field of an infinity or a NaN of format k. -/
def topField (k : Nat) : Nat := 2 ^ ((fmt k).w - (fmt k).p) - 1

theorem fmt_shape (k : Nat) :
    8 ≤ (fmt k).p ∧ (fmt k).p < (fmt k).w ∧ 2 ^ ((fmt k).w - (fmt k).p) = 2 * (fmt k).emax + 2 ∧ 15 ≤ (fmt k).emax := by
  unfold fmt
  split <;> decide

theorem two_pow_p (k : Nat) : 2 ^ (fmt k).p = 2 * lead k := by
  obtain ⟨hp, -⟩ := fmt_shape k
  rw [lead, ← pow_succ', Nat.sub_add_cancel (by omega)]

theorem lead_eq (k : Nat) : lead k = 2 * 2 ^ ((fmt k).p - 2) := by
  obtain ⟨hp, -⟩ := fmt_shape k
  rw [lead, ← pow_succ']
  congr 1
  omega

theorem lead_pos (k : Nat) : 0 < lead k := Nat.two_pow_pos _

theorem topField_eq (k : Nat) : topField k = 2 * (fmt k).emax + 1 := by
  obtain ⟨-, -, h, -⟩ := fmt_shape k
  rw [topField, h]
  rfl

theorem inf_eq (k : Nat) : (fmt k).inf = topField k * lead k := rfl

/-- The weight of the sign. -/
theorem signWeight_eq (k : Nat) : 2 ^ ((fmt k).w - 1) = lead k * (topField k + 1) := by
  obtain ⟨hp, hw, -⟩ := fmt_shape k
  rw [lead, topField, Nat.sub_add_cancel (Nat.two_pow_pos _), ← pow_add]
  congr 1
  omega

theorem inf_lt_signWeight (k : Nat) : (fmt k).inf < 2 ^ ((fmt k).w - 1) := by
  rw [signWeight_eq, inf_eq, Nat.mul_comm, Nat.mul_succ]
  exact Nat.lt_add_of_pos_right (lead_pos k)

theorem lead_lt_inf (k : Nat) : lead k < (fmt k).inf := by
  have h := lead_pos k
  have := topField_eq k
  obtain ⟨-, -, -, he⟩ := fmt_shape k
  rw [inf_eq]
  nlinarith

/-- A NaN, as the canonical one is, lies between the infinity and the sign. -/
theorem canon_eq (k : Nat) : canon k = topField k * lead k + 2 ^ ((fmt k).p - 2) := rfl

theorem canon_lt_signWeight (k : Nat) : canon k < 2 ^ ((fmt k).w - 1) := by
  have := lead_eq k
  have := Nat.two_pow_pos ((fmt k).p - 2)
  rw [canon_eq, signWeight_eq, Nat.mul_comm (lead k), Nat.succ_mul]
  omega

theorem width_eq (k : Nat) : 2 ^ (fmt k).w = 2 * 2 ^ ((fmt k).w - 1) := by
  obtain ⟨hp, hw, -⟩ := fmt_shape k
  rw [← pow_succ', Nat.sub_add_cancel (by omega)]

/-! ## Encodings without their sign -/

theorem magnitude_subnormal {k a : Nat} (h : a < lead k) : magnitude k a = (a, (fmt k).umin) := if_pos h

theorem magnitude_normal {k a : Nat} (h : lead k ≤ a) :
    magnitude k a = (lead k + a % lead k, (fmt k).umin + (a / lead k : Nat) - 1) := if_neg (Nat.not_lt.mpr h)

/-- Significand n at the place j above the least one. -/
theorem magnitude_at {k j n : Nat} (hj : j = 0 ∨ lead k ≤ n) (hn : n < 2 * lead k) :
    magnitude k (j * lead k + n) = (n, (fmt k).umin + j) := by
  have hpos := lead_pos k
  by_cases h : n < lead k
  · obtain rfl : j = 0 := hj.resolve_right (Nat.not_le.mpr h)
    rw [Nat.zero_mul, Nat.zero_add, magnitude_subnormal h, Nat.cast_zero, add_zero]
  · obtain ⟨r, rfl⟩ := Nat.exists_eq_add_of_le (Nat.not_lt.mp h)
    have hr : r < lead k := by omega
    have e : j * lead k + (lead k + r) = r + lead k * (j + 1) := by ring
    rw [e, magnitude_normal (by nlinarith), Nat.add_mul_mod_self_left, Nat.add_mul_div_left _ _ hpos, Nat.mod_eq_of_lt hr,
      Nat.div_eq_of_lt hr, Nat.zero_add]
    congr 1
    push_cast
    ring

/-- A significand that has reached the next power of two. -/
theorem magnitude_carry {k j n : Nat} (hn : n = 2 * lead k) : magnitude k (j * lead k + n) = (lead k, (fmt k).umin + j + 1) := by
  have e : j * lead k + n = (j + 1) * lead k + lead k := by rw [hn]; ring
  rw [e, magnitude_at (.inr (Nat.le_refl _)) (by have := lead_pos k; omega)]
  congr 1
  push_cast
  ring

/-! ## The value of an encoding (R262) -/

/-- An encoding by its fields. -/
theorem fpVal_fields (k b : Nat) :
    fpVal k b =
      if b / lead k % 2 ^ ((fmt k).w - (fmt k).p) = topField k then
        if b % lead k = 0 then .inf (b / 2 ^ ((fmt k).w - 1) % 2 == 1) else .nan (decide (b % lead k < 2 ^ ((fmt k).p - 2)))
      else if b / lead k % 2 ^ ((fmt k).w - (fmt k).p) = 0 then .fin (b / 2 ^ ((fmt k).w - 1) % 2 == 1) (b % lead k) (fmt k).umin
      else .fin (b / 2 ^ ((fmt k).w - 1) % 2 == 1) (lead k + b % lead k)
        ((fmt k).umin + (b / lead k % 2 ^ ((fmt k).w - (fmt k).p) : Nat) - 1) := rfl

/-- An encoding by its sign and what stands below it. -/
theorem fpVal_eq (k b : Nat) :
    fpVal k b =
      if b % 2 ^ ((fmt k).w - 1) < (fmt k).inf then
        .fin (b.testBit ((fmt k).w - 1)) (magnitude k (b % 2 ^ ((fmt k).w - 1))).1 (magnitude k (b % 2 ^ ((fmt k).w - 1))).2
      else if b % 2 ^ ((fmt k).w - 1) = (fmt k).inf then .inf (b.testBit ((fmt k).w - 1))
      else .nan (decide (b % 2 ^ ((fmt k).w - 1) < canon k)) := by
  have hpos := lead_pos k
  have hE : 2 ^ ((fmt k).w - (fmt k).p) = topField k + 1 := (Nat.sub_add_cancel (Nat.two_pow_pos _)).symm
  have hsign : (b / 2 ^ ((fmt k).w - 1) % 2 == 1) = b.testBit ((fmt k).w - 1) := by
    rw [Nat.testBit_eq_decide_div_mod_eq]
    rfl
  have hfr : b % lead k = b % 2 ^ ((fmt k).w - 1) % lead k := by
    rw [signWeight_eq, Nat.mod_mul_right_mod]
  have hex : b / lead k % (topField k + 1) = b % 2 ^ ((fmt k).w - 1) / lead k := by
    rw [signWeight_eq, Nat.mod_mul_right_div_self]
  rw [fpVal_fields, hsign, hE, hex, hfr, canon_eq, inf_eq]
  have hlt : b % 2 ^ ((fmt k).w - 1) / lead k < topField k + 1 := hex ▸ Nat.mod_lt _ (Nat.succ_pos _)
  generalize b % 2 ^ ((fmt k).w - 1) = a at hlt
  have ha := Nat.mod_add_div' a (lead k)
  by_cases htop : a / lead k = topField k
  · rw [htop] at ha
    rw [if_pos htop, if_neg (c := a < _) (by omega)]
    by_cases h0 : a % lead k = 0
    · rw [if_pos h0, if_pos (by omega)]
    · rw [if_neg h0, if_neg (by omega)]
      exact congrArg Fv.nan (decide_eq_decide.mpr (by omega))
  · have hbelow : a < topField k * lead k := (Nat.div_lt_iff_lt_mul hpos).mp (by omega)
    rw [if_neg htop, if_pos hbelow]
    by_cases h0 : a / lead k = 0
    · have hsub : a < lead k := (Nat.div_eq_zero_iff_lt hpos).mp h0
      rw [if_pos h0, magnitude_subnormal hsub, Nat.mod_eq_of_lt hsub]
    · rw [if_neg h0, magnitude_normal (Nat.div_pos_iff.mp (Nat.pos_of_ne_zero h0)).2]

theorem signBits_mod {k a : Nat} (neg : Bool) (ha : a < 2 ^ ((fmt k).w - 1)) : signBits k neg a % 2 ^ ((fmt k).w - 1) = a := by
  cases neg
  · simp [signBits, Nat.mod_eq_of_lt ha]
  · simp [signBits, Nat.mod_eq_of_lt ha]

theorem signBits_testBit {k a : Nat} (neg : Bool) (ha : a < 2 ^ ((fmt k).w - 1)) :
    (signBits k neg a).testBit ((fmt k).w - 1) = neg := by
  cases neg
  · simpa [signBits] using Nat.testBit_lt_two_pow ha
  · simp [signBits, Nat.testBit_two_pow_add_eq, Nat.testBit_lt_two_pow ha]

theorem fpVal_signBits_fin {k a : Nat} (neg : Bool) (ha : a < (fmt k).inf) :
    fpVal k (signBits k neg a) = .fin neg (magnitude k a).1 (magnitude k a).2 := by
  have hw := Nat.lt_trans ha (inf_lt_signWeight k)
  rw [fpVal_eq, signBits_mod neg hw, signBits_testBit neg hw, if_pos ha]

theorem fpVal_signBits_zero (k : Nat) (neg : Bool) : fpVal k (signBits k neg 0) = .fin neg 0 (fmt k).umin := by
  rw [fpVal_signBits_fin neg (Nat.lt_of_le_of_lt (Nat.zero_le _) (lead_lt_inf k)), magnitude_subnormal (lead_pos k)]

theorem fpVal_signBits_inf (k : Nat) (neg : Bool) : fpVal k (signBits k neg (fmt k).inf) = .inf neg := by
  have hw := inf_lt_signWeight k
  rw [fpVal_eq, signBits_mod neg hw, signBits_testBit neg hw, if_neg (Nat.lt_irrefl _), if_pos rfl]

theorem fpVal_inf (k : Nat) : fpVal k (fmt k).inf = .inf false := by
  simpa [signBits] using fpVal_signBits_inf k false

theorem fpVal_canon (k : Nat) : fpVal k (canon k) = .nan false := by
  have hq := Nat.two_pow_pos ((fmt k).p - 2)
  have hi := inf_eq k
  have hc := canon_eq k
  rw [fpVal_eq, Nat.mod_eq_of_lt (canon_lt_signWeight k), if_neg (by omega), if_neg (by omega), decide_eq_false (Nat.lt_irrefl _)]

/-- Bits above the format's width do not count. -/
theorem fpVal_mod (k b : Nat) : fpVal k (b % 2 ^ (fmt k).w) = fpVal k b := by
  have hmod : b % 2 ^ (fmt k).w % 2 ^ ((fmt k).w - 1) = b % 2 ^ ((fmt k).w - 1) :=
    Nat.mod_mod_of_dvd _ (pow_dvd_pow 2 (Nat.sub_le _ _))
  have hbit : (b % 2 ^ (fmt k).w).testBit ((fmt k).w - 1) = b.testBit ((fmt k).w - 1) := by
    have := fmt_shape k
    rw [Nat.testBit_mod_two_pow, decide_eq_true (by omega), Bool.true_and]
  rw [fpVal_eq, fpVal_eq, hmod, hbit]

/-- The sign of a number is the top bit of its encoding. -/
theorem fpVal_sign {k b : Nat} (h : (fpVal k b).isNan = false) : (fpVal k b).sign = b.testBit ((fmt k).w - 1) := by
  rw [fpVal_eq] at h ⊢
  split at h
  · rw [if_pos ‹_›]
    rfl
  · split at h
    · rw [if_neg ‹_›, if_pos ‹_›]
      rfl
    · cases h

/-- A zero has the least exponent, and no number has a smaller one. -/
theorem fpVal_fin_exponent {k b : Nat} {n : Bool} {m : Nat} {e : Int} (h : fpVal k b = .fin n m e) :
    (fmt k).umin ≤ e ∧ (m = 0 → e = (fmt k).umin) := by
  rw [fpVal_eq] at h
  split at h
  · cases h
    generalize b % 2 ^ ((fmt k).w - 1) = a
    by_cases ha : a < lead k
    · rw [magnitude_subnormal ha]
      exact ⟨Int.le_refl _, fun _ => rfl⟩
    · have hpos := lead_pos k
      have hdiv : 0 < a / lead k := Nat.div_pos (Nat.not_lt.mp ha) hpos
      rw [magnitude_normal (Nat.not_lt.mp ha)]
      exact ⟨by omega, fun h => by omega⟩
  · split at h <;> cases h

end Sys2Proof.Machine

/-! # One rounding -/

namespace Sys2Proof.Machine

/-! ## Powers of two as units -/

theorem two_zpow_pos (d : ℤ) : (0 : ℝ) < 2 ^ d := zpow_pos two_pos d

theorem two_zpow_succ (d : ℤ) : (2 : ℝ) ^ (d + 1) = 2 * 2 ^ d := by rw [zpow_add_one₀ two_ne_zero, mul_comm]

theorem two_zpow_split (d : ℤ) : (2 : ℝ) ^ d = 2 * 2 ^ (d - 1) := by rw [← two_zpow_succ, sub_add_cancel]

theorem two_zpow_mono {c d : ℤ} (h : c ≤ d) : (2 : ℝ) ^ c ≤ 2 ^ d := zpow_le_zpow_right₀ one_le_two h

/-- A natural power of two, in units of another power. -/
theorem two_pow_mul_zpow (n : ℕ) (d : ℤ) : ((2 ^ n : ℕ) : ℝ) * 2 ^ d = 2 ^ (n + d : ℤ) := by
  rw [zpow_add₀ two_ne_zero, zpow_natCast]
  norm_cast

/-- The least normal significand in its unit. -/
theorem lead_mul_zpow (k : Nat) (d : ℤ) : (lead k : ℝ) * 2 ^ d = 2 ^ (d + (fmt k).p - 1) := by
  obtain ⟨hp, -⟩ := fmt_shape k
  rw [lead, two_pow_mul_zpow]
  congr 1
  omega

/-! ## A real number as a whole number of units (R246) -/

/-- Whether a mode rounds values of this sign away from zero. -/
def away (mode : Nat) (neg : Bool) : Bool := mode == 3 && !neg || mode == 4 && neg

/-- R246: n units of 2^u are what a rounding mode makes of the real number v, of the sign `neg`. -/
def RoundsTo (mode : Nat) (neg : Bool) (v : ℝ) (u : ℤ) (n : ℕ) : Prop :=
  if mode = 1 then
    (v ≤ (2 * n + 1) * 2 ^ (u - 1) ∧ (v = (2 * n + 1) * 2 ^ (u - 1) → n % 2 = 0)) ∧
      (2 * n - 1) * 2 ^ (u - 1) ≤ v ∧ (v = (2 * n - 1) * 2 ^ (u - 1) → n % 2 = 0)
  else if away mode neg then ((n : ℝ) - 1) * 2 ^ u < v ∧ v ≤ n * 2 ^ u
  else n * 2 ^ u ≤ v ∧ v < (n + 1) * 2 ^ u

section
variable {mode : Nat} {neg : Bool} {v : ℝ} {u : ℤ} {n : ℕ}

theorem roundsTo_nearest : RoundsTo 1 neg v u n ↔
    (v ≤ (2 * n + 1) * 2 ^ (u - 1) ∧ (v = (2 * n + 1) * 2 ^ (u - 1) → n % 2 = 0)) ∧
      (2 * n - 1) * 2 ^ (u - 1) ≤ v ∧ (v = (2 * n - 1) * 2 ^ (u - 1) → n % 2 = 0) := by
  rw [RoundsTo, if_pos rfl]

theorem roundsTo_away (h1 : mode ≠ 1) (h : away mode neg = true) :
    RoundsTo mode neg v u n ↔ ((n : ℝ) - 1) * 2 ^ u < v ∧ v ≤ n * 2 ^ u := by
  rw [RoundsTo, if_neg h1, if_pos h]

theorem roundsTo_toward (h1 : mode ≠ 1) (h : ¬away mode neg = true) :
    RoundsTo mode neg v u n ↔ n * 2 ^ u ≤ v ∧ v < (n + 1) * 2 ^ u := by
  rw [RoundsTo, if_neg h1, if_neg h]

/-- Rounding passes no whole number above the value. -/
theorem RoundsTo.le {m : ℕ} (h : RoundsTo mode neg v u n) (hv : v ≤ m * 2 ^ u) : n ≤ m := by
  have hu := two_zpow_pos u
  have hu' := two_zpow_pos (u - 1)
  by_contra hlt
  have hlt : (m : ℝ) + 1 ≤ n := by exact_mod_cast Nat.not_le.mp hlt
  by_cases h1 : mode = 1
  · subst h1
    obtain ⟨-, hlo, -⟩ := roundsTo_nearest.mp h
    rw [two_zpow_split] at hv
    nlinarith
  · by_cases hd : away mode neg = true
    · obtain ⟨hlo, -⟩ := (roundsTo_away h1 hd).mp h
      nlinarith
    · obtain ⟨hlo, -⟩ := (roundsTo_toward h1 hd).mp h
      nlinarith

/-- Rounding passes no whole number below the value. -/
theorem RoundsTo.ge {m : ℕ} (h : RoundsTo mode neg v u n) (hv : m * 2 ^ u ≤ v) : m ≤ n := by
  have hu := two_zpow_pos u
  have hu' := two_zpow_pos (u - 1)
  by_contra hlt
  have hlt : (n : ℝ) + 1 ≤ m := by exact_mod_cast Nat.not_le.mp hlt
  by_cases h1 : mode = 1
  · subst h1
    obtain ⟨⟨hhi, -⟩, -⟩ := roundsTo_nearest.mp h
    rw [two_zpow_split] at hv
    nlinarith
  · by_cases hd : away mode neg = true
    · obtain ⟨-, hhi⟩ := (roundsTo_away h1 hd).mp h
      nlinarith
    · obtain ⟨-, hhi⟩ := (roundsTo_toward h1 hd).mp h
      nlinarith

theorem roundsTo_whole (mode : Nat) (neg : Bool) (u : ℤ) (n : ℕ) : RoundsTo mode neg (n * 2 ^ u) u n := by
  have hu := two_zpow_pos u
  have hu' := two_zpow_pos (u - 1)
  by_cases h1 : mode = 1
  · subst h1
    rw [roundsTo_nearest, two_zpow_split u]
    exact ⟨⟨by linarith, fun h => by linarith⟩, by linarith, fun h => by linarith⟩
  · by_cases hd : away mode neg = true
    · rw [roundsTo_away h1 hd]
      exact ⟨by linarith, le_refl _⟩
    · rw [roundsTo_toward h1 hd]
      exact ⟨le_refl _, by linarith⟩

end

/-! ## Values that rounding does not tell apart -/

/-- Two values have the same order to every multiple of a power of two from 2^d0 up. -/
def AgreesFrom (d0 : ℤ) (v w : ℝ) : Prop :=
  ∀ (t d : ℤ), d0 ≤ d → ((t : ℝ) * 2 ^ d < v ↔ (t : ℝ) * 2 ^ d < w) ∧ (v < t * 2 ^ d ↔ w < t * 2 ^ d)

theorem AgreesFrom.refl (d0 : ℤ) (v : ℝ) : AgreesFrom d0 v v := fun _ _ _ => ⟨.rfl, .rfl⟩

theorem AgreesFrom.eq_iff {d0 : ℤ} {v w : ℝ} (h : AgreesFrom d0 v w) (t : ℤ) {d : ℤ} (hd : d0 ≤ d) :
    v = t * 2 ^ d ↔ w = t * 2 ^ d := by
  obtain ⟨h1, h2⟩ := h t d hd
  constructor
  · intro e
    exact le_antisymm (not_lt.mp fun hlt => absurd (h1.mpr hlt) (by rw [e]; exact lt_irrefl _))
      (not_lt.mp fun hlt => absurd (h2.mpr hlt) (by rw [e]; exact lt_irrefl _))
  · intro e
    exact le_antisymm (not_lt.mp fun hlt => absurd (h1.mp hlt) (by rw [e]; exact lt_irrefl _))
      (not_lt.mp fun hlt => absurd (h2.mp hlt) (by rw [e]; exact lt_irrefl _))

/-- Values that agree from half a unit up round alike. -/
theorem AgreesFrom.roundsTo {d0 u : ℤ} {v w : ℝ} (h : AgreesFrom d0 v w) (hu : d0 ≤ u - 1) {mode : Nat} {neg : Bool} {n : ℕ}
    (hw : RoundsTo mode neg w u n) : RoundsTo mode neg v u n := by
  have half (t : ℤ) := h t (u - 1) hu
  have same (t : ℤ) := h.eq_iff t hu
  have unit (t : ℤ) := h t u (by omega)
  by_cases h1 : mode = 1
  · subst h1
    rw [roundsTo_nearest] at hw ⊢
    have hi := half (2 * n + 1)
    have lo := half (2 * n - 1)
    have ehi := same (2 * n + 1)
    have elo := same (2 * n - 1)
    push_cast at hi lo ehi elo
    obtain ⟨⟨ha, hb⟩, hc, hd⟩ := hw
    exact ⟨⟨not_lt.mp fun hlt => absurd (hi.1.mp hlt) (not_lt.mpr ha), fun he => hb (ehi.mp he)⟩,
      not_lt.mp fun hlt => absurd (lo.2.mp hlt) (not_lt.mpr hc), fun he => hd (elo.mp he)⟩
  · have at_ := unit n
    push_cast at at_
    by_cases hd : away mode neg = true
    · rw [roundsTo_away h1 hd] at hw ⊢
      have lo := unit (n - 1)
      push_cast at lo
      exact ⟨lo.1.mpr hw.1, not_lt.mp fun hlt => absurd (at_.1.mp hlt) (not_lt.mpr hw.2)⟩
    · rw [roundsTo_toward h1 hd] at hw ⊢
      have hi := unit (n + 1)
      push_cast at hi
      exact ⟨not_lt.mp fun hlt => absurd (at_.2.mp hlt) (not_lt.mpr hw.1), hi.2.mpr hw.2⟩

/-! ## shiftRound -/

theorem shiftRound_whole {mode : Nat} {neg : Bool} {m : ℕ} {e u : ℤ} (h : u ≤ e) :
    shiftRound mode neg m e u = (m * 2 ^ (e - u).toNat, false) := if_pos h

/-- Whether a remainder of a division by c takes the quotient q one up. -/
def roundsUp (mode : Nat) (neg : Bool) (q r c : ℕ) : Bool :=
  match mode with
  | 2 => false
  | 3 => r != 0 && !neg
  | 4 => r != 0 && neg
  | _ => decide (c < 2 * r) || (2 * r == c && q % 2 == 1)

theorem shiftRound_divided {mode : Nat} {neg : Bool} {m : ℕ} {e u : ℤ} (h : ¬u ≤ e) :
    shiftRound mode neg m e u =
      (m / 2 ^ (u - e).toNat + (if roundsUp mode neg (m / 2 ^ (u - e).toNat) (m % 2 ^ (u - e).toNat) (2 ^ (u - e).toNat) then 1 else 0),
        m % 2 ^ (u - e).toNat != 0) :=
  if_neg h

/-- A multiple of a power of two, as a multiple of a smaller one. -/
theorem mul_zpow_shift (m : ℕ) {e u : ℤ} (h : u ≤ e) : ((m * 2 ^ (e - u).toNat : ℕ) : ℝ) * 2 ^ u = m * 2 ^ e := by
  push_cast
  rw [mul_assoc, ← zpow_natCast, ← zpow_add₀ two_ne_zero]
  congr 2
  omega

/-- Without the flag, the value is a whole number of units, in any mode. -/
theorem shiftRound_exact {mode : Nat} {neg : Bool} {m : ℕ} {e u : ℤ} (h : (shiftRound mode neg m e u).2 = false) :
    ((shiftRound mode neg m e u).1 : ℝ) * 2 ^ u = m * 2 ^ e := by
  by_cases hu : u ≤ e
  · rw [shiftRound_whole hu, mul_zpow_shift m hu]
  · rw [shiftRound_divided hu] at h ⊢
    have hr : m % 2 ^ (u - e).toNat = 0 := by simpa using h
    have hup : roundsUp mode neg (m / 2 ^ (u - e).toNat) 0 (2 ^ (u - e).toNat) = false := by
      have := Nat.two_pow_pos (u - e).toNat
      unfold roundsUp
      split <;> simp [this.ne]
    have hm := Nat.div_add_mod' m (2 ^ (u - e).toNat)
    rw [hr] at hm ⊢
    rw [hup]
    have hz := mul_zpow_shift (m / 2 ^ (u - e).toNat) (show e ≤ u by omega)
    rw [Nat.add_zero] at hm
    rw [hm] at hz
    exact hz.symm

section
variable {mode : Nat} {neg : Bool}

theorem roundsUp_nearest {q r c : ℕ} : roundsUp 1 neg q r c = true ↔ c < 2 * r ∨ (2 * r = c ∧ q % 2 = 1) := by
  simp [roundsUp]

theorem roundsUp_away {q r c : ℕ} (hmode : 2 ≤ mode ∧ mode ≤ 4) (h : away mode neg = true) : roundsUp mode neg q r c = true ↔ r ≠ 0 := by
  obtain ⟨h2, h4⟩ := hmode
  interval_cases mode <;> simp_all [roundsUp, away]

theorem roundsUp_toward {q r c : ℕ} (hmode : 2 ≤ mode ∧ mode ≤ 4) (h : ¬away mode neg = true) : roundsUp mode neg q r c = false := by
  obtain ⟨h2, h4⟩ := hmode
  interval_cases mode <;> simp_all [roundsUp, away]

/-- RoundsTo in units of half the divisor. -/
theorem roundsTo_units {c N n : ℕ} {e u : ℤ} (hc : (c : ℝ) * 2 ^ e = 2 ^ (u - 1)) :
    RoundsTo mode neg (N * 2 ^ e) u n ↔
      if mode = 1 then
        (N ≤ 2 * (n * c) + c ∧ (N = 2 * (n * c) + c → n % 2 = 0)) ∧ 2 * (n * c) ≤ N + c ∧ (N + c = 2 * (n * c) → n % 2 = 0)
      else if away mode neg then 2 * (n * c) < N + 2 * c ∧ N ≤ 2 * (n * c)
      else 2 * (n * c) ≤ N ∧ N < 2 * (n * c) + 2 * c := by
  have he := two_zpow_pos e
  have le (a b : ℕ) : a ≤ b ↔ (a : ℝ) * 2 ^ e ≤ b * 2 ^ e := by rw [mul_le_mul_iff_left₀ he, Nat.cast_le]
  have lt (a b : ℕ) : a < b ↔ (a : ℝ) * 2 ^ e < b * 2 ^ e := by rw [mul_lt_mul_iff_left₀ he, Nat.cast_lt]
  have eq (a b : ℕ) : a = b ↔ (a : ℝ) * 2 ^ e = b * 2 ^ e := by rw [mul_left_inj' he.ne', Nat.cast_inj]
  rw [RoundsTo, two_zpow_split u, ← hc]
  simp only [le, lt, eq N, eq (N + c)]
  push_cast
  split
  · refine and_congr (and_congr ?_ (imp_congr ?_ .rfl)) (and_congr ?_ (imp_congr ?_ .rfl)) <;> constructor <;> intro h <;> linarith
  · split <;> refine and_congr ?_ ?_ <;> constructor <;> intro h <;> linarith

/-- A division by an even number, whose remainder takes the quotient up or not. -/
theorem roundsTo_divided (hmode : 1 ≤ mode ∧ mode ≤ 4) {q r c : ℕ} {e u : ℤ} (hc : (c : ℝ) * 2 ^ e = 2 ^ (u - 1)) (hr : r < 2 * c) :
    RoundsTo mode neg ((q * (2 * c) + r : ℕ) * 2 ^ e) u (q + if roundsUp mode neg q r (2 * c) then 1 else 0) := by
  have hq : q * (2 * c) = 2 * (q * c) := by ring
  have hq1 : (q + 1) * c = q * c + c := by ring
  rw [roundsTo_units hc, hq]
  by_cases h1 : mode = 1
  · subst h1
    rw [if_pos rfl]
    by_cases hup : roundsUp 1 neg q r (2 * c) = true
    · rw [if_pos hup, hq1]
      have := roundsUp_nearest.mp hup
      omega
    · rw [if_neg hup, Nat.add_zero]
      have := mt roundsUp_nearest.mpr hup
      omega
  · have hmode : 2 ≤ mode ∧ mode ≤ 4 := by omega
    rw [if_neg h1]
    by_cases hd : away mode neg = true
    · rw [if_pos hd]
      by_cases hup : roundsUp mode neg q r (2 * c) = true
      · rw [if_pos hup, hq1]
        have := (roundsUp_away hmode hd).mp hup
        omega
      · rw [if_neg hup, Nat.add_zero]
        have := mt (roundsUp_away hmode hd).mpr hup
        omega
    · rw [if_neg hd, roundsUp_toward hmode hd, if_neg Bool.false_ne_true, Nat.add_zero]
      omega

/-- R246: shiftRound rounds. -/
theorem shiftRound_roundsTo (hmode : 1 ≤ mode ∧ mode ≤ 4) (m : ℕ) (e u : ℤ) :
    RoundsTo mode neg (m * 2 ^ e) u (shiftRound mode neg m e u).1 := by
  by_cases hu : u ≤ e
  · rw [shiftRound_whole hu, ← mul_zpow_shift m hu]
    exact roundsTo_whole ..
  · obtain ⟨d, hd⟩ : ∃ d : ℕ, (u - e).toNat = d + 1 := ⟨(u - e).toNat - 1, by omega⟩
    have hc : ((2 ^ d : ℕ) : ℝ) * 2 ^ e = 2 ^ (u - 1) := by
      rw [two_pow_mul_zpow]
      congr 1
      omega
    have h := roundsTo_divided (neg := neg) hmode (q := m / (2 * 2 ^ d)) hc (Nat.mod_lt m (Nat.mul_pos two_pos (Nat.two_pow_pos d)))
    rw [Nat.div_add_mod'] at h
    rw [shiftRound_divided hu, hd, pow_succ']
    exact h

end

/-- The flag says whether rounding has changed the value, in any mode. -/
theorem shiftRound_inexact_iff {mode : Nat} {neg : Bool} {m : ℕ} {e u : ℤ} :
    (shiftRound mode neg m e u).2 = true ↔ (m : ℝ) * 2 ^ e ≠ (shiftRound mode neg m e u).1 * 2 ^ u := by
  refine ⟨fun h => ?_, fun h => Bool.not_eq_false _ ▸ mt (fun e => (shiftRound_exact e).symm) h⟩
  by_cases hu : u ≤ e
  · rw [shiftRound_whole hu] at h
    cases h
  · rw [shiftRound_divided hu] at h ⊢
    have hr : m % 2 ^ (u - e).toNat ≠ 0 := bne_iff_ne.mp h
    have hlt := Nat.mod_lt m (Nat.two_pow_pos (u - e).toNat)
    have hm := Nat.div_add_mod' m (2 ^ (u - e).toNat)
    have unit (n : ℕ) := mul_zpow_shift n (show e ≤ u by omega)
    rw [← unit, Ne, mul_left_inj' (two_zpow_pos e).ne', Nat.cast_inj]
    cases roundsUp mode neg (m / 2 ^ (u - e).toNat) (m % 2 ^ (u - e).toNat) (2 ^ (u - e).toNat)
    · simp only [Bool.false_eq_true, if_false, Nat.add_zero]
      omega
    · simp only [if_true, Nat.add_mul, Nat.one_mul]
      omega

/-! ## The place that a value is rounded at (R244, R246) -/

/-- The exponent of the last place of a normal number of format k whose greatest power of two is 2^top. -/
def lastPlace (k : Nat) (top : ℤ) : ℤ := top - ((fmt k).p - 1)

/-- v is rounded in units of 2^(umin + j): it is below the next power of two, and at least the least normal significand unless j is 0. -/
structure Placed (k : Nat) (v : ℝ) (j : ℕ) : Prop where
  pos : 0 < v
  below : v < 2 * lead k * 2 ^ ((fmt k).umin + j)
  normal : j = 0 ∨ lead k * 2 ^ ((fmt k).umin + j) ≤ v

/-- The place of a value by its greatest power of two. -/
theorem placed_of_top {k : Nat} {v : ℝ} {top : ℤ} {j : ℕ} (hlo : 2 ^ top ≤ v) (hhi : v < 2 ^ (top + 1))
    (hj : max (lastPlace k top) (fmt k).umin = (fmt k).umin + j) : Placed k v j := by
  refine ⟨lt_of_lt_of_le (two_zpow_pos top) hlo, lt_of_lt_of_le hhi ?_, ?_⟩
  · rw [mul_assoc, lead_mul_zpow, ← two_zpow_succ]
    refine two_zpow_mono ?_
    have := le_max_left (lastPlace k top) (fmt k).umin
    unfold lastPlace at *
    omega
  · by_cases h0 : j = 0
    · exact .inl h0
    · refine .inr (le_trans (le_of_eq ?_) hlo)
      rw [lead_mul_zpow]
      congr 1
      unfold lastPlace at hj
      omega

section
variable {k : Nat} {v : ℝ} {j n mode : ℕ} {neg : Bool}

theorem Placed.le_two_lead (h : Placed k v j) (hr : RoundsTo mode neg v ((fmt k).umin + j) n) : n ≤ 2 * lead k :=
  hr.le (by have := h.below; push_cast; linarith)

theorem Placed.zero_or_lead_le (h : Placed k v j) (hr : RoundsTo mode neg v ((fmt k).umin + j) n) : j = 0 ∨ lead k ≤ n :=
  h.normal.imp_right fun hn => hr.ge hn

/-- The encoding that a rounded significand makes. -/
def encoded (k j n : Nat) : Nat := j * lead k + n

/-- The value of an encoding without its sign. -/
noncomputable def magVal (k a : Nat) : ℝ := (magnitude k a).1 * 2 ^ (magnitude k a).2

/-- The midpoint between an encoding and the next. -/
noncomputable def midVal (k a : Nat) : ℝ := ((2 * (magnitude k a).1 + 1 : ℕ) : ℝ) * 2 ^ ((magnitude k a).2 - 1)

theorem magVal_encoded (hj : j = 0 ∨ lead k ≤ n) (hn : n ≤ 2 * lead k) : magVal k (encoded k j n) = n * 2 ^ ((fmt k).umin + j) := by
  obtain hn | hn := Nat.lt_or_eq_of_le hn
  · rw [magVal, encoded, magnitude_at hj hn]
  · rw [magVal, encoded, magnitude_carry hn, two_zpow_succ, hn]
    push_cast
    ring

theorem midVal_encoded (hj : j = 0 ∨ lead k ≤ n) (hn : n < 2 * lead k) :
    midVal k (encoded k j n) = (2 * n + 1) * 2 ^ ((fmt k).umin + j - 1) := by
  rw [midVal, encoded, magnitude_at hj hn]
  push_cast
  rfl

/-- An encoding with one before it: the significand below in the same units, or the greatest one in the units below. -/
theorem encoded_pred (h0 : 0 < encoded k j n) (hj : j = 0 ∨ lead k ≤ n) :
    (0 < n ∧ (j = 0 ∨ lead k ≤ n - 1) ∧ encoded k j n - 1 = encoded k j (n - 1)) ∨
      (n = lead k ∧ ∃ i, j = i + 1 ∧ encoded k j n - 1 = encoded k i (2 * lead k - 1)) := by
  have hpos := lead_pos k
  unfold encoded at *
  obtain rfl | hn := hj
  · exact .inl ⟨by omega, .inl rfl, by omega⟩
  · obtain hn | hn := Nat.lt_or_eq_of_le hn
    · exact .inl ⟨by omega, .inr (by omega), by omega⟩
    · cases j with
      | zero => exact .inl ⟨by omega, .inl rfl, by omega⟩
      | succ i =>
        refine .inr ⟨hn.symm, i, rfl, ?_⟩
        rw [Nat.succ_mul]
        omega

theorem encoded_mod_two : encoded k j n % 2 = n % 2 := by
  have := lead_eq k
  rw [encoded, this, show j * (2 * 2 ^ ((fmt k).p - 2)) = 2 * (j * 2 ^ ((fmt k).p - 2)) by ring, Nat.mul_add_mod]

/-- The infinity as a significand that has reached the next power of two. -/
theorem inf_encoded (k : Nat) : ∃ i, topField k = i + 2 ∧ (fmt k).inf = encoded k i (2 * lead k) ∧
    (fmt k).inf = encoded k (i + 1) (lead k) ∧ (fmt k).inf - 1 = encoded k i (2 * lead k - 1) := by
  have hpos := lead_pos k
  obtain ⟨-, -, -, he⟩ := fmt_shape k
  have ht := topField_eq k
  have hi : (fmt k).inf = (topField k - 2) * lead k + 2 * lead k := by
    rw [inf_eq, ← Nat.add_mul]
    congr 1
    omega
  refine ⟨topField k - 2, by omega, hi, ?_, ?_⟩
  · rw [hi, encoded]
    ring
  · rw [hi, encoded]
    omega

theorem magVal_inf {i : ℕ} (hi : (fmt k).inf = encoded k (i + 1) (lead k)) :
    magVal k (fmt k).inf = lead k * 2 ^ ((fmt k).umin + i + 1) := by
  have := lead_pos k
  rw [hi, magVal_encoded (.inr (Nat.le_refl _)) (by omega)]
  push_cast
  rw [add_assoc]

end

end Sys2Proof.Machine

namespace Sys2Proof.Machine

section
variable {k : Nat} {v : ℝ} {j n mode : ℕ} {neg : Bool}

/-! ## Overflow (R247) -/

/-- A significand below the infinity's encoding is rounded below the infinity's place. -/
theorem place_of_encoded_lt {i : ℕ} (hi : (fmt k).inf = encoded k (i + 1) (lead k)) (hj : j = 0 ∨ lead k ≤ n)
    (hlt : encoded k j n < (fmt k).inf) : j ≤ i := by
  have hpos := lead_pos k
  obtain rfl | hn := hj
  · exact Nat.zero_le _
  · rw [hi] at hlt
    unfold encoded at hlt
    by_contra h
    nlinarith

/-- A significand from the infinity's encoding up was rounded at least at its place, or has been carried to it. -/
theorem place_of_inf_le {i : ℕ} (hi : (fmt k).inf = encoded k (i + 1) (lead k)) (hn : n ≤ 2 * lead k)
    (hle : (fmt k).inf ≤ encoded k j n) : i + 1 ≤ j ∨ j = i ∧ n = 2 * lead k := by
  have hpos := lead_pos k
  rw [hi] at hle
  unfold encoded at hle
  by_cases h : i + 1 ≤ j
  · exact .inl h
  · obtain ⟨d, rfl⟩ := Nat.exists_eq_add_of_le (show j ≤ i by omega)
    have : d * lead k + 2 * lead k ≤ n := by nlinarith
    have : d * lead k = 0 := by omega
    have : d = 0 := (Nat.mul_eq_zero.mp this).resolve_right hpos.ne'
    exact .inr ⟨by omega, by omega⟩

theorem Placed.inf_le {i : ℕ} (h : Placed k v j) (hi : (fmt k).inf = encoded k (i + 1) (lead k)) (hj : i + 1 ≤ j) :
    magVal k (fmt k).inf ≤ v := by
  have hn := h.normal.resolve_left (by omega)
  refine le_trans ?_ hn
  rw [magVal_inf hi]
  exact mul_le_mul_of_nonneg_left (two_zpow_mono (by omega)) (Nat.cast_nonneg _)

theorem Placed.lt_inf {i : ℕ} (h : Placed k v j) (hi : (fmt k).inf = encoded k (i + 1) (lead k)) (hj : j ≤ i) :
    v < magVal k (fmt k).inf := by
  refine lt_of_lt_of_le h.below ?_
  rw [magVal_inf hi, mul_comm 2, mul_assoc, ← two_zpow_succ]
  exact mul_le_mul_of_nonneg_left (two_zpow_mono (by omega)) (Nat.cast_nonneg _)

/-! ## The neighbours (R246) -/

/-- R246: a is the encoding that a mode gives for a value, by the order of the value to its neighbours or to the midpoints around it. -/
def Nearest (k mode : Nat) (neg : Bool) (v : ℝ) (a : Nat) : Prop :=
  if mode = 1 then
    (a < (fmt k).inf → v < midVal k a ∨ (midVal k a = v ∧ a % 2 = 0)) ∧ (0 < a → midVal k (a - 1) < v ∨ (midVal k (a - 1) = v ∧ a % 2 = 0))
  else if away mode neg then
    (a < (fmt k).inf → v ≤ magVal k a) ∧ (0 < a → magVal k (a - 1) < v)
  else
    a < (fmt k).inf ∧ magVal k a ≤ v ∧ (a + 1 < (fmt k).inf → v < magVal k (a + 1))

theorem nearest_even : Nearest k 1 neg v n ↔
    (n < (fmt k).inf → v < midVal k n ∨ (midVal k n = v ∧ n % 2 = 0)) ∧
      (0 < n → midVal k (n - 1) < v ∨ (midVal k (n - 1) = v ∧ n % 2 = 0)) := by
  rw [Nearest, if_pos rfl]

theorem nearest_away (h1 : mode ≠ 1) (h : away mode neg = true) : Nearest k mode neg v n ↔
    (n < (fmt k).inf → v ≤ magVal k n) ∧ (0 < n → magVal k (n - 1) < v) := by
  rw [Nearest, if_neg h1, if_pos h]

theorem nearest_toward (h1 : mode ≠ 1) (h : ¬away mode neg = true) : Nearest k mode neg v n ↔
    n < (fmt k).inf ∧ magVal k n ≤ v ∧ (n + 1 < (fmt k).inf → v < magVal k (n + 1)) := by
  rw [Nearest, if_neg h1, if_neg h]

theorem cast_two_lead_pred (k : Nat) : ((2 * lead k - 1 : ℕ) : ℝ) = 2 * lead k - 1 := by
  have := lead_pos k
  rw [Nat.cast_sub (by omega)]
  norm_num

/-- A value of a binade is above the last significand of the binade below, and above the midpoint after it. -/
theorem Placed.pred_lt {i : ℕ} (h : Placed k v (i + 1)) :
    magVal k (encoded k i (2 * lead k - 1)) < v ∧ midVal k (encoded k i (2 * lead k - 1)) < v := by
  have hpos := lead_pos k
  have hv := h.normal.resolve_left (Nat.succ_ne_zero i)
  have hu := two_zpow_pos ((fmt k).umin + i - 1)
  rw [magVal_encoded (.inr (by omega)) (by omega), midVal_encoded (.inr (by omega)) (by omega), cast_two_lead_pred]
  rw [Nat.cast_succ, ← add_assoc, two_zpow_succ, two_zpow_split] at hv
  rw [two_zpow_split ((fmt k).umin + i)]
  constructor <;> linarith

theorem encoded_carry (k j : Nat) : encoded k j (2 * lead k) = encoded k (j + 1) (lead k) := by
  unfold encoded
  ring

/-- A value is below the midpoint after the next power of two. -/
theorem Placed.lt_mid_carry (h : Placed k v j) : v < midVal k (encoded k j (2 * lead k)) := by
  have hpos := lead_pos k
  have hu := two_zpow_pos ((fmt k).umin + j)
  rw [encoded_carry, midVal_encoded (.inr (Nat.le_refl _)) (by omega), Nat.cast_succ, ← add_assoc, add_sub_cancel_right]
  linarith [h.below]

section below
variable (h : Placed k v j) (hr : RoundsTo mode neg v ((fmt k).umin + j) n)
include h hr

theorem Placed.nearest_even (h1 : mode = 1) : Nearest k mode neg v (encoded k j n) := by
  subst h1
  have hle := h.le_two_lead hr
  have hj := h.zero_or_lead_le hr
  obtain ⟨⟨hhi, hhi'⟩, hlo, hlo'⟩ := roundsTo_nearest.mp hr
  refine Machine.nearest_even.mpr ⟨fun _ => ?_, fun h0 => ?_⟩
  · obtain hn | rfl := Nat.lt_or_eq_of_le hle
    · rw [midVal_encoded hj hn, encoded_mod_two]
      exact (lt_or_eq_of_le hhi).imp_right fun e => ⟨e.symm, hhi' e⟩
    · exact .inl h.lt_mid_carry
  · obtain ⟨hn, hj', e⟩ | ⟨-, i, rfl, e⟩ := encoded_pred h0 hj
    · have hmid : midVal k (encoded k j (n - 1)) = (2 * n - 1) * 2 ^ ((fmt k).umin + j - 1) := by
        rw [midVal_encoded hj' (by omega), Nat.cast_pred hn]
        ring
      rw [e, hmid, encoded_mod_two]
      exact (lt_or_eq_of_le hlo).imp_right fun e => ⟨e, hlo' e.symm⟩
    · rw [e]
      exact .inl h.pred_lt.2

theorem Placed.nearest_away (h1 : mode ≠ 1) (hd : away mode neg = true) : Nearest k mode neg v (encoded k j n) := by
  have hle := h.le_two_lead hr
  have hj := h.zero_or_lead_le hr
  obtain ⟨hlo, hhi⟩ := (roundsTo_away h1 hd).mp hr
  refine (Machine.nearest_away h1 hd).mpr ⟨fun _ => ?_, fun h0 => ?_⟩
  · rw [magVal_encoded hj hle]
    exact hhi
  · obtain ⟨hn, hj', e⟩ | ⟨-, i, rfl, e⟩ := encoded_pred h0 hj
    · rw [e, magVal_encoded hj' (by omega), Nat.cast_pred hn]
      exact hlo
    · rw [e]
      exact h.pred_lt.1

/-- Rounded toward zero, a significand stays below the next power of two. -/
theorem Placed.lt_two_lead (h1 : mode ≠ 1) (hd : ¬away mode neg = true) : n < 2 * lead k := by
  obtain ⟨hlo, -⟩ := (roundsTo_toward h1 hd).mp hr
  have := lt_of_mul_lt_mul_right (lt_of_le_of_lt hlo h.below) (two_zpow_pos _).le
  exact_mod_cast this

theorem Placed.nearest_toward (h1 : mode ≠ 1) (hd : ¬away mode neg = true) (hlt : encoded k j n < (fmt k).inf) :
    Nearest k mode neg v (encoded k j n) := by
  have hj := h.zero_or_lead_le hr
  have hn := h.lt_two_lead hr h1 hd
  obtain ⟨hlo, hhi⟩ := (roundsTo_toward h1 hd).mp hr
  refine (Machine.nearest_toward h1 hd).mpr ⟨hlt, ?_, fun _ => ?_⟩
  · rw [magVal_encoded hj hn.le]
    exact hlo
  · rw [show encoded k j n + 1 = encoded k j (n + 1) from rfl, magVal_encoded (hj.imp_right fun h => by omega) hn, Nat.cast_succ]
    exact hhi

/-- The infinity, where rounding to nearest or away from zero reaches its encoding. -/
theorem Placed.nearest_inf (hd : mode = 1 ∨ away mode neg = true) (hover : (fmt k).inf ≤ encoded k j n) :
    Nearest k mode neg v (fmt k).inf := by
  have hpos := lead_pos k
  obtain ⟨i, -, hcarry, hi, hpred⟩ := inf_encoded k
  have heven : (fmt k).inf % 2 = 0 := by
    rw [hcarry, encoded_mod_two, Nat.mul_mod_right]
  obtain hj | ⟨rfl, rfl⟩ := place_of_inf_le hi (h.le_two_lead hr) hover
  · -- the value is an infinity's at least
    have hv := h.inf_le hi hj
    have hp : Placed k (magVal k (fmt k).inf) (i + 1) := by
      have hu := two_zpow_pos ((fmt k).umin + i + 1)
      have hl : (0 : ℝ) < lead k := Nat.cast_pos.mpr hpos
      rw [magVal_inf hi]
      refine ⟨mul_pos hl hu, ?_, .inr ?_⟩ <;> rw [Nat.cast_succ, ← add_assoc]
      nlinarith
    obtain ⟨hm, hmid⟩ := hp.pred_lt
    rw [← hpred] at hm hmid
    by_cases h1 : mode = 1
    · subst h1
      exact Machine.nearest_even.mpr ⟨fun h => absurd h (Nat.lt_irrefl _), fun _ => .inl (lt_of_lt_of_le hmid hv)⟩
    · exact (Machine.nearest_away h1 (hd.resolve_left h1)).mpr ⟨fun h => absurd h (Nat.lt_irrefl _), fun _ => lt_of_lt_of_le hm hv⟩
  · -- it has been rounded up to the infinity
    rw [hcarry]
    by_cases h1 : mode = 1
    · exact h.nearest_even hr h1
    · exact h.nearest_away hr h1 (hd.resolve_left h1)

/-- The greatest number, where a value is beyond it and the mode goes toward zero. -/
theorem Placed.nearest_greatest (h1 : mode ≠ 1) (hd : ¬away mode neg = true) (hover : (fmt k).inf ≤ encoded k j n) :
    Nearest k mode neg v ((fmt k).inf - 1) := by
  have hpos := lead_lt_inf k
  obtain ⟨i, -, -, hi, hpred⟩ := inf_encoded k
  have hn := h.lt_two_lead hr h1 hd
  have hj := (place_of_inf_le hi hn.le hover).resolve_right fun h => hn.ne h.2
  refine (Machine.nearest_toward h1 hd).mpr ⟨by omega, ?_, fun h => by omega⟩
  refine le_trans ?_ (h.inf_le hi hj)
  have hu := two_zpow_pos ((fmt k).umin + i)
  have := lead_pos k
  rw [magVal_inf hi, hpred, magVal_encoded (.inr (by omega)) (by omega), cast_two_lead_pred, two_zpow_succ]
  linarith

/-- Overflow as the directed modes toward zero see it: the value is an infinity's at least. -/
theorem Placed.inf_le_iff (h1 : mode ≠ 1) (hd : ¬away mode neg = true) :
    (fmt k).inf ≤ encoded k j n ↔ magVal k (fmt k).inf ≤ v := by
  obtain ⟨i, -, -, hi, -⟩ := inf_encoded k
  have hn := h.lt_two_lead hr h1 hd
  constructor
  · intro hover
    exact h.inf_le hi ((place_of_inf_le hi hn.le hover).resolve_right fun h => hn.ne h.2)
  · intro hv
    by_contra hlt
    exact absurd (h.lt_inf hi (place_of_encoded_lt hi (h.zero_or_lead_le hr) (Nat.not_le.mp hlt))) (not_lt.mpr hv)

end below

/-! ## Tininess (R244) -/

/-- R244: a value that is below the least normal number once it is rounded with no least exponent. -/
def Tiny (k mode : Nat) (neg : Bool) (v : ℝ) : Prop :=
  if mode = 1 then v < (4 * lead k - 1) * 2 ^ ((fmt k).umin - 2)
  else if away mode neg then v ≤ (2 * lead k - 1) * 2 ^ ((fmt k).umin - 1)
  else v < 2 * lead k * 2 ^ ((fmt k).umin - 1)

/-- A value from the least normal number up is not tiny. -/
theorem not_tiny (hv : lead k * 2 ^ (fmt k).umin ≤ v) : ¬Tiny k mode neg v := by
  have hu := two_zpow_pos ((fmt k).umin - 2)
  have h1 : (2 : ℝ) ^ ((fmt k).umin - 1) = 2 * 2 ^ ((fmt k).umin - 2) := by
    rw [two_zpow_split, show (fmt k).umin - 1 - 1 = (fmt k).umin - 2 by ring]
  rw [two_zpow_split, h1] at hv
  unfold Tiny
  rw [h1]
  split
  · exact not_lt.mpr (by linarith)
  · split
    · exact not_le.mpr (by linarith)
    · exact not_lt.mpr (by linarith)

/-- A value below half the least normal number is tiny. -/
theorem tiny_of_small (hv : v < 2 * lead k * 2 ^ ((fmt k).umin - 2)) : Tiny k mode neg v := by
  have hu := two_zpow_pos ((fmt k).umin - 2)
  have hl : (1 : ℝ) ≤ lead k := by exact_mod_cast lead_pos k
  have h1 : (2 : ℝ) ^ ((fmt k).umin - 1) = 2 * 2 ^ ((fmt k).umin - 2) := by
    rw [two_zpow_split, show (fmt k).umin - 1 - 1 = (fmt k).umin - 2 by ring]
  unfold Tiny
  rw [h1]
  split
  · nlinarith
  · split <;> nlinarith

/-- Just below the least normal number, a value is tiny unless it is rounded up to that number. -/
theorem tiny_iff_not_carried (hr : RoundsTo mode neg v ((fmt k).umin - 1) n) (hn : n ≤ 2 * lead k) :
    Tiny k mode neg v ↔ n ≠ 2 * lead k := by
  have hpos := lead_pos k
  have hu := two_zpow_pos ((fmt k).umin - 1)
  have hu' := two_zpow_pos ((fmt k).umin - 2)
  have hcast : n ≠ 2 * lead k → (n : ℝ) + 1 ≤ 2 * lead k := fun h => by
    exact_mod_cast (show n + 1 ≤ 2 * lead k by omega)
  unfold Tiny
  by_cases h1 : mode = 1
  · subst h1
    obtain ⟨⟨hhi, hhi'⟩, hlo, -⟩ := roundsTo_nearest.mp hr
    rw [show (fmt k).umin - 1 - 1 = (fmt k).umin - 2 by ring] at hhi hhi' hlo
    rw [if_pos rfl]
    constructor
    · rintro hv rfl
      push_cast at hlo
      linarith
    · intro hne
      have hc := hcast hne
      refine lt_of_le_of_ne (by nlinarith) fun e => ?_
      have hodd : n = 2 * lead k - 1 := by
        have : 4 * (lead k : ℝ) - 1 ≤ 2 * n + 1 := le_of_mul_le_mul_right (e ▸ hhi) hu'
        have : 4 * lead k ≤ 2 * n + 2 := by
          have : 4 * (lead k : ℝ) ≤ 2 * n + 2 := by linarith
          exact_mod_cast this
        omega
      have := hhi' (by rw [e, hodd, cast_two_lead_pred]; ring)
      omega
  · rw [if_neg h1]
    by_cases hd : away mode neg = true
    · obtain ⟨hlo, hhi⟩ := (roundsTo_away h1 hd).mp hr
      rw [if_pos hd]
      constructor
      · rintro hv rfl
        push_cast at hlo
        linarith
      · intro hne
        have hc := hcast hne
        nlinarith
    · obtain ⟨hlo, hhi⟩ := (roundsTo_toward h1 hd).mp hr
      rw [if_neg hd]
      constructor
      · rintro hv rfl
        push_cast at hlo
        linarith
      · intro hne
        have hc := hcast hne
        nlinarith

/-- R244: tininess by the place of the value and its significand there, with no least exponent. -/
theorem tiny_iff {g : ℤ} (hlo : lead k * 2 ^ g ≤ v) (hhi : v < 2 * lead k * 2 ^ g) (hr : RoundsTo mode neg v g n) :
    Tiny k mode neg v ↔ (if n = 2 * lead k then g + 1 else g) < (fmt k).umin := by
  have hn : n ≤ 2 * lead k := hr.le (by push_cast; exact hhi.le)
  have hl : (0 : ℝ) ≤ lead k := Nat.cast_nonneg _
  obtain hg | rfl | hg := lt_trichotomy g ((fmt k).umin - 1)
  · refine iff_of_true (tiny_of_small (lt_of_lt_of_le hhi (mul_le_mul_of_nonneg_left (two_zpow_mono (by omega)) (by linarith)))) ?_
    split <;> omega
  · rw [tiny_iff_not_carried hr hn]
    split <;> simp_all
  · refine iff_of_false (not_tiny (le_trans (mul_le_mul_of_nonneg_left (two_zpow_mono (by omega)) hl) hlo)) ?_
    split <;> omega

end
end Sys2Proof.Machine

namespace Sys2Proof.Machine

/-! ## R244, R246 and R247 of one result -/

section
variable {k mode a : Nat} {neg : Bool} {v : ℝ} {cmp : Nat → Int → Ordering} {r : FRes}

/-- Whether a result has overflowed: the infinity where the mode gives one, else the value from the infinity's place up (R247). -/
def Overflows (k mode : Nat) (neg : Bool) (v : ℝ) (a : Nat) : Prop :=
  if mode = 1 ∨ away mode neg = true then a = (fmt k).inf else magVal k (fmt k).inf ≤ v

/-- Rounded, of a value that is a real number. -/
theorem rounded_of (hcmp : ∀ n d, cmp n d = compare ((n : ℝ) * 2 ^ d) v) (hr : r.1 = signBits k neg a) (ha : a ≤ (fmt k).inf)
    (hn : Nearest k mode neg v a) (hOF : r.2.getLsbD 2 = true ↔ Overflows k mode neg v a)
    (hNX : r.2.getLsbD 0 = true ↔ Overflows k mode neg v a ∨ magVal k a ≠ v)
    (hUF : r.2.getLsbD 1 = true ↔ Tiny k mode neg v ∧ magVal k a ≠ v) (hrest : r.2 &&& 0xF8 = 0) : Rounded k mode neg cmp r := by
  have hmod : r.1 % 2 ^ ((fmt k).w - 1) = a := by
    rw [hr, signBits_mod neg (lt_of_le_of_lt ha (inf_lt_signWeight k))]
  have hmag (n : Nat) : cmp (magnitude k n).1 (magnitude k n).2 = compare (magVal k n) v := hcmp ..
  have hmid (n : Nat) : cmp (2 * (magnitude k n).1 + 1) ((magnitude k n).2 - 1) = compare (midVal k n) v := hcmp ..
  have hplace : 1 - ((fmt k).emax : ℤ) - (fmt k).p = (fmt k).umin - 1 := by
    unfold Fmt.umin
    ring
  have hpos := lead_pos k
  have hc1 : ((2 * (2 * lead k) - 1 : ℕ) : ℝ) = 4 * lead k - 1 := by
    rw [Nat.cast_sub (by omega)]
    push_cast
    ring
  simp only [Rounded, hmod, hmag, hmid, hplace, two_pow_p, show (fmt k).umin - 1 - 1 = (fmt k).umin - 2 by ring, hcmp, hc1, cast_two_lead_pred,
    Nat.cast_mul, Nat.cast_ofNat, compare_lt_iff_lt, compare_gt_iff_gt, compare_eq_iff_eq, ne_eq, not_lt]
  obtain ⟨tiny, htiny⟩ : ∃ b : Bool, b = true ↔ Tiny k mode neg v := by
    classical exact ⟨decide _, decide_eq_true_iff⟩
  refine ⟨hr, ha, ⟨tiny, ?_, ?_⟩, hrest⟩
  · rw [htiny, Tiny]
    by_cases h1 : mode = 1
    · subst h1
      obtain ⟨hup, hdown⟩ := nearest_even.mp hn
      rw [if_pos rfl, if_pos rfl]
      exact ⟨hup, hdown, .rfl⟩
    · rw [if_neg h1, if_neg h1]
      by_cases hd : away mode neg = true
      · obtain ⟨hup, hdown⟩ := (nearest_away h1 hd).mp hn
        rw [if_pos hd]
        exact (if_pos hd).mpr ⟨hup, hdown, .rfl⟩
      · obtain ⟨hlt, hle, hup⟩ := (nearest_toward h1 hd).mp hn
        rw [if_neg hd]
        exact (if_neg hd).mpr ⟨hlt, hle, hup, .rfl⟩
  · rw [htiny]
    exact ⟨hOF, hNX, hUF⟩

end

/-! ## roundFp -/

/-- The place of m × 2^e in format k, from the least one up. -/
def placeOf (k m : Nat) (e : ℤ) : ℕ := (max (lastPlace k ((Nat.log2 m : ℤ) + e)) (fmt k).umin - (fmt k).umin).toNat

theorem umin_add_placeOf (k m : Nat) (e : ℤ) :
    (fmt k).umin + placeOf k m e = max (lastPlace k ((Nat.log2 m : ℤ) + e)) (fmt k).umin := by
  unfold placeOf
  omega

/-- The significand of m × 2^e at its place, and whether it is inexact. -/
def significand (k mode : Nat) (neg : Bool) (m : Nat) (e : ℤ) : Nat × Bool := shiftRound mode neg m e ((fmt k).umin + placeOf k m e)

/-- The model's test of tininess: the place of the significand with no least exponent (R244). -/
def tinyPlace (k mode : Nat) (neg : Bool) (m : Nat) (e : ℤ) : Bool :=
  decide ((if (shiftRound mode neg m e (lastPlace k ((Nat.log2 m : ℤ) + e))).1 = 2 ^ (fmt k).p then (Nat.log2 m : ℤ) + e + 1
    else (Nat.log2 m : ℤ) + e) < 1 - (fmt k).emax)

theorem roundFp_zero (k mode : Nat) (neg : Bool) (e : ℤ) : roundFp k mode neg 0 e = (signBits k neg 0, 0) := rfl

theorem roundFp_eq {k mode : Nat} {neg : Bool} {m : Nat} {e : ℤ} (hm : m ≠ 0) :
    roundFp k mode neg m e =
      if (fmt k).inf ≤ encoded k (placeOf k m e) (significand k mode neg m e).1 then (overflowed k mode neg, fOF ||| fNX)
      else (signBits k neg (encoded k (placeOf k m e) (significand k mode neg m e).1),
        flagIf (significand k mode neg m e).2 fNX ||| flagIf ((significand k mode neg m e).2 && tinyPlace k mode neg m e) fUF) := by
  unfold significand
  rw [umin_add_placeOf]
  unfold roundFp
  rw [if_neg hm]
  rfl

/-- An overflowed result is the infinity, or the greatest number where the mode goes toward zero (R247). -/
theorem overflowed_eq {k mode : Nat} {neg : Bool} (hmode : 1 ≤ mode ∧ mode ≤ 4) :
    overflowed k mode neg = signBits k neg (if mode = 1 ∨ away mode neg = true then (fmt k).inf else (fmt k).inf - 1) := by
  obtain ⟨h1, h4⟩ := hmode
  interval_cases mode <;> cases neg <;> rfl

/-! ## The greatest power of two of a value -/

theorem two_zpow_log2_le {m : ℕ} (hm : m ≠ 0) (e : ℤ) : (2 : ℝ) ^ ((Nat.log2 m : ℤ) + e) ≤ m * 2 ^ e := by
  rw [← two_pow_mul_zpow]
  exact mul_le_mul_of_nonneg_right (Nat.cast_le.mpr (Nat.log2_self_le hm)) (two_zpow_pos e).le

theorem lt_two_zpow_log2 (m : ℕ) (e : ℤ) : (m : ℝ) * 2 ^ e < 2 ^ ((Nat.log2 m : ℤ) + e + 1) := by
  have h := two_pow_mul_zpow (m.log2 + 1) e
  push_cast at h
  rw [add_right_comm, ← h]
  exact mul_lt_mul_of_pos_right (by exact_mod_cast Nat.lt_log2_self) (two_zpow_pos e)

section
variable {k mode m : Nat} {neg : Bool} {v : ℝ} {e : ℤ}

/-- What rounding to format k sees of a value is seen of m × 2^e alike. -/
def StandsFor (k m : Nat) (e : ℤ) (v : ℝ) : Prop := AgreesFrom ((Nat.log2 m : ℤ) + e - (fmt k).p) v (m * 2 ^ e)

theorem StandsFor.refl (k m : Nat) (e : ℤ) : StandsFor k m e (m * 2 ^ e) := AgreesFrom.refl _ _

/-- A value lies in the binade of what stands for it. -/
theorem StandsFor.binade (hm : m ≠ 0) (h : StandsFor k m e v) :
    2 ^ ((Nat.log2 m : ℤ) + e) ≤ v ∧ v < 2 ^ ((Nat.log2 m : ℤ) + e + 1) := by
  have hlo := (h 1 ((Nat.log2 m : ℤ) + e) (by omega)).2
  have hhi := (h 1 ((Nat.log2 m : ℤ) + e + 1) (by omega)).2
  rw [Int.cast_one, one_mul] at hlo hhi
  exact ⟨not_lt.mp fun hlt => absurd (hlo.mp hlt) (not_lt.mpr (two_zpow_log2_le hm e)), hhi.mpr (lt_two_zpow_log2 m e)⟩

theorem StandsFor.placed (hm : m ≠ 0) (h : StandsFor k m e v) : Placed k v (placeOf k m e) :=
  placed_of_top (h.binade hm).1 (h.binade hm).2 (umin_add_placeOf k m e).symm

theorem lastPlace_le_place (k m : Nat) (e : ℤ) : lastPlace k ((Nat.log2 m : ℤ) + e) ≤ (fmt k).umin + placeOf k m e :=
  umin_add_placeOf k m e ▸ le_max_left _ _

theorem StandsFor.roundsTo (h : StandsFor k m e v) (hmode : 1 ≤ mode ∧ mode ≤ 4) {u : ℤ} (hu : lastPlace k ((Nat.log2 m : ℤ) + e) ≤ u) :
    RoundsTo mode neg v u (shiftRound mode neg m e u).1 :=
  AgreesFrom.roundsTo h (by unfold lastPlace at hu; omega) (shiftRound_roundsTo hmode m e u)

theorem StandsFor.inexact_iff (h : StandsFor k m e v) {u : ℤ} (hu : lastPlace k ((Nat.log2 m : ℤ) + e) ≤ u) :
    (shiftRound mode neg m e u).2 = true ↔ ((shiftRound mode neg m e u).1 : ℝ) * 2 ^ u ≠ v := by
  have := AgreesFrom.eq_iff h (shiftRound mode neg m e u).1 (d := u) (by unfold lastPlace at hu; omega)
  rw [Int.cast_natCast] at this
  rw [shiftRound_inexact_iff, Ne, ← this, eq_comm]

theorem StandsFor.tiny_iff (hm : m ≠ 0) (h : StandsFor k m e v) (hmode : 1 ≤ mode ∧ mode ≤ 4) :
    tinyPlace k mode neg m e = true ↔ Tiny k mode neg v := by
  obtain ⟨hlo, hhi⟩ := h.binade hm
  have hr := h.roundsTo (neg := neg) hmode (le_refl _)
  have hg := lead_mul_zpow k (lastPlace k ((Nat.log2 m : ℤ) + e))
  rw [show lastPlace k ((Nat.log2 m : ℤ) + e) + (fmt k).p - 1 = (Nat.log2 m : ℤ) + e by unfold lastPlace; ring] at hg
  rw [Machine.tiny_iff (hg ▸ hlo) (by rw [mul_assoc, hg, ← two_zpow_succ]; exact hhi) hr, tinyPlace, decide_eq_true_iff, two_pow_p]
  unfold lastPlace Fmt.umin
  split <;> omega

/-- A value that overflows is not tiny. -/
theorem Placed.not_tiny_of_inf_le {j n : ℕ} (h : Placed k v j) (hn : n ≤ 2 * lead k) (hover : (fmt k).inf ≤ encoded k j n) :
    ¬Tiny k mode neg v := by
  obtain ⟨i, htop, -, hi, -⟩ := inf_encoded k
  have hplaces := topField_eq k
  obtain ⟨-, -, -, he⟩ := fmt_shape k
  have := place_of_inf_le hi hn hover
  refine not_tiny (le_trans ?_ (h.normal.resolve_left (by omega)))
  exact mul_le_mul_of_nonneg_left (two_zpow_mono (by omega)) (Nat.cast_nonneg _)

theorem overflows_of_inf_le {j n : ℕ} (h : Placed k v j) (hr : RoundsTo mode neg v ((fmt k).umin + j) n)
    (hover : (fmt k).inf ≤ encoded k j n) :
    Overflows k mode neg v (if mode = 1 ∨ away mode neg = true then (fmt k).inf else (fmt k).inf - 1) := by
  unfold Overflows
  by_cases hd : mode = 1 ∨ away mode neg = true
  · rw [if_pos hd, if_pos hd]
  · rw [if_neg hd]
    obtain ⟨h1, hd⟩ := not_or.mp hd
    exact (h.inf_le_iff hr h1 hd).mp hover

theorem not_overflows_of_lt {j n : ℕ} (h : Placed k v j) (hr : RoundsTo mode neg v ((fmt k).umin + j) n)
    (hlt : encoded k j n < (fmt k).inf) : ¬Overflows k mode neg v (encoded k j n) := by
  unfold Overflows
  by_cases hd : mode = 1 ∨ away mode neg = true
  · rw [if_pos hd]
    exact hlt.ne
  · rw [if_neg hd]
    obtain ⟨h1, hd⟩ := not_or.mp hd
    exact mt (h.inf_le_iff hr h1 hd).mpr (Nat.not_le.mpr hlt)

theorem Placed.nearest_overflowed {j n : ℕ} (h : Placed k v j) (hr : RoundsTo mode neg v ((fmt k).umin + j) n)
    (hover : (fmt k).inf ≤ encoded k j n) :
    Nearest k mode neg v (if mode = 1 ∨ away mode neg = true then (fmt k).inf else (fmt k).inf - 1) := by
  by_cases hd : mode = 1 ∨ away mode neg = true
  · rw [if_pos hd]
    exact h.nearest_inf hr hd hover
  · rw [if_neg hd]
    obtain ⟨h1, hd⟩ := not_or.mp hd
    exact h.nearest_greatest hr h1 hd hover

theorem Placed.nearest {j n : ℕ} (h : Placed k v j) (hr : RoundsTo mode neg v ((fmt k).umin + j) n)
    (hlt : encoded k j n < (fmt k).inf) : Nearest k mode neg v (encoded k j n) := by
  by_cases h1 : mode = 1
  · exact h.nearest_even hr h1
  · by_cases hd : away mode neg = true
    · exact h.nearest_away hr h1 hd
    · exact h.nearest_toward hr h1 hd hlt

theorem overflowFlags : (fOF ||| fNX).getLsbD 2 = true ∧ (fOF ||| fNX).getLsbD 0 = true ∧ ¬(fOF ||| fNX).getLsbD 1 = true ∧
    (fOF ||| fNX) &&& 0xF8 = 0 := by
  decide

/-- The flags of a result that does not overflow, one by one. -/
theorem roundFlags (x t : Bool) : (flagIf x fNX ||| flagIf (x && t) fUF).getLsbD 2 = false ∧
    (flagIf x fNX ||| flagIf (x && t) fUF).getLsbD 0 = x ∧ (flagIf x fNX ||| flagIf (x && t) fUF).getLsbD 1 = (x && t) ∧
    (flagIf x fNX ||| flagIf (x && t) fUF) &&& 0xF8 = 0 := by
  cases x <;> cases t <;> decide

/-- R244, R246, R247: roundFp rounds once what stands for a value. -/
theorem roundFp_rounded {cmp : Nat → Int → Ordering} (hm : m ≠ 0) (hmode : 1 ≤ mode ∧ mode ≤ 4) (h : StandsFor k m e v)
    (hcmp : ∀ n d, cmp n d = compare ((n : ℝ) * 2 ^ d) v) : Rounded k mode neg cmp (roundFp k mode neg m e) := by
  have hp := h.placed hm
  have hplace := lastPlace_le_place k m e
  have hr : RoundsTo mode neg v ((fmt k).umin + placeOf k m e) (significand k mode neg m e).1 := h.roundsTo hmode hplace
  have hx : (significand k mode neg m e).2 = true ↔ _ ≠ v := h.inexact_iff hplace
  have hle := hp.le_two_lead hr
  rw [← significand, ← magVal_encoded (hp.zero_or_lead_le hr) hle] at hx
  have htiny := h.tiny_iff (neg := neg) hm hmode
  rw [roundFp_eq hm]
  by_cases hover : (fmt k).inf ≤ encoded k (placeOf k m e) (significand k mode neg m e).1
  · rw [if_pos hover, overflowed_eq hmode]
    have hbig := overflows_of_inf_le hp hr hover
    obtain ⟨hOF, hNX, hUF, hrest⟩ := overflowFlags
    have hsmall : ¬Tiny k mode neg v := hp.not_tiny_of_inf_le hle hover
    exact rounded_of hcmp rfl (by split <;> omega) (hp.nearest_overflowed hr hover) (iff_of_true hOF hbig) (iff_of_true hNX (.inl hbig))
      (iff_of_false hUF fun h => hsmall h.1) hrest
  · rw [if_neg hover]
    have hlt := Nat.not_le.mp hover
    have hbig := not_overflows_of_lt hp hr hlt
    obtain ⟨hOF, hNX, hUF, hrest⟩ := roundFlags (significand k mode neg m e).2 (tinyPlace k mode neg m e)
    refine rounded_of hcmp rfl hlt.le (hp.nearest hr hlt) ?_ ?_ ?_ hrest
    · exact hOF ▸ iff_of_false Bool.false_ne_true hbig
    · rw [hNX, hx, or_iff_right hbig]
    · rw [hUF, Bool.and_eq_true, hx, htiny, and_comm]

end
end Sys2Proof.Machine

/-! # Sums, products, quotients and roots, rounded once -/

namespace Sys2Proof.Machine

/-! ## Exact values as real numbers -/

/-- The real number that a finite value denotes. -/
noncomputable def realOf (neg : Bool) (m : Nat) (e : ℤ) : ℝ := (if neg then -1 else 1) * (m * 2 ^ e)

theorem atExp_real (neg : Bool) (m : Nat) {e u : ℤ} (h : u ≤ e) : (atExp neg m e u : ℝ) * 2 ^ u = realOf neg m e := by
  have hm := mul_zpow_shift m h
  unfold atExp realOf
  split
  · push_cast at hm ⊢
    linarith
  · push_cast at hm ⊢
    linarith

theorem atExp_natAbs_real (neg : Bool) (m : Nat) {e u : ℤ} (h : u ≤ e) : ((atExp neg m e u).natAbs : ℝ) * 2 ^ u = m * 2 ^ e := by
  have hm := mul_zpow_shift m h
  unfold atExp
  split
  · rw [Int.natAbs_neg, Int.natAbs_natCast, hm]
  · rw [Int.natAbs_natCast, hm]

theorem compare_mul_pos {x y c : ℝ} (hc : 0 < c) : compare (x * c) (y * c) = compare x y := by
  obtain h | rfl | h := lt_trichotomy x y
  · rw [compare_lt_iff_lt.mpr h, compare_lt_iff_lt.mpr (mul_lt_mul_of_pos_right h hc)]
  · rw [compare_eq_iff_eq.mpr rfl, compare_eq_iff_eq.mpr rfl]
  · rw [compare_gt_iff_gt.mpr h, compare_gt_iff_gt.mpr (mul_lt_mul_of_pos_right h hc)]

theorem compare_intCast (a b : ℤ) : compare (a : ℝ) (b : ℝ) = compare a b := by
  obtain h | rfl | h := lt_trichotomy a b
  · rw [compare_lt_iff_lt.mpr h, compare_lt_iff_lt.mpr (Int.cast_lt.mpr h)]
  · rw [compare_eq_iff_eq.mpr rfl, compare_eq_iff_eq.mpr rfl]
  · rw [compare_gt_iff_gt.mpr h, compare_gt_iff_gt.mpr (Int.cast_lt.mpr h)]

/-- The comparison that the statements make of two magnitudes is that of real numbers. -/
theorem compare_atExp (a b : Nat) (d e : ℤ) :
    compare (atExp false a d (min d e)) (atExp false b e (min d e)) = compare ((a : ℝ) * 2 ^ d) (b * 2 ^ e) := by
  rw [← compare_intCast, ← compare_mul_pos (two_zpow_pos (min d e)), atExp_real false a (min_le_left _ _), atExp_real false b (min_le_right _ _)]
  simp [realOf]

/-- R244, R246, R247 of a value rounded by itself. -/
theorem roundFp_rounded_exact {k mode m : Nat} {neg : Bool} {e : ℤ} (hm : m ≠ 0) (hmode : 1 ≤ mode ∧ mode ≤ 4) :
    Rounded k mode neg (fun a d => compare (atExp false a d (min d e)) (atExp false m e (min d e))) (roundFp k mode neg m e) :=
  roundFp_rounded hm hmode (StandsFor.refl k m e) fun n d => compare_atExp n m d e

/-! ## A last bit that stands for what is left of a value -/

/-- An odd number with the bits to round twice stands for what lies strictly between its neighbours. -/
theorem standsFor_odd {k m : Nat} {e : ℤ} {v : ℝ} (hodd : m % 2 = 1) (hbits : (fmt k).p < Nat.log2 m)
    (hlo : (m - 1 : ℝ) * 2 ^ e < v) (hhi : v < (m + 1) * 2 ^ e) : StandsFor k m e v := by
  intro t d hd
  have he := two_zpow_pos e
  -- a multiple of the power of two is an even number of the last places of m
  obtain ⟨c, hc⟩ : ∃ c : ℤ, (t : ℝ) * 2 ^ d = (2 * c : ℤ) * 2 ^ e := by
    refine ⟨t * 2 ^ (d - e - 1).toNat, ?_⟩
    have h2 : (2 : ℝ) ^ d = 2 * (2 ^ (d - e - 1).toNat * 2 ^ e) := by
      rw [← zpow_natCast, ← zpow_add₀ two_ne_zero, ← two_zpow_succ]
      congr 1
      omega
    rw [h2]
    push_cast
    ring
  have hm : (m : ℝ) = (m : ℤ) := (Int.cast_natCast m).symm
  rw [hc, mul_lt_mul_iff_left₀ he, mul_lt_mul_iff_left₀ he, hm, Int.cast_lt, Int.cast_lt]
  obtain h | h : 2 * c ≤ (m : ℤ) - 1 ∨ (m : ℤ) + 1 ≤ 2 * c := by omega
  · have hv : ((2 * c : ℤ) : ℝ) * 2 ^ e < v := by
      refine lt_of_le_of_lt (mul_le_mul_of_nonneg_right ?_ he.le) hlo
      rw [hm]
      exact_mod_cast h
    exact ⟨iff_of_true hv (by omega), iff_of_false hv.not_gt (by omega)⟩
  · have hv : v < ((2 * c : ℤ) : ℝ) * 2 ^ e := by
      refine lt_of_lt_of_le hhi (mul_le_mul_of_nonneg_right ?_ he.le)
      rw [hm]
      exact_mod_cast h
    exact ⟨iff_of_false hv.not_gt (by omega), iff_of_true hv (by omega)⟩

/-- q whole units, with a last bit that says whether they are all of v. -/
theorem standsFor_sticky {k q : Nat} {e : ℤ} {v : ℝ} {whole : Prop} [Decidable whole] (hbits : 2 ^ (fmt k).p ≤ q)
    (hlo : q * 2 ^ (e + 1) ≤ v) (hhi : v < (q + 1) * 2 ^ (e + 1)) (hwhole : whole ↔ v = q * 2 ^ (e + 1)) :
    StandsFor k (2 * q + if whole then 0 else 1) e v := by
  rw [two_zpow_succ] at hlo hhi hwhole
  by_cases h : whole
  · rw [if_pos h, hwhole.mp h]
    convert StandsFor.refl k (2 * q + 0) e using 1
    push_cast
    ring
  · rw [if_neg h]
    have hlog : (fmt k).p < Nat.log2 (2 * q + 1) := by
      refine Nat.lt_of_succ_le ((Nat.le_log2 (by omega)).mpr ?_)
      rw [pow_succ]
      omega
    have hne : v ≠ q * (2 * 2 ^ e) := mt hwhole.mpr h
    refine standsFor_odd (by omega) hlog ?_ ?_ <;> push_cast
    · exact lt_of_le_of_lt (by linarith) (lt_of_le_of_ne hlo hne.symm)
    · linarith

/-! ## Quotients -/

theorem quotient_ne_zero {p m n : Nat} {e : ℤ} (hm : m ≠ 0) : (quotient p m n e).1 ≠ 0 := by
  unfold quotient
  simp only
  split
  · rename_i h
    have hpow := Nat.two_pow_pos (Nat.log2 n + p + 3)
    have hq := Nat.div_mul_cancel (Nat.dvd_of_mod_eq_zero h)
    have : m * 2 ^ (Nat.log2 n + p + 3) ≠ 0 := Nat.mul_ne_zero hm hpow.ne'
    intro h0
    rw [show m * 2 ^ (Nat.log2 n + p + 3) / n = 0 by omega, Nat.zero_mul] at hq
    exact this hq.symm
  · omega

/-- The model's quotient stands for the exact one. -/
theorem quotient_standsFor {k m n : Nat} (e : ℤ) (hm : m ≠ 0) (hn : n ≠ 0) :
    StandsFor k (quotient (fmt k).p m n e).1 (quotient (fmt k).p m n e).2 (m * 2 ^ e / n) := by
  unfold quotient
  simp only
  obtain ⟨K, hK⟩ : ∃ K, Nat.log2 n + (fmt k).p + 3 = K := ⟨_, rfl⟩
  rw [hK]
  have hn' : (0 : ℝ) < n := Nat.cast_pos.mpr (Nat.pos_of_ne_zero hn)
  have hu := two_zpow_pos (e - K)
  have hdiv := Nat.div_add_mod' (m * 2 ^ K) n
  have hmod := Nat.mod_lt (m * 2 ^ K) (Nat.pos_of_ne_zero hn)
  have hbits : 2 ^ (fmt k).p ≤ m * 2 ^ K / n := by
    refine (Nat.le_div_iff_mul_le (Nat.pos_of_ne_zero hn)).mpr ?_
    have hlog : n < 2 ^ (Nat.log2 n + 1) := Nat.lt_log2_self
    calc 2 ^ (fmt k).p * n ≤ 2 ^ (fmt k).p * 2 ^ (Nat.log2 n + 1) := Nat.mul_le_mul_left _ hlog.le
      _ = 2 ^ ((fmt k).p + (Nat.log2 n + 1)) := (pow_add ..).symm
      _ ≤ 2 ^ K := Nat.pow_le_pow_right two_pos (by omega)
      _ ≤ m * 2 ^ K := Nat.le_mul_of_pos_left _ (Nat.pos_of_ne_zero hm)
  -- in units of the quotient's last place, the dividend is a whole number
  have hv : (m : ℝ) * 2 ^ e = (m * 2 ^ K : ℕ) * 2 ^ (e - K) := by
    rw [← mul_zpow_shift m (show e - K ≤ e by omega)]
    rw [show (e - (e - (K : ℤ))).toNat = K by omega]
  rw [hv]
  generalize m * 2 ^ K = N at *
  generalize hr : N % n = r at *
  generalize N / n = q at *
  subst hdiv
  have hmodr : (r : ℝ) < n := Nat.cast_lt.mpr hmod
  refine standsFor_sticky hbits ?_ ?_ ?_ <;> rw [show e - (K : ℤ) - 1 + 1 = e - K by ring]
  · rw [le_div_iff₀ hn']
    push_cast
    nlinarith [Nat.cast_nonneg (α := ℝ) r]
  · rw [div_lt_iff₀ hn']
    push_cast
    nlinarith
  · rw [div_eq_iff hn'.ne', mul_right_comm, mul_left_inj' hu.ne']
    push_cast
    rw [add_eq_left, Nat.cast_eq_zero]

/-! ## Square roots -/

theorem isqrtGo_spec (n k r : Nat) (hlo : r * r ≤ n) (hhi : n < (r + 2 ^ k) * (r + 2 ^ k)) :
    isqrtGo n k r * isqrtGo n k r ≤ n ∧ n < (isqrtGo n k r + 1) * (isqrtGo n k r + 1) := by
  induction k generalizing r with
  | zero => exact ⟨hlo, hhi⟩
  | succ k ih =>
    rw [isqrtGo]
    split
    · rename_i h
      refine ih _ h ?_
      rwa [Nat.add_assoc, ← two_mul, ← pow_succ']
    · rename_i h
      exact ih _ hlo (Nat.not_le.mp h)

theorem isqrt_spec (n : Nat) : isqrt n * isqrt n ≤ n ∧ n < (isqrt n + 1) * (isqrt n + 1) := by
  refine isqrtGo_spec n _ 0 (Nat.zero_le _) ?_
  rw [Nat.zero_add, ← pow_add]
  exact lt_of_lt_of_le Nat.lt_log2_self (Nat.pow_le_pow_right two_pos (by omega))

/-- The root of a whole number of even units, with a bit for what is left. -/
theorem isqrt_standsFor {k N : Nat} {u : ℤ} (hbits : 2 ^ (fmt k).p * 2 ^ (fmt k).p ≤ N) :
    StandsFor k (2 * isqrt N + if isqrt N * isqrt N = N then 0 else 1) (u - 1) (Real.sqrt (N * 2 ^ (2 * u))) := by
  obtain ⟨hlo, hhi⟩ := isqrt_spec N
  have hu := two_zpow_pos u
  have hsqrt : Real.sqrt (N * 2 ^ (2 * u)) = Real.sqrt N * 2 ^ u := by
    rw [Real.sqrt_mul (Nat.cast_nonneg _), two_mul, zpow_add₀ two_ne_zero, Real.sqrt_mul_self hu.le]
  rw [hsqrt]
  generalize isqrt N = r at *
  refine standsFor_sticky ?_ ?_ ?_ ?_ <;> try rw [sub_add_cancel]
  · by_contra h
    have : r + 1 ≤ 2 ^ (fmt k).p := by omega
    exact absurd (Nat.mul_le_mul this this) (by omega)
  · refine mul_le_mul_of_nonneg_right (Real.le_sqrt_of_sq_le ?_) hu.le
    rw [sq]
    exact_mod_cast hlo
  · refine mul_lt_mul_of_pos_right ((Real.sqrt_lt' (by positivity)).mpr ?_) hu
    rw [sq]
    exact_mod_cast hhi
  · rw [mul_left_inj' hu.ne', Real.sqrt_eq_iff_mul_self_eq (Nat.cast_nonneg _) (Nat.cast_nonneg _)]
    norm_cast
    exact eq_comm

theorem compare_sqrt {x y : ℝ} (hx : 0 ≤ x) (hy : 0 ≤ y) : compare (x * x) y = compare x (Real.sqrt y) := by
  obtain h | h | h := lt_trichotomy x (Real.sqrt y)
  · rw [compare_lt_iff_lt.mpr h, compare_lt_iff_lt, ← sq]
    exact (Real.lt_sqrt hx).mp h
  · rw [compare_eq_iff_eq.mpr h, compare_eq_iff_eq, h, Real.mul_self_sqrt hy]
  · rw [compare_gt_iff_gt.mpr h, compare_gt_iff_gt, ← sq]
    exact (Real.sqrt_lt' (lt_of_le_of_lt (Real.sqrt_nonneg _) h)).mp h

/-! ## The operations on finite operands -/

section
variable {k mode a b c : Nat} {n w s : Bool} {m m' l : Nat} {e e' d : ℤ}

theorem fpResult_number {ops : List Fv} (hops : ops.any Fv.isNan = false) {r : Fv} (hr : r.isNan = false) :
    fpResult k mode ops r = roundFv k mode r := by
  unfold fpResult
  rw [hops, if_neg Bool.false_ne_true]
  cases r with
  | nan q => cases hr
  | _ => rfl

theorem exactAdd_fin (mode : Nat) (n w : Bool) (m m' : Nat) (e e' : ℤ) :
    exactAdd mode (.fin n m e) (.fin w m' e') =
      if atExp n m e (min e e') + atExp w m' e' (min e e') = 0 then .fin (if n = w then n else mode == 4) 0 (min e e')
      else .fin (decide (atExp n m e (min e e') + atExp w m' e' (min e e') < 0))
        (atExp n m e (min e e') + atExp w m' e' (min e e')).natAbs (min e e') := rfl

theorem exactAdd_fin_isNan : (exactAdd mode (.fin n m e) (.fin w m' e')).isNan = false := by
  rw [exactAdd_fin]
  split <;> rfl

theorem fpAdd_fin (hx : fpVal k a = .fin n m e) (hy : fpVal k b = .fin w m' e') :
    fpAdd k mode a b = roundFv k mode (exactAdd mode (.fin n m e) (.fin w m' e')) := by
  rw [fpAdd, hx, hy, fpResult_number rfl exactAdd_fin_isNan]

theorem fpSub_fin (hx : fpVal k a = .fin n m e) (hy : fpVal k b = .fin w m' e') :
    fpSub k mode a b = roundFv k mode (exactAdd mode (.fin n m e) (.fin (!w) m' e')) := by
  rw [fpSub, hx, hy, Fv.neg, fpResult_number rfl exactAdd_fin_isNan]

theorem fpMul_fin (hx : fpVal k a = .fin n m e) (hy : fpVal k b = .fin w m' e') :
    fpMul k mode a b = roundFp k mode (n != w) (m * m') (e + e') := by
  rw [fpMul, hx, hy, exactMul, fpResult_number rfl rfl, roundFv]

theorem fpFma_fin (hx : fpVal k a = .fin n m e) (hy : fpVal k b = .fin w m' e') (hz : fpVal k c = .fin s l d) :
    fpFma k mode a b c = roundFv k mode (exactAdd mode (.fin (n != w) (m * m') (e + e')) (.fin s l d)) := by
  simp only [fpFma, hx, hy, hz, exactMul]
  rw [fpResult_number rfl exactAdd_fin_isNan]
  exact Prod.ext rfl (BitVec.or_zero ..)

theorem fpDiv_fin (hx : fpVal k a = .fin n m e) (hy : fpVal k b = .fin w m' e') (hm' : m' ≠ 0) :
    fpDiv k mode a b = if m = 0 then (signBits k (n != w) 0, 0)
      else roundFp k mode (n != w) (quotient (fmt k).p m m' (e - e')).1 (quotient (fmt k).p m m' (e - e')).2 := by
  simp only [fpDiv, hx, hy, Fv.isNan, Bool.or_self, Bool.false_eq_true, if_false, if_neg hm']

/-- The root is taken of an even number of places, with two bits more than the result has. -/
theorem fpSqrt_fin (hx : fpVal k a = .fin false m e) (hm : m ≠ 0) :
    fpSqrt k mode a =
      let N := m * 2 ^ (e % 2).toNat * 2 ^ (2 * ((fmt k).p + 2))
      roundFp k mode false (2 * isqrt N + if isqrt N * isqrt N = N then 0 else 1)
        ((e - ((e % 2).toNat : ℤ)) / 2 - (((fmt k).p + 2 : ℕ) : ℤ) - 1) := by
  simp only [fpSqrt, hx, if_neg hm, Bool.false_eq_true, if_false]

/-! ## Their rounding (R244, R246, R247) -/

section
variable (hmode : 1 ≤ mode ∧ mode ≤ 4)
include hmode

/-- A sum is rounded once; an exact zero has the sign that R244 gives it. -/
theorem sum_rounded (n w : Bool) (m m' : Nat) (e e' : ℤ) :
    let u := min e e'
    let v := atExp n m e u + atExp w m' e' u
    if v = 0 then roundFv k mode (exactAdd mode (.fin n m e) (.fin w m' e')) = (signBits k (if n = w then n else mode == 4) 0, 0)
    else Rounded k mode (decide (v < 0)) (fun a d => compare (atExp false a d (min d u)) (atExp false v.natAbs u (min d u)))
      (roundFv k mode (exactAdd mode (.fin n m e) (.fin w m' e'))) := by
  simp only [exactAdd_fin]
  split
  · rfl
  · rename_i hv
    exact roundFp_rounded_exact (Int.natAbs_ne_zero.mpr hv) hmode

theorem quotient_rounded (hm : m ≠ 0) (hm' : m' ≠ 0) :
    Rounded k mode w (fun q d => compare (atExp false (q * m') (d + e') (min (d + e') e)) (atExp false m e (min (d + e') e)))
      (roundFp k mode w (quotient (fmt k).p m m' (e - e')).1 (quotient (fmt k).p m m' (e - e')).2) := by
  refine roundFp_rounded (quotient_ne_zero hm) hmode (quotient_standsFor (e - e') hm hm') fun q d => ?_
  have hpos : (0 : ℝ) < m' * 2 ^ e' := mul_pos (Nat.cast_pos.mpr (Nat.pos_of_ne_zero hm')) (two_zpow_pos e')
  rw [compare_atExp, ← compare_mul_pos hpos (x := q * 2 ^ d)]
  congr 1
  · rw [zpow_add₀ two_ne_zero]
    push_cast
    ring
  · rw [div_mul_eq_mul_div, mul_left_comm, mul_assoc, ← zpow_add₀ two_ne_zero, sub_add_cancel,
      eq_div_iff (Nat.cast_ne_zero.mpr hm'), mul_comm]

theorem sqrt_rounded (hx : fpVal k a = .fin false m e) (hm : m ≠ 0) :
    Rounded k mode false (fun q d => compare (atExp false (q * q) (2 * d) (min (2 * d) e)) (atExp false m e (min (2 * d) e)))
      (fpSqrt k mode a) := by
  obtain ⟨u, hu⟩ : ∃ u, (e - ((e % 2).toNat : ℤ)) / 2 - (((fmt k).p + 2 : ℕ) : ℤ) = u := ⟨_, rfl⟩
  obtain ⟨N, hN⟩ : ∃ N, m * 2 ^ (e % 2).toNat * 2 ^ (2 * ((fmt k).p + 2)) = N := ⟨_, rfl⟩
  have hexact : (N : ℝ) * 2 ^ (2 * u) = m * 2 ^ e := by
    rw [← mul_zpow_shift m (show 2 * u ≤ e by omega), ← hN, Nat.mul_assoc, ← pow_add]
    congr 4
    omega
  have hbits : 2 ^ (fmt k).p * 2 ^ (fmt k).p ≤ N := by
    rw [← hN, Nat.mul_assoc, ← pow_add, ← pow_add]
    exact (Nat.pow_le_pow_right two_pos (by omega)).trans (Nat.le_mul_of_pos_left _ (Nat.pos_of_ne_zero hm))
  have hpow := Nat.two_pow_pos (fmt k).p
  have hroot : isqrt N ≠ 0 := by
    have := (isqrt_spec N).2
    intro h0
    rw [h0] at this
    nlinarith
  rw [fpSqrt_fin hx hm]
  simp only [hN, hu]
  refine roundFp_rounded (by omega) hmode (isqrt_standsFor hbits) fun q d => ?_
  have hq : (0 : ℝ) ≤ q * 2 ^ d := mul_nonneg (Nat.cast_nonneg _) (two_zpow_pos d).le
  rw [compare_atExp, hexact, ← compare_sqrt hq (mul_nonneg (Nat.cast_nonneg _) (two_zpow_pos e).le), two_mul, zpow_add₀ two_ne_zero]
  congr 1
  push_cast
  ring

end
end

/-- Settles O7: the sums, the products and the fused products are exact values that roundFp rounds; the quotient and the root have a last bit
that stands for what is left of them, which rounding to the format does not tell from the exact value. -/
theorem floatingPointRounded : Obligations.FloatingPointRounded := by
  intro k mode a b c _ h1 h4
  have hmode := And.intro h1 h4
  refine ⟨fun n m e hm => roundFp_rounded_exact hm.ne' hmode, fun n m e n' m' e' hx hy => ⟨?_, ?_, ?_, fun w l d hz => ?_, fun hm' => ?_, ?_⟩⟩
  · rw [fpAdd_fin hx hy]
    exact sum_rounded hmode n n' m m' e e'
  · rw [fpSub_fin hx hy]
    exact sum_rounded hmode n (!n') m m' e e'
  · rw [fpMul_fin hx hy]
    split
    · rename_i h0
      rw [h0, roundFp_zero]
    · rename_i h0
      exact roundFp_rounded_exact h0 hmode
  · rw [fpFma_fin hx hy hz]
    have hsign : (if (n != n') = w then w else mode == 4) = if (n != n') = w then (n != n') else mode == 4 := by
      split
      · exact Eq.symm ‹_›
      · rfl
    rw [hsign]
    exact sum_rounded hmode (n != n') w (m * m') l (e + e') d
  · rw [fpDiv_fin hx hy hm'.ne']
    split
    · rfl
    · rename_i h0
      exact quotient_rounded hmode h0 hm'.ne'
  · rintro hm rfl
    exact sqrt_rounded hmode hx hm.ne'

end Sys2Proof.Machine

/-! # Scalar floating point: the forms, and what their operations answer -/

namespace Sys2Proof.Machine

/-! ## The forms of FPA and FPB (R270) -/

/-- A result with its flags, to the x register that an instruction of the current thread names. -/
theorem setDF_done {j : Iss} {s : State} (u : State) (r : FRes) (hg : j.g = s.cur) :
    setDF j u r = .done (u.modThread s.cur (putX j (.ofNat 64 r.1) r.2)) := by
  rw [setDF, doneT, hg]
  rfl

section
variable {i : Instr} {o : OpF} {s : State}

/-- A form of two operands puts its result and its flags in x[D]. -/
theorem fpOp_does {rounds : Bool} {f : Nat → Nat → Nat → Nat → FRes} (hexec : exec i s = finish s (fpOp s o rounds f)) :
    Does i s { Traits.ofF o (fx o.d) (fx o.a) (fx o.b) with rounds := rounds } fun j h =>
      let r := f o.t.toNat j.mode (h.x j.a).toNat (j.bval h).toNat
      putX j (.ofNat 64 r.1) r.2 :=
  ends_of _ _ _ _ _ hexec fun j u h a b hg hu => by
    simp only [setDF_done u _ hg, hg, hu, Thread.flagged_x, Thread.flagged_bval]

/-- A form of one operand. -/
theorem fpUnary_does {rounds sets : Bool} {f : Nat → Nat → Nat → FRes} (hexec : exec i s = finish s (fpUnary s o rounds sets f)) :
    Does i s { Traits.ofF o (fx o.d) (fx o.a) fnone with rounds := rounds, sets := sets } fun j h =>
      let r := f o.t.toNat j.mode (h.x j.a).toNat
      putX j (.ofNat 64 r.1) r.2 :=
  ends_of _ _ _ _ _ hexec fun j u h a b hg hu => by
    simp only [setDF_done u _ hg, hg, hu, Thread.flagged_x]

theorem fmac_does (o : OpF) (s : State) :
    Does (.fmac o) s { Traits.ofF o (fx o.d) (fx o.a) (fx o.b) with rounds := true } fun j h =>
      let r := fpFma o.t.toNat j.mode (h.x j.a).toNat (j.bval h).toNat (h.x j.d).toNat
      putX j (.ofNat 64 r.1) r.2 :=
  ends_of _ _ _ _ _ rfl fun j u h a b hg hu => by
    simp only [setDF_done u _ hg, hg, hu, Thread.flagged_x, Thread.flagged_bval]

end

/-! ## Flags of NaN operands (R243) -/

theorem sigNv_eq (x : Fv) : sigNv x = flagIf (x == .nan true) fNV := by
  unfold sigNv
  split
  · rfl
  · rename_i h
    rw [beq_eq_false_iff_ne.mpr h]
    rfl

theorem zero_or_flags (f : Flags) : (0 : Flags) ||| f = f := BitVec.zero_or

theorem flagIf_or (p q : Bool) (f : Flags) : flagIf p f ||| flagIf q f = flagIf (p || q) f := by
  cases p <;> cases q <;> simp [flagIf]

theorem sigNv_or (x y : Fv) [Decidable (x = .nan true ∨ y = .nan true)] :
    sigNv x ||| sigNv y = if x = .nan true ∨ y = .nan true then fNV else 0 := by
  rw [sigNv_eq, sigNv_eq, flagIf_or, flagIf]
  exact if_congr (by rw [Bool.or_eq_true, beq_iff_eq, beq_iff_eq]) rfl rfl

theorem flagIf_eq_iff {p : Bool} {f : Flags} (hf : f ≠ 0) : flagIf p f = f ↔ p = true := by
  cases p
  · exact iff_of_false hf.symm Bool.false_ne_true
  · exact iff_of_true rfl rfl

theorem flagIf_eq (p : Bool) (f : Flags) : flagIf p f = f ∨ flagIf p f = 0 := by
  cases p
  · exact .inr rfl
  · exact .inl rfl

section
variable {k mode a b c : Nat}

theorem fpResult_nan {ops : List Fv} (h : ops.any Fv.isNan = true) (r : Fv) :
    fpResult k mode ops r = (canon k, (ops.map sigNv).foldl (· ||| ·) 0) := if_pos h

/-- Any NaN operand gives the canonical NaN, and a signalling one NV. -/
theorem fpResult_nan_two {x y : Fv} (h : x.isNan = true ∨ y.isNan = true) (r : Fv) :
    fpResult k mode [x, y] r = (canon k, sigNv x ||| sigNv y) := by
  rw [fpResult_nan (by simpa using h)]
  exact congrArg (Prod.mk (canon k)) (by simp)

theorem fpDiv_nan (h : (fpVal k a).isNan = true ∨ (fpVal k b).isNan = true) :
    fpDiv k mode a b = (canon k, sigNv (fpVal k a) ||| sigNv (fpVal k b)) := by
  unfold fpDiv
  rw [← fpResult_nan_two h (.nan false)]
  exact if_pos (by simpa using h)

theorem exactMul_nan {x y : Fv} (hx : x.isNan = false) (hy : y.isNan = false) :
    (exactMul x y).isNan = true ↔ exactMul x y = .nan false := by
  cases hp : exactMul x y with
  | nan q =>
    suffices q = false by simp [this, Fv.isNan]
    cases x <;> cases y <;> simp_all [exactMul, Fv.isNan] <;> split at hp <;> simp_all
  | _ => simp [Fv.isNan]

/-- Whether a fused operation with a NaN operand is invalid: a signalling operand, or 0 × ∞ (R244). -/
theorem fpFma_nan (h : (fpVal k a).isNan = true ∨ (fpVal k b).isNan = true ∨ (fpVal k c).isNan = true) :
    fpFma k mode a b c = (canon k, flagIf (fpVal k a == .nan true || fpVal k b == .nan true || fpVal k c == .nan true ||
      ((exactMul (fpVal k a) (fpVal k b)).isNan && !(fpVal k a).isNan && !(fpVal k b).isNan)) fNV) := by
  unfold fpFma
  simp only
  rw [fpResult_nan (by simpa using h)]
  simp only [List.map_cons, List.map_nil, List.foldl_cons, List.foldl_nil, sigNv_eq, zero_or_flags, flagIf_or]

/-! ## Signs and classes (R270) -/

theorem fpSigned_number (h : (fpVal k a).isNan = false) (neg : Bool) :
    fpSigned k a neg = (signBits k neg (a % 2 ^ ((fmt k).w - 1)), 0) := by
  unfold fpSigned
  cases hx : fpVal k a with
  | nan q => rw [hx] at h; cases h
  | _ => rfl

theorem fpSigned_nan {q : Bool} (h : fpVal k a = .nan q) (neg : Bool) : fpSigned k a neg = (canon k, flagIf q fNV) := by
  unfold fpSigned
  rw [h]

/-- The sign as the model asks for it. -/
theorem topBit_beq (w b : Nat) : (b / 2 ^ (w - 1) % 2 == 1) = b.testBit (w - 1) ∧ (b / 2 ^ (w - 1) % 2 == 0) = !b.testBit (w - 1) := by
  rw [Nat.testBit_eq_decide_div_mod_eq]
  obtain h | h := Nat.mod_two_eq_zero_or_one (b / 2 ^ (w - 1)) <;> rw [h] <;> exact ⟨rfl, rfl⟩

theorem fpSgn_eq (k a b : Nat) : fpSgn k a b = fpSigned k a (b.testBit ((fmt k).w - 1)) :=
  congrArg (fpSigned k a) (topBit_beq _ b).1

theorem fpNeg_eq (k a : Nat) : fpNeg k a = fpSigned k a (!a.testBit ((fmt k).w - 1)) :=
  congrArg (fpSigned k a) (topBit_beq _ a).2

/-- The signs of a number: all but the top bit stays. -/
theorem signs_of_number (h : (fpVal k a).isNan = false) :
    fpAbs k a = (a % 2 ^ ((fmt k).w - 1), 0) ∧
    fpNeg k a = (a % 2 ^ ((fmt k).w - 1) + (if a.testBit ((fmt k).w - 1) then 0 else 2 ^ ((fmt k).w - 1)), 0) ∧
    fpSgn k a b = (a % 2 ^ ((fmt k).w - 1) + (if b.testBit ((fmt k).w - 1) then 2 ^ ((fmt k).w - 1) else 0), 0) := by
  rw [fpNeg_eq, fpSgn_eq, fpAbs, fpSigned_number h, fpSigned_number h, fpSigned_number h]
  refine ⟨by simp [signBits], ?_, ?_⟩
  · cases a.testBit ((fmt k).w - 1) <;> simp [signBits, Nat.add_comm]
  · cases b.testBit ((fmt k).w - 1) <;> simp [signBits, Nat.add_comm]

/-- The classes are told apart by the value alone. -/
theorem fpClass_iff (k a : Nat) :
    let x := fpVal k a
    let normal (m : Nat) : Prop := 2 ^ ((fmt k).p - 1) ≤ m
    (fpClass k a = 2 ^ 0 ↔ x = .inf true) ∧ (fpClass k a = 2 ^ 1 ↔ ∃ m e, x = .fin true m e ∧ normal m) ∧
    (fpClass k a = 2 ^ 2 ↔ ∃ m e, x = .fin true m e ∧ ¬normal m ∧ 0 < m) ∧ (fpClass k a = 2 ^ 3 ↔ ∃ e, x = .fin true 0 e) ∧
    (fpClass k a = 2 ^ 4 ↔ ∃ e, x = .fin false 0 e) ∧ (fpClass k a = 2 ^ 5 ↔ ∃ m e, x = .fin false m e ∧ ¬normal m ∧ 0 < m) ∧
    (fpClass k a = 2 ^ 6 ↔ ∃ m e, x = .fin false m e ∧ normal m) ∧ (fpClass k a = 2 ^ 7 ↔ x = .inf false) ∧
    (fpClass k a = 2 ^ 8 ↔ x = .nan true) ∧ (fpClass k a = 2 ^ 9 ↔ x = .nan false) := by
  have hpos := Nat.two_pow_pos ((fmt k).p - 1)
  unfold fpClass
  generalize fpVal k a = x
  generalize 2 ^ ((fmt k).p - 1) = h at hpos
  cases x with
  | inf n => cases n <;> simp
  | nan q => cases q <;> simp
  | fin n m e =>
    by_cases h0 : m = 0
    · subst h0
      cases n <;> simp [hpos.ne']
    · have hm := Nat.pos_of_ne_zero h0
      by_cases hsub : m < h
      · cases n <;> simp [h0, hsub, hm, Nat.not_le.mpr hsub]
      · cases n <;> simp [h0, hsub, Nat.not_lt.mp hsub]

/-! ## minimumNumber and maximumNumber (R244) -/

theorem fpOrder_isSome {x y : Fv} (hx : x.isNan = false) (hy : y.isNan = false) : ∃ o, fpOrder x y = some o := by
  cases x <;> cases y <;> simp_all [fpOrder, Fv.isNan]

/-- R244: what a minimum or a maximum is, and its flags. -/
theorem fpMinMax_spec (k : Nat) (big : Bool) (a b : Nat) :
    let x := fpVal k a
    let y := fpVal k b
    let enc (v : Nat) : Nat := v % 2 ^ (fmt k).w
    let r := fpMinMax k big a b
    r.2 = sigNv x ||| sigNv y ∧ (x.isNan = true → y.isNan = true → r.1 = canon k) ∧ (x.isNan = true → y.isNan = false → r.1 = enc b) ∧
    (x.isNan = false → y.isNan = true → r.1 = enc a) ∧
    (x.isNan = false → y.isNan = false →
      (fpOrder x y = some .lt → r.1 = if big then enc b else enc a) ∧ (fpOrder x y = some .gt → r.1 = if big then enc a else enc b) ∧
      (fpOrder x y = some .eq → (r.1 = enc a ∨ r.1 = enc b) ∧ (x.sign ≠ y.sign → (fpVal k r.1).sign = !big))) := by
  simp only
  refine ⟨?_, fun hx hy => ?_, fun hx hy => ?_, fun hx hy => ?_, fun hx hy => ?_⟩
  · unfold fpMinMax
    simp only
    repeat' split
    all_goals rfl
  · simp [fpMinMax, hx, hy]
  · simp [fpMinMax, hx, hy]
  · simp [fpMinMax, hx, hy]
  · simp only [fpMinMax, hx, hy, Bool.false_eq_true, if_false]
    refine ⟨fun h => ?_, fun h => ?_, fun h => ?_⟩ <;> simp only [h]
    · cases big <;> rfl
    · cases big <;> rfl
    · have ha := congrArg Fv.sign (fpVal_mod k a)
      have hb := congrArg Fv.sign (fpVal_mod k b)
      constructor
      · split
        · exact .inl rfl
        · exact .inr rfl
      · intro hne
        obtain ⟨hsx, hsy⟩ | ⟨hsx, hsy⟩ : ((fpVal k a).sign = true ∧ (fpVal k b).sign = false) ∨
            ((fpVal k a).sign = false ∧ (fpVal k b).sign = true) := by
          revert hne
          cases (fpVal k a).sign <;> cases (fpVal k b).sign <;> decide
        · cases big <;> simp [hsx, hsy, ha, hb]
        · cases big <;> simp [hsx, hsy, ha, hb]

end

end Sys2Proof.Machine

namespace Sys2Proof.Machine

/-! ## Infinities, and the operations that are invalid on them (R243, R244) -/

section
variable {k mode a b c : Nat} {n w : Bool} {m : Nat} {e : ℤ}

theorem fpResult_invalid {ops : List Fv} (hops : ops.any Fv.isNan = false) (q : Bool) : fpResult k mode ops (.nan q) = (canon k, fNV) := by
  rw [fpResult, hops]
  rfl

/-- A result is a value without flags. -/
def Answers (k : Nat) (r : FRes) (v : Fv) : Prop := fpVal k r.1 = v ∧ r.2 = 0

theorem answers_inf (k : Nat) (n : Bool) : Answers k (signBits k n (fmt k).inf, 0) (.inf n) := ⟨fpVal_signBits_inf k n, rfl⟩

theorem answers_zero (k : Nat) (n : Bool) : Answers k (signBits k n 0, 0) (.fin n 0 (fmt k).umin) := ⟨fpVal_signBits_zero k n, rfl⟩

theorem answers_result_inf {ops : List Fv} (hops : ops.any Fv.isNan = false) (n : Bool) : Answers k (fpResult k mode ops (.inf n)) (.inf n) := by
  rw [fpResult_number hops rfl]
  exact answers_inf k n

theorem exactAdd_inf_left (mode : Nat) {y : Fv} (hy : y.isNan = false) (hne : y ≠ .inf (!n)) : exactAdd mode (.inf n) y = .inf n := by
  cases y with
  | fin => rfl
  | inf w =>
    have : n = w := by
      cases n <;> cases w <;> simp_all
    exact if_pos this
  | nan => cases hy

theorem exactAdd_inf_right (mode : Nat) (n w : Bool) (m : Nat) (e : ℤ) : exactAdd mode (.fin w m e) (.inf n) = .inf n := rfl

theorem exactAdd_inf_opposite (mode : Nat) (n : Bool) : exactAdd mode (.inf n) (.inf !n) = .nan false := by
  cases n <;> rfl

theorem exactMul_inf_fin (n w : Bool) (hm : 0 < m) (e : ℤ) : exactMul (.inf n) (.fin w m e) = .inf (n != w) := if_neg hm.ne'

section
variable (hx : fpVal k a = .inf n)
include hx

theorem fpAdd_inf_inf (hy : fpVal k b = .inf w) :
    if n = w then Answers k (fpAdd k mode a b) (.inf n) else fpAdd k mode a b = (canon k, fNV) := by
  rw [fpAdd, hx, hy, exactAdd]
  split
  · exact answers_result_inf rfl n
  · exact fpResult_invalid rfl false

theorem fpSub_inf_inf (hy : fpVal k b = .inf w) :
    if n = w then fpSub k mode a b = (canon k, fNV) else Answers k (fpSub k mode a b) (.inf n) := by
  rw [fpSub, hx, hy, Fv.neg]
  split
  · rename_i h
    rw [h, exactAdd_inf_opposite]
    exact fpResult_invalid rfl false
  · rename_i h
    rw [exactAdd_inf_left mode rfl (by simpa using Ne.symm h)]
    exact answers_result_inf rfl n

theorem fpMul_inf_inf (hy : fpVal k b = .inf w) : Answers k (fpMul k mode a b) (.inf (n != w)) := by
  rw [fpMul, hx, hy, exactMul]
  exact answers_result_inf rfl _

theorem fpDiv_inf_inf (hy : fpVal k b = .inf w) : fpDiv k mode a b = (canon k, fNV) := by
  simp [fpDiv, hx, hy, Fv.isNan]

theorem fpMul_inf_zero (hy : fpVal k b = .fin w 0 e) : fpMul k mode a b = (canon k, fNV) ∧ fpMul k mode b a = (canon k, fNV) := by
  rw [fpMul, fpMul, hx, hy]
  exact ⟨fpResult_invalid rfl false, fpResult_invalid rfl false⟩

theorem fpAdd_inf_fin (hy : fpVal k b = .fin w m e) :
    Answers k (fpAdd k mode a b) (.inf n) ∧ Answers k (fpAdd k mode b a) (.inf n) := by
  rw [fpAdd, fpAdd, hx, hy]
  exact ⟨answers_result_inf rfl n, answers_result_inf rfl n⟩

theorem fpSub_inf_fin (hy : fpVal k b = .fin w m e) :
    Answers k (fpSub k mode a b) (.inf n) ∧ Answers k (fpSub k mode b a) (.inf !n) := by
  rw [fpSub, fpSub, hx, hy]
  exact ⟨answers_result_inf rfl n, answers_result_inf rfl !n⟩

theorem fpDiv_inf_fin (hy : fpVal k b = .fin w m e) :
    Answers k (fpDiv k mode a b) (.inf (n != w)) ∧ Answers k (fpDiv k mode b a) (.fin (n != w) 0 (fmt k).umin) := by
  have hleft : fpDiv k mode a b = (signBits k (n != w) (fmt k).inf, 0) := by simp [fpDiv, hx, hy, Fv.isNan]
  have hright : fpDiv k mode b a = (signBits k (n != w) 0, 0) := by simp [fpDiv, hx, hy, Fv.isNan, bne_comm]
  rw [hleft, hright]
  exact ⟨answers_inf k _, answers_zero k _⟩

theorem fpMul_inf_fin (hy : fpVal k b = .fin w m e) (hm : 0 < m) : Answers k (fpMul k mode a b) (.inf (n != w)) := by
  rw [fpMul, hx, hy, exactMul_inf_fin n w hm]
  exact answers_result_inf rfl _

theorem fpSqrt_inf : if n then fpSqrt k mode a = (canon k, fNV) else Answers k (fpSqrt k mode a) (.inf false) := by
  have hroot : fpSqrt k mode a = if n then (canon k, fNV) else ((fmt k).inf, 0) := by simp only [fpSqrt, hx]
  cases n
  · exact hroot ▸ ⟨fpVal_inf k, rfl⟩
  · exact hroot

end

/-- A fused operation whose product is not invalid: the sum of the exact product and the addend. -/
theorem fpFma_of_product {p : Fv} (hp : exactMul (fpVal k a) (fpVal k b) = p) (hnan : p.isNan = false) :
    fpFma k mode a b c = fpResult k mode [fpVal k a, fpVal k b, fpVal k c] (exactAdd mode p (fpVal k c)) := by
  simp only [fpFma, hp, hnan, Bool.false_and]
  exact Prod.ext rfl (BitVec.or_zero ..)

section
variable (hx : (fpVal k a).isNan = false) (hy : (fpVal k b).isNan = false)
include hx hy

theorem any_isNan_three : [fpVal k a, fpVal k b, fpVal k c].any Fv.isNan = (fpVal k c).isNan := by
  simp [hx, hy]

/-- 0 × ∞ is invalid whatever is added to it, even a NaN. -/
theorem fpFma_of_invalid (hp : exactMul (fpVal k a) (fpVal k b) = .nan false) : fpFma k mode a b c = (canon k, fNV) := by
  by_cases hz : (fpVal k c).isNan = true
  · rw [fpFma_nan (.inr (.inr hz)), hp, hx, hy]
    simp [Fv.isNan, flagIf]
  · have hz : [fpVal k a, fpVal k b, fpVal k c].any Fv.isNan = false := by simpa [any_isNan_three hx hy] using hz
    simp only [fpFma, hp, hx, hy]
    rw [exactAdd, fpResult_invalid hz]
    exact Prod.ext rfl (BitVec.or_self ..)

/-- An infinite product, and the addend: the opposite infinity is invalid, and any other number leaves the product. -/
theorem fpFma_of_inf (hp : exactMul (fpVal k a) (fpVal k b) = .inf n) :
    (fpVal k c = .inf (!n) → fpFma k mode a b c = (canon k, fNV)) ∧
    ((fpVal k c).isNan = false → fpVal k c ≠ .inf (!n) → Answers k (fpFma k mode a b c) (.inf n)) := by
  rw [fpFma_of_product hp rfl]
  constructor
  · intro hz
    rw [hz, exactAdd_inf_opposite]
    exact fpResult_invalid (hz ▸ (any_isNan_three hx hy).trans (congrArg Fv.isNan hz)) false
  · intro hz hne
    rw [exactAdd_inf_left mode hz hne]
    exact answers_result_inf ((any_isNan_three hx hy).trans hz) n

end

/-! ## Zeros and negative operands -/

theorem fpSqrt_zero (hx : fpVal k a = .fin n 0 e) : Answers k (fpSqrt k mode a) (fpVal k a) := by
  have he := (fpVal_fin_exponent hx).2 rfl
  simp only [fpSqrt, hx, if_true, he]
  exact answers_zero k n

theorem fpSqrt_negative (hx : fpVal k a = .fin true m e) (hm : 0 < m) : fpSqrt k mode a = (canon k, fNV) := by
  simp [fpSqrt, hx, hm.ne']

theorem fpDiv_zero (hx : fpVal k a = .fin n m e) {e' : ℤ} (hy : fpVal k b = .fin w 0 e') :
    (0 < m → fpVal k (fpDiv k mode a b).1 = .inf (n != w) ∧ (fpDiv k mode a b).2 = fDZ) ∧ (m = 0 → fpDiv k mode a b = (canon k, fNV)) := by
  constructor
  · intro hm
    have : fpDiv k mode a b = (signBits k (n != w) (fmt k).inf, fDZ) := by simp [fpDiv, hx, hy, Fv.isNan, hm.ne']
    rw [this]
    exact ⟨fpVal_signBits_inf k _, rfl⟩
  · rintro rfl
    simp [fpDiv, hx, hy, Fv.isNan]

/-! ## A result without NX is the exact one (R246) -/

/-- A finite result that has the value of v, in any encoding of either. -/
def SameValue (k : Nat) (r : FRes) (v : Fv) : Prop := ∃ n m e, fpVal k r.1 = .fin n m e ∧ ∃ n' m' e', v = .fin n' m' e' ∧
  atExp n m e (min e e') = atExp n' m' e' (min e e')

theorem atExp_eq_of_real {n' : Bool} {m' : Nat} {e' : ℤ} (h : realOf n m e = realOf n' m' e') :
    atExp n m e (min e e') = atExp n' m' e' (min e e') := by
  rw [← atExp_real n m (min_le_left e e'), ← atExp_real n' m' (min_le_right e e'), mul_left_inj' (two_zpow_pos _).ne', Int.cast_inj] at h
  exact h

/-- A rounded value whose flags are without NX: it has not overflowed, and its significand is the value's own. -/
theorem roundFp_sameValue (h : (roundFp k mode n m e).2.getLsbD 0 = false) : SameValue k (roundFp k mode n m e) (.fin n m e) := by
  by_cases hm : m = 0
  · subst hm
    exact ⟨n, 0, _, fpVal_signBits_zero k n, n, 0, e, rfl, by simp [atExp]⟩
  · rw [roundFp_eq hm] at h ⊢
    split at h
    · exact absurd (overflowFlags.2.1.symm.trans h) (by decide)
    · rename_i hover
      rw [(roundFlags _ _).2.1] at h
      have hexact := shiftRound_exact h
      have hp := (StandsFor.refl k m e).placed hm
      have hr : RoundsTo 1 n (m * 2 ^ e) ((fmt k).umin + placeOf k m e) (significand k mode n m e).1 := by
        rw [← hexact]
        exact roundsTo_whole ..
      have hval := magVal_encoded (hp.zero_or_lead_le hr) (hp.le_two_lead hr)
      rw [if_neg hover]
      refine ⟨n, _, _, fpVal_signBits_fin n (Nat.not_le.mp hover), n, m, e, rfl, atExp_eq_of_real ?_⟩
      rw [realOf, realOf, ← hexact]
      exact congrArg _ hval

theorem roundFv_sameValue {v : Fv} (hv : ∃ n m e, v = .fin n m e) (h : (roundFv k mode v).2.getLsbD 0 = false) :
    SameValue k (roundFv k mode v) v := by
  obtain ⟨n, m, e, rfl⟩ := hv
  exact roundFp_sameValue h

theorem exactAdd_finite (mode : Nat) (n w : Bool) (m m' : Nat) (e e' : ℤ) : ∃ n' l d, exactAdd mode (.fin n m e) (.fin w m' e') = .fin n' l d := by
  rw [exactAdd_fin]
  split <;> exact ⟨_, _, _, rfl⟩

end

/-! ## The clauses of the statement -/

section
variable {k mode a b c : Nat} {n : Bool}

theorem nan_operands (h : (fpVal k a).isNan = true ∨ (fpVal k b).isNan = true) :
    ∀ f ∈ [fpAdd, fpSub, fpMul, fpDiv], f k mode a b = (canon k, sigNv (fpVal k a) ||| sigNv (fpVal k b)) := by
  simp only [List.forall_mem_cons, List.not_mem_nil, false_imp_iff, implies_true, and_true]
  exact ⟨fpResult_nan_two h _, fpResult_nan_two h _, fpResult_nan_two h _, fpDiv_nan h⟩

theorem nan_fma (h : (fpVal k a).isNan = true ∨ (fpVal k b).isNan = true ∨ (fpVal k c).isNan = true) :
    (fpFma k mode a b c).1 = canon k ∧
    ((fpFma k mode a b c).2 = fNV ↔ fpVal k a = .nan true ∨ fpVal k b = .nan true ∨ fpVal k c = .nan true ∨
      exactMul (fpVal k a) (fpVal k b) = .nan false ∧ (fpVal k a).isNan = false ∧ (fpVal k b).isNan = false) ∧
    ((fpFma k mode a b c).2 = fNV ∨ (fpFma k mode a b c).2 = 0) := by
  have hmul : (exactMul (fpVal k a) (fpVal k b)).isNan = true ∧ (fpVal k a).isNan = false ∧ (fpVal k b).isNan = false ↔
      exactMul (fpVal k a) (fpVal k b) = .nan false ∧ (fpVal k a).isNan = false ∧ (fpVal k b).isNan = false :=
    and_congr_left fun h => exactMul_nan h.1 h.2
  rw [fpFma_nan h]
  refine ⟨rfl, (flagIf_eq_iff (by decide)).trans ?_, flagIf_eq ..⟩
  rw [← hmul]
  simp only [Bool.or_eq_true, Bool.and_eq_true, beq_iff_eq, Bool.not_eq_true', or_assoc, and_assoc]

/-- An infinity and a finite number. -/
theorem infinity_and_number (hx : fpVal k a = .inf n) {w : Bool} {m : Nat} {e : ℤ} (hy : fpVal k b = .fin w m e) :
    Answers k (fpAdd k mode a b) (.inf n) ∧ Answers k (fpAdd k mode b a) (.inf n) ∧ Answers k (fpSub k mode a b) (.inf n) ∧
    Answers k (fpSub k mode b a) (.inf (!n)) ∧ Answers k (fpDiv k mode a b) (.inf (n != w)) ∧
    Answers k (fpDiv k mode b a) (.fin (n != w) 0 (fmt k).umin) ∧
    (0 < m → Answers k (fpMul k mode a b) (.inf (n != w)) ∧ (fpVal k c = .inf (n == w) → fpFma k mode a b c = (canon k, fNV)) ∧
      ((fpVal k c).isNan = false → fpVal k c ≠ .inf (n == w) → Answers k (fpFma k mode a b c) (.inf (n != w)))) := by
  obtain ⟨hadd, hadd'⟩ := fpAdd_inf_fin (mode := mode) hx hy
  obtain ⟨hsub, hsub'⟩ := fpSub_inf_fin (mode := mode) hx hy
  obtain ⟨hdiv, hdiv'⟩ := fpDiv_inf_fin (mode := mode) hx hy
  refine ⟨hadd, hadd', hsub, hsub', hdiv, hdiv', fun hm => ⟨fpMul_inf_fin hx hy hm, ?_⟩⟩
  have hp : exactMul (fpVal k a) (fpVal k b) = .inf (n != w) := by rw [hx, hy, exactMul_inf_fin n w hm]
  have h := fpFma_of_inf (mode := mode) (c := c) (by rw [hx]; rfl) (by rw [hy]; rfl) hp
  rwa [show (!(n != w)) = (n == w) from Bool.not_not _] at h

/-- An infinity and a zero. -/
theorem infinity_times_zero (hx : fpVal k a = .inf n) {w : Bool} {e : ℤ} (hy : fpVal k b = .fin w 0 e) :
    fpMul k mode a b = (canon k, fNV) ∧ fpMul k mode b a = (canon k, fNV) ∧ fpFma k mode a b c = (canon k, fNV) ∧
    fpFma k mode b a c = (canon k, fNV) := by
  have hxn : (fpVal k a).isNan = false := by rw [hx]; rfl
  have hyn : (fpVal k b).isNan = false := by rw [hy]; rfl
  obtain ⟨hmul, hmul'⟩ := fpMul_inf_zero (mode := mode) hx hy
  exact ⟨hmul, hmul', fpFma_of_invalid hxn hyn (by rw [hx, hy]; rfl), fpFma_of_invalid hyn hxn (by rw [hx, hy]; rfl)⟩

end

/-- Settles O5: the forms run their operations, and each clause on an operation is the lemma above for its kind of operands. -/
theorem floatingPoint : Obligations.FloatingPoint := by
  refine ⟨fun o s => ⟨fpOp_does (rounds := true) (f := fpAdd) rfl, fpOp_does (rounds := true) (f := fpSub) rfl,
    fpOp_does (rounds := true) (f := fpMul) rfl, fpOp_does (rounds := true) (f := fpDiv) rfl,
    fpUnary_does (rounds := true) (sets := true) (f := fpSqrt) rfl, fmac_does o s,
    fpOp_does (rounds := false) (f := fun t _ => fpMinMax t false) rfl, fpOp_does (rounds := false) (f := fun t _ => fpMinMax t true) rfl,
    fpOp_does (rounds := false) (f := fun t _ => fpSgn t) rfl, fpUnary_does (rounds := false) (sets := true) (f := fun t _ => fpNeg t) rfl,
    fpUnary_does (rounds := false) (sets := true) (f := fun t _ => fpAbs t) rfl,
    fpUnary_does (rounds := false) (sets := false) (f := fun t _ a => (fpClass t a, 0)) rfl⟩, fun k mode a b c _ => ?_⟩
  refine ⟨fpVal_canon k, fun h f hf => ?_, fun q hx => ?_, fun h => ?_, fun n hx => ?_, fun n m e hx => ?_, fun n m e n' m' e' hx hy => ?_,
    fun big => ?_, signs_of_number, fpClass_iff k a⟩
  · rw [nan_operands h f hf, sigNv_or]
  · have hneg (neg : Bool) := fpSigned_nan hx neg
    exact ⟨by simp only [fpSqrt, hx]; rfl, hneg _, hneg _, hneg _⟩
  · exact nan_fma h
  · refine ⟨fun hy => ?_, fun hy => ?_, fun ⟨w, e, hy⟩ => infinity_times_zero hx hy,
      fun w hy => ⟨fpDiv_inf_inf hx hy, fpMul_inf_inf hx hy⟩, fun w m e hy => infinity_and_number hx hy, fpSqrt_inf hx⟩
    · have hadd := fpAdd_inf_inf (mode := mode) hx hy
      have hsub := fpSub_inf_inf (mode := mode) hx hy
      rw [if_pos rfl] at hadd hsub
      exact ⟨hadd, hsub⟩
    · have hadd := fpAdd_inf_inf (mode := mode) hx hy
      have hsub := fpSub_inf_inf (mode := mode) hx hy
      rw [if_neg fun h => by cases n <;> cases h] at hadd hsub
      exact ⟨hadd, hsub⟩
  · refine ⟨?_, ?_, fun w e' hy => fpDiv_zero hx hy⟩
    · rintro rfl
      exact fpSqrt_zero hx
    · rintro hm rfl
      exact fpSqrt_negative hx hm
  · refine ⟨fun h => ?_, fun h => ?_, fun h => ?_⟩
    · rw [fpAdd_fin hx hy] at h ⊢
      rw [hx, hy]
      exact roundFv_sameValue (exactAdd_finite ..) h
    · rw [fpSub_fin hx hy] at h ⊢
      rw [hx, hy]
      exact roundFv_sameValue (exactAdd_finite ..) h
    · rw [fpMul_fin hx hy] at h ⊢
      rw [hx, hy]
      exact roundFp_sameValue h
  · obtain ⟨hflags, h⟩ := fpMinMax_spec k big a b
    exact ⟨hflags.trans (sigNv_or _ _), h⟩

end Sys2Proof.Machine

/-! # Compares and conversions -/

namespace Sys2Proof.Machine

/-! ## The compares (R270) -/

/-- A compare puts its answer in c[D] and its flags in ARITH. -/
theorem fpCmpOp_does {i : Instr} {o : OpF} {s : State} {op : Nat} (hexec : exec i s = finish s (fpCmpOp s o op)) :
    Does i s (Traits.ofF o (fc o.d) (fx o.a) (fx o.b)) fun j h u =>
      let r := fpCompare o.t.toNat op (h.x j.a).toNat (j.bval h).toNat
      (if j.nf then u else u.orFlags r.2).setC j.d r.1 :=
  ends_of _ _ _ _ _ hexec fun j u h a b hg hu => by
    simp only [doneT, hg, hu, Thread.flagged_x, Thread.flagged_bval]

theorem fpOrder_swap (x y : Fv) : fpOrder y x = (fpOrder x y).map Ordering.swap := by
  cases x with
  | nan => cases y <;> rfl
  | inf n =>
    cases y with
    | nan => rfl
    | inf w => cases n <;> cases w <;> rfl
    | fin => cases n <;> rfl
  | fin n m e =>
    cases y with
    | nan => rfl
    | inf w => cases w <;> rfl
    | fin w m' e' =>
      rw [fpOrder, fpOrder, Option.map_some, Int.min_comm e' e, Option.some_inj]
      exact Std.OrientedCmp.eq_swap

theorem fpOrder_eq_some_swap {x y : Fv} {o : Ordering} : fpOrder y x = some o ↔ fpOrder x y = some o.swap := by
  rw [fpOrder_swap x y]
  cases fpOrder x y with
  | none => simp
  | some p => cases p <;> cases o <;> simp

theorem fpOrder_isNone (x y : Fv) : (fpOrder x y).isNone = (x.isNan || y.isNan) := by
  cases x <;> cases y <;> rfl

/-- R270: the compares, by the order of the operands. -/
theorem fpCompare_spec (k a b : Nat) :
    let x := fpVal k a
    let y := fpVal k b
    let nan := x.isNan || y.isNan
    ((fpCompare k 0 a b).1 = true ↔ fpOrder x y = some .eq) ∧
    ((fpCompare k 1 a b).1 = true ↔ fpOrder y x = some .gt) ∧
    ((fpCompare k 2 a b).1 = true ↔ nan = false ∧ (fpCompare k 1 b a).1 = false) ∧
    ((fpCompare k 3 a b).1 = true ↔ nan = true) ∧
    (fpCompare k 1 a b).2 = flagIf nan fNV ∧ (fpCompare k 2 a b).2 = flagIf nan fNV ∧ (fpCompare k 0 a b).2 = sigNv x ||| sigNv y := by
  have hnone := fpOrder_isNone (fpVal k a) (fpVal k b)
  have hswap := fpOrder_swap (fpVal k a) (fpVal k b)
  refine ⟨beq_iff_eq, beq_iff_eq.trans (fpOrder_eq_some_swap (o := .gt)).symm, ?_, ?_, rfl, rfl, rfl⟩
  · simp only [fpCompare, hswap, ← hnone]
    cases fpOrder (fpVal k a) (fpVal k b) with
    | none => decide
    | some o => cases o <;> decide
  · simp only [fpCompare, hnone]

/-! ## fcvt (R271) -/

theorem fcvt_does (o : OpC) (s : State) :
    Does (.fcvt o) s {
        m := o.m, guard := o.g, d := fx o.d, a := fx o.a, b := fk o.b, imm := none, immB := false
        rounds := convertRounds o.c.toNat o.b.toNat, sets := true, sat := false, pol := .ignored, rep := true, narrow := false
        more := ([], []) } fun i h =>
      let r := convert o.c.toNat o.b.toNat i.rm false (h.x i.a).toNat
      putX i (.ofNat 64 (extendInt o.c.toNat r.1)) r.2 :=
  ends_of _ _ _ _ _ rfl fun j u h a b hg hu => by
    simp only [setDF_done u _ hg, hg, hu, Thread.flagged_x]

/-! ## Residue formats (R251, R252) -/

theorem resDec8_packed {h m l : Nat} (hh : h < 7) (hm : m < 8) (hl : l < 3) :
    resDec8 (h * 32 + m * 4 + l) =
      ((if (120 * h + 105 * m + 112 * l) % 168 ≤ 83 then ((120 * h + 105 * m + 112 * l) % 168 : Nat)
        else ((120 * h + 105 * m + 112 * l) % 168 : Nat) - 168 : Int), 0) := by
  simp only [resDec8, show (h * 32 + m * 4 + l) / 32 % 8 = h by omega, show (h * 32 + m * 4 + l) / 4 % 8 = m by omega,
    show (h * 32 + m * 4 + l) % 4 = l by omega]
  exact if_neg (by omega)

theorem resDec12_packed {h m l : Nat} (hh : h < 15) (hm : m < 16) (hl : l < 13) :
    resDec12 (h * 256 + m * 16 + l) =
      ((if (1456 * h + 2145 * m + 2640 * l) % 3120 ≤ 1559 then ((1456 * h + 2145 * m + 2640 * l) % 3120 : Nat)
        else ((1456 * h + 2145 * m + 2640 * l) % 3120 : Nat) - 3120 : Int), 0) := by
  simp only [resDec12, show (h * 256 + m * 16 + l) / 256 % 16 = h by omega, show (h * 256 + m * 16 + l) / 16 % 16 = m by omega,
    show (h * 256 + m * 16 + l) % 16 = l by omega, show (h * 256 + m * 16 + l) / 4096 % 16 = 0 by omega]
  exact if_neg (by omega)

/-- A residue of a number is a digit. -/
theorem exists_digit (v : Int) (n : Nat) (hn : 0 < n) : ∃ d : Nat, (v % n).toNat = d ∧ v % n = d ∧ d < n := by
  have h0 := Int.emod_nonneg v (Int.natCast_ne_zero.mpr hn.ne')
  have hlt := Int.emod_lt_of_pos v (Int.natCast_pos.mpr hn)
  exact ⟨(v % n).toNat, rfl, by omega, by omega⟩

/-- Residues modulo 7, 8 and 3 name a number modulo 168. -/
theorem resDec8_resEnc8 (v : Int) (hlo : -84 ≤ v) (hhi : v ≤ 83) : resDec8 (resEnc8 v) = (v, 0) := by
  obtain ⟨h, eh, vh, hh⟩ := exists_digit v 7 (by decide)
  obtain ⟨m, em, vm, hm⟩ := exists_digit v 8 (by decide)
  obtain ⟨l, el, vl, hl⟩ := exists_digit v 3 (by decide)
  rw [Nat.cast_ofNat] at eh em el vh vm vl
  have hcrt : (120 * h + 105 * m + 112 * l : Int) = v + 168 * (2 * v - 5 * (v / 7) - 5 * (v / 8) - 2 * (v / 3)) := by omega
  have hx : (((120 * h + 105 * m + 112 * l) % 168 : Nat) : Int) = v % 168 := by
    push_cast
    rw [hcrt, Int.add_mul_emod_self_left]
  rw [resEnc8, eh, em, el, resDec8_packed hh hm hl, Prod.mk.injEq]
  refine ⟨?_, rfl⟩
  generalize (120 * h + 105 * m + 112 * l) % 168 = x at hx ⊢
  split <;> omega

/-- Residues modulo 15, 16 and 13 name a number modulo 3,120. -/
theorem resDec12_resEnc12 (v : Int) (hlo : -1560 ≤ v) (hhi : v ≤ 1559) : resDec12 (resEnc12 v) = (v, 0) := by
  obtain ⟨h, eh, vh, hh⟩ := exists_digit v 15 (by decide)
  obtain ⟨m, em, vm, hm⟩ := exists_digit v 16 (by decide)
  obtain ⟨l, el, vl, hl⟩ := exists_digit v 13 (by decide)
  rw [Nat.cast_ofNat] at eh em el vh vm vl
  have hcrt : (1456 * h + 2145 * m + 2640 * l : Int) = v + 3120 * (2 * v - 7 * (v / 15) - 11 * (v / 16) - 11 * (v / 13)) := by omega
  have hx : (((1456 * h + 2145 * m + 2640 * l) % 3120 : Nat) : Int) = v % 3120 := by
    push_cast
    rw [hcrt, Int.add_mul_emod_self_left]
  rw [resEnc12, eh, em, el, resDec12_packed hh hm hl, Prod.mk.injEq]
  refine ⟨?_, rfl⟩
  generalize (1456 * h + 2145 * m + 2640 * l) % 3120 = x at hx ⊢
  split <;> omega

/-- A byte that names no digit is read as 0 with IDIG, and any other without a flag. -/
theorem resDec8_digits (b : Nat) :
    (resDec8 b = (0, fIDIG) ↔ 6 < b / 32 % 8 ∨ 2 < b % 4) ∧ ((resDec8 b).2 = 0 ∨ resDec8 b = (0, fIDIG)) := by
  unfold resDec8
  simp only
  split
  · rename_i h
    exact ⟨iff_of_true rfl h, .inr rfl⟩
  · rename_i h
    exact ⟨iff_of_false (fun e => (by decide : (0 : Flags) ≠ fIDIG) (congrArg Prod.snd e)) h, .inl rfl⟩

theorem resDec12_digits (b : Nat) :
    (resDec12 b = (0, fIDIG) ↔ b / 4096 % 16 ≠ 0 ∨ 14 < b / 256 % 16 ∨ 12 < b % 16) ∧ ((resDec12 b).2 = 0 ∨ resDec12 b = (0, fIDIG)) := by
  unfold resDec12
  simp only
  split
  · rename_i h
    exact ⟨iff_of_true rfl h, .inr rfl⟩
  · rename_i h
    exact ⟨iff_of_false (fun e => (by decide : (0 : Flags) ≠ fIDIG) (congrArg Prod.snd e)) h, .inl rfl⟩

/-! ## The source of a conversion -/

/-- Whether a source type is one of real numbers: floating point, or a scale. -/
def fromReal (src : Nat) : Bool := decide (src < 4) || src == 14

/-- The value of a residue source, with the flag of an invalid digit. -/
def fromDigits (src b : Nat) : Int × Flags := if src = 12 then resDec8 b else resDec12 b

/-- The value of an integer or a residue source. -/
def fromWhole (src b : Nat) : Int := if src < 12 then intVal (intType src).1 (intType src).2 b else (fromDigits src b).1

def fromFlags (src b : Nat) : Flags := if src = 12 ∨ src = 13 then (fromDigits src b).2 else 0

/-- The exact value of a source (R251, R255). -/
def fromVal (src b : Nat) : Fv :=
  if src < 4 then fpVal src b else if src = 14 then e8Val (b % 256) else .fin (decide (fromWhole src b < 0)) (fromWhole src b).natAbs 0

/-- What a destination type makes of a source, before the source's own flags. -/
def toType (dst src rm : Nat) (sat : Bool) (b : Nat) : FRes :=
  if dst < 4 then roundFv dst (if rm = 0 then 1 else rm) (fromVal src b)
  else if dst < 12 then
    if fromReal src then toInt (intType dst).1 (intType dst).2 (if rm = 0 then 2 else rm) (fromVal src b)
    else fitInt (intType dst).1 (intType dst).2 sat (fromWhole src b)
  else if dst < 14 then toRes dst (if rm = 0 then 1 else rm) (fromVal src b)
  else toE8 (fromVal src b)

theorem signed_natAbs (v : Int) : (if decide (v < 0) = true then -(v.natAbs : Int) else v.natAbs) = v := by
  simp only [decide_eq_true_eq]
  split <;> omega

theorem fromVal_whole {src b : Nat} (h : fromReal src = false) : fromVal src b = ofInt (fromWhole src b) := by
  simp only [fromReal, Bool.or_eq_false_iff, decide_eq_false_iff_not, beq_eq_false_iff_ne] at h
  rw [fromVal, if_neg h.1, if_neg h.2]
  rfl

/-- A source as the model takes it: its value, whether it is a whole number, and its flags. -/
def modelSource (src b : Nat) : Fv × Bool × Flags :=
  if src < 4 then (fpVal src b, false, 0)
  else if src < 12 then (ofInt (intVal (intType src).1 (intType src).2 b), true, 0)
  else if src = 12 then (ofInt (resDec8 b).1, true, (resDec8 b).2)
  else if src = 13 then (ofInt (resDec12 b).1, true, (resDec12 b).2)
  else (e8Val (b % 256), false, 0)

theorem modelSource_eq {src : Nat} (b : Nat) (hsrc : src ≤ 14) : modelSource src b = (fromVal src b, !fromReal src, fromFlags src b) := by
  interval_cases src <;> rfl

/-- A conversion, by its source's value (R257). -/
theorem convert_eq {dst src : Nat} (rm : Nat) (sat : Bool) (b : Nat) (hsrc : src ≤ 14) :
    convert dst src rm sat b = ((toType dst src rm sat b).1, (toType dst src rm sat b).2 ||| fromFlags src b) := by
  have hmodel := modelSource_eq b hsrc
  unfold modelSource at hmodel
  simp only [convert, hmodel, toType]
  cases hreal : fromReal src
  · simp only [fromVal_whole hreal, ofInt, signed_natAbs, Bool.not_false, if_true, Bool.false_eq_true, if_false]
  · simp only [Bool.not_true, Bool.false_eq_true, if_false, if_true]

/-- A source that has a flag is zero. -/
theorem fromFlags_of_ne_zero {src b : Nat} {n : Bool} {m : Nat} {e : Int} (h : fromVal src b = .fin n m e) (hm : m ≠ 0) :
    fromFlags src b = 0 := by
  unfold fromFlags
  split
  · rename_i hs
    have hwhole : fromWhole src b = (fromDigits src b).1 := if_neg (by omega)
    have hreal : fromReal src = false := by
      obtain rfl | rfl := hs <;> rfl
    rw [fromVal_whole hreal, hwhole] at h
    have hdigits : (fromDigits src b).2 = 0 ∨ fromDigits src b = (0, fIDIG) := by
      unfold fromDigits
      split
      · exact (resDec8_digits b).2
      · exact (resDec12_digits b).2
    refine hdigits.resolve_right fun h0 => ?_
    rw [h0] at h
    cases h
    exact hm rfl
  · rfl

/-! ## A value rounded to an integer (R246) -/

/-- What a mode makes of a quotient and the remainder of its division. -/
def roundQuot (mode : Nat) (n : Bool) (low rest den : Int) : Int :=
  match mode with
  | 2 => if n ∧ rest ≠ 0 then low + 1 else low
  | 3 => if rest ≠ 0 then low + 1 else low
  | 4 => low
  | _ => if 2 * rest < den ∨ (2 * rest = den ∧ low % 2 = 0) then low else low + 1

/-- m × 2^e rounded to an integer by a division of the number with its sign, and whether it is inexact. -/
def wholeOf (mode : Nat) (n : Bool) (m : Nat) (e : Int) : Int × Bool :=
  let num : Int := (if n then -1 else 1) * (m * 2 ^ e.toNat : Nat)
  let den : Int := 2 ^ (-e).toNat
  (roundQuot mode n (num / den) (num % den) den, decide (num % den ≠ 0))

theorem roundQuot_whole {mode : Nat} (hmode : 1 ≤ mode ∧ mode ≤ 4) (n : Bool) (v : Int) : roundQuot mode n v 0 1 = v := by
  obtain ⟨h1, h4⟩ := hmode
  interval_cases mode <;> simp [roundQuot]

section
variable {mode q r c : Nat} (hmode : 1 ≤ mode ∧ mode ≤ 4)
include hmode

theorem roundQuot_pos : roundQuot mode false q r (2 * c : Nat) = (q + if roundsUp mode false q r (2 * c) then 1 else 0 : Nat) := by
  obtain ⟨h1, h4⟩ := hmode
  interval_cases mode
  · simp only [roundQuot, roundsUp_nearest]
    split_ifs <;> omega
  · simp [roundQuot, roundsUp]
  · simp only [roundQuot, roundsUp, Bool.not_false, Bool.and_true, bne_iff_ne]
    split_ifs <;> omega
  · simp [roundQuot, roundsUp]

/-- The floor of a negative number and its distance to it, from the quotient of its magnitude. -/
theorem roundQuot_neg (hr : r < 2 * c) :
    roundQuot mode true (if r = 0 then -(q : Int) else -(q : Int) - 1) (if r = 0 then 0 else ((2 * c : Nat) : Int) - r) (2 * c : Nat) =
      -((q + if roundsUp mode true q r (2 * c) then 1 else 0 : Nat) : Int) := by
  obtain ⟨h1, h4⟩ := hmode
  interval_cases mode
  · simp only [roundQuot, roundsUp_nearest]
    split_ifs <;> omega
  · simp only [roundQuot, roundsUp, true_and, Bool.false_eq_true, if_false]
    split_ifs <;> omega
  · simp only [roundQuot, roundsUp, Bool.not_true, Bool.and_false, Bool.false_eq_true, if_false]
    split_ifs <;> omega
  · simp only [roundQuot, roundsUp, Bool.and_true, bne_iff_ne]
    split_ifs <;> omega

end

/-- The quotient and the remainder of a number with its sign. -/
theorem neg_div_mod (m c : Nat) (hc : 0 < c) :
    (-(m : Int) / c = if m % c = 0 then -((m / c : Nat) : Int) else -((m / c : Nat) : Int) - 1) ∧
    (-(m : Int) % c = if m % c = 0 then 0 else (c : Int) - (m % c : Nat)) := by
  have hm := Nat.div_add_mod m c
  have hlt := Nat.mod_lt m hc
  rw [Int.ediv_emod_unique (by omega)]
  generalize m / c = q at *
  generalize m % c = r at *
  subst hm
  push_cast
  split
  · rename_i h0
    rw [h0]
    exact ⟨by push_cast; ring, by omega, by omega⟩
  · exact ⟨by ring, by omega, by omega⟩

theorem natCast_div_mod (m c : Nat) : ((m : Int) / c = (m / c : Nat)) ∧ ((m : Int) % c = (m % c : Nat)) := ⟨rfl, rfl⟩

/-- R246: rounding a magnitude and giving it its sign is rounding the number. -/
theorem roundInt_eq {mode : Nat} (hmode : 1 ≤ mode ∧ mode ≤ 4) (n : Bool) (m : Nat) (e : Int) : roundInt mode n m e = wholeOf mode n m e := by
  by_cases he : 0 ≤ e
  · have hden : (-e).toNat = 0 := by omega
    simp only [roundInt, shiftRound_whole he, wholeOf, hden, pow_zero, Int.ediv_one, Int.emod_one, sub_zero, roundQuot_whole hmode]
    cases n <;> simp
  · obtain ⟨c, hc⟩ : ∃ c, 2 ^ (-e).toNat = 2 * c := ⟨2 ^ ((-e).toNat - 1), by rw [← pow_succ']; congr 1; omega⟩
    have hpos := Nat.two_pow_pos (-e).toNat
    have hnum : m * 2 ^ e.toNat = m := by rw [show e.toNat = 0 by omega, pow_zero, Nat.mul_one]
    have hden : (2 : Int) ^ (-e).toNat = (2 * c : Nat) := by exact_mod_cast hc
    have hlt := Nat.mod_lt m (hc ▸ hpos)
    simp only [roundInt, shiftRound_divided he, wholeOf, hnum, hden, zero_sub, hc]
    cases n
    · simp only [Bool.false_eq_true, if_false, one_mul, ← Int.natCast_ediv, ← Int.natCast_emod, roundQuot_pos hmode, Prod.mk.injEq, true_and]
      rw [Bool.eq_iff_iff, bne_iff_ne, decide_eq_true_iff, Ne, Ne, Int.natCast_eq_zero]
    · obtain ⟨hq, hr⟩ := neg_div_mod m (2 * c) (hc ▸ hpos)
      simp only [if_true, neg_one_mul, hq, hr, roundQuot_neg hmode hlt, Prod.mk.injEq, true_and]
      rw [Bool.eq_iff_iff, bne_iff_ne, decide_eq_true_iff]
      generalize m % (2 * c) = r at *
      split <;> omega

end Sys2Proof.Machine

namespace Sys2Proof.Machine

/-! ## What a source can be -/

section
variable {dst src rm b k m : Nat} {sat n : Bool} {e : Int}

theorem or_zero_flags (f : Flags) : f ||| (0 : Flags) = f := BitVec.or_zero

theorem fromFlags_real (h : fromReal src = true) : fromFlags src b = 0 := by
  refine if_neg ?_
  rintro (rfl | rfl) <;> exact absurd h (by decide)

/-- Only a source of real numbers is a NaN or an infinity. -/
theorem fromReal_of_not_fin (h : ∀ n m e, fromVal src b ≠ .fin n m e) : fromReal src = true := by
  by_contra hr
  exact h _ _ _ (fromVal_whole (Bool.not_eq_true _ ▸ hr))

theorem fromReal_of_nan {q : Bool} (h : fromVal src b = .nan q) : fromReal src = true :=
  fromReal_of_not_fin fun _ _ _ hf => by cases h.symm.trans hf

theorem fromReal_of_inf (h : fromVal src b = .inf n) : fromReal src = true :=
  fromReal_of_not_fin fun _ _ _ hf => by cases h.symm.trans hf

theorem fromReal_of_isNan (h : (fromVal src b).isNan = true) : fromReal src = true :=
  fromReal_of_not_fin fun _ _ _ hf => by
    rw [hf] at h
    cases h

/-- A real source adds no flag. -/
theorem convert_real (hsrc : src ≤ 14) (h : fromReal src = true) : convert dst src rm sat b = toType dst src rm sat b := by
  rw [convert_eq rm sat b hsrc, fromFlags_real h, or_zero_flags]

theorem near_range (hrm : rm ≤ 4) : 1 ≤ (if rm = 0 then 1 else rm) ∧ (if rm = 0 then 1 else rm) ≤ 4 := by
  split <;> omega

theorem chop_range (hrm : rm ≤ 4) : 1 ≤ (if rm = 0 then 2 else rm) ∧ (if rm = 0 then 2 else rm) ≤ 4 := by
  split <;> omega

/-! ## To a floating-point format (R257) -/

theorem toType_float (hdst : dst < 4) : toType dst src rm sat b = roundFv dst (if rm = 0 then 1 else rm) (fromVal src b) := if_pos hdst

/-- A finite value's significand and exponent are within the format's bounds. -/
theorem fpVal_fin_bounds (h : fpVal k b = .fin n m e) : m < 2 * lead k ∧ (fmt k).umin ≤ e ∧ e + (fmt k).p ≤ (fmt k).emax + 1 := by
  have hpos := lead_pos k
  have htop := topField_eq k
  obtain ⟨-, -, -, hemax⟩ := fmt_shape k
  have humin : (fmt k).umin + (fmt k).p = 2 - (fmt k).emax := by
    unfold Fmt.umin
    ring
  have hlo := (fpVal_fin_exponent h).1
  rw [fpVal_eq] at h
  split at h
  · rename_i ha
    cases h
    generalize b % 2 ^ ((fmt k).w - 1) = a at *
    by_cases hs : a < lead k
    · rw [magnitude_subnormal hs] at *
      exact ⟨by omega, hlo, by omega⟩
    · have hmod := Nat.mod_lt a hpos
      have hdiv : a / lead k < topField k := (Nat.div_lt_iff_lt_mul hpos).mpr ha
      rw [magnitude_normal (Nat.not_lt.mp hs)] at *
      exact ⟨by omega, hlo, by omega⟩
  · split at h <;> cases h

/-- The place of the infinity is the power of two above the greatest number. -/
theorem magVal_inf_eq (k : Nat) : magVal k (fmt k).inf = 2 ^ ((fmt k).emax + 1 : Int) := by
  obtain ⟨i, htop, -, hi, -⟩ := inf_encoded k
  have := topField_eq k
  rw [magVal_inf hi, lead_mul_zpow]
  congr 1
  unfold Fmt.umin
  omega

/-- A value of a format rounds without a flag to a format that has at least its bits and its exponents. -/
theorem roundFp_widens {mode : Nat} (h : fpVal src b = .fin n m e) (hp : (fmt src).p ≤ (fmt dst).p)
    (hu : (fmt dst).umin ≤ (fmt src).umin) (he : (fmt src).emax ≤ (fmt dst).emax) : (roundFp dst mode n m e).2 = 0 := by
  by_cases hm : m = 0
  · subst hm
    rfl
  · obtain ⟨hbits, hlo, hhi⟩ := fpVal_fin_bounds h
    have hlog : Nat.log2 m < (fmt src).p := by
      rw [Nat.log2_lt hm, two_pow_p]
      exact hbits
    have hplace : (fmt dst).umin + placeOf dst m e ≤ e := by
      rw [umin_add_placeOf]
      unfold lastPlace
      omega
    have hexact : significand dst mode n m e = (_, false) := shiftRound_whole hplace
    have hover : ¬(fmt dst).inf ≤ encoded dst (placeOf dst m e) (significand dst mode n m e).1 := by
      have hp := (StandsFor.refl dst m e).placed hm
      have hr : RoundsTo 2 n (m * 2 ^ e) ((fmt dst).umin + placeOf dst m e) (significand dst mode n m e).1 := by
        rw [hexact, ← mul_zpow_shift m hplace]
        exact roundsTo_whole ..
      have htoward : ¬away 2 n = true := by simp [away]
      rw [hp.inf_le_iff hr (by decide) htoward, magVal_inf_eq, not_le]
      exact lt_of_lt_of_le (lt_two_zpow_log2 m e) (two_zpow_mono (by omega))
    rw [roundFp_eq hm, if_neg hover, hexact]
    exact zero_or_flags 0

theorem flagIf_eq_ite (q : Bool) (f : Flags) : flagIf q f = if q = true then f else 0 := rfl

theorem convert_float (hdst : dst < 4) (hsrc : src ≤ 14) (hrm : rm ≤ 4) :
    let r := convert dst src rm sat b
    let x := fromVal src b
    (∀ q, x = .nan q → r = (canon dst, if q then fNV else 0)) ∧ (∀ n, x = .inf n → r = (signBits dst n (fmt dst).inf, 0)) ∧
    (∀ n m e, x = .fin n m e → if m = 0 then r = (signBits dst n 0, fromFlags src b)
      else Rounded dst (if rm = 0 then 1 else rm) n (fun a d => compare (atExp false a d (min d e)) (atExp false m e (min d e))) r) ∧
    ((dst = 0 ∧ 1 ≤ src ∧ src < 4) ∨ (dst = 1 ∧ 2 ≤ src ∧ src < 4) → x.isNan = false → r.2 = 0) := by
  refine ⟨fun q hx => ?_, fun n hx => ?_, fun n m e hx => ?_, fun hwide hnan => ?_⟩
  · rw [convert_real hsrc (fromReal_of_nan hx), toType_float hdst, hx]
    rfl
  · rw [convert_real hsrc (fromReal_of_inf hx), toType_float hdst, hx]
    rfl
  · rw [convert_eq rm sat b hsrc, toType_float hdst, hx]
    split
    · rename_i h0
      rw [h0]
      exact congrArg (Prod.mk _) (zero_or_flags _)
    · rename_i h0
      rw [fromFlags_of_ne_zero hx h0, or_zero_flags]
      exact roundFp_rounded_exact h0 (near_range hrm)
  · have hfloat : src < 4 := by omega
    have hval : fromVal src b = fpVal src b := if_pos hfloat
    rw [convert_real hsrc (by simp [fromReal, hfloat]), toType_float hdst, hval]
    rw [hval] at hnan
    cases hx : fpVal src b with
    | nan => rw [hx] at hnan; cases hnan
    | inf => rfl
    | fin n m e =>
      have hformats : (fmt src).p ≤ (fmt dst).p ∧ (fmt dst).umin ≤ (fmt src).umin ∧ (fmt src).emax ≤ (fmt dst).emax := by
        obtain ⟨rfl, h1, h4⟩ | ⟨rfl, h1, h4⟩ := hwide <;> interval_cases src <;> decide
      exact roundFp_widens hx hformats.1 hformats.2.1 hformats.2.2

/-! ## To an integer type, or to a residue format (R257, R262) -/

/-- The least and the greatest value of an integer or residue type, and the encoding of a value. -/
def toLo (dst : Nat) : Int := if dst = 12 then -84 else if dst = 13 then -1560 else intMin (intType dst).1 (intType dst).2
def toHi (dst : Nat) : Int := if dst = 12 then 83 else if dst = 13 then 1559 else intMax (intType dst).1 (intType dst).2
def toEnc (dst : Nat) (v : Int) : Nat := if dst = 12 then resEnc8 v else if dst = 13 then resEnc12 v else (v % 2 ^ (intType dst).1).toNat

/-- The nearest value of a type, with a flag where it differs. -/
def clampTo (dst : Nat) (v : Int) (f : Flags) : FRes :=
  if v < toLo dst then (toEnc dst (toLo dst), f) else if toHi dst < v then (toEnc dst (toHi dst), f) else (toEnc dst v, 0)

section
variable (h4 : 4 ≤ dst) (h12 : dst < 12)
include h12

theorem toLo_int : toLo dst = intMin (intType dst).1 (intType dst).2 := by rw [toLo, if_neg (by omega), if_neg (by omega)]
theorem toHi_int : toHi dst = intMax (intType dst).1 (intType dst).2 := by rw [toHi, if_neg (by omega), if_neg (by omega)]
theorem toEnc_int (v : Int) : toEnc dst v = intBits (intType dst).1 v := by
  rw [toEnc, if_neg (by omega), if_neg (by omega)]
  rfl

theorem satInt_eq (v : Int) : satInt (intType dst).1 (intType dst).2 v = clampTo dst v fSAT := by
  rw [satInt, clampTo, toLo_int h12, toHi_int h12, toEnc_int h12, toEnc_int h12, toEnc_int h12]

include h4

theorem convert_int (hsrc : src ≤ 14) (hrm : rm ≤ 4) :
    let r := convert dst src rm sat b
    let x := fromVal src b
    let whole := fromWhole src b
    (fromReal src = false → if sat then r = ((clampTo dst whole fSAT).1, (clampTo dst whole fSAT).2 ||| fromFlags src b)
      else r = (toEnc dst whole, fromFlags src b)) ∧
    (fromReal src = true →
      (x.isNan = true → r = (0, fNV)) ∧ (∀ n, x = .inf n → r = (toEnc dst (if n then toLo dst else toHi dst), fNV)) ∧
      ∀ n m e, x = .fin n m e →
        let v := wholeOf (if rm = 0 then 2 else rm) n m e
        r = ((clampTo dst v.1 0).1, if (clampTo dst v.1 fSAT).2 = fSAT then fNV else if v.2 then fNX else 0)) := by
  have htype : toType dst src rm sat b = if fromReal src then toInt (intType dst).1 (intType dst).2 (if rm = 0 then 2 else rm) (fromVal src b)
      else fitInt (intType dst).1 (intType dst).2 sat (fromWhole src b) := by
    rw [toType, if_neg (by omega), if_pos h12]
  refine ⟨fun hwhole => ?_, fun hreal => ?_⟩
  · simp only [convert_eq rm sat b hsrc, htype, hwhole, Bool.false_eq_true, if_false, fitInt]
    cases sat
    · simp only [Bool.false_eq_true, if_false, toEnc_int h12, zero_or_flags]
    · simp only [if_true, satInt_eq h12]
  · simp only [convert_real hsrc hreal, htype, hreal, if_true]
    refine ⟨fun hx => ?_, fun n hx => ?_, fun n m e hx => ?_⟩
    · cases hv : fromVal src b with
      | nan => rfl
      | _ => rw [hv] at hx; cases hx
    · rw [hx, toInt, toEnc_int h12, toLo_int h12, toHi_int h12]
    · rw [hx]
      simp only [toInt, roundInt_eq (chop_range hrm), clampTo, toLo_int h12, toHi_int h12, toEnc_int h12]
      generalize wholeOf (if rm = 0 then 2 else rm) n m e = v
      split
      · rfl
      · split
        · rfl
        · rfl

end

theorem convert_residue (hdst : dst = 12 ∨ dst = 13) (hsrc : src ≤ 14) (hrm : rm ≤ 4) :
    let r := convert dst src rm sat b
    let x := fromVal src b
    (x.isNan = true → r = (toEnc dst 0, fNV)) ∧ (∀ n, x = .inf n → r = (toEnc dst (if n then toLo dst else toHi dst), fSAT ||| fNV)) ∧
    ∀ n m e, x = .fin n m e →
      let v := wholeOf (if rm = 0 then 1 else rm) n m e
      r = ((clampTo dst v.1 0).1, (clampTo dst v.1 fSAT).2 ||| (if v.2 then fNX else 0) ||| fromFlags src b) := by
  have htype : toType dst src rm sat b = toRes dst (if rm = 0 then 1 else rm) (fromVal src b) := by
    rw [toType, if_neg (by omega), if_neg (by omega), if_pos (by omega)]
  have hlo : resMin dst = toLo dst := by obtain rfl | rfl := hdst <;> rfl
  have hhi : resMax dst = toHi dst := by obtain rfl | rfl := hdst <;> rfl
  have henc : resEnc dst = toEnc dst := by obtain rfl | rfl := hdst <;> rfl
  refine ⟨fun hx => ?_, fun n hx => ?_, fun n m e hx => ?_⟩
  · rw [convert_real hsrc (fromReal_of_isNan hx), htype]
    cases hv : fromVal src b with
    | nan => rw [toRes, henc]
    | _ => rw [hv] at hx; cases hx
  · rw [convert_real hsrc (fromReal_of_inf hx), htype, hx, toRes, henc, hlo, hhi]
  · rw [convert_eq rm sat b hsrc, htype, hx]
    simp only [toRes, clampRes, roundInt_eq (near_range hrm), clampTo, hlo, hhi, henc]
    generalize wholeOf (if rm = 0 then 1 else rm) n m e = v
    split
    · rfl
    · split <;> rfl

/-! ## To a scale (R255, R257) -/

theorem log2_of_bounds {k : Int} (hlo : 2 ^ (k - e).toNat ≤ m * 2 ^ (e - k).toNat) (hhi : m * 2 ^ (e - k).toNat < 2 * 2 ^ (k - e).toNat) :
    e ≤ k ∧ Nat.log2 m = (k - e).toNat := by
  by_cases hk : e ≤ k
  · rw [show (e - k).toNat = 0 by omega, pow_zero, Nat.mul_one] at hlo hhi
    have hm : m ≠ 0 := (Nat.lt_of_lt_of_le (Nat.two_pow_pos _) hlo).ne'
    exact ⟨hk, (Nat.log2_eq_iff hm).mpr ⟨hlo, by rwa [pow_succ']⟩⟩
  · obtain ⟨j, hj⟩ : ∃ j, (e - k).toNat = j + 1 := ⟨(e - k).toNat - 1, by omega⟩
    rw [show (k - e).toNat = 0 by omega, hj, pow_succ', pow_zero] at hlo hhi
    have : m * (2 * 2 ^ j) = 2 * (m * 2 ^ j) := by ring
    omega

theorem convert_scale (hsrc : src ≤ 14) :
    let r := convert 14 src rm sat b
    let x := fromVal src b
    (∀ q, x = .nan q → r = (255, if q then fNV else 0)) ∧ (∀ n, x = .inf n → r = (254, fOF ||| fNX)) ∧
    ∀ n m e, x = .fin n m e →
      (m = 0 → r = (0, fromFlags src b)) ∧
      (0 < m → ∀ k : Int, 2 ^ (k - e).toNat ≤ m * 2 ^ (e - k).toNat → m * 2 ^ (e - k).toNat < 2 * 2 ^ (k - e).toNat →
        r = if k + 127 < 0 then (0, fUF ||| fNX) else if 254 < k + 127 then (254, fOF ||| fNX)
            else ((k + 127).toNat, if m * 2 ^ (e - k).toNat = 2 ^ (k - e).toNat then 0 else fNX)) := by
  have htype : toType 14 src rm sat b = toE8 (fromVal src b) := rfl
  refine ⟨fun q hx => ?_, fun n hx => ?_, fun n m e hx => ⟨fun h0 => ?_, fun hm k hlo hhi => ?_⟩⟩
  · rw [convert_real hsrc (fromReal_of_nan hx), htype, hx]
    rfl
  · rw [convert_real hsrc (fromReal_of_inf hx), htype, hx]
    rfl
  · rw [convert_eq rm sat b hsrc, htype, hx, h0]
    exact congrArg (Prod.mk 0) (zero_or_flags _)
  · obtain ⟨hk, hlog⟩ := log2_of_bounds hlo hhi
    have htop : (Nat.log2 m : Int) + e + 127 = k + 127 := by omega
    rw [convert_eq rm sat b hsrc, htype, hx, fromFlags_of_ne_zero hx hm.ne', or_zero_flags, show (e - k).toNat = 0 by omega, pow_zero, Nat.mul_one,
      ← hlog]
    simp only [toE8, if_neg hm.ne', htop]
    by_cases hpow : m = 2 ^ Nat.log2 m
    · simp [← hpow, flagIf]
    · simp [hpow, flagIf]

end

/-- Settles O6: the compares by the order of their operands, and a conversion by its source's exact value and its destination's type. -/
theorem floatingPointCompares : Obligations.FloatingPointCompares := by
  refine ⟨⟨fun o s => ⟨fpCmpOp_does rfl, fpCmpOp_does rfl, fpCmpOp_does rfl, fpCmpOp_does rfl⟩, fcvt_does, fun k a b _ => ?_⟩,
    fun dst src rm b sat hdst hsrc _ hrm => ⟨fun h => ?_, fun h4 h12 => ?_, fun h => ?_, ?_⟩, resDec8_resEnc8, resDec12_resEnc12,
    fun b hb => ?_, fun b hb => ?_⟩
  · obtain ⟨heq, hlt, hle, hun, hflag1, hflag2, hflag0⟩ := fpCompare_spec k a b
    exact ⟨heq, hlt, hle, hun, hflag1, hflag2, hflag0.trans (sigNv_or _ _)⟩
  · exact convert_float h hsrc hrm
  · exact convert_int h4 h12 hsrc hrm
  · exact convert_residue h hsrc hrm
  · rintro rfl
    exact convert_scale hsrc
  · obtain ⟨hbad, hflag⟩ := resDec8_digits b
    exact ⟨hbad.trans (by rw [Nat.mod_eq_of_lt (show b / 32 < 8 by omega)]), hflag⟩
  · obtain ⟨hbad, hflag⟩ := resDec12_digits b
    exact ⟨hbad.trans (by rw [Nat.mod_eq_of_lt (show b / 4096 < 16 by omega)]), hflag⟩

end Sys2Proof.Machine

/-! # The exact accumulator -/

namespace Sys2Proof.Machine

/-! ## Two's complement (R250, R260) -/

/-- A number kept in w bits: it is the same modulo 2^w, and itself where it fits. -/
theorem intVal_wrapped {w v : Nat} (hw : w = v + 1) (y : Int) :
    (intVal w true (BitVec.ofNat w (intBits w y)).toNat - y) % 2 ^ w = 0 ∧
    (-2 ^ v ≤ y → y < 2 ^ v → intVal w true (BitVec.ofNat w (intBits w y)).toNat = y) := by
  obtain ⟨H, hH⟩ : ∃ H : Nat, 2 ^ v = H := ⟨_, rfl⟩
  have hpos : 0 < H := hH ▸ Nat.two_pow_pos v
  have hv : (2 : Int) ^ v = H := by exact_mod_cast hH
  have hP : (2 : Int) ^ w = 2 * H := by rw [hw, pow_succ', hv]
  have hPn : 2 ^ w = 2 * H := by rw [hw, pow_succ', hH]
  have h0 := Int.emod_nonneg y (show (2 * H : Int) ≠ 0 by omega)
  have hlt := Int.emod_lt_of_pos y (show (0 : Int) < 2 * H by omega)
  have hbits : ((intBits w y : Nat) : Int) = y % (2 * H) := by
    rw [intBits, hP, Int.toNat_of_nonneg h0]
  have hz : intVal w true (BitVec.ofNat w (intBits w y)).toNat = if H ≤ y % (2 * H : Int) then y % (2 * H) - 2 * H else y % (2 * H) := by
    have hsmall : intBits w y < 2 ^ w := by omega
    rw [BitVec.toNat_ofNat, Nat.mod_eq_of_lt hsmall, intVal, Nat.mod_eq_of_lt hsmall, show w - 1 = v by omega, hH, hP, ← hbits]
    simp
  have hdiv := Int.mul_ediv_add_emod y (2 * H)
  rw [hz, hP, hv]
  constructor
  · split
    · exact Int.emod_eq_zero_of_dvd ⟨-(y / (2 * H)) - 1, by linarith⟩
    · exact Int.emod_eq_zero_of_dvd ⟨-(y / (2 * H)), by linarith⟩
  · intro hlo hhi
    by_cases hneg : y < 0
    · have : y % (2 * H : Int) = y + 2 * H := by
        rw [← Int.add_emod_right, Int.emod_eq_of_lt (by omega) (by omega)]
      rw [this, if_pos (by omega)]
      omega
    · rw [Int.emod_eq_of_lt (by omega) (by omega), if_neg (by omega)]

/-! ## Sums (R260) -/

/-- The exact sum of a term: the accumulator's value and the term as a multiple of 2^-2148. -/
def Xa.plus (x : Xa) (n : Bool) (m : Nat) (e : Int) : Int :=
  x.int + if n then -((m * 2 ^ (e + 2148).toNat : Nat) : Int) else (m * 2 ^ (e + 2148).toNat : Nat)

theorem Xa.add_fin (x : Xa) (n : Bool) (m : Nat) (e : Int) :
    x.add (.fin n m e) =
      if x.plus n m e < -(2 ^ 4219) ∨ 2 ^ 4219 - 1 < x.plus n m e then
        ({ x with val := .ofNat 4220 (intBits 4220 (x.plus n m e)), ovf := true }, fXOV)
      else ({ x with val := .ofNat 4220 (intBits 4220 (x.plus n m e)) }, 0) := rfl

/-- R260: a term is added exactly, modulo 2^4220, and XOV and OVF tell of a sum that does not fit. -/
theorem Xa.add_spec (x : Xa) (n : Bool) (m : Nat) (e : Int) :
    let y := x.plus n m e
    let r := x.add (.fin n m e)
    r.1.nan = x.nan ∧ r.1.pinf = x.pinf ∧ r.1.ninf = x.ninf ∧ (r.1.int - y) % 2 ^ 4220 = 0 ∧
    (-2 ^ 4219 ≤ y → y < 2 ^ 4219 → r.1.int = y ∧ r.1.ovf = x.ovf ∧ r.2 = 0) ∧
    (¬(-2 ^ 4219 ≤ y ∧ y < 2 ^ 4219) → r.1.ovf = true ∧ r.2 = fXOV) := by
  obtain ⟨hmod, hfits⟩ := intVal_wrapped (w := 4220) (v := 4219) rfl (x.plus n m e)
  simp only [Xa.add_fin]
  generalize (2 : Int) ^ 4219 = H at *
  split
  · rename_i hover
    exact ⟨rfl, rfl, rfl, hmod, fun h1 h2 => by omega, fun _ => ⟨rfl, rfl⟩⟩
  · rename_i hin
    exact ⟨rfl, rfl, rfl, hmod, fun h1 h2 => ⟨hfits h1 h2, rfl, rfl⟩, fun h => absurd ⟨by omega, by omega⟩ h⟩

/-- A finite product has finite factors. -/
theorem exactMul_fin {x y : Fv} {n : Bool} {m : Nat} {e : Int} (h : exactMul x y = .fin n m e) :
    ∃ n1 m1 e1 n2 m2 e2, x = .fin n1 m1 e1 ∧ y = .fin n2 m2 e2 ∧ e = e1 + e2 := by
  cases x with
  | fin n1 m1 e1 =>
    cases y with
    | fin n2 m2 e2 =>
      cases h
      exact ⟨_, _, _, _, _, _, rfl, rfl, rfl⟩
    | inf => rw [exactMul] at h; split at h <;> cases h
    | nan => cases h
  | inf =>
    cases y with
    | fin => rw [exactMul] at h; split at h <;> cases h
    | _ => cases h
  | nan => cases h

/-- A product of two FP64 numbers has no bit below 2^-2148. -/
theorem exactMul_exponent {a b : Nat} {n : Bool} {m : Nat} {e : Int} (h : exactMul (fpVal 0 a) (fpVal 0 b) = .fin n m e) : -2148 ≤ e := by
  have humin : (fmt 0).umin = -1074 := rfl
  obtain ⟨_, _, e1, _, _, e2, ha, hb, rfl⟩ := exactMul_fin h
  have := (fpVal_fin_exponent ha).1
  have := (fpVal_fin_exponent hb).1
  omega

theorem intVal_zero (w : Nat) (sg : Bool) : intVal w sg 0 = 0 := by
  have hpos : decide (2 ^ (w - 1) ≤ 0) = false := decide_eq_false (Nat.not_le.mpr (Nat.two_pow_pos _))
  rw [intVal, Nat.zero_mod, hpos, Bool.and_false]
  rfl

theorem Xa.zero_val : Xa.zero.val = 0#4220 := rfl

theorem Xa.zero_int : Xa.zero.int = 0 := by rw [Xa.int, Xa.zero_val, BitVec.toNat_zero, intVal_zero]

theorem Xa.zero_value : Xa.zero.value = (.fin false 0 (-2148), 0) := by
  simp only [Xa.value, Xa.zero_int]
  rfl

/-! ## The forms (R353) -/

section
variable (o : OpR) (s : State)

theorem xafm_does : Does (.xafm o) s { Traits.ofR o (fk o.d) (fx o.a) (fx o.b) with sets := true } fun i h u =>
    let a := fpVal 0 (h.x i.a).toNat
    let b := fpVal 0 (i.bval h).toNat
    let p := exactMul a b
    let r := h.xa.add (if o.d.getLsbD 0 then p.neg else p)
    noteFlags i (r.2 ||| flagIf (a == .nan true || b == .nan true || (p.isNan && !a.isNan && !b.isNan)) fNV) { u with xa := r.1 } :=
  ends_of _ _ _ _ _ rfl fun j u h a b hg hu => by
    simp only [doneT, State.modThread_eq, hg, hu, Thread.flagged_x, Thread.flagged_bval, Thread.flagged_xa]

theorem xaadd_does : Does (.xaadd o) s { Traits.ofR o (fk o.d) (fx o.a) (fk o.b) with sets := true } fun i h u =>
    let a := fpVal 0 (h.x i.a).toNat
    let r := h.xa.add (if o.d.getLsbD 0 then a.neg else a)
    noteFlags i (r.2 ||| sigNv a) { u with xa := r.1 } :=
  ends_of _ _ _ _ _ rfl fun j u h a b hg hu => by
    simp only [doneT, State.modThread_eq, hg, hu, Thread.flagged_x, Thread.flagged_xa]

theorem xarnd_does : Does (.xarnd o) s { Traits.ofR o (fx o.d) (fk o.a) (fk o.b) with rounds := true, sets := true } fun i h =>
    let v := h.xa.value
    let r := roundFv 0 (if i.rm = 0 then 1 else i.rm) v.1
    putX i (.ofNat 64 r.1) (r.2 ||| v.2) :=
  ends_of _ _ _ _ _ rfl fun j u h a b hg hu => by
    simp only [setDF_done u _ hg, hg, hu, Thread.flagged_xa]

theorem xaz_does : Does (.xaz o) s (Traits.ofR o (fk o.d) (fk o.a) (fk o.b)) fun _ _ u => { u with xa := Xa.zero } :=
  ends_of _ _ _ _ _ rfl fun j u h a b hg hu => by rw [doneT, hg]

/-- The comparison of a value with zero that xasgn's field asks for. -/
def signTest (b : BitVec 5) (v : Fv) : Bool :=
  match fpOrder v (.fin false 0 0) with
  | some .lt => b == 0
  | some .eq => b == 1
  | some .gt => b == 2
  | none => false

theorem xasgn_does : Does (.xasgn o) s { Traits.ofR o (fc o.d) (fk o.a) (fk o.b) with sets := true } fun i h u =>
    noteFlags i (flagIf h.xa.value.1.isNan fNV) (u.setC i.d (signTest o.b h.xa.value.1)) :=
  ends_of _ _ _ _ _ rfl fun j u h a b hg hu => by
    simp only [doneT, hg, hu, Thread.flagged_xa]
    rfl

end

/-- Settles O38: a sum in the accumulator is the exact one until it leaves the range, and only `xarnd` rounds. -/
theorem exactAccumulator : Obligations.ExactAccumulator := by
  refine ⟨fun o s => ⟨xaz_does o s, ?_, ?_, xarnd_does o s, ?_⟩, fun x n m e _ => ?_, fun a b n m e => exactMul_exponent,
    Xa.zero_int, Xa.zero_value⟩
  · simpa only [noteFlags, flagIf_eq_ite, Bool.or_eq_true, Bool.and_eq_true, beq_iff_eq, Bool.not_eq_true', or_assoc, and_assoc] using xafm_does o s
  · simpa only [noteFlags, sigNv_eq, flagIf_eq_ite, beq_iff_eq] using xaadd_does o s
  · exact xasgn_does o s
  · have hterm : ((m * 2 ^ (e + 2148).toNat : Nat) : Int) = (m : Int) * 2 ^ (e + 2148).toNat := by push_cast; rfl
    simpa only [Xa.plus, hterm] using Xa.add_spec x n m e

end Sys2Proof.Machine

/-! # Elements of vector registers -/

namespace Sys2Proof.Machine

/-! ## Lanes (R245) -/

theorem lanesGo_eq (w v n : Nat) : lanesGo w v n = (List.range n).map fun k => v / 2 ^ (w * k) % 2 ^ w := by
  induction n generalizing v with
  | zero => rfl
  | succ n ih =>
    rw [lanesGo, ih, List.range_succ_eq_map, List.map_cons, List.map_map, Nat.mul_zero, pow_zero, Nat.div_one]
    congr 1
    refine List.map_congr_left fun k _ => ?_
    rw [Function.comp_apply, Nat.div_div_eq_div_mul, ← pow_add, Nat.succ_eq_add_one, Nat.mul_succ, Nat.add_comm]

/-- The lanes of a register are its elements. -/
theorem lanes_eq (w : Nat) (l : Line) : lanes w l = (List.range (1024 / w)).map (elementOf w l) := lanesGo_eq w l.toNat _

theorem nth_lanes (w : Nat) (l : Line) (k : Nat) : nth (lanes w l) k = if k < 1024 / w then elementOf w l k else 0 := by
  rw [nth, lanes_eq, List.getD_eq_getElem?_getD, List.getElem?_map]
  split
  · rename_i h
    rw [List.getElem?_range h]
    rfl
  · rename_i h
    rw [List.getElem?_eq_none (by simpa using h)]
    rfl

theorem lanesNat_lt (w : Nat) (ls : List Nat) : lanesNat w ls < 2 ^ (w * ls.length) := by
  induction ls with
  | nil => exact Nat.one_pos
  | cons h t ih =>
    have := Nat.mod_lt h (Nat.two_pow_pos w)
    have := Nat.mul_le_mul_left (2 ^ w) (Nat.succ_le_of_lt ih)
    rw [lanesNat, List.length_cons, Nat.mul_succ, Nat.add_comm (w * _), pow_add]
    rw [Nat.mul_succ] at this
    omega

/-- The number of a list of lanes, lane by lane. -/
theorem lanesNat_lane (w : Nat) (ls : List Nat) (k : Nat) : lanesNat w ls / 2 ^ (w * k) % 2 ^ w = ls.getD k 0 % 2 ^ w := by
  induction ls generalizing k with
  | nil => simp [lanesNat]
  | cons h t ih =>
    have hlt := Nat.mod_lt h (Nat.two_pow_pos w)
    cases k with
    | zero => simp [lanesNat]
    | succ k =>
      rw [lanesNat, Nat.mul_succ, Nat.add_comm (w * k), pow_add, ← Nat.div_div_eq_div_mul, Nat.add_mul_div_left _ _ (Nat.two_pow_pos w),
        Nat.div_eq_of_lt hlt, Nat.zero_add, ih, List.getD_cons_succ]

/-- A register made of lanes holds them. -/
theorem elementOf_ofLanes {w : Nat} {ls : List Nat} (h : w * ls.length ≤ 1024) (k : Nat) :
    elementOf w (ofLanes w ls) k = ls.getD k 0 % 2 ^ w := by
  have hlt : lanesNat w ls < 2 ^ 1024 := Nat.lt_of_lt_of_le (lanesNat_lt w ls) (Nat.pow_le_pow_right two_pos h)
  rw [elementOf, ofLanes, BitVec.toNat_ofNat, Nat.mod_eq_of_lt hlt, lanesNat_lane]

theorem elementOf_ofLanes_map {w n : Nat} (h : w * n ≤ 1024) (f : Nat → Nat) {k : Nat} (hk : k < n) :
    elementOf w (ofLanes w ((List.range n).map f)) k = f k % 2 ^ w := by
  rw [elementOf_ofLanes (by simpa using h), List.getD_eq_getElem?_getD, List.getElem?_map, List.getElem?_range hk]
  rfl

theorem elementOf_lt (w : Nat) (l : Line) (k : Nat) : elementOf w l k < 2 ^ w := Nat.mod_lt _ (Nat.two_pow_pos w)

theorem elementOf_testBit (w : Nat) (l : Line) (k j : Nat) : (elementOf w l k).testBit j = (decide (j < w) && l.getLsbD (w * k + j)) := by
  rw [elementOf, Nat.testBit_mod_two_pow, Nat.testBit_div_two_pow, BitVec.testBit_toNat, Nat.add_comm]

/-! ## Bytes under a mask -/

theorem maskBytes_eq (m n : Nat) : maskBytes m n = (List.range n).map fun k => if m.testBit k then 0xFF#8 else 0#8 := by
  induction n generalizing m with
  | zero => rfl
  | succ n ih =>
    rw [maskBytes, ih, List.range_succ_eq_map, List.map_cons, List.map_map]
    congr 1
    · simp [Nat.testBit_zero]
    · refine List.map_congr_left fun k _ => ?_
      rw [Function.comp_apply, Nat.testBit_succ]

theorem leNat_eq (bs : List Byte) : leNat bs = lanesNat 8 (bs.map BitVec.toNat) := by
  induction bs with
  | nil => rfl
  | cons b t ih =>
    rw [leNat, List.map_cons, lanesNat, ih, Nat.mod_eq_of_lt b.isLt]
    rfl

theorem byteMask_getLsbD (m : Pred) {k j : Nat} (hk : k < 128) (hj : j < 8) : (byteMask m).getLsbD (8 * k + j) = m.getLsbD k := by
  have hbyte : elementOf 8 (byteMask m) k = if m.getLsbD k then 255 else 0 := by
    have hmask : byteMask m = ofLanes 8 ((List.range 128).map fun k => if m.toNat.testBit k then 255 else 0) := by
      rw [byteMask, lineOf, leNat_eq, maskBytes_eq, List.map_map, ofLanes]
      congr 3
      funext k
      rw [Function.comp_apply, apply_ite BitVec.toNat]
      rfl
    rw [hmask, elementOf_ofLanes_map (by decide) _ hk, BitVec.testBit_toNat]
    split <;> rfl
  have hbit := elementOf_testBit 8 (byteMask m) k j
  rw [decide_eq_true hj, Bool.true_and] at hbit
  rw [← hbit, hbyte]
  split
  · rename_i h
    rw [h, show 255 = 2 ^ 8 - 1 from rfl, Nat.testBit_two_pow_sub_one, decide_eq_true hj]
  · rename_i h
    rw [Bool.eq_false_of_not_eq_true h, Nat.zero_testBit]

/-- A merge takes each byte from one of its lines. -/
theorem elementOf_mergeLine (m : Pred) (new old : Line) {k : Nat} (hk : k < 128) :
    elementOf 8 (mergeLine m new old) k = if m.getLsbD k then elementOf 8 new k else elementOf 8 old k := by
  refine Nat.eq_of_testBit_eq fun j => ?_
  rw [elementOf_testBit, apply_ite (Nat.testBit · j), elementOf_testBit, elementOf_testBit]
  by_cases hj : j < 8
  · have hline : 8 * k + j < 1024 := by omega
    rw [mergeLine, BitVec.getLsbD_or, BitVec.getLsbD_and, BitVec.getLsbD_and, BitVec.getLsbD_not, byteMask_getLsbD m hk hj,
      decide_eq_true hj, decide_eq_true hline]
    cases m.getLsbD k <;> simp
  · simp [hj]

/-! ## Results merged under a predicate (R310) -/

theorem actives_eq (h : Thread) (pr : BitVec 3) {w : Nat} (hw : 8 ∣ w) (hpos : 0 < w) :
    actives h pr (w / 8) = (List.range (1024 / w)).map (isActive h pr w) := by
  obtain ⟨c, rfl⟩ := hw
  rw [actives, Nat.mul_div_cancel_left c (by decide), show 1024 = 8 * 128 from rfl, Nat.mul_div_mul_left _ _ (by decide)]
  refine List.map_congr_left fun k _ => ?_
  rw [isActive, Nat.mul_div_cancel_left c (by decide)]

/-- Active elements take their results, the others keep their values. -/
theorem mergeRes_fst (l : List Nat) (A : Nat → Bool) (R : Nat → FRes) (O : Nat → Nat) :
    (mergeRes (l.map A) (l.map R) (l.map O)).1 = l.map fun k => if A k then (R k).1 else O k := by
  induction l with
  | nil => rfl
  | cons k l ih =>
    simp only [List.map_cons, ← ih]
    cases A k <;> rfl

/-- The flags of a merge are those of the active elements. -/
theorem mergeRes_snd (l : List Nat) (A : Nat → Bool) (R : Nat → FRes) (O : Nat → Nat) (b : Nat) :
    (mergeRes (l.map A) (l.map R) (l.map O)).2.getLsbD b = true ↔ ∃ k ∈ l, A k = true ∧ (R k).2.getLsbD b = true := by
  induction l with
  | nil => simp [mergeRes]
  | cons k l ih =>
    simp only [List.map_cons, List.exists_mem_cons_iff, ← ih]
    cases A k
    · simp [mergeRes]
    · simp [mergeRes]

/-- The widths of elements: whole bytes that fill a register. -/
def ElementWidth (w : Nat) : Prop := 8 ∣ w ∧ w ∣ 1024

theorem ElementWidth.pos {w : Nat} (h : ElementWidth w) : 0 < w := Nat.pos_of_dvd_of_pos h.2 (by decide)

theorem ElementWidth.fits {w : Nat} (h : ElementWidth w) : w * (1024 / w) ≤ 1024 := (Nat.mul_div_cancel' h.2).le

theorem elementWidth_bytes : ElementWidth 8 := ⟨by decide, by decide⟩

theorem elementWidth_pow {n : Nat} (h : n ≤ 7) : ElementWidth (8 * 2 ^ n) :=
  ⟨Nat.dvd_mul_right _ _, (Nat.mul_dvd_mul_left 8 (pow_dvd_pow 2 h) : 8 * 2 ^ n ∣ 8 * 2 ^ 7)⟩

/-- An instruction that writes the results of its elements to v[D] under a predicate. -/
theorem lanewise_of {i : Instr} {s : State} {t : Traits} {pr : BitVec 3} {w : Nat} {f : Iss → Thread → Nat → FRes}
    {rs : Iss → Thread → List FRes} (R : Nat → FRes) (hw : ElementWidth w)
    (hexec : exec i s = finish s (issue s t fun j u => writeV j pr w (rs j (u.thread j.g)) u))
    (hrs : ∀ a b, rs (issued s t) (s.hand.flagged a b) = (List.range (1024 / w)).map R)
    (hR : ∀ k, k < 1024 / w → (R k).1 % 2 ^ w = (f (issued s t) s.hand k).1 % 2 ^ w ∧ (R k).2 = (f (issued s t) s.hand k).2) :
    Lanewise i s t pr w f := by
  have hact := actives_eq s.hand pr hw.1 hw.pos
  have hold := lanes_eq w (s.hand.vreg (issued s t).d)
  refine ⟨ofLanes w (mergeRes (actives s.hand pr (w / 8)) ((List.range (1024 / w)).map R) (lanes w (s.hand.vreg (issued s t).d))).1,
    (mergeRes (actives s.hand pr (w / 8)) ((List.range (1024 / w)).map R) (lanes w (s.hand.vreg (issued s t).d))).2,
    ends_issued _ _ _ _ _ hexec fun a b hu => ?_, fun k hk => ?_, fun b => ?_⟩
  · simp only [writeV, doneT, issued_g, hu, hrs, Thread.flagged_vreg]
    rfl
  · rw [hact, hold, mergeRes_fst, elementOf_ofLanes_map hw.fits _ hk]
    split
    · exact (hR k hk).1
    · exact Nat.mod_eq_of_lt (elementOf_lt ..)
  · rw [hact, hold, mergeRes_snd]
    simp only [List.mem_range]
    refine exists_congr fun k => and_congr_right fun hk => ?_
    rw [(hR k hk).2]

end Sys2Proof.Machine

/-! # Permutes and reductions -/

namespace Sys2Proof.Machine

/-! ## Permutes (R319) -/

/-- Byte k of a register, and 0 beyond the last. -/
def byteOf (l : Line) (k : Nat) : Nat := if k < 128 then elementOf 8 l k else 0

theorem nth_bytes (l : Line) (k : Nat) : nth (lanes 8 l) k = byteOf l k := nth_lanes 8 l k

section
variable {i : Instr} {o : OpV} {s : State}

/-- A form whose bytes come from the bytes of v[A] and v[B]. -/
theorem bytesOp_lanewise {a b : Field} (F : Nat → List Nat → List Nat → Nat) (hexec : exec i s = finish s (bytesOp s o a b F)) :
    Lanewise i s (Traits.ofV o (fv o.d) a b) o.p 8 fun j h k => (F k (lanes 8 (h.vreg j.a)) (lanes 8 (j.vB h 8)), 0) :=
  lanewise_of (rs := fun j h => (List.range 128).map fun k => plain (F k (lanes 8 (h.vreg j.a)) (lanes 8 (j.vB h 8)))) _ elementWidth_bytes hexec
    (fun _ _ => rfl) fun _ _ => ⟨rfl, rfl⟩

/-- A slide by a register. -/
theorem slideOp_lanewise (F : Nat → Nat → List Nat → Nat) (hexec : exec i s = finish s (slideOp s o F)) :
    Lanewise i s (Traits.ofV o (fv o.d) (fv o.a) (fx o.b)) o.p 8 fun j h k => (F k (j.bval h).toNat (lanes 8 (h.vreg j.a)), 0) :=
  lanewise_of (rs := fun j h => (List.range 128).map fun k => plain (F k (j.bval h).toNat (lanes 8 (h.vreg j.a)))) _ elementWidth_bytes hexec
    (fun _ _ => rfl) fun _ _ => ⟨rfl, rfl⟩

end

section
variable (o : OpV) (s : State)

theorem vperm_lanewise : Lanewise (.vperm o) s (Traits.ofV o (fv o.d) (fv o.a) (fv o.b)) o.p 8 fun j h k =>
    (byteOf (h.vreg j.a) (byteOf (j.vB h 8) k), 0) := by
  simpa only [nth_bytes] using bytesOp_lanewise (s := s) (fun k va vb => nth va (nth vb k)) rfl

theorem vslu_lanewise : Lanewise (.vslu o) s (Traits.ofV o (fv o.d) (fv o.a) (fx o.b)) o.p 8 fun j h k =>
    (if (j.bval h).toNat ≤ k then byteOf (h.vreg j.a) (k - (j.bval h).toNat) else 0, 0) := by
  simpa only [nth_bytes] using slideOp_lanewise (s := s) (fun k n va => if n ≤ k then nth va (k - n) else 0) rfl

theorem vsld_lanewise : Lanewise (.vsld o) s (Traits.ofV o (fv o.d) (fv o.a) (fx o.b)) o.p 8 fun j h k =>
    (byteOf (h.vreg j.a) (k + (j.bval h).toNat), 0) := by
  simpa only [nth_bytes] using slideOp_lanewise (s := s) (fun k n va => nth va (k + n)) rfl

theorem vzip_lanewise : Lanewise (.vzip o) s (Traits.ofV o (fv o.d) (fv o.a) (fv o.b)) o.p 8 fun j h k =>
    (if k % 2 = 0 then byteOf (h.vreg j.a) (k / 2) else byteOf (j.vB h 8) (k / 2), 0) := by
  simpa only [nth_bytes] using bytesOp_lanewise (s := s) (fun k va vb => if k % 2 = 0 then nth va (k / 2) else nth vb (k / 2)) rfl

theorem vunzip_lanewise : Lanewise (.vunzip o) s (Traits.ofV o (fv o.d) (fv o.a) (fv o.b)) o.p 8 fun j h k =>
    (if k < 64 then byteOf (h.vreg j.a) (2 * k) else byteOf (j.vB h 8) (2 * k - 128), 0) := by
  simpa only [nth_bytes] using bytesOp_lanewise (s := s) (fun k va vb => if k < 64 then nth va (2 * k) else nth vb (2 * k - 128)) rfl

theorem vmov_lanewise : Lanewise (.vmov o) s (Traits.ofV o (fv o.d) (fv o.a) fnone) o.p 8 fun j h k => (byteOf (h.vreg j.a) k, 0) := by
  simpa only [nth_bytes] using bytesOp_lanewise (s := s) (fun k va _ => nth va k) rfl

/-- The element width that T names for the forms that move whole elements. -/
def moveWidth (o : OpV) : Nat := 8 * 2 ^ o.t.toNat

theorem moveWidth_ok : ElementWidth (moveWidth o) := elementWidth_pow (Nat.le_of_lt_succ o.t.isLt)

theorem vbcast_lanewise : Lanewise (.vbcast o) s (Traits.ofV o (fv o.d) fnone (fx o.b)) o.p (moveWidth o) fun j h _ => ((j.bval h).toNat, 0) :=
  lanewise_of (rs := fun j h => List.replicate (1024 / moveWidth o) (plain ((j.bval h).toNat % 2 ^ moveWidth o)))
    (fun _ => plain ((((issued s (Traits.ofV o (fv o.d) fnone (fx o.b))).bval s.hand)).toNat % 2 ^ moveWidth o)) (moveWidth_ok o) rfl
    (fun _ _ => by rw [List.map_const', List.length_range]; rfl) fun _ _ => ⟨Nat.mod_mod .., rfl⟩

/-- A value to the x register that an instruction of the current thread names. -/
theorem setD_done {j : Iss} {s : State} (u : State) (v : Word) (hg : j.g = s.cur) :
    setD j u v = .done (u.modThread s.cur fun t => t.setX j.d v) := by
  rw [setD, doneT, hg]

theorem vmvx_does : Does (.vmvx o) s (Traits.ofV o (fx o.d) (fv o.a) (fx o.b)) fun j h u =>
    u.setX j.d (.ofNat 64 (if (j.bval h).toNat < 1024 / moveWidth o then elementOf (moveWidth o) (h.vreg j.a) (j.bval h).toNat else 0)) :=
  ends_of _ _ _ _ _ rfl fun j u h a b hg hu => by
    simp only [setD_done u _ hg, hg, hu, Thread.flagged_bval, Thread.flagged_vreg, nth_lanes, ← ite_and, and_self]
    rfl

theorem vlen_does : Does (.vlen o) s (Traits.ofV o (fx o.d) fnone fnone) fun j _ u => u.setX j.d 1024 :=
  ends_of _ _ _ _ _ rfl fun _ u _ _ _ hg _ => setD_done u _ hg

theorem setAt_eq {α : Type} (l : List α) (n : Nat) (x : α) : setAt l n x = l.set n x := by
  induction l generalizing n with
  | nil => rfl
  | cons h t ih =>
    cases n with
    | zero => rfl
    | succ n => rw [setAt, ih, List.set_cons_succ]

/-- A register with one element replaced. -/
theorem elementOf_setAt {w : Nat} (hw : ElementWidth w) (l : Line) (n x : Nat) {k : Nat} (hk : k < 1024 / w) :
    elementOf w (ofLanes w (setAt (lanes w l) n x)) k = if k = n then x % 2 ^ w else elementOf w l k := by
  have hlen : (lanes w l).length = 1024 / w := by rw [lanes_eq, List.length_map, List.length_range]
  have hget : (lanes w l)[k]? = some (elementOf w l k) := by rw [lanes_eq, List.getElem?_map, List.getElem?_range hk]; rfl
  rw [setAt_eq, elementOf_ofLanes (by rw [List.length_set, hlen]; exact hw.fits), List.getD_eq_getElem?_getD, List.getElem?_set]
  by_cases h : k = n
  · rw [if_pos h, if_pos h.symm, if_pos (by rw [hlen, ← h]; exact hk), Option.getD_some]
  · rw [if_neg h, if_neg (Ne.symm h), hget, Option.getD_some, Nat.mod_eq_of_lt (elementOf_lt ..)]

/-- The traits of the move into one element. -/
def vmvvTraits : Traits := Traits.ofV o (fv o.d) (fx o.a) (fx o.b)

/-- The element that the move names. -/
def vmvvElement : Nat := ((issued s (vmvvTraits o)).bval s.hand).toNat

theorem vmvv_beyond (h : 1024 / moveWidth o ≤ vmvvElement o s) : Does (.vmvv o) s (vmvvTraits o) fun _ _ u => u :=
  ends_issued _ _ _ _ _ rfl fun a b hu => by
    simp only [doneT, issued_g, hu, Thread.flagged_bval]
    exact congrArg (fun f => Res.done (State.modThread _ _ f)) (funext fun _ => if_neg (Nat.not_lt.mpr h))

theorem vmvv_does (h : vmvvElement o s < 1024 / moveWidth o) : ∃ r, Does (.vmvv o) s (vmvvTraits o) (fun j _ u => u.setV j.d r) ∧
    ∀ k, k < 1024 / moveWidth o → elementOf (moveWidth o) r k =
      if k = vmvvElement o s then (s.hand.x (issued s (vmvvTraits o)).a).toNat % 2 ^ moveWidth o
      else elementOf (moveWidth o) (s.hand.vreg (issued s (vmvvTraits o)).d) k := by
  refine ⟨ofLanes (moveWidth o) (setAt (lanes (moveWidth o) (s.hand.vreg (issued s (vmvvTraits o)).d)) (vmvvElement o s)
      ((s.hand.x (issued s (vmvvTraits o)).a).toNat % 2 ^ moveWidth o)), ends_issued _ _ _ _ _ rfl fun a b hu => ?_, fun k hk => ?_⟩
  · simp only [doneT, issued_g, hu, Thread.flagged_bval, Thread.flagged_vreg, Thread.flagged_x]
    exact congrArg (fun f => Res.done (State.modThread _ _ f)) (funext fun _ => if_pos h)
  · rw [elementOf_setAt (moveWidth_ok o) _ _ _ hk, Nat.mod_mod]

theorem vsel_does : ∃ r, Does (.vsel o) s (Traits.ofV o (fv o.d) (fv o.a) (fv o.b)) (fun j _ u => u.setV j.d r) ∧
    ∀ k, k < 128 → elementOf 8 r k = if isActive s.hand o.p 8 k then byteOf (s.hand.vreg (issued s (Traits.ofV o (fv o.d) (fv o.a) (fv o.b))).a) k
      else byteOf ((issued s (Traits.ofV o (fv o.d) (fv o.a) (fv o.b))).vB s.hand 8) k := by
  refine ⟨mergeLine (if o.p = 0 then .ofNat 128 (2 ^ 128 - 1) else s.hand.preg o.p.toNat)
      (s.hand.vreg (issued s (Traits.ofV o (fv o.d) (fv o.a) (fv o.b))).a) ((issued s (Traits.ofV o (fv o.d) (fv o.a) (fv o.b))).vB s.hand 8),
    ends_issued _ _ _ _ _ rfl fun a b hu => ?_, fun k hk => ?_⟩
  · simp only [doneT, issued_g, hu, Thread.flagged_vreg, Thread.flagged_preg, Thread.flagged_vB]
  · have hmask : (if o.p = 0 then (.ofNat 128 (2 ^ 128 - 1) : Pred) else s.hand.preg o.p.toNat).getLsbD k = isActive s.hand o.p 8 k := by
      rw [isActive, Nat.div_self (by decide), Nat.mul_one]
      split
      · rename_i h
        rw [h, BitVec.getLsbD_ofNat, Nat.testBit_two_pow_sub_one, decide_eq_true hk]
        rfl
      · rename_i h
        rw [beq_eq_false_iff_ne.mpr h, Bool.false_or]
    rw [elementOf_mergeLine _ _ _ hk, hmask, byteOf, byteOf, if_pos hk, if_pos hk]

theorem packed_map {α : Type} (l : List α) (A : α → Bool) (B : α → Nat) : packed (l.map A) (l.map B) = (l.filter A).map B := by
  induction l with
  | nil => rfl
  | cons k l ih =>
    rw [List.map_cons, List.map_cons, List.filter_cons]
    cases A k with
    | true => rw [packed, ih]; rfl
    | false => rw [packed, ih]; rfl

/-- The active bytes of a thread's registers, from the lowest. -/
def activeBytes (h : Thread) (pr : BitVec 3) : List Nat := (List.range 128).filter (isActive h pr 8)

theorem vcmpr_does : ∃ r, Does (.vcmpr o) s (Traits.ofV o (fv o.d) (fv o.a) fnone) (fun j _ u => u.setV j.d r) ∧
    ∀ k, elementOf 8 r k = ((activeBytes s.hand o.p)[k]?.map (byteOf (s.hand.vreg (issued s (Traits.ofV o (fv o.d) (fv o.a) fnone)).a))).getD 0 := by
  refine ⟨ofLanes 8 (packed (actives s.hand o.p 1) (lanes 8 (s.hand.vreg (issued s (Traits.ofV o (fv o.d) (fv o.a) fnone)).a))),
    ends_issued _ _ _ _ _ rfl fun a b hu => ?_, fun k => ?_⟩
  · simp only [doneT, issued_g, hu, Thread.flagged_vreg]
    rfl
  · have hactive : actives s.hand o.p 1 = (List.range 128).map (isActive s.hand o.p 8) := actives_eq s.hand o.p (w := 8) (by decide) (by decide)
    have hlen : (activeBytes s.hand o.p).length ≤ 128 := (List.length_filter_le ..).trans_eq (List.length_range ..)
    rw [hactive, lanes_eq, show 1024 / 8 = 128 from rfl, packed_map]
    rw [elementOf_ofLanes (by rw [List.length_map]; exact (Nat.mul_le_mul_left 8 hlen)), List.getD_eq_getElem?_getD, List.getElem?_map, ← activeBytes]
    cases hj : (activeBytes s.hand o.p)[k]? with
    | none => rfl
    | some j =>
      have hj128 : j < 128 := List.mem_range.mp (List.mem_filter.mp (List.mem_of_getElem? hj)).1
      rw [Option.map_some, Option.map_some, Option.getD_some, Option.getD_some, byteOf, if_pos hj128, Nat.mod_eq_of_lt (elementOf_lt ..)]

end
end Sys2Proof.Machine

/-! # The tree of a reduction (R259, R320) -/

namespace Sys2Proof.Machine

/-! ## A tree whose operation is associative -/

section
variable (g : Nat → Nat → Nat)

/-- An operation of integers, as a node of the tree applies it. -/
def intNode (a b : Nat) : FRes := plain (g a b)

theorem treeLevel_cons (a b : Option Nat) (l : List (Option Nat)) :
    treeLevel (intNode g) (a :: b :: l) = (Option.merge g a b :: (treeLevel (intNode g) l).1, (treeLevel (intNode g) l).2) := by
  cases a with
  | none => cases b <;> rfl
  | some x =>
    cases b with
    | none => rfl
    | some y => exact Prod.ext rfl (BitVec.zero_or ..)

theorem treeLevel_flags : ∀ l : List (Option Nat), (treeLevel (intNode g) l).2 = 0
  | [] => rfl
  | [_] => rfl
  | a :: b :: l => by rw [treeLevel_cons]; exact treeLevel_flags l

/-- A level of the tree halves the nodes. -/
theorem treeLevel_length : ∀ l : List (Option Nat), 2 * (treeLevel (intNode g) l).1.length ≤ l.length + 1
  | [] => by simp [treeLevel]
  | [_] => by simp [treeLevel]
  | a :: b :: l => by
    have := treeLevel_length l
    rw [treeLevel_cons, List.length_cons, List.length_cons, List.length_cons]
    omega

variable [Std.Associative g]

/-- A level of the tree keeps what its nodes combine to. -/
theorem treeLevel_foldl : ∀ (l : List (Option Nat)) (acc : Option Nat),
    (treeLevel (intNode g) l).1.foldl (Option.merge g) acc = l.foldl (Option.merge g) acc
  | [], _ => rfl
  | [_], _ => rfl
  | a :: b :: l, acc => by
    rw [treeLevel_cons, List.foldl_cons, List.foldl_cons, List.foldl_cons, treeLevel_foldl l, Std.Associative.assoc (op := Option.merge g)]

/-- Enough levels leave one node, what all the nodes combine to from the lowest up. -/
theorem treeGo_eq (n : Nat) (l : List (Option Nat)) (h : l.length ≤ 2 ^ n) :
    treeGo (intNode g) n l 0 = (l.foldl (Option.merge g) none, 0) := by
  induction n generalizing l with
  | zero =>
    match l, h with
    | [], _ => rfl
    | [none], _ => rfl
    | [some _], _ => rfl
  | succ n ih =>
    have hlen := treeLevel_length g l
    rw [treeGo, treeLevel_flags, BitVec.or_self, ih _ (by rw [pow_succ] at h; omega), treeLevel_foldl]

end

/-! ## The active elements -/

theorem map2_map {α β γ : Type} (f : β → β → γ) (l : List α) (A B : α → β) :
    map2 f (l.map A) (l.map B) = l.map fun k => f (A k) (B k) := by
  induction l with
  | nil => rfl
  | cons k l ih => rw [List.map_cons, List.map_cons, List.map_cons, map2, ih]

theorem activeLanes_eq (h : Thread) (pr : BitVec 3) {w : Nat} (hw : ElementWidth w) (v : Nat) :
    activeLanes h pr w v = (List.range (1024 / w)).map fun k => if isActive h pr w k then some (elementOf w (h.vreg v) k) else none := by
  rw [activeLanes, actives_eq h pr hw.1 hw.pos, lanes_eq, List.map_map, List.map_map, map2_map]
  rfl

/-- The active elements of a register, from the lowest. -/
def activeElements (h : Thread) (pr : BitVec 3) (w v : Nat) : List Nat :=
  ((List.range (1024 / w)).filter (isActive h pr w)).map (elementOf w (h.vreg v))

/-- Some elements combined from the lowest up. -/
def combined (g : Nat → Nat → Nat) (xs : List Nat) : Option Nat := xs.foldl (fun r x => r.merge g (some x)) none

theorem combined_cons (g : Nat → Nat → Nat) (x : Nat) (xs : List Nat) : combined g (x :: xs) = some (xs.foldl g x) := by
  have hsome : ∀ (xs : List Nat) (y : Nat), xs.foldl (fun r x => Option.merge g r (some x)) (some y) = some (xs.foldl g y) := by
    intro xs
    induction xs with
    | nil => exact fun _ => rfl
    | cons x xs ih => exact fun y => ih (g y x)
  exact hsome xs x

/-- A first operand that changes no element may stand below the lowest. -/
theorem combined_getD {g : Nat → Nat → Nat} {z : Nat} {xs : List Nat} (hz : ∀ x ∈ xs, g z x = x) : (combined g xs).getD z = xs.foldl g z := by
  cases xs with
  | nil => rfl
  | cons x xs => rw [combined_cons, Option.getD_some, List.foldl_cons, hz x (List.mem_cons_self ..)]

/-- Inactive elements are passed over. -/
theorem foldl_merge_filter (g : Nat → Nat → Nat) (A : Nat → Bool) (e : Nat → Nat) (l : List Nat) (acc : Option Nat) :
    (l.map fun k => if A k then some (e k) else none).foldl (Option.merge g) acc =
      ((l.filter A).map e).foldl (fun r x => r.merge g (some x)) acc := by
  induction l generalizing acc with
  | nil => rfl
  | cons k l ih =>
    rw [List.map_cons, List.foldl_cons, List.filter_cons, ih]
    split
    · rfl
    · rw [Option.merge_none_right]

theorem treeGo_activeLanes (g : Nat → Nat → Nat) [Std.Associative g] (h : Thread) (pr : BitVec 3) {w : Nat} (hw : ElementWidth w) (v : Nat) :
    treeGo (intNode g) 7 (activeLanes h pr w v) 0 = (combined g (activeElements h pr w v), 0) := by
  have hcount : 1024 / w ≤ 2 ^ 7 := Nat.div_le_of_le_mul (Nat.mul_le_mul_right 128 (Nat.le_of_dvd hw.pos hw.1))
  rw [treeGo_eq _ _ _ (by rw [activeLanes_eq h pr hw, List.length_map, List.length_range]; exact hcount), activeLanes_eq h pr hw,
    foldl_merge_filter]
  rfl

theorem sumLanes_eq (w : Nat) (sg : Bool) (A : Nat → Bool) (e : Nat → Nat) (l : List Nat) (acc : Int) :
    acc + sumLanes w sg (l.map fun k => if A k then some (e k) else none) = (l.filter A).foldl (fun r k => r + intVal w sg (e k)) acc := by
  induction l generalizing acc with
  | nil => exact Int.add_zero _
  | cons k l ih =>
    rw [List.map_cons, List.filter_cons]
    split
    · rw [sumLanes, List.foldl_cons, ← ih, Int.add_assoc]
    · rw [sumLanes, ih]

/-! ## The least of some elements -/

/-- The element of the lesser key, the first of two that have the same. -/
def lesser (key : Nat → Int) (a b : Nat) : Nat := if key b < key a then b else a

theorem lesser_assoc (key : Nat → Int) : Std.Associative (lesser key) := by
  refine ⟨fun a b c => ?_⟩
  simp only [lesser]
  grind

theorem vminEl_eq (w : Nat) (sg : Bool) : vminEl w sg = lesser (intVal w sg) := rfl

theorem vmaxEl_eq (w : Nat) (sg : Bool) : vmaxEl w sg = lesser fun x => -intVal w sg x := by
  funext a b
  simp only [vmaxEl, lesser, neg_lt_neg_iff]

theorem foldl_lesser (key : Nat → Int) (x : Nat) (xs : List Nat) :
    xs.foldl (lesser key) x ∈ x :: xs ∧ ∀ y ∈ x :: xs, key (xs.foldl (lesser key) x) ≤ key y := by
  induction xs generalizing x with
  | nil => simp
  | cons y ys ih =>
    obtain ⟨hmem, hle⟩ := ih (lesser key x y)
    have hfirst := hle _ (List.mem_cons_self ..)
    have hone : lesser key x y = x ∨ lesser key x y = y := by rw [lesser]; split <;> simp
    have hboth : key (lesser key x y) ≤ key x ∧ key (lesser key x y) ≤ key y := by rw [lesser]; split <;> omega
    rw [List.foldl_cons]
    refine ⟨?_, fun z hz => ?_⟩
    · rcases List.mem_cons.mp hmem with h | h
      · rw [h]
        rcases hone with h | h <;> simp [h]
      · exact List.mem_cons_of_mem _ (List.mem_cons_of_mem _ h)
    · rcases List.mem_cons.mp hz with rfl | hz
      · exact hfirst.trans hboth.1
      rcases List.mem_cons.mp hz with rfl | hz
      · exact hfirst.trans hboth.2
      · exact hle z (List.mem_cons_of_mem _ hz)

/-- Of some elements, `combined` picks one whose key none undercuts. -/
theorem combined_lesser (key : Nat → Int) {xs : List Nat} (hne : xs ≠ []) :
    ∃ m ∈ xs, combined (lesser key) xs = some m ∧ ∀ y ∈ xs, key m ≤ key y := by
  cases xs with
  | nil => exact absurd rfl hne
  | cons x xs =>
    obtain ⟨hmem, hle⟩ := foldl_lesser key x xs
    exact ⟨_, hmem, combined_cons .., hle⟩

end Sys2Proof.Machine

/-! # Reductions (R320) -/

namespace Sys2Proof.Machine

theorem intT_width (t : BitVec 3) : ElementWidth (intT t).1 := elementWidth_pow (by omega)

theorem ofNat_intBits (n : Nat) (v : Int) : BitVec.ofNat n (intBits n v) = BitVec.ofInt n v := by
  refine BitVec.eq_of_toNat_eq ?_
  have hlt : intBits n v < 2 ^ n := by
    have := Int.emod_lt_of_pos v (show (0 : Int) < 2 ^ n by positivity)
    rw [intBits, Int.toNat_lt' (by positivity)]
    exact_mod_cast this
  rw [BitVec.toNat_ofNat, Nat.mod_eq_of_lt hlt, BitVec.toNat_ofInt, intBits]
  norm_cast

/-- A value without flags, to the x register that an instruction names. -/
theorem putX_noFlags (j : Iss) (v : Word) : putX j v 0 = fun u => u.setX j.d v := by
  funext u
  rw [putX, Thread.orFlags_none, ite_self]

section
variable (o : OpV) (s : State)

/-- The traits of a reduction. -/
def reduceTraits : Traits := Traits.ofV o (fx o.d) (fv o.a) fnone

/-- The active positions of an integer reduction. -/
def livePositions : List Nat := (List.range (1024 / (intT o.t).1)).filter fun k => isActive s.hand o.p (intT o.t).1 k

/-- The element at a position. -/
def elementAt (k : Nat) : Nat := elementOf (intT o.t).1 (s.hand.vreg (issued s (reduceTraits o)).a) k

/-- The elements that an integer reduction combines, from the lowest. -/
def reduced : List Nat := (livePositions o s).map (elementAt o s)

theorem activeElements_reduced : activeElements s.hand o.p (intT o.t).1 (issued s (reduceTraits o)).a = reduced o s := rfl

/-- The value of an element as T says. -/
def valueOf (x : Nat) : Int := intVal (intT o.t).1 (intT o.t).2 x

end

/-! ## What a reduction does -/

section
variable {i : Instr} {o : OpV} {s : State} {f : Nat → Bool → Nat → Nat → Nat} {empty : Nat → Bool → Nat}

theorem vredOp_does {w : Nat} {fp rounds : Bool} {empty : Nat} {ext : Nat → Nat} {f : Nat → Nat → Nat → FRes}
    (hexec : exec i s = finish s (vredOp s o w fp rounds empty ext f)) :
    Does i s { reduceTraits o with sets := fp, rounds := rounds } fun j h =>
      let r := treeGo (f j.mode) 7 (activeLanes h o.p w j.a) 0
      putX j (.ofNat 64 (ext (r.1.getD empty))) r.2 :=
  ends_of _ _ _ _ _ hexec fun j u h a b hg hu => by
    simp only [setDF_done u _ hg, hg, hu]
    rfl

/-- An integer reduction by an associative operation: its elements, combined from the lowest up. -/
theorem vredInt_does (hassoc : Std.Associative (f (intT o.t).1 (intT o.t).2)) (hexec : exec i s = finish s (vredInt s o empty f)) :
    Does i s (reduceTraits o) fun j _ u => u.setX j.d (.ofInt 64 (valueOf o
      ((combined (f (intT o.t).1 (intT o.t).2) (reduced o s)).getD (empty (intT o.t).1 (intT o.t).2)))) := by
  have hdoes := vredOp_does (i := i) (o := o) (s := s) (fp := false) (rounds := false) (w := (intT o.t).1)
    (empty := empty (intT o.t).1 (intT o.t).2) (ext := fun v => intBits 64 (valueOf o v))
    (f := fun _ => intNode (f (intT o.t).1 (intT o.t).2)) hexec
  refine Ends.congr hdoes ?_
  simp only [treeGo_activeLanes _ s.hand o.p (intT_width o.t), ofNat_intBits, putX_noFlags]
  rfl

/-- An operation of bits: its first operand may be the empty result, which changes no element. -/
theorem vredBits_does {f : Nat → Nat → Nat} {empty : Nat → Nat} (hassoc : Std.Associative f) (hz : ∀ w x, x < 2 ^ w → f (empty w) x = x)
    (hexec : exec i s = finish s (vredInt s o (fun w _ => empty w) fun _ _ => f)) :
    Does i s (reduceTraits o) fun j _ u => u.setX j.d (.ofInt 64 (valueOf o
      ((livePositions o s).foldl (fun r k => f r (elementAt o s k)) (empty (intT o.t).1)))) := by
  have hel : ∀ x ∈ reduced o s, f (empty (intT o.t).1) x = x := by
    intro x hx
    obtain ⟨k, -, rfl⟩ := List.mem_map.mp hx
    exact hz _ _ (elementOf_lt ..)
  have hfold : (combined f (reduced o s)).getD (empty (intT o.t).1) =
      (livePositions o s).foldl (fun r k => f r (elementAt o s k)) (empty (intT o.t).1) := (combined_getD hel).trans List.foldl_map
  rw [← hfold]
  exact vredInt_does (f := fun _ _ => f) (empty := fun w _ => empty w) hassoc hexec

/-- A reduction to an extreme: the value of an active element that `le` puts before each, and that of `empty` where there is none. -/
theorem vredExtreme_does {key : Nat → Int} {le : Int → Int → Prop} (hle : ∀ a b, key a ≤ key b → le (valueOf o a) (valueOf o b))
    (hf : f (intT o.t).1 (intT o.t).2 = lesser key) (hexec : exec i s = finish s (vredInt s o empty f)) :
    ∃ r, Does i s (reduceTraits o) (fun j _ u => u.setX j.d (.ofInt 64 r)) ∧
      (livePositions o s = [] → r = valueOf o (empty (intT o.t).1 (intT o.t).2)) ∧
      (livePositions o s ≠ [] → (∃ k ∈ livePositions o s, r = valueOf o (elementAt o s k)) ∧
        ∀ k ∈ livePositions o s, le r (valueOf o (elementAt o s k))) := by
  refine ⟨_, vredInt_does (by rw [hf]; exact lesser_assoc key) hexec, fun hnone => ?_, fun hsome => ?_⟩
  · rw [reduced, hnone]
    rfl
  · obtain ⟨m, hmem, hcombined, hleast⟩ := combined_lesser key (xs := reduced o s) (mt List.map_eq_nil_iff.mp hsome)
    obtain ⟨k, hk, rfl⟩ := List.mem_map.mp hmem
    rw [hf, hcombined]
    exact ⟨⟨k, hk, rfl⟩, fun k' hk' => hle _ _ (hleast _ (List.mem_map_of_mem hk'))⟩

end

/-! ## The forms -/

section
variable (o : OpV) (s : State)

theorem vredadd_does : Does (.vredadd o) s (reduceTraits o) fun j _ u =>
    u.setX j.d (.ofInt 64 ((livePositions o s).foldl (fun r k => r + valueOf o (elementAt o s k)) 0)) :=
  ends_issued _ _ _ _ _ rfl fun a b hu => by
    simp only [valueOf, elementAt, livePositions]
    rw [← sumLanes_eq, Int.zero_add, ← activeLanes_eq _ _ (intT_width o.t)]
    simp only [setD_done _ _ (issued_g ..), issued_g, hu]
    rfl

theorem vredand_does : Does (.vredand o) s (reduceTraits o) fun j _ u =>
    u.setX j.d (.ofInt 64 (valueOf o ((livePositions o s).foldl (fun r k => r &&& elementAt o s k) (2 ^ (intT o.t).1 - 1)))) :=
  vredBits_does (f := (· &&& ·)) (empty := fun w => 2 ^ w - 1) inferInstance
    (fun w x hx => by rw [Nat.and_comm, Nat.and_two_pow_sub_one_of_lt_two_pow hx]) rfl

theorem vredor_does : Does (.vredor o) s (reduceTraits o) fun j _ u =>
    u.setX j.d (.ofInt 64 (valueOf o ((livePositions o s).foldl (fun r k => r ||| elementAt o s k) 0))) :=
  vredBits_does (f := (· ||| ·)) (empty := fun _ => 0) inferInstance (fun _ x _ => Nat.zero_or x) rfl

theorem vredxor_does : Does (.vredxor o) s (reduceTraits o) fun j _ u =>
    u.setX j.d (.ofInt 64 (valueOf o ((livePositions o s).foldl (fun r k => r ^^^ elementAt o s k) 0))) :=
  vredBits_does (f := (· ^^^ ·)) (empty := fun _ => 0) inferInstance (fun _ x _ => Nat.zero_xor x) rfl

theorem vredmin_does : ∃ r, Does (.vredmin o) s (reduceTraits o) (fun j _ u => u.setX j.d (.ofInt 64 r)) ∧
    (livePositions o s = [] → r = valueOf o (intBits (intT o.t).1 (intMax (intT o.t).1 (intT o.t).2))) ∧
    (livePositions o s ≠ [] → (∃ k ∈ livePositions o s, r = valueOf o (elementAt o s k)) ∧
      ∀ k ∈ livePositions o s, r ≤ valueOf o (elementAt o s k)) :=
  vredExtreme_does (f := vminEl) (empty := fun w sg => intBits w (intMax w sg)) (fun _ _ h => h) (vminEl_eq ..) rfl

theorem vredmax_does : ∃ r, Does (.vredmax o) s (reduceTraits o) (fun j _ u => u.setX j.d (.ofInt 64 r)) ∧
    (livePositions o s = [] → r = valueOf o (intBits (intT o.t).1 (intMin (intT o.t).1 (intT o.t).2))) ∧
    (livePositions o s ≠ [] → (∃ k ∈ livePositions o s, r = valueOf o (elementAt o s k)) ∧
      ∀ k ∈ livePositions o s, valueOf o (elementAt o s k) ≤ r) :=
  vredExtreme_does (f := vmaxEl) (empty := fun w sg => intBits w (intMin w sg)) (le := fun x y => y ≤ x) (fun _ _ h => neg_le_neg_iff.mp h)
    (vmaxEl_eq ..) rfl

/-- A floating-point tree (R259). -/
def treeEffect (ty : Nat) (p : BitVec 3) (empty : Nat) (f : Nat → Nat → Nat → FRes) (j : Iss) (h : Thread) : Thread → Thread :=
  let r := treeGo (f (if j.rm = 0 then 1 else j.rm)) 7 (activeLanes h p (fmt ty).w j.a) 0
  putX j (.ofNat 64 (r.1.getD empty)) r.2

theorem vfredadd_does : Does (.vfredadd o) s { reduceTraits o with sets := true, rounds := true }
    (treeEffect o.t.toNat o.p 0 fun m => fpAdd o.t.toNat m) :=
  vredOp_does (fp := true) (rounds := true) (w := (fmt o.t.toNat).w) (empty := 0) (ext := id) (f := fun m => fpAdd o.t.toNat m) rfl

theorem vfredmin_does : Does (.vfredmin o) s { reduceTraits o with sets := true, rounds := false }
    (treeEffect o.t.toNat o.p (fmt o.t.toNat).inf fun _ => fpMinMax o.t.toNat false) :=
  vredOp_does (fp := true) (rounds := false) (w := (fmt o.t.toNat).w) (empty := (fmt o.t.toNat).inf) (ext := id)
    (f := fun _ => fpMinMax o.t.toNat false) rfl

theorem vfredmax_does : Does (.vfredmax o) s { reduceTraits o with sets := true, rounds := false }
    (treeEffect o.t.toNat o.p (2 ^ ((fmt o.t.toNat).w - 1) + (fmt o.t.toNat).inf) fun _ => fpMinMax o.t.toNat true) :=
  vredOp_does (fp := true) (rounds := false) (w := (fmt o.t.toNat).w) (empty := signBits o.t.toNat true (fmt o.t.toNat).inf) (ext := id)
    (f := fun _ => fpMinMax o.t.toNat true) rfl

end

/-- Settles O34: each permute's bytes are read off its own rule, and a tree of an associative operation combines the active elements in
order. -/
theorem vectorPermutesAndReductions : Obligations.VectorPermutesAndReductions := by
  refine ⟨fun o s => ⟨vperm_lanewise o s, vbcast_lanewise o s, vslu_lanewise o s, vsld_lanewise o s, vzip_lanewise o s, vunzip_lanewise o s,
    vmov_lanewise o s, vmvx_does o s, ⟨vmvv_beyond o s, vmvv_does o s⟩, vsel_does o s, ?_, vlen_does o s⟩,
    fun o s => ⟨vredadd_does o s, vredmin_does o s, vredmax_does o s, vredand_does o s, vredor_does o s, vredxor_does o s,
      vfredadd_does o s, vfredmin_does o s, vfredmax_does o s⟩⟩
  obtain ⟨r, hdoes, hr⟩ := vcmpr_does o s
  refine ⟨r, hdoes, fun k _ => (hr k).trans ?_⟩
  rw [activeBytes]
  cases ((List.range 128).filter (isActive s.hand o.p 8))[k]? <;> rfl

end Sys2Proof.Machine
